-- ==== Sys2Proof/Word.lean ====
section
/-!
DEFINITION. The word types of the HX9-576 (00 R1): bytes, parcels, and the 64-bit general register.
-/
namespace Sys2Proof

/-- One byte. -/
abbrev Byte := BitVec 8

/-- One 32-bit parcel (02 R18). -/
abbrev Parcel := BitVec 32

/-- A general register's value (09 R202). -/
abbrev Word := BitVec 64

end Sys2Proof
end

