-- ==== Sys2Proof/Config.lean ====
section
/-!
DEFINITION. The free values of the model: constants without a body, so that no proof can use a value of theirs. Each
stands where the manual states an effect and leaves a value open; notes/assumptions names the place.
-/
namespace Sys2Proof

/-- The key a slot holds (04 R90): the n-th key the boot ROM drew from the random-number generator, or one that the
system cores loaded. -/
inductive KeyVal where
  | drawn (n : Nat)
  | loaded (k : BitVec 512)
deriving DecidableEq, Repr

/-- How far device time T runs on in the n-th step, in 1/16 ns ticks (23 R427; log 3). -/
opaque Config.ticks : Nat → BitVec 64

/-- What decrypting a sector gives under a key other than the one that wrote it (04 R90; log 6): fixed for the
ciphertext (the plaintext, its key and the sector, which give the tweak) and the reader's key. -/
opaque Config.garble : BitVec 256 → KeyVal → KeyVal → Nat → BitVec 256

/-- A byte of host memory (first argument 256) or of a peer device's memory that nothing has written, as it reads under a key
slot of that device (04 R79, R90, R91; log 7). -/
opaque Config.extByte : Nat → Nat → Nat → Byte

/-- What a peer's sector, written under one of its key slots, gives under another (04 R90, R91; log 7): the device, the two slots,
the sector and the bytes written. -/
opaque Config.extGarble : Nat → Nat → Nat → Nat → BitVec 256 → BitVec 256

/-- The 32-bit check value of a plot's void positions in a save area (20 R399 does not give the function; log 13). -/
opaque Config.voidCheck : List Nat → BitVec 32

/-- The bytes 0x6A0-0x7FF of a save area, which no row of its layout gives, by the number of the step that saves and their
place (20 R399; log 13). -/
opaque Config.areaGap : Nat → Nat → Byte

/-- Is the other device of this number reachable at the step of this number (04 R91, 14 R304; log 7)? -/
opaque Config.peerUp : Nat → Nat → Bool

/-- The SEQ that a LAUNCH reads of a packet that was discarded or rejected, at the step of this number: only an accepted
launch is given one (15 R309, R330; log 26). -/
opaque Config.noSeq : Nat → BitVec 32

end Sys2Proof
end

