-- ==== Sys2Proof/Syntax.lean ====
section
/-!
DEFINITION. The instructions and events of the HX9-576, one constructor of `Instr` for each row of the opcode
table. A thread form carries the fields of its format (02 R23-R30), a bank-engine word the fields of R44, an event
or engine step the unit it concerns and the data the outside supplies with it.
-/
namespace Sys2Proof

/-- The common fields of a first parcel (02 R23): the guard GP and the lookahead count LA. -/
structure Hd where
  gp : BitVec 4
  la : BitVec 4
deriving DecidableEq, Repr

/-- Format A (02 R25). -/
structure FA where
  hd : Hd
  sz : BitVec 2
  xa : BitVec 6
  xd : BitVec 6
  ib : BitVec 1
  imm : BitVec 16
  xb : BitVec 6
deriving DecidableEq, Repr

/-- Format B (02 R26). -/
structure FB where
  hd : Hd
  sz : BitVec 2
  xa : BitVec 6
  xd : BitVec 6
  imm16 : BitVec 16
  xb : BitVec 6
  imm32 : BitVec 32
deriving DecidableEq, Repr

/-- Format M (02 R27). -/
structure FM where
  hd : Hd
  scl : BitVec 2
  xa : BitVec 6
  xd : BitVec 6
  at' : BitVec 2
  size : BitVec 3
  xb : BitVec 6
  disp : BitVec 32
deriving DecidableEq, Repr

/-- Format E (02 R28). -/
structure FE where
  hd : Hd
  xa : BitVec 6
  xd : BitVec 6
  imm12 : BitVec 12
  sysn : BitVec 12
deriving DecidableEq, Repr

/-- Format T (02 R29). -/
structure FT where
  hd : Hd
  ta : BitVec 6
  td : BitVec 6
  sat : BitVec 1
  rnd : BitVec 3
  edg : BitVec 3
  wb : BitVec 4
  wa : BitVec 4
  tc : BitVec 6
  tb : BitVec 6
  imm18 : BitVec 18
  xs : BitVec 6
deriving DecidableEq, Repr

/-- Format Q (02 R30). -/
structure FQ where
  hd : Hd
  ch : BitVec 2
  ta : BitVec 6
  td : BitVec 6
  edn : BitVec 3
  edm : BitVec 3
  xb : BitVec 6
  xa : BitVec 6
  tc : BitVec 6
  tb : BitVec 6
  sbb : BitVec 2
  sba : BitVec 2
  edk : BitVec 3
  xc : BitVec 6
  flg : BitVec 4
  slack : BitVec 4
  imm32 : BitVec 32
deriving DecidableEq, Repr

/-- The fields of a bank-engine word besides its op (05 R44). -/
structure FBk where
  imm14 : BitVec 14
  rt : BitVec 4
  rs : BitVec 4
  rd : BitVec 4
deriving DecidableEq, Repr

/-- A thread slot of the device: cluster · 8 + slot (23 R429). -/
abbrev SlotNo := BitVec 11

/-- One participant's contribution to a DRED as the switch holds it (14 R302): the switch port of its link 0, the
FMT of its TA and its elements, row-major over its slices. -/
structure Contribution where
  port : Nat
  fmt : BitVec 5
  elems : List (BitVec 32)
deriving DecidableEq, Repr

/-- The six physical networks (01 R14). -/
inductive Network where
  | req | rsp | pln | sum | cmd | trc
deriving DecidableEq, Repr

/-- Where a packet goes (14 R295): a cluster, a bank engine, or a port of the module: Bolaezer links 0-15, then Ethernet ports
16-47. -/
inductive PacketDest where
  | cluster (c : BitVec 8)
  | engine (e : BitVec 10)
  | port (n : BitVec 6)
deriving DecidableEq, Repr

/-- A packet (14 R293-R295): its network, the last router it reaches, where it goes, and the thread charged: the sender, or for a
response the thread that made the request. -/
structure Packet where
  network : Network
  router : BitVec 8
  dest : PacketDest
  slot : SlotNo
deriving DecidableEq, Repr

/-- The system cores' configuration of one queue (15 R311). -/
structure QueueCfg where
  q : BitVec 6
  part : BitVec 4
  /-- how many records the backing area holds -/
  capacity : Nat
  share : Nat
  /-- where the backing area lies in main memory, as a physical address of the device stripe -/
  area : Nat := 0
deriving DecidableEq, Repr

/-- The stack addresses of one slot (09 R207, 20 R386). -/
structure SlotStack where
  slot : SlotNo
  base : BitVec 48
  lim : BitVec 48
  handler : BitVec 64
deriving DecidableEq, Repr

/-- The system cores' configuration of one partition (15 R306, R313; 20 R385, R386, R393). -/
structure PartCfg where
  part : BitVec 4
  clusters : List (BitVec 8)
  tvec : BitVec 48
  stackAreas : List SlotStack
  /-- the address space of the partition's fault ring and the VA of its control block -/
  root : BitVec 44
  vf : BitVec 6
  faultBlock : BitVec 48
deriving DecidableEq, Repr

/-- The system cores' configuration of one launch ring (15 R306, 23 R444). -/
structure RingCfg where
  ring : BitVec 6
  part : BitVec 4
  vf : BitVec 6
  root : BitVec 44
  block : BitVec 48
  name : BitVec 64
deriving DecidableEq, Repr

/-- The address of one trace control block, named to the merge unit by the hypervisor (23 R433); `vf` 0xFFF is the
device's block. -/
structure TraceCfg where
  vf : BitVec 12
  root : BitVec 44
  block : BitVec 48
deriving DecidableEq, Repr

/-- The generation of PCIe at which the host port trains (24 R454). -/
inductive PcieGen where
  | pcie7 | pcie6 | pcie5
deriving DecidableEq, Repr

/-- The width at which the host port trains (24 R454). -/
inductive PcieWidth where
  | x16 | x8 | x4
deriving DecidableEq, Repr

/-- A trained host port (24 R454). -/
structure HostLink where
  gen : PcieGen
  width : PcieWidth
deriving DecidableEq, Repr

/-- What step 4 of a start sets (24 R452): each rail's voltage trim, each cluster's droop threshold, each die's thermal sensors and the
equalisation of each SerDes lane, with the temperatures of the die sensors at which they were taken. The manual gives none of them a
format, so each stands as a number (log 60). -/
structure Calibration where
  trims : List Nat := []
  droops : List (BitVec 8 × Nat) := []
  sensors : List Nat := []
  lanes : List (Nat × Nat) := []
  temps : List Nat := []
deriving DecidableEq, Repr

/-- What the outside decides of one start (24 R447-R449): the step at which it stops, if it does, and likewise each warm start that its
failure causes; and the partitions, rings, queues, engines, keys, trace blocks and domain that step 7 sets up. -/
structure StartCfg where
  /-- the outcome of this start, then of the warm starts that follow it: none, or the step that fails; none once the list has ended -/
  fails : List (Option Nat) := []
  /-- what step 4 finds where it runs -/
  calibration : Calibration := {}
  /-- every die sensor lies within 15 °C of the calibration record's temperature (R448) -/
  sensorsNear : Bool
  parts : List PartCfg
  rings : List RingCfg
  queues : List QueueCfg
  engines : List (BitVec 10 × BitVec 4)
  keys : List (BitVec 6 × BitVec 512)
  traces : List TraceCfg
  deviceId : BitVec 8
  domain : List (BitVec 8)
  retiredLinks : List (BitVec 4)
  /-- the Ethernet ports of the runtime's retirement list (R453) -/
  retiredPorts : List (BitVec 5) := []
  /-- the clusters of that list, whose ON is 0 (R453) -/
  retiredClusters : List (BitVec 8) := []
  /-- the version to which a link trains at bring-up when it is not 2: 1, or none where it does not train (14 R303) -/
  links : List (BitVec 4 × Option (BitVec 2)) := []
  /-- how the host port trains, where a host is attached -/
  host : Option HostLink
  /-- the physical address of the mirror of the boot record that the runtime maps to management (R450; log 48) -/
  mirror : Nat := 0
deriving DecidableEq, Repr

/-- What a scrub finds in one sector of a stack (04 R78): the sector's number in the stack's channels, and whether
its error could be corrected. -/
structure EccFinding where
  sector : Nat
  correctable : Bool
deriving DecidableEq, Repr

/-- An error found in a cell's store (07 R163): the cell, the store row, and whether it could be corrected. -/
structure CellEcc where
  cell : BitVec 16
  row : BitVec 8
  correctable : Bool
deriving DecidableEq, Repr

/-- An error found in an engine's activation buffer (05 R109): the engine, the 32-byte sector, and whether it could be corrected. -/
structure BufEcc where
  engine : BitVec 10
  sector : BitVec 11
  correctable : Bool
deriving DecidableEq, Repr

/-- The configuration memories that carry parity (20 R404). -/
inductive ParityUnit where
  | descriptorFile (slot : SlotNo)
  | plotTable (part : BitVec 4)
  | routerTable (router : BitVec 8)
  | matrixPlane (cell : BitVec 16)
deriving DecidableEq, Repr

/-- The steps of an image update (24 R450, R453): the inactive slot is written, the write ends with an image of a
version whose signature is good or not, the other slot is made active. -/
inductive ImageStep where
  | beginWrite
  | endWrite (version : BitVec 32) (signatureGood : Bool)
  | setActive
deriving DecidableEq, Repr

/-- The operations that an agent outside the threads asks of memory (16 R334, R344, R345; 14 R305): reads and writes, the members
of the ATOM family by FN, bytes and operands, and an Ethernet port's SEND to a queue pair and RDMA WRITE with immediate. -/
inductive OutsideOp where
  | read (n : Nat)
  | write (bytes : List (BitVec 8))
  | fetchAdd (v : BitVec 64)
  | swap (v : BitVec 64)
  | compareSwap (expected new : BitVec 64)
  | atom (fn : BitVec 4) (wide : Bool) (b e : BitVec 64)
  | send (qp : BitVec 15) (bytes : List (BitVec 8))
  | writeImm (qp : BitVec 15) (imm : BitVec 32) (bytes : List (BitVec 8))
deriving DecidableEq, Repr

/-- Where an outside agent's access goes: a physical address with its layout and key slot, of this device (0), or of the memory that
the host (256) or a peer device writes at home. -/
structure OutsideReq where
  pa : BitVec 56
  layout : BitVec 3
  key : BitVec 6
  op : OutsideOp
  device : Nat := 0
deriving DecidableEq, Repr

/-- The operands of a logged access that came with its item from another device (20 R389, R403). -/
structure LogOperand where
  opB : BitVec 64
  opE : BitVec 64
  desc : BitVec 256
  edge : BitVec 64
  order : Option (BitVec 3 × BitVec 3)
deriving DecidableEq, Repr

/-- A scroll that came half done with its item (08 R194, 20 R403): its address, TD, frame, mode and holes. -/
structure ScrollOperand where
  pc : BitVec 64
  td : BitVec 256
  frame : BitVec 256
  mode : BitVec 2
  carry : Bool
deriving DecidableEq, Repr

/-- A parked item's wait pointer, new frame and resume address, and whether it is eligible. -/
structure ParkOperand where
  wait : BitVec 64
  frame : BitVec 64
  resume : BitVec 64
  eligible : Bool
deriving DecidableEq, Repr

/-- What an item has counted on its former device (22 R419; 23 R428, R437): energy, cycles, the time its slot was occupied and when it
first started, its traps, saves and flushes, and its late packets. -/
structure ItemCounts where
  energy : Nat := 0
  cyc : BitVec 64 := 0
  occupied : BitVec 64 := 0
  started : BitVec 64 := 0
  traps : BitVec 32 := 0
  saves : BitVec 16 := 0
  flushes : BitVec 16 := 0
  late : BitVec 32 := 0
deriving DecidableEq, Repr

/-- An item saved on another device, whose save area the runtime has copied here (20 R403): where the area lies, the queue, the
launch it counts for and its record, and what an area does not hold: void positions and claimed cells by plot-relative number, the
operands of logged accesses, the walker's map, index register, declarations and place on the loop stack from the outside, a scroll's
operands, whether it has arrived at its barrier, whether a debugger had it stopped, whether it was parked, and its counts. -/
structure Adopted where
  area : BitVec 48
  root : BitVec 44
  vf : BitVec 6
  part : BitVec 4
  queue : BitVec 6
  launch : Nat
  ring : BitVec 8
  seq : BitVec 32
  code : BitVec 64
  frame : BitVec 64
  join : BitVec 64
  item : BitVec 32
  nitems : BitVec 32
  pf : BitVec 16
  dl : BitVec 16
  cycles : BitVec 32
  voids : List Nat
  claimed : List Nat
  operands : List LogOperand
  walkerMap : BitVec 256
  walkerIndex : BitVec 6
  walkerLoop : Option Nat
  /-- declarations of the iteration: window, first granule and how many; and whether a store of it has been made (19 R375) -/
  walkerDecls : List (Nat × Nat × Nat) := []
  walkerStored : Bool := false
  scroll : Option ScrollOperand
  arrived : Bool
  halted : Bool
  parked : Option ParkOperand
  counts : ItemCounts := {}
deriving DecidableEq, Repr

/-- What the system cores, the hypervisor and the runtime do to the device's own register blocks and tables: the power control block
(22 R408); the address of a trace control block (23 R433); the debug block, by the hypervisor or the runtime of a partition (23 R438);
the partition of a port (14 R295); a partition configured anew (24 R453); the name word of a ring (23 R444); a receive buffer posted to
a queue pair (14 R305); the Ethernet port that disciplines device time, and time that the host supplies (23 R427); an item from another
device (20 R403). -/
inductive Control where
  | powerRead (off : BitVec 16)
  | powerWrite (off : BitVec 16) (v : BitVec 64)
  | traceBlock (c : TraceCfg)
  | debugRead (by' : Option (BitVec 4)) (off : BitVec 17)
  | debugWrite (by' : Option (BitVec 4)) (off : BitVec 17) (v : BitVec 64)
  | portPart (port : BitVec 6) (part : Option (BitVec 4))
  | partition (c : PartCfg)
  | ringName (ring : BitVec 6) (name : BitVec 64)
  | receive (qp : BitVec 15) (pa : BitVec 56) (layout : BitVec 3) (key : BitVec 6) (len : Nat)
  | ptpPort (port : Option (BitVec 5))
  | timeWrite (t : BitVec 64)
  | adopt (a : Adopted)
deriving DecidableEq, Repr

/-- The outside's data of one event or engine step, by shape. -/
inductive Payload where
  | none
  | contributions (own : Nat) (others : List Contribution)
  | packet (p : Packet)
  | queue (c : QueueCfg)
  | start (c : StartCfg)
  | ecc (found : List EccFinding)
  | cellEcc (found : CellEcc)
  | bufEcc (found : BufEcc)
  | calibration (c : Calibration)
  | timestamp (oneStep : Bool)
  | parity (u : ParityUnit)
  | image (u : ImageStep)
  | outside (r : OutsideReq)
  | host (l : HostLink)
  | control (c : Control)
  | bytes (bs : List (BitVec 8))
  | offset (ticks : Int)
deriving DecidableEq, Repr

/-- What an event or engine step concerns and carries. An event's constructor of `Instr` has no fields of its own: the
step puts the event's input into the state and the meaning reads it there. `slot` is the thread slot, `unit` the number
of the engine, cluster, ring, queue, stack, call or entry, `aux` a second number, `value` the value written, `flag` a
choice; an event reads only those its meaning names. -/
structure Input where
  slot : SlotNo := 0
  unit : Nat := 0
  aux : Nat := 0
  value : BitVec 512 := 0
  flag : Bool := false
  payload : Payload := .none
deriving DecidableEq, Repr

/-- The instruction set: one constructor for each row of the opcode table: the thread forms, then the bank-engine words (BNOP and BHALT, which have no fields, last),
then the events and engine steps. -/
inductive Instr where
  /-- NOP (R228): No operation. -/
  | nop (f : FE)
  /-- EXIT (R228): Ends the thread; in privileged mode ends the item as failed. -/
  | exitThread (f : FE)
  /-- YIELD (R228): Gives up the slot's turn until every other ready slot of the cluster has issued once. -/
  | yieldSlot (f : FE)
  /-- TRAP (R228): Retires, then traps with cause 0x0900 plus the code. -/
  | trap (f : FE)
  /-- ERET (R390): Restores the loop stack, leaves privileged mode, re-issues logged accesses oldest first and resumes at EPC. -/
  | eret (f : FE)
  /-- SYSR (R205): Reads a system register into XD. -/
  | sysr (f : FE)
  /-- SYSW (R205): Writes XA to a system register that has no behaviour of its own. -/
  | sysw (f : FE)
  /-- SYSX (R228): Exchanges a system register with XA as one event, returning the old value. -/
  | sysx (f : FE)
  /-- BRK (R228): Stops the thread for an attached debugger, or traps BRK. -/
  | brk (f : FE)
  /-- TSTAMP (R228): Writes the current PTP time in 1/16 ns ticks to XD. -/
  | tstamp (f : FE)
  /-- EVT (R436): Emits a program Galliard event with the low 32 bits of XA when the item is traced. -/
  | evt (f : FE)
  /-- BR (R218): Branches parcel-relative by IMM32. -/
  | br (f : FB)
  /-- BRL (R218): Branches and writes the link value PC_branch+12. -/
  | brl (f : FB)
  /-- RET (R218): Branches to the address in XA. -/
  | ret (f : FB)
  /-- JT (R218): Branches through a bounds-checked jump table read with fetch permission. -/
  | jt (f : FB)
  /-- JTL (R218): Jump-table branch that also writes a link register. -/
  | jtl (f : FB)
  /-- LOOP (R220): Pushes a hardware loop with the count from XA, or skips the body when the count is 0. -/
  | loop (f : FB)
  /-- LOOPX (R220): Pushes a hardware loop with an index register stepped at each back-edge. -/
  | loopx (f : FB)
  /-- LBRK (R222): Deactivates the innermost loop and jumps to its end. -/
  | lbrk (f : FB)
  /-- ADD (R208): Integer add at width SZ. -/
  | add (f : FA)
  /-- SUB (R208): Integer subtract. -/
  | sub (f : FA)
  /-- MUL (R208): Signed multiply, low part. -/
  | mul (f : FA)
  /-- MULH (R208): Signed multiply, high part. -/
  | mulh (f : FA)
  /-- MULHU (R208): Unsigned multiply, high part. -/
  | mulhu (f : FA)
  /-- DIV (R208): Signed divide with defined zero and overflow results. -/
  | div (f : FA)
  /-- DIVU (R208): Unsigned divide. -/
  | divu (f : FA)
  /-- REM (R208): Signed remainder. -/
  | rem (f : FA)
  /-- REMU (R208): Unsigned remainder. -/
  | remu (f : FA)
  /-- AND (R208): Bitwise AND. -/
  | and (f : FA)
  /-- OR (R208): Bitwise OR. -/
  | or (f : FA)
  /-- XOR (R208): Bitwise XOR. -/
  | xor (f : FA)
  /-- ANDN (R208): a AND NOT b. -/
  | andn (f : FA)
  /-- SHL (R208): Shift left by b mod w. -/
  | shl (f : FA)
  /-- SHR (R208): Logical shift right. -/
  | shr (f : FA)
  /-- SAR (R208): Arithmetic shift right. -/
  | sar (f : FA)
  /-- MIN (R208): Signed minimum. -/
  | min (f : FA)
  /-- MINU (R208): Unsigned minimum. -/
  | minu (f : FA)
  /-- MAX (R208): Signed maximum. -/
  | max (f : FA)
  /-- MAXU (R208): Unsigned maximum. -/
  | maxu (f : FA)
  /-- CLZ (R208): Count leading zeros. -/
  | clz (f : FA)
  /-- CTZ (R208): Count trailing zeros. -/
  | ctz (f : FA)
  /-- POPC (R208): Population count. -/
  | popc (f : FA)
  /-- BREV (R208): Bit reverse at width w. -/
  | brev (f : FA)
  /-- EXTS (R209): Extracts a bit field, sign-extended. -/
  | exts (f : FA)
  /-- EXTZ (R209): Extracts a bit field, zero-extended. -/
  | extz (f : FA)
  /-- INS (R209): Inserts a bit field into XD. -/
  | ins (f : FA)
  /-- SEL (R210): Selects a or b by a predicate. -/
  | sel (f : FA)
  /-- CEQ (R211): Sets a predicate to a = b. -/
  | ceq (f : FA)
  /-- CNE (R211): Sets a predicate to a != b. -/
  | cne (f : FA)
  /-- CLT (R211): Signed less-than compare. -/
  | clt (f : FA)
  /-- CLE (R211): Signed less-or-equal compare. -/
  | cle (f : FA)
  /-- CLTU (R211): Unsigned less-than compare. -/
  | cltu (f : FA)
  /-- CLEU (R211): Unsigned less-or-equal compare. -/
  | cleu (f : FA)
  /-- PAND (R211): Predicate AND. -/
  | pand (f : FA)
  /-- POR (R211): Predicate OR. -/
  | por (f : FA)
  /-- PXOR (R211): Predicate XOR. -/
  | pxor (f : FA)
  /-- PNOT (R211): Predicate NOT. -/
  | pnot (f : FA)
  /-- PMOV (R211): Predicate move. -/
  | pmov (f : FA)
  /-- PGET (R211): Sets a predicate from one bit of XA. -/
  | pget (f : FA)
  /-- MOVI (R212): Loads a sign-extended 32-bit immediate. -/
  | movi (f : FB)
  /-- MOVHI (R212): Replaces the high 32 bits of XD. -/
  | movhi (f : FB)
  /-- ADDI (R212): Adds a 32-bit immediate at width SZ. -/
  | addi (f : FB)
  /-- PTRMK (R106): Builds a tagged pointer from base, offset, space and rank. -/
  | ptrmk (f : FB)
  /-- PTRSP (R106): Replaces a pointer's space. -/
  | ptrsp (f : FB)
  /-- PTRRK (R106): Replaces a member pointer's rank. -/
  | ptrrk (f : FB)
  /-- PTROFF (R106): Adds to a pointer's offset modulo 2^48. -/
  | ptroff (f : FB)
  /-- PLADR (R106): Builds a plot pointer from row, column and byte. -/
  | pladr (f : FB)
  /-- FADD (R213): Floating add, RNE. -/
  | fadd (f : FA)
  /-- FSUB (R213): Floating subtract. -/
  | fsub (f : FA)
  /-- FMUL (R213): Floating multiply. -/
  | fmul (f : FA)
  /-- FMA (R213): Fused multiply-add into XD. -/
  | fma (f : FA)
  /-- FDIV (R213): Floating divide. -/
  | fdiv (f : FA)
  /-- FSQRT (R213): Floating square root. -/
  | fsqrt (f : FA)
  /-- FRSQ (R213): Correctly rounded reciprocal square root. -/
  | frsq (f : FA)
  /-- FMIN (R213): Floating minimum. -/
  | fmin (f : FA)
  /-- FMAX (R213): Floating maximum. -/
  | fmax (f : FA)
  /-- FABS (R213): Clears the sign bit. -/
  | fabs (f : FA)
  /-- FNEG (R213): Inverts the sign bit. -/
  | fneg (f : FA)
  /-- FCEQ (R213): Floating equal compare into a predicate. -/
  | fceq (f : FA)
  /-- FCLT (R213): Floating less-than compare. -/
  | fclt (f : FA)
  /-- FCLE (R213): Floating less-or-equal compare. -/
  | fcle (f : FA)
  /-- FCVT (R214): Converts between scalar integer and float formats under RND and SAT. -/
  | fcvt (f : FA)
  /-- FCLASS (R215): Writes a one-hot class mask. -/
  | fclass (f : FA)
  /-- LD (R101): Loads 1-16 bytes, sign-extended. -/
  | ld (f : FM)
  /-- LDZ (R101): Loads 1-16 bytes, zero-extended. -/
  | ldz (f : FM)
  /-- ST (R101): Stores 1-16 bytes into the store queue. -/
  | st (f : FM)
  /-- PREF (R103): Loads a translation into the translation caches without trapping. -/
  | pref (f : FM)
  /-- LDF (R360): Waits for a tagged word to be full and loads it. -/
  | ldf (f : FM)
  /-- LDFE (R360): Waits for full, loads the word and marks it empty. -/
  | ldfe (f : FM)
  /-- STE (R360): Waits for empty, stores the word and marks it full. -/
  | ste (f : FM)
  /-- STF (R360): Stores the word and marks it full. -/
  | stf (f : FM)
  /-- FEQ (R360): Reads a tagged word with its full bit. -/
  | feq (f : FM)
  /-- AADD (R353): Atomic add. -/
  | aadd (f : FM)
  /-- AMIN (R353): Atomic signed minimum. -/
  | amin (f : FM)
  /-- AMAX (R353): Atomic signed maximum. -/
  | amax (f : FM)
  /-- AMINU (R353): Atomic unsigned minimum. -/
  | aminu (f : FM)
  /-- AMAXU (R353): Atomic unsigned maximum. -/
  | amaxu (f : FM)
  /-- AAND (R353): Atomic AND. -/
  | aand (f : FM)
  /-- AOR (R353): Atomic OR. -/
  | aor (f : FM)
  /-- AXOR (R353): Atomic XOR. -/
  | axor (f : FM)
  /-- AXCHG (R353): Atomic exchange. -/
  | axchg (f : FM)
  /-- ACAS (R353): Atomic compare-and-swap against XD. -/
  | acas (f : FM)
  /-- AFADD (R353): Atomic FP32 add. -/
  | afadd (f : FM)
  /-- ORD (R41): Prefixes the next memory instruction with an order and scope. -/
  | ord (f : FE)
  /-- FENCE (R340): Orders earlier against later events at a scope. -/
  | fence (f : FE)
  /-- QFENCE (R135): Waits for every earlier BANK command, then acquires. -/
  | qfence (f : FE)
  /-- ENTER (R226): Pushes lr and fp and allocates a stack frame. -/
  | enter (f : FA)
  /-- LEAVEF (R226): Restores sp, lr and fp from the frame. -/
  | leavef (f : FA)
  /-- SPILL (R226): Stores the masked registers consecutively. -/
  | spill (f : FA)
  /-- VAADD (R357): Plane atomic add per active element. -/
  | vaadd (f : FT)
  /-- VAMIN (R357): Plane atomic minimum. -/
  | vamin (f : FT)
  /-- VAMAX (R357): Plane atomic maximum. -/
  | vamax (f : FT)
  /-- VAXCHG (R357): Plane atomic exchange. -/
  | vaxchg (f : FT)
  /-- VAFADD (R357): Plane atomic FP32 add. -/
  | vafadd (f : FT)
  /-- SPAWN (R330): Enqueues a continuation record on a queue. -/
  | spawn (f : FB)
  /-- CONT (R330): Enqueues a record and ends the item. -/
  | cont (f : FB)
  /-- PARK (R330): Parks the item with a new frame and wait pointer. -/
  | park (f : FB)
  /-- GNEW (R331): Creates a group and makes the thread rank 0. -/
  | gnew (f : FB)
  /-- JOIN (R331): Waits for the group to exist and joins with the next rank. -/
  | joinGroup (f : FB)
  /-- LEAVE (R331): Leaves a group, possibly completing a barrier or dissolving it. -/
  | leaveGroup (f : FB)
  /-- GBAR (R321): Arrives at the group barrier with a release and waits for departure. -/
  | gbar (f : FB)
  /-- GRANK (R331): Returns the rank in the current group. -/
  | grank (f : FB)
  /-- GSIZE (R331): Returns NEXT of the current group. -/
  | gsize (f : FB)
  /-- LAUNCH (R330): Submits a launch packet from a thread. -/
  | launch (f : FB)
  /-- PLOTGROW (R332): Waits until the plot can be grown, then grows and clears it. -/
  | plotgrow (f : FB)
  /-- PLOTINFO (R333): Reports the count or position of void cells of the plot. -/
  | plotinfo (f : FB)
  /-- TDSET (R185): Validates and writes a descriptor from four registers. -/
  | tdset (f : FT)
  /-- TDGET (R185): Reads a descriptor into four registers. -/
  | tdget (f : FT)
  /-- TDLD (R185): Loads and validates a descriptor from memory. -/
  | tdld (f : FT)
  /-- TDST (R185): Stores a descriptor to memory. -/
  | tdst (f : FT)
  /-- TDMOVE (R185): Copies a descriptor with moved origin and layer. -/
  | tdmove (f : FT)
  /-- TDSUB (R185): Cuts a sub-rectangle of a descriptor. -/
  | tdsub (f : FT)
  /-- EDSET (R185): Writes an edge register. -/
  | edset (f : FT)
  /-- EDGET (R185): Reads an edge register. -/
  | edget (f : FT)
  /-- VADD (R255): Element-wise add. -/
  | vadd (f : FT)
  /-- VSUB (R255): Element-wise subtract. -/
  | vsub (f : FT)
  /-- VMUL (R255): Element-wise multiply. -/
  | vmul (f : FT)
  /-- VFMA (R255): Element-wise fused multiply-add into TD. -/
  | vfma (f : FT)
  /-- VMIN (R255): Element-wise minimum. -/
  | vmin (f : FT)
  /-- VMAX (R255): Element-wise maximum. -/
  | vmax (f : FT)
  /-- VABS (R255): Element-wise absolute value. -/
  | vabs (f : FT)
  /-- VNEG (R255): Element-wise negation. -/
  | vneg (f : FT)
  /-- VDIV (R255): Element-wise divide. -/
  | vdiv (f : FT)
  /-- VRCP (R248): Correctly rounded reciprocal. -/
  | vrcp (f : FT)
  /-- VSQRT (R248): Correctly rounded square root. -/
  | vsqrt (f : FT)
  /-- VRSQ (R248): Correctly rounded reciprocal square root. -/
  | vrsq (f : FT)
  /-- VEXP2 (R248): Correctly rounded 2^a. -/
  | vexp2 (f : FT)
  /-- VLOG2 (R248): Correctly rounded log2 a. -/
  | vlog2 (f : FT)
  /-- VAND (R255): Element-wise AND. -/
  | vand (f : FT)
  /-- VOR (R255): Element-wise OR. -/
  | vor (f : FT)
  /-- VXOR (R255): Element-wise XOR. -/
  | vxor (f : FT)
  /-- VNOT (R255): Element-wise NOT. -/
  | vnot (f : FT)
  /-- VSHL (R257): Element-wise shift left. -/
  | vshl (f : FT)
  /-- VSHR (R257): Element-wise logical shift right. -/
  | vshr (f : FT)
  /-- VSAR (R257): Element-wise arithmetic shift right. -/
  | vsar (f : FT)
  /-- VCLZ (R257): Element-wise leading-zero count. -/
  | vclz (f : FT)
  /-- VPOPC (R257): Element-wise population count. -/
  | vpopc (f : FT)
  /-- VMOV (R259): Copies elements bit for bit. -/
  | vmov (f : FT)
  /-- VCVT (R258): Converts elements once with optional source and output scales. -/
  | vcvt (f : FT)
  /-- VSEL (R259): Selects TA or TB by a predicate plane. -/
  | vsel (f : FT)
  /-- VCEQ (R259): Element-wise equal compare into PRED1. -/
  | vceq (f : FT)
  /-- VCNE (R259): Element-wise not-equal compare. -/
  | vcne (f : FT)
  /-- VCLT (R259): Element-wise less-than compare. -/
  | vclt (f : FT)
  /-- VCLE (R259): Element-wise less-or-equal compare. -/
  | vcle (f : FT)
  /-- VADDS (R260): Adds a scalar to every element. -/
  | vadds (f : FT)
  /-- VMULS (R260): Multiplies every element by a scalar. -/
  | vmuls (f : FT)
  /-- VFMAS (R260): a times scalar plus TB. -/
  | vfmas (f : FT)
  /-- VMINS (R260): Minimum with a scalar. -/
  | vmins (f : FT)
  /-- VMAXS (R260): Maximum with a scalar. -/
  | vmaxs (f : FT)
  /-- VBCAST (R260): Broadcasts the low bits of a register to every element. -/
  | vbcast (f : FT)
  /-- VIOTA (R261): Writes s plus step times the element index. -/
  | viota (f : FT)
  /-- VPERM (R263): Permutes a cell's elements by an index tensor. -/
  | vperm (f : FT)
  /-- VROT (R263): Rotates a cell's elements. -/
  | vrot (f : FT)
  /-- VXCH (R263): Exchanges elements e and e XOR m. -/
  | vxch (f : FT)
  /-- VREDC (R264): Reduces a cell's elements exactly, rounding once. -/
  | vredc (f : FT)
  /-- VSCANC (R264): Exact running scan within a cell. -/
  | vscanc (f : FT)
  /-- VDOTC (R264): Exact dot product within a cell, optionally accumulated. -/
  | vdotc (f : FT)
  /-- VLUT (R263): Looks up elements of TB by TA. -/
  | vlut (f : FT)
  /-- PPSET (R265): Sets every written predicate bit to v. -/
  | ppset (f : FT)
  /-- PPAND (R265): Predicate-plane AND. -/
  | ppand (f : FT)
  /-- PPOR (R265): Predicate-plane OR. -/
  | ppor (f : FT)
  /-- PPNOT (R265): Predicate-plane NOT. -/
  | ppnot (f : FT)
  /-- PPCNT (R266): Counts 1 bits of a predicate plane into a register. -/
  | ppcnt (f : FT)
  /-- PPANY (R266): Tests whether any bit is 1. -/
  | ppany (f : FT)
  /-- PPALL (R266): Tests whether every bit is 1. -/
  | ppall (f : FT)
  /-- FESET (R267): Sets full/empty bits to full as a DEVICE release. -/
  | feset (f : FT)
  /-- FECLR (R267): Sets full/empty bits to empty. -/
  | feclr (f : FT)
  /-- SCROLL (R199): Scrolls a frame by immediate dy, dx with the descriptor's mode. -/
  | scroll (f : FT)
  /-- SCROLLX (R199): Scrolls a frame by register dy, dx with an explicit mode and holes. -/
  | scrollx (f : FT)
  /-- PLCOPY (R200): Copies a tensor within the plot through an optional window. -/
  | plcopy (f : FT)
  /-- PLFILL (R201): Fills every bounded element with a value. -/
  | plfill (f : FT)
  /-- NREDR (R299): Reduces each element row exactly over the SUM network. -/
  | nredr (f : FT)
  /-- NREDC (R299): Reduces each element column exactly. -/
  | nredc (f : FT)
  /-- NREDX (R299): Reduces every element into a register. -/
  | nredx (f : FT)
  /-- NBCR (R299): Broadcasts a column along rows. -/
  | nbcr (f : FT)
  /-- NBCC (R299): Broadcasts a row along columns. -/
  | nbcc (f : FT)
  /-- DRED (R302): Reduces a tensor across devices of the domain. -/
  | dred (f : FT)
  /-- WLD (R284): Loads a weight slice into the shadow planes. -/
  | wld (f : FQ)
  /-- WSWAP (R285): Exchanges active and shadow weight planes. -/
  | wswap (f : FQ)
  /-- MSTREAM (R286): Streams activations through the weight rectangle into results. -/
  | mstream (f : FQ)
  /-- ACCZ (R287): Clears accumulator blocks. -/
  | accz (f : FQ)
  /-- ACCRD (R288): Converts accumulator elements to a plane. -/
  | accrd (f : FQ)
  /-- ACCNRM (R289): Lowers block exponents without changing values. -/
  | accnrm (f : FQ)
  /-- CPIN (R153): Copies a memory grid into a plane tensor. -/
  | cpin (f : FQ)
  /-- CPOUT (R153): Copies a plane tensor out to memory. -/
  | cpout (f : FQ)
  /-- CPG (R155): Gathers 32 bytes per cell through pointers. -/
  | cpg (f : FQ)
  /-- CPS (R155): Scatters up to 32 bytes per cell through pointers. -/
  | cps (f : FQ)
  /-- CPP (R156): Copies between plot or member tensors. -/
  | cpp (f : FQ)
  /-- CPM (R157): Copies a byte range between memory or own-plot pointers. -/
  | cpm (f : FQ)
  /-- SEAL (R158): Closes unsealed copies into a batch. -/
  | seal (f : FQ)
  /-- WAITB (R148): Waits until at most n sealed batches are unfinished, then acquires. -/
  | waitb (f : FQ)
  /-- WPTR (R159): Snapshots a channel's write pointer and done count. -/
  | wptr (f : FQ)
  /-- CPSTAT (R160): Snapshots channel and batch state. -/
  | cpstat (f : FQ)
  /-- BKLOAD (R130): Reads a bank image and queues its write to engine program stores. -/
  | bkload (f : FQ)
  /-- BKACT (R131): Captures activation bytes and queues their broadcast to engine buffers. -/
  | bkact (f : FQ)
  /-- BKCALL (R132): Checks regions, releases, writes a token and queues a call on the engine set. -/
  | bkcall (f : FQ)
  /-- BKWAIT (R133): Waits for calls up to a token to complete, then acquires. -/
  | bkwait (f : FQ)
  /-- BKSTAT (R134): Returns an engine's status word snapshot. -/
  | bkstat (f : FQ)
  /-- OWLOOP (R378): Starts a reverse walker loop, clearing the cover map. -/
  | owloop (f : FQ)
  /-- OWWIN (R379): Sets a walker window. -/
  | owwin (f : FQ)
  /-- OWDECL (R375): Declares granules and may skip an all-covered iteration. -/
  | owdecl (f : FQ)
  /-- OWCHK (R380): Tests whether a range is covered. -/
  | owchk (f : FQ)
  /-- OWSTAT (R380): Reads OWCOUNT or OWPERF. -/
  | owstat (f : FQ)
  /-- PWRHINT (R423): Sets the slot's power hint with an expiry. -/
  | pwrhint (f : FE)
  /-- CHGRD (R424): Snapshots the cluster's charge record. -/
  | chgrd (f : FE)
  /-- BLI (R116): Loads a sign-extended immediate. -/
  | bli (f : FBk)
  /-- BADDI (R116): Adds an immediate. -/
  | baddi (f : FBk)
  /-- BADD (R116): Adds two registers. -/
  | badd (f : FBk)
  /-- BSUB (R116): Subtracts two registers. -/
  | bsub (f : FBk)
  /-- BMUL (R116): Multiplies two registers modulo 2^32. -/
  | bmul (f : FBk)
  /-- BBZ (R116): Branches if a register is zero. -/
  | bbz (f : FBk)
  /-- BBNZ (R116): Branches if a register is nonzero. -/
  | bbnz (f : FBk)
  /-- BLOOP (R116): Decrements and branches while nonzero. -/
  | bloop (f : FBk)
  /-- BZA (R121): Clears an accumulator in float or integer mode. -/
  | bza (f : FBk)
  /-- BMAC (R120): Multiplies a weight line with activations into an accumulator exactly. -/
  | bmac (f : FBk)
  /-- BFMT (R117): Sets weight and activation formats and CB2 magnitudes. -/
  | bfmt (f : FBk)
  /-- BSCL (R118): Loads weight scales and sets the activation scale. -/
  | bscl (f : FBk)
  /-- BRDA (R121): Reads one accumulator element as FP32 or int32. -/
  | brda (f : FBk)
  /-- BSEND (R122): Sends eight accumulator elements into the call's send tensor. -/
  | bsend (f : FBk)
  /-- BRD (R123): Reads a word of engine space. -/
  | brd (f : FBk)
  /-- BWR (R123): Writes a word of engine space. -/
  | bwr (f : FBk)
  /-- BSIG (R123): Writes a word as a DEVICE release. -/
  | bsig (f : FBk)
  /-- BWAIT (R123): Waits for a buffer word to equal a value, then acquires. -/
  | bwait (f : FBk)
  /-- BNOP (R116): Engine no operation. -/
  | bnop
  /-- BHALT (R116): Ends the call on this engine. -/
  | bhalt
  /-- FE_TIMEOUT (R363): A tagged wait reaching the FEWAIT limit traps FE_TIMEOUT and leaves its queue. -/
  | feTimeout
  /-- AGGREGATOR_RMW (R358): The aggregator merges equal-address requests of a VATOM into one RMW and rebuilds old values in prefix order. -/
  | aggregatorRmw
  /-- SCROLL_UNIT_STEP (R191): One unit step of a scroll moves each line of the frame by one cell. -/
  | scrollUnitStep
  /-- PLANE_OP_COMPLETE (R181): A plane op completes in every cluster and releases its footprint. -/
  | planeOpComplete
  /-- REDUCTION_ROOT (R296): The root router rounds the exact 320-bit sum once and writes the result. -/
  | reductionRoot
  /-- DRED_COMBINE (R302): The switch combines the first contributions with one tag in ascending port order and returns the result. -/
  | dredCombine
  /-- DRED_TIMEOUT (R302): A reduction not complete 2^24 network cycles after issue ends the item. -/
  | dredTimeout
  /-- COPY_BURST (R142): A copy engine picks the ready copy with least slack and serves one burst. -/
  | copyBurst
  /-- COPY_SLACK_DECAY (R142): A ready unserved copy's slack falls by 1 each 4,096 network cycles. -/
  | copySlackDecay
  /-- CPG_SECTOR_ARRIVAL (R155): A gathered sector returns and fills the cells that use it. -/
  | cpgSectorArrival
  /-- ENGINE_PROGRAM_WRITE (R130): An engine reaches a queued BKLOAD and writes its program store. -/
  | engineProgramWrite
  /-- ENGINE_ACT_WRITE (R131): An engine reaches a queued BKACT and writes its activation buffer. -/
  | engineActWrite
  /-- ENGINE_CALL_START (R114): An engine reaches a queued call and initialises its state at the entry word. -/
  | engineCallStart
  /-- CALL_COMPLETE (R125): Every engine of the set has halted and every send and write is performed. -/
  | callComplete
  /-- CALL_FAULT_REPORT (R125): After all engines of a faulted call end, the report is written and the item terminated. -/
  | callFaultReport
  /-- BSEND_DELIVERY (R122): A sent block of converted elements lands in the caller's plot. -/
  | bsendDelivery
  /-- BANK_TIMEOUT (R123): A BWAIT lasting 2^24 engine cycles faults BANK_TIMEOUT. -/
  | bankTimeout
  /-- HINT_EXPIRY (R423): A power hint expires after its duration. -/
  | hintExpiry
  /-- LOAD_COMPLETE (R37): An outstanding long-latency access completes and writes its pending destination or faults. -/
  | loadComplete
  /-- STORE_LEAVES_QUEUE (R337): The oldest store leaves the store queue and becomes visible. -/
  | storeLeavesQueue
  /-- PAGE_WALK (R93): A translation walk finishes, setting A/D or faulting every joined request. -/
  | pageWalk
  /-- LOGGED_FAULT_TRAP (R388): A faulted operand-log entry traps the thread at its next boundary. -/
  | loggedFaultTrap
  /-- LATE_TRAP (R294): A late packet with LTRAP set traps LATE at the next boundary. -/
  | lateTrap
  /-- PACKET_ARRIVAL (R294): A packet reaches its destination router, is checked for lateness and partition. -/
  | packetArrival
  /-- ITEM_TERMINATE (R392): An asynchronous fault stops the thread and discards unstarted work. -/
  | itemTerminate
  /-- ITEM_END (R316): After its work completes the item leaves groups, decrements J, releases its plot and counts. -/
  | itemEnd
  /-- LAUNCH_RING_READ (R307): The launch engine acquires TAIL and reads a packet from a ring. -/
  | launchRingRead
  /-- RING_RESET (R307): The system cores reset a halted ring. -/
  | ringReset
  /-- QUEUE_CONFIG (R311): The system cores configure a queue's partition, backing and share. -/
  | queueConfig
  /-- DISPATCH (R312): A partition picks a queue head, places a plot and starts a thread. -/
  | dispatchItem
  /-- PRIORITY_AGING (R312): A head waiting 2^21 network cycles gains one effective priority. -/
  | priorityAging
  /-- PARK_CHECK (R317): A parked item's wait word is checked, making it eligible or failing it. -/
  | parkCheck
  /-- REPLICA_ACCEPT (R324): An acceptance arrives from a device of a replicated launch's mask. -/
  | replicaAccept
  /-- START_TIMEOUT (R324): Missing acceptances after 2^24 network cycles end the launch START_TIMEOUT. -/
  | startTimeout
  /-- PEER_TIMEOUT (R304): A peer response absent 2^18 network cycles faults NOTMAPPED. -/
  | peerTimeout
  /-- PARTITION_RESET (R295): A partition is reset: engines, copies and flits dropped and groups dissolved. -/
  | partitionReset
  /-- PREEMPT_REQUEST (R397): The system cores request pre-emption; the hardware chooses DRAIN, FLUSH or SAVE. -/
  | preemptRequest
  /-- DRAIN_EXPIRY (R397): A draining item not ended by 2x DRAINBUD is flushed or saved. -/
  | drainExpiry
  /-- SAVE (R398): Work completes, the store queue drains and the save area is written. -/
  | saveItem
  /-- FLUSH (R398): Unstarted work is discarded and the original record re-queued. -/
  | flushItem
  /-- TLBINV_VA (R96): A TLBINV write drops leaves covering one VA. -/
  | tlbinvVa
  /-- TLBINV_ALL (R96): A TLBINV write with ALL drops every entry of the thread's tag. -/
  | tlbinvAll
  /-- PTBASE_WRITE (R95): A privileged write changes the translation root. -/
  | ptbaseWrite
  /-- LATECNT_WRITE (R294): Writes LTRAP and clears MAXLATE and COUNT. -/
  | latecntWrite
  /-- OPLDROP (R389): Drops selected operand-log entries. -/
  | opldrop
  /-- KEY_SLOT_LOAD (R90): The system cores load an encryption key slot. -/
  | keySlotLoad
  /-- ECC_SCRUB (R78): A stack scrubs every sector once each 24 hours. -/
  | eccScrub
  /-- PARITY_ERROR (R404): A configuration parity error reloads from the protected copy and replays. -/
  | parityError
  /-- RAILCTL_WRITE (R408): Sets a rail's limit, floor or enable, or is refused. -/
  | railctlWrite
  /-- CLCTL_WRITE (R408): Sets a cluster's charge, rail or power domain, or is refused. -/
  | clctlWrite
  /-- VFENERGY_WRITE (R420): Writes a function's energy counter unless it is live. -/
  | vfenergyWrite
  /-- DVFS_REQUEST (R415): The governor requests an operating point; it is checked and accepted or denied. -/
  | dvfsRequest
  /-- RAIL_RAMP_DONE (R416): A rail ramp and settle ends, allowing the hop or ending the request. -/
  | railRampDone
  /-- CLOCK_HOP (R416): The cluster switches clock after the crossing FIFO handshake. -/
  | clockHop
  /-- DROOP_DETECT (R414): A supply dip stretches the cluster clock. -/
  | droopDetect
  /-- DROOP_END (R414): After 256 stretched cycles of recovery the stretch ends. -/
  | droopEnd
  /-- CHARGE_CYCLE (R411): Each cluster cycle debits charged work, refills and lets a held instruction begin. -/
  | chargeCycle
  /-- CLUSTER_SAMPLE (R418): Every 10 µs each ON cluster closes a sample into CLSAMP. -/
  | clusterSample
  /-- THERMAL_THRESHOLD (R421): A temperature threshold caps the point or resets every partition. -/
  | thermalThreshold
  /-- PTP_ADJUST (R427): Device time is slewed, stepped or slowed toward the grandmaster. -/
  | ptpAdjust
  /-- TIME_RESYNC (R427): Each die's copy of T resynchronises every 1 µs. -/
  | timeResync
  /-- PC_SAMPLE (R443): At each PERIOD multiple an occupied traced slot emits PCSAMPLE. -/
  | pcSample
  /-- WATERMARK (R432): Every 256 network cycles each source sends the merge unit a watermark. -/
  | watermarkStep
  /-- HALT (R441): Debug command stopping a slot at its next boundary. -/
  | haltSlot
  /-- RESUME (R441): Debug command continuing a stopped slot. -/
  | resumeSlot
  /-- STEP (R441): Debug command running one instruction and stopping. -/
  | stepSlot
  /-- DBG_READ (R442): Debug command reading a stopped slot's register into DBGDATA. -/
  | dbgRead
  /-- DBG_WRITE (R442): Debug command writing a stopped slot's register. -/
  | dbgWrite
  /-- DBG_SAMPLE (R443): Debug command sampling a slot's PC without stopping it. -/
  | dbgSample
  /-- DROPLOG (R438): Debug command dropping operand-log entries. -/
  | droplog
  /-- REGISTER_WRITE (R205): A write to a register without behaviour of its own stores the value. -/
  | registerWrite
  /-- LINK_RETRAIN (R303): A link losing lanes retrains on 4 lanes. -/
  | linkRetrain
  /-- COLD_START (R447): Module input reaching 48 V runs the start sequence. -/
  | coldStart
  /-- WARM_START (R448): A module reset with input held restarts, skipping power ramp. -/
  | warmStart
  /-- START_WATCHDOG (R449): Step 8 not reached 120 s after step 3 fails the start. -/
  | startWatchdog
  /-- IMAGE_UPDATE (R453): The inactive image slot is written and made active. -/
  | imageUpdate
  /-- ILLEGAL_ENCODING (R43): A first parcel with an unassigned major opcode, an FN beyond its family's last or LEN 0b11 other than the filler traps ILLEGAL_OP or ILLEGAL_FORMAT. -/
  | illegalEncoding
  /-- BANK_ILLEGAL (R124): An engine word with op 20–63 or a nonzero unused field faults BANK_ILLEGAL and ends the engine's call. -/
  | bankIllegal
  /-- PEER_ACCESS (R344): An access from another device arrives over the Bolaezer links and is performed at this device under its coherence. -/
  | peerAccess
  /-- HOST_ACCESS (R345): A host posted write or read over PCIe or CXL is performed on device memory in issue order. -/
  | hostAccess
  /-- RDMA_TRANSFER (R305): An Ethernet port performs an RDMA SEND, WRITE, READ or atomic on registered memory as a SYSTEM agent. -/
  | rdmaTransfer
  /-- SYSTEM_CORE_ACCESS (R334): A system core access through the I/O die reads or writes device memory as an agent of the memory model. -/
  | systemCoreAccess
  /-- REPLICATED_PACKET (R323): A replicated launch packet forwarded over the Bolaezer links arrives, is validated against g_last and is accepted or rejected STALE_GEN. -/
  | replicatedPacket
  /-- HOST_ATTACH (R447): A host that attaches after start causes the host link to train then. -/
  | hostAttach
  /-- PTP_LOCK_CHANGE (R427): Device time gains or loses lock to its grandmaster, switching between free-running and disciplined, and emits LOCK. -/
  | ptpLockChange
  /-- INPUT_POWER_LOSS (R448): The 48 V module input is lost, ending all work, and only the boot record and flash persist. -/
  | inputPowerLoss
  /-- COOLANT_FLOW_LOW (R455): Coolant flow below 3.0 L/min makes the management endpoint report an alert. -/
  | coolantFlowLow
  /-- FLIT_CRC_REPLAY (R303): A flit failing its link CRC is replayed at link level. -/
  | flitCrcReplay
  /-- MERGE_COUNTER_READ (R432): A system-core read of EVTS or WAITNS returns the count and clears it. -/
  | mergeCounterRead
  /-- FAULT_RING_SPACE (R393): The fault-ring consumer frees a place, letting a waiting item end write its report. -/
  | faultRingSpace
  /-- CLUSTER_RECALIBRATION (R452): A recalibration of one cluster runs when its domain is off, or is refused while ON is 1. -/
  | clusterRecalibration
  /-- LINK_RETIREMENT (R453): A Bolaezer link or Ethernet port is retired, and its traffic or queue pairs move to the others. -/
  | linkRetirement
  /-- ENGINE_PARTITION_ASSIGN (R108): The system cores assign a bank engine to a partition, or to none when its channel is retired. -/
  | enginePartitionAssign
deriving DecidableEq, Repr

end Sys2Proof
end

