-- ==== Sys2Proof/Machine/State.lean ====
section
/-!
DEFINITION. The state of the HX9-576 as plain data: everything the manual gives the machine, and the model's own fields
(who moves next, counters that name things). Operations on it stand in the files beside this one.
-/
namespace Sys2Proof.Machine

/-- Sparse data by number: keys strictly rising, no entry equal to the default of its use. -/
abbrev NMap (α : Type) := List (Nat × α)

/-- A location of the memory model (16 R334): a storage byte of main memory by its number c · 768 MiB + o (04 R77), a
byte of host memory (device 256) or of a peer device, a byte of a cell's store, a byte of an engine's activation buffer,
a byte of an engine's readable state (05 R110), or a byte of a void cell. -/
inductive Loc where
  | mem (k : Nat)
  | ext (device pa : Nat)
  | cell (cell row byte : Nat)
  | buf (engine byte : Nat)
  | eng (engine off : Nat)
  | void
deriving DecidableEq, Repr

/-- A footprint of the scoreboard (07 R179): plot-relative cell rows, cell columns and plot rows, each from the first to
before the last named, and its mark. Plot rows 256 and 257 are the matrix planes (13 R281). -/
structure Fp where
  r0 : Nat
  r1 : Nat
  c0 : Nat
  c1 : Nat
  p0 : Nat
  p1 : Nat
  write : Bool
deriving DecidableEq, Repr

/-- An ORD prefix in force for the next instruction (02 R41): its order, its scope and its address. -/
structure Ord where
  order : BitVec 3
  scope : BitVec 3
  pc : Word
deriving DecidableEq, Repr

/-- A trap's cause and what it writes to EADDR and EINFO (20 R385, R387). -/
structure Trap where
  cause : BitVec 16
  addr : Word := 0
  info : Word := 0
deriving DecidableEq, Repr

/-- One active hardware loop (09 R219); `walker` marks the walker's loop (19 R378). -/
structure Loop where
  start : Word
  stop : Word
  remaining : BitVec 32
  index : BitVec 6
  step : BitVec 16
  indexed : Bool
  walker : Bool
deriving DecidableEq, Repr

/-- A pending destination: a general register or a predicate. -/
inductive Dest where
  | reg (n : BitVec 6)
  | pred (n : BitVec 3)
deriving DecidableEq, Repr

/-- An open lookahead window (02 R37): what is pending and how many more instructions it takes in. -/
structure Win where
  dests : List Dest
  left : Nat
deriving DecidableEq, Repr

/-- An outstanding long-latency access and its operand-log entry (02 R37; 20 R388, R389), with what it read at issue. -/
structure Out where
  no : Nat
  pc : Word
  opc : BitVec 8
  fn : BitVec 8
  ea : Word
  opB : Word
  opE : Word
  desc : BitVec 256
  edge : Word
  dest : BitVec 6
  pair : Bool
  ord : Option Ord
  fps : List Fp
  logged : Bool
  faulted : Option Trap
  /-- issued in privileged mode -/
  priv : Bool := false
  /-- issued in the body of a walker loop (19 R381) -/
  walked : Bool := false
  /-- it stays behind an older faulted access of the same bytes until both are re-issued (16 R336) -/
  blocked : Bool := false
  /-- the windows as they stood when it issued -/
  wins : List Win := []
  /-- the root it is translated under: that of its issue (04 R95, 09 R205) -/
  root : BitVec 44 := 0
deriving DecidableEq, Repr

/-- One byte of a queued store: where it goes, its value, and the key slot under which a main-memory sector is written. -/
structure SqByte where
  loc : Loc
  val : Byte
  key : Nat
deriving DecidableEq, Repr

/-- An entry of the store queue (16 R337). -/
structure SqEntry where
  no : Nat
  pc : Word
  ea : Word
  bytes : List SqByte
  fps : List Fp
  /-- the peer devices that own its pages -/
  peers : List Nat
  /-- the order is SC: no later access goes before it (16 R338) -/
  sc : Bool := false
  /-- the leaves that translated it: root, first VA and level (04 R96) -/
  leaves : List (BitVec 44 × Nat × Nat) := []
  /-- issued in privileged mode -/
  priv : Bool := false
  /-- a logged access before it in program order faulted and names one of its bytes (16 R336) -/
  stuck : Bool := false
deriving DecidableEq, Repr

/-- A scroll between its unit steps (08 R190-R194). -/
structure Scroll where
  td : BitVec 256
  frame : BitVec 256
  mode : BitVec 2
  carry : Bool
  dy : Int
  dx : Int
deriving DecidableEq, Repr

/-- A request of a VATOM (17 R357): its prefix index, its pointer and its operand as they were read at issue, and
whether a poisoned row was read for it. -/
structure VElem where
  idx : Nat
  ptr : Word
  b : Word
  poison : Bool
deriving DecidableEq, Repr

/-- What a plane op in progress has still to do before it completes. -/
inductive Work where
  /-- nothing: its effect is made and its footprint is held (07 R181) -/
  | held
  | scroll (sc : Scroll)
  /-- a network reduction waiting for its root (14 R296): FN, the captured descriptors, bound and operation bits -/
  | reduce (fn : Nat) (td ta tc : BitVec 256) (edge : Word) (sat : Bool) (imm : BitVec 18)
  /-- a VATOM (17 R357): the ATOM form that each element acts as, its width in bytes, the captured TD with the current group,
  the elements that are not performed, and the count of those that are -/
  | vatom (fn n : Nat) (td : BitVec 256) (gid : Option Nat) (left : List VElem) (performed : Nat)
  /-- a DRED waiting for the switch (14 R302): its descriptors, SAT, context, and its own contribution -/
  | dred (td ta : BitVec 256) (sat : Bool) (ctx : Word) (own : List (BitVec 32))
deriving DecidableEq, Repr

/-- A plane op in progress (07 R178, R181). -/
structure PlaneOp where
  no : Nat
  pc : Word
  fps : List Fp
  work : Work
  /-- a poisoned row was read, so the item fails at the end of the op (07 R163) -/
  poison : Bool
  /-- a register that is written when the op completes, with its value where that is known (13 R286, 14 R299) -/
  dest : BitVec 6 := 0
  destVal : Word := 0
  /-- issued in privileged mode: the bank that `dest` names -/
  priv : Bool := false
  /-- VATOM: the root of its issue (04 R95, 09 R205) -/
  root : BitVec 44 := 0
  /-- the OWLOOP that holds it until its loop ends (19 R378) -/
  untilLoopEnds : Bool := false
  /-- a MATRIX or NET op: halts and debug stops wait for its end (13 R282, 14 R300) -/
  whole : Bool := false
deriving DecidableEq, Repr

/-- The copy forms (06 R152). -/
inductive CopyKind where
  | cpin | cpout | cpg | cps | cpp | cpm
deriving DecidableEq, Repr

/-- A cell of a CPG (06 R155): its plot-relative row and column, its pointer and its valid count. -/
structure Gather where
  row : Nat
  col : Nat
  ptr : Word
  n : Nat
deriving DecidableEq, Repr

/-- An unfinished copy (06 R139-R150): what it captured at issue and how far it has come. -/
structure Copy where
  no : Nat
  pc : Word
  ordinal : BitVec 32
  kind : CopyKind
  td : BitVec 256
  ta : BitVec 256
  tb : BitVec 256
  tc : BitVec 256
  edge : Word
  addend : Word
  stride : Word
  src : Word
  dst : Word
  len : Nat
  units : Nat
  total : Nat
  slack : BitVec 4
  slack0 : BitVec 4
  batch : Option (BitVec 16)
  written : Nat
  /-- CPM: the source bytes, read before any is written (R157) -/
  buffer : List Byte
  buffered : Bool
  /-- CPG: its cells, and the 32-byte sectors still outstanding (R155) -/
  gathers : List Gather
  sectors : List Nat
  sectorsAsked : Bool
  /-- elements, 4-byte units of a CPS, or bytes of a CPM of the next unit that have been moved (R142: a burst is up to 4 KiB) -/
  part : Nat := 0
  /-- CPIN, CPOUT, CPP: elements of the next unit and of later ones, by slice, row and column, that have been moved (R147) -/
  ahead : List (Nat × Nat × Nat) := []
  /-- bytes of poisoned sectors that it has written (R149) -/
  cover : List Loc := []
  /-- the thread's current group at issue (R156, 07 R174) -/
  gid : Option Nat := none
  /-- the root of its issue (04 R95, 09 R205) -/
  root : BitVec 44 := 0
  /-- issued in privileged mode -/
  priv : Bool := false
deriving DecidableEq, Repr

/-- One copy channel of a thread (06 R139, R141, R159). -/
structure Chan where
  queue : List Copy := []
  wp : BitVec 32 := 0
  done : BitVec 16 := 0
  ordinal : BitVec 32 := 0
deriving DecidableEq, Repr

/-- A walker window (19 R371): OWBASE and OWLEN. -/
structure OwWin where
  base : BitVec 48 := 0
  len : BitVec 32 := 0
  gran : BitVec 4 := 0
  bitoff : BitVec 24 := 0
deriving DecidableEq, Repr

/-- The reverse-cover walker of a thread (19 R369-R376). -/
structure Walker where
  act : Bool := false
  iter : BitVec 32 := 0
  wmask : BitVec 8 := 0
  supp : BitVec 32 := 0
  skip : BitVec 32 := 0
  perf : BitVec 32 := 0
  wins : Vector OwWin 8 := Vector.replicate 8 {}
  /-- pending granules: window and granule -/
  pending : List (Nat × Nat) := []
  /-- declarations of the iteration: window, first granule and how many -/
  decls : List (Nat × Nat × Nat) := []
  stored : Bool := false
  /-- the cover map captured at OWLOOP; 0 before any loop has run -/
  map : BitVec 256 := 0
  index : BitVec 6 := 0
deriving DecidableEq, Repr

/-- A group that a thread belongs to (15 R319). -/
structure Membership where
  gid : Nat
  rank : BitVec 12
deriving DecidableEq, Repr

/-- What the flushed executions of an item add to its stamp record (23 R437). -/
structure Past where
  traps : BitVec 32 := 0
  saves : BitVec 16 := 0
  flushes : BitVec 16 := 0
  late : BitVec 32 := 0
  energy : Nat := 0
  occupied : Word := 0
  started : Word := 0
deriving DecidableEq, Repr

/-- What the item of a thread was started from, to start it again (15 R309, R310; 20 R398). -/
structure ItemRec where
  uid : Nat := 0
  code : Word := 0
  frame : Word := 0
  join : Word := 0
  rodsH : Nat := 0
  rodsW : Nat := 0
  depth : Nat := 0
  pf : BitVec 16 := 0
  dl : BitVec 16 := 0
  item : BitVec 32 := 0
  nitems : BitVec 32 := 0
  launch : Nat := 0
  ring : BitVec 8 := 0
  seq : BitVec 32 := 0
  part : BitVec 4 := 0
  vf : BitVec 6 := 0
  root : BitVec 44 := 0
  queue : BitVec 6 := 0
  cycles : BitVec 32 := 0
  age : Nat := 0
  /-- the physical address of its record in its queue's backing area (15 R311) -/
  place : Option Nat := none
  past : Past := {}
deriving DecidableEq, Repr

/-- An asynchronous fault that ends an item: what its report says (20 R391-R393). -/
structure FaultRec where
  cause : BitVec 16
  cause2 : BitVec 16 := 0
  pc : Word := 0
  addr : Word := 0
  count : Word := 0
  ordinal : BitVec 32 := 0
  detail : BitVec 32 := 0
  /-- PTP time of the fault -/
  time : Word := 0
  /-- what EINFO would show: the report has no field for it (14 R302) -/
  info : Word := 0
deriving DecidableEq, Repr

/-- How the thread of an item stopped (15 R316). -/
inductive EndKind where
  | exit | cont | failed
deriving DecidableEq, Repr

/-- What a slot is doing. `ended` waits for the item's work (R316 step 1). -/
inductive Phase where
  | idle | running | ended (k : EndKind)
deriving DecidableEq, Repr

/-- Why the item of a slot was asked to stop (20 R397). -/
inductive Preempt where
  | none | drain (area : Word) | flush | save (area : Word)
deriving DecidableEq, Repr

/-- The thread of one slot with its item: the architectural registers (09 R202-R207), the trap, log, walker and
debug registers, and the work it has outstanding. -/
structure Thread where
  phase : Phase := .idle
  src : ItemRec := {}
  -- registers
  x : Vector Word 64 := Vector.replicate 64 0
  xp : Vector Word 8 := Vector.replicate 8 0
  p : BitVec 8 := 0
  e : Vector Word 8 := Vector.replicate 8 0
  t : Vector (BitVec 256) 64 := Vector.replicate 64 0
  pc : Word := 0
  priv : Bool := false
  loops : List Loop := []
  handlerLoops : List Loop := []
  -- identity and placement
  item : BitVec 32 := 0
  nitems : BitVec 32 := 0
  ring : BitVec 8 := 0
  seq : BitVec 32 := 0
  row : BitVec 8 := 0
  col : BitVec 8 := 0
  sbase : BitVec 8 := 0
  plotH : Nat := 0
  plotW : Nat := 0
  plotD : Nat := 0
  root : BitVec 44 := 0
  vf : BitVec 6 := 0
  part : BitVec 4 := 0
  groups : List Membership := []
  -- thread control
  stkbase : BitVec 48 := 0
  stklim : BitVec 48 := 0
  fewait : BitVec 32 := 0x4000
  deadline : BitVec 16 := 0
  drainbud : BitVec 32 := 20000
  -- traps
  tvec : BitVec 48 := 0
  epc : BitVec 48 := 0
  ecause : BitVec 16 := 0
  estat : BitVec 16 := 0
  eaddr : Word := 0
  einfo : Word := 0
  -- late packets
  ltrap : Bool := false
  maxlate : BitVec 16 := 0
  latecnt : BitVec 32 := 0
  latePending : Bool := false
  lateItem : BitVec 32 := 0
  -- watchpoints and breakpoints
  watchA : Vector Word 4 := Vector.replicate 4 0
  watchC : Vector Word 4 := Vector.replicate 4 0
  bp : Vector (BitVec 48) 4 := Vector.replicate 4 0
  -- walker
  ow : Walker := {}
  -- lookahead and outstanding work, oldest first
  ord : Option Ord := none
  wins : List Win := []
  outs : List Out := []
  sq : List SqEntry := []
  ops : List PlaneOp := []
  chans : Vector Chan 4 := Vector.replicate 4 {}
  unsealed : BitVec 16 := 0
  batches : List (BitVec 16) := []
  batchNo : BitVec 16 := 0
  callNo : BitVec 16 := 0
  -- waits
  /-- the last turn of the slot issued nothing: its instruction waits -/
  waiting : Bool := false
  /-- YIELD: the slots of the cluster that issue before this one does again -/
  yieldTo : List Nat := []
  /-- the value that the tagged wait in progress was granted -/
  granted : Option (BitVec 32) := none
  /-- a back-edge is due at `pc` and waits for its index register (09 R221) -/
  edgeDue : Bool := false
  /-- a back-edge that was due when a logged access trapped: it is due again after ERET (09 R223) -/
  edgeKept : Bool := false
  /-- a synchronous trap that waits for the open accesses before it is taken (20 R384 step 1) -/
  trapDue : Option Trap := none
  /-- ERET re-issues the logged accesses, one in each turn (20 R390) -/
  reissuing : Bool := false
  /-- GBAR: the group arrived at and its phase then -/
  arrived : Option (Nat × BitVec 32) := none
  /-- PLOTGROW in progress: the step it was issued at, and the extents it asks for -/
  growing : Option (Nat × Nat × Nat × Nat) := none
  -- ends, faults and pre-emption
  term : Option FaultRec := none
  /-- the report of that fault is written (20 R393) -/
  reported : Bool := false
  endCause : BitVec 16 := 0
  /-- the slot's last item has run its EXIT, and the slot has dispatched none since (23 R443) -/
  exited : Bool := false
  lastPc : Word := 0
  preempt : Preempt := .none
  -- power, energy, counts
  cyc : Word := 0
  energy : Nat := 0
  heldCycles : BitVec 32 := 0
  lastCost : Nat := 0
  hint : BitVec 3 := 0
  hintUntil : Option Word := none
  /-- the step at which the hint was set: the newest unexpired hint of a cluster is sampled (22 R418) -/
  hintNo : Nat := 0
  traps : BitVec 32 := 0
  saves : BitVec 16 := 0
  flushes : BitVec 16 := 0
  occupied : Word := 0
  started : Word := 0
  /-- when its PC was last sampled, or its slot dispatched it (23 R443) -/
  pcSampled : Word := 0
deriving DecidableEq, Repr

/-- A region of a bank call (05 R112). -/
structure Region where
  off : Nat := 0
  len : Nat := 0
  key : Nat := 0
  w : Bool := false
  /-- the leaf that translated it: its first VA and its level (R112, 04 R96) -/
  leafBase : Nat := 0
  leafLevel : Nat := 0
deriving DecidableEq, Repr

/-- A bank engine (05 R109, R134). -/
structure Engine where
  part : Option (BitVec 4) := none
  prog : NMap (BitVec 32) := []
  buf : NMap Byte := []
  bufPoison : List Nat := []
  b : Vector (BitVec 32) 16 := Vector.replicate 16 0
  acc : Vector (BitVec 512) 8 := Vector.replicate 8 0
  wfmt : BitVec 2 := 0
  afmt : BitVec 2 := 0
  cblo : BitVec 4 := 0
  cbhi : BitVec 4 := 0
  ws : Vector Byte 8 := Vector.replicate 8 0
  as' : Byte := 0
  regions : Vector Region 4 := Vector.replicate 4 {}
  pc : BitVec 10 := 0
  token : BitVec 16 := 0
  fault : BitVec 8 := 0
  scaleNan : Bool := false
  faulted : Bool := false
  waiting : Bool := false
  busy : Bool := false
  renorm : Word := 0
  /-- the call it runs -/
  call : Option Nat := none
deriving DecidableEq, Repr

/-- A bank command's work (05 R130-R132). -/
inductive CmdKind where
  | program (first : Nat) (words : List (BitVec 32))
  | activations (first : Nat) (bytes : List Byte)
  | call (id : Nat)
deriving DecidableEq, Repr

/-- An entry of a stack's command queue (05 R135) with the engines of the stack that have still to perform it. -/
structure Cmd where
  uid : Nat
  no : Nat
  kind : CmdKind
  left : List Nat
  /-- an engine has begun it (05 R125: what has not yet started can be discarded) -/
  begun : Bool := false
deriving DecidableEq, Repr

/-- The send tensor of a call with the plot it lies in (05 R122, R132). -/
structure SendTensor where
  desc : BitVec 256
  row : Nat
  col : Nat
  sbase : Nat
deriving DecidableEq, Repr

/-- The first fault of a call (05 R125). -/
structure CallFault where
  engine : Nat
  code : BitVec 8
  pc : BitVec 10
  addr : BitVec 32
  /-- PTP time of the fault -/
  time : Word := 0
deriving DecidableEq, Repr

/-- What one engine of a call's set takes at its start (05 R112, R114). -/
structure CallPart where
  engine : Nat
  ordinal : Nat
  regions : List Region
deriving DecidableEq, Repr

/-- A bank call that has not completed (05 R125, R132). -/
structure Call where
  id : Nat
  uid : Nat
  root : BitVec 44
  vf : BitVec 6
  no : Nat
  pc : Word
  token : BitVec 16
  parts : List CallPart
  /-- engines that have not ended the call -/
  left : List Nat
  send : Option SendTensor
  sat : Bool
  entry : BitVec 10
  args : List (BitVec 32)
  fps : List Fp
  fault : Option CallFault
  /-- sends and word writes performed -/
  count : Nat
  /-- discarded before any engine began it: it never completes (05 R125, R133) -/
  gone : Bool := false
deriving DecidableEq, Repr

/-- A BSEND on its way to the plot (05 R122, R126): converted elements as bytes of cells. -/
structure Send where
  id : Nat
  call : Nat
  engine : Nat
  bytes : List (Loc × Byte)
deriving DecidableEq, Repr

/-- One store row of a cell (07 R161-R163). -/
structure Row where
  data : BitVec 256 := 0
  full : BitVec 8 := 0
  poison : Bool := false
deriving DecidableEq, Repr

/-- A weight plane of a matrix unit (13 R271); format none is "empty". DESIGN CHOICE (log 66): an empty plane, at reset and after a claim,
holds weights 0, scales 127 and magnitudes 0, which no product reads and a save stores. -/
structure WPlane where
  fmt : Option (BitVec 5) := none
  data : BitVec 512 := 0
  scales : BitVec 64 := 0x7F7F7F7F7F7F7F7F
  cblo : BitVec 4 := 0
  cbhi : BitVec 4 := 0
  poison : Bool := false
deriving DecidableEq, Repr

/-- The matrix unit of a cell with the item whose plot claims it (13 R271, R272). -/
structure MUnit where
  owner : Option Nat := none
  active : WPlane := {}
  shadow : WPlane := {}
deriving DecidableEq, Repr

/-- A leaf in a translation cache (04 R92): its tag, level, the first VA it covers and the entry. -/
structure TLeaf where
  root : BitVec 44
  vf : BitVec 6
  level : Nat
  base : Nat
  entry : Word
deriving DecidableEq, Repr

/-- A charged instruction of a cluster, held or busy (22 R410-R412): its slot, cost, busy cycles left, whether it has begun, the
number of its plane op, which does not complete before, and the item that its energy is charged to (R419). -/
structure Charge where
  slot : Nat
  cost : Nat
  cycles : Nat
  begun : Bool
  op : Nat := 0
  uid : Nat := 0
deriving DecidableEq, Repr

/-- A cluster: its CLCTL, charge record, samples and caches (22 R408-R421, 04 R92, 07 R163). -/
structure Cluster where
  cap : BitVec 24 := 131072
  refill : BitVec 16 := 16384
  point : BitVec 3 := 0
  rail : BitVec 2 := 0
  on : Bool := true
  balance : BitVec 40 := 131072
  charges : List Charge := []
  sample : Word := 0
  /-- the window of 10,000 ns of PTP time that the sample in progress belongs to (22 R418) -/
  window : Nat := 0
  temp : BitVec 9 := 0
  maxTemp : BitVec 9 := 0
  cycles : Nat := 0
  issue : Nat := 0
  mem : Nat := 0
  chg : Nat := 0
  issued : Bool := false
  /-- the cycles of the stretch in progress (22 R414) -/
  stretch : Option Nat := none
  droops : Word := 0
  thermalCap : Option (BitVec 3) := none
  halved : Bool := false
  eccCorr : Word := 0
  tlb : List TLeaf := []
deriving DecidableEq, Repr

/-- A rail (22 R408). -/
structure Rail where
  ilim : BitVec 16 := 900
  vnow : BitVec 8 := 160
  vfloor : BitVec 8 := 124
  en : Bool := true
deriving DecidableEq, Repr

/-- The steps of an accepted operating-point request (22 R416). -/
inductive DvfsStage where
  | rampUp | hop | rampDown
deriving DecidableEq, Repr

/-- DVFSSTAT and the request in progress (22 R415, R416). -/
structure Dvfs where
  seq : BitVec 16 := 0
  cluster : BitVec 8 := 0
  status : BitVec 4 := 0
  stage : Option DvfsStage := none
  /-- the cluster and the point of the request in progress -/
  target : BitVec 8 := 0
  point : BitVec 3 := 0
  /-- the request is a thermal cap's, which DVFSSTAT does not report (R421) -/
  thermal : Bool := false
deriving DecidableEq, Repr

/-- The power control block besides the clusters' registers (22 R408, R415, R420). -/
structure Power where
  rails : Vector Rail 4 := Vector.replicate 4 {}
  vfenergy : NMap Word := []
  /-- energy of each function that does not make a whole µJ yet, in the model's energy unit -/
  vfpart : NMap Nat := []
  dvfs : Dvfs := {}
  errOffset : BitVec 16 := 0
  errWhy : BitVec 8 := 0
deriving DecidableEq, Repr

/-- A Galliard event (23 R429). -/
structure Ev where
  time : Word
  kind : Byte
  source : BitVec 12
  vf : BitVec 12
  payload : BitVec 32
  /-- the stamp record that the event opens, when it is one (23 R437) -/
  stamp : Option (BitVec 384) := none
  /-- the merge unit had no room for it: its source holds it (23 R434) -/
  held : Bool := false
deriving DecidableEq, Repr

/-- What the merge unit holds of one virtual function's trace (23 R433, R434). -/
structure TraceV where
  cfg : Option TraceCfg := none
  /-- CTL, PERIOD and MASK as the merge unit last read them: a change takes effect within 2 µs (R433) -/
  ctl : BitVec 32 := 0
  period : BitVec 32 := 0
  mask : BitVec 256 := 0
  /-- events lost since the last LOSS event -/
  lost : BitVec 32 := 0
  /-- events lost that the block's LOST does not count yet -/
  uncounted : BitVec 32 := 0
  halted : Bool := false
deriving DecidableEq, Repr

/-- A DBG register block of a slot (23 R438) and the stop it holds. -/
structure Dbg where
  result : BitVec 2 := 0
  cmd : BitVec 4 := 0
  attach : Bool := false
  num : BitVec 16 := 0
  data : Word := 0
  stat : Word := 15
  stopped : Bool := false
  haltReq : Bool := false
  stepReq : Bool := false
  /-- the REASON of a stop that is due and waits for what is in flight (20 R402) -/
  due : Option Nat := none
  /-- resumed or stepped from a stop here: the instruction issues without matching again (log 35) -/
  pass : Option Word := none
deriving DecidableEq, Repr

/-- A launch that has not completed (15 R308, R309, R323-R325). -/
structure Launch where
  id : Nat
  seq : BitVec 32
  ring : BitVec 8
  part : BitVec 4
  vf : BitVec 6
  root : BitVec 44
  code : Word
  arg : Word
  items : BitVec 32
  prio : BitVec 8
  flags : BitVec 16
  queue : BitVec 8
  rodsH : Nat
  rodsW : Nat
  depth : Nat
  dl : BitVec 16
  cycles : BitVec 32
  done : Word
  signal : Word
  devmask : Word
  gen : BitVec 32
  origin : BitVec 8
  next : BitVec 32 := 0
  /-- items that are to end: those of the packet and those spawned or continued -/
  expected : Nat
  ok : BitVec 32 := 0
  failed : BitVec 32 := 0
  faults : BitVec 32 := 0
  first : Option (BitVec 16 × BitVec 32) := none
  start : Option Word := none
  energy : Nat := 0
  late : BitVec 32 := 0
  /-- devices whose acceptance a replicated launch still lacks -/
  lacks : List (BitVec 8) := []
  replicated : Bool := false
  cancelled : Bool := false
  /-- when it was accepted, in steps (15 R312: oldest) -/
  age : Nat := 0
deriving DecidableEq, Repr

/-- An entry of a queue: a launch entry, a record, an eligible parked item or a saved item (15 R311, R317; 20 R400). -/
inductive QEntry where
  | launch (id : Nat)
  | item (r : ItemRec)
  | parked (uid : Nat)
  | saved (uid : Nat)
deriving DecidableEq, Repr

/-- One of the 64 queues (15 R311, R312). -/
structure Queue where
  part : BitVec 4 := 0
  enabled : Bool := false
  capacity : Nat := 0
  /-- the backing area that holds its records (R311; log 45), and how many records have entered it -/
  area : Nat := 0
  entered : Nat := 0
  share : Nat := 0
  credit : Int := 0
  entries : List QEntry := []
  boost : Nat := 0
deriving DecidableEq, Repr

/-- A launch ring's device-side state (15 R306, R307). -/
structure Ring where
  cfg : Option RingCfg := none
  halted : Bool := false
deriving DecidableEq, Repr

/-- A position held back for a picked entry that waits (15 R313). -/
structure Reserve where
  queue : Nat
  entry : QEntry
  row : Nat
  col : Nat
  sbase : Nat
  h : Nat
  w : Nat
  d : Nat
deriving DecidableEq, Repr

/-- A partition's configuration and its reservations. -/
structure Part where
  cfg : Option PartCfg := none
  reserves : List Reserve := []
deriving DecidableEq, Repr

/-- A parked item (15 R317). -/
structure Parked where
  thr : Thread
  wait : Word
  frame : Word
  resume : Word
  eligible : Bool
  /-- the slot it gave up, which its events still name (23 R429) -/
  slot : SlotNo
deriving DecidableEq, Repr

/-- What a save keeps of a parked item (20 R397; log 29): its wait pointer, its new frame, its resume address and whether it
was eligible. -/
structure ParkRec where
  wait : Word
  frame : Word
  resume : Word
  eligible : Bool
deriving DecidableEq, Repr

/-- A saved item (20 R398-R400): where its save area lies, what its thread holds beside the area's contents, its matrix
units and its void cells by plot-relative cell, whether it was parked, and whether a debugger had it stopped. -/
structure Saved where
  thr : Thread
  area : Word
  units : NMap MUnit
  voids : List Nat
  park : Option ParkRec
  halted : Bool
deriving DecidableEq, Repr

/-- A member of a group: its rank, its item, and whether it has arrived at the current barrier. -/
structure Member where
  rank : BitVec 12
  uid : Nat
  arrived : Bool
deriving DecidableEq, Repr

/-- A live group (15 R318). -/
structure Group where
  gid : Nat
  record : Word
  root : BitVec 44
  vf : BitVec 6
  part : BitVec 4
  cap : Nat
  next : Nat
  live : Nat
  phase : BitVec 32
  arrived : Nat
  xbase : Nat
  xrows : Nat
  broken : Bool
  members : List Member
deriving DecidableEq, Repr

/-- A waiter of a tagged word (17 R362): its slot, the word, and whether it waits for full (emptying it or not) or for
empty (with the value to store). -/
structure FeWait where
  slot : Nat
  cell : Nat
  row : Nat
  word : Nat
  full : Bool
  empties : Bool
  val : BitVec 32
  /-- the outstanding access that waits, or 0 for a form that waits at issue -/
  out : Nat := 0
deriving DecidableEq, Repr

/-- A Bolaezer link (14 R303). -/
structure Link where
  version : Option (BitVec 2) := some 2
  lanes : Nat := 8
  retired : Bool := false
  replays : Nat := 0
deriving DecidableEq, Repr

/-- A packet on its way (14 R293-R295): its number, where it comes from, the item whose thread is charged, its partition's tag and its DL,
which a thread's packets take from DEADLINE when they are sent and a response from its request. -/
structure Flight where
  no : Nat
  packet : Packet
  src : PacketDest
  uid : Nat
  part : BitVec 4
  deadline : BitVec 16
deriving DecidableEq, Repr

/-- A buffer posted to a queue pair: its physical address, layout, key slot and length. -/
structure RecvBuf where
  pa : BitVec 56
  layout : BitVec 3
  key : BitVec 6
  len : Nat
deriving DecidableEq, Repr

/-- One of the 32,768 queue pairs (14 R305): its posted buffers, and its completions, oldest first: the immediate of a WRITE, or
none for a SEND, and how many bytes. -/
structure QueuePair where
  recvs : List RecvBuf := []
  done : List (Option (BitVec 32) × Nat) := []
deriving DecidableEq, Repr

/-- An image slot of the NAND (24 R449). -/
structure ImageSlot where
  version : BitVec 32 := 1
  good : Bool := true
  writing : Bool := false
deriving DecidableEq, Repr

/-- The boot record (24 R450) and what the boot ROM knows. -/
structure Boot where
  tgood : Word := 0
  failStep : BitVec 32 := 0
  cntA : Nat := 0
  cntB : Nat := 0
  badA : Bool := false
  badB : Bool := false
  lastCold : Bool := true
  recovery : Bool := false
  activeB : Bool := false
  /-- the image slot that the last start booted (R449) -/
  bootedB : Bool := false
  starts : Word := 1
  imageA : ImageSlot := {}
  imageB : ImageSlot := {}
  /-- the calibration record in NAND, when it is valid (R448, R452) -/
  calibration : Option Calibration := some {}
  powered : Bool := true
  /-- step 8 of the current start has been reached -/
  marked : Bool := true
  /-- the host port, once it is trained (R454) -/
  hostLink : Option HostLink := none
  alerts : Nat := 0
  /-- where in main memory the record is mirrored (R450; log 48) -/
  mirror : Nat := 0
  /-- the start has set up the links and the runtime's tables and waits for step 8 (R447, R449) -/
  waits : Bool := false
  /-- a start has failed and its warm start follows (R449) -/
  due : Bool := false
  /-- what the outside gave for the last start, with the outcomes of the warm starts that may follow it -/
  cfg : Option StartCfg := none
deriving DecidableEq, Repr

/-- What the hardware reports to the system cores about an item (20 R398, R397). -/
inductive Report where
  | saved (uid : Nat)
  | drained (uid : Nat)
  | flushed (uid : Nat)
  | value (bytes : List Byte)
  | counts (evts waitns : Word)
  /-- a replicated packet forwarded to a device of its mask, by the launch's number here (15 R323) -/
  | forwarded (device : BitVec 8) (launch : Nat)
  /-- a PTP message of an Ethernet port, stamped in it (one step) or reported for the message that follows (two steps) (14 R305) -/
  | stamped (port : Nat) (oneStep : Bool) (time : Word)
  /-- this device's acceptance of a replicated launch sent to a device of its mask: the origin and the generation (15 R323) -/
  | acceptance (device origin : BitVec 8) (gen : BitVec 32)
deriving DecidableEq, Repr

/-- Who moves in a step (log 2). -/
inductive Turn where
  | slot (k : SlotNo)
  | engine (e : BitVec 10)
  | event (i : Instr) (inp : Input)
deriving DecidableEq, Repr

/-- The machine. `thr` is the thread of slot `cur`, `eng` the engine `curE`; the others stand in `slots` and `engines`.
-/
structure State where
  -- the model's own: who moves, the event's input, counters
  turns : List Turn := []
  input : Input := {}
  stepNo : Nat := 0
  uid : Nat := 0
  opNo : Nat := 0
  -- threads and engines
  cur : SlotNo := 0
  thr : Thread := {}
  slots : NMap Thread := []
  curE : BitVec 10 := 0
  eng : Engine := {}
  engines : NMap Engine := []
  -- main memory
  mem : List Host.Cell := []
  memKey : NMap KeyVal := []
  /-- the key under which the clear at the last start wrote every sector (04 R90) -/
  baseKey : KeyVal := .drawn 0
  poison : List Nat := []
  extMem : NMap (NMap Byte) := []
  /-- the key slot under which each sector of a device's memory was last written from here (04 R90, R91) -/
  extKey : NMap (NMap Nat) := []
  keySlots : NMap KeyVal := [(0, .drawn 0)]
  draws : Nat := 1
  eccCorr : NMap Word := []
  l2tlb : NMap (List TLeaf) := []
  walkCache : NMap (List TLeaf) := []
  -- the plane
  rows : NMap Row := []
  units : NMap MUnit := []
  voids : List Nat := []
  clusters : NMap Cluster := []
  feq : List FeWait := []
  -- bank commands
  cmdq : NMap (List Cmd) := []
  calls : List Call := []
  sends : List Send := []
  -- network
  netCycles : Nat := 0
  /-- ticks of device time that make no whole network cycle yet: 8 make one (01 R12, 23 R427) -/
  netPart : Nat := 0
  flights : List Flight := []
  flightNo : Nat := 0
  portPart : NMap (BitVec 4) := []
  qps : NMap QueuePair := []
  isolation : NMap Word := []
  links : NMap Link := []
  portsRetired : List Nat := []
  deviceId : BitVec 8 := 0
  domain : List (BitVec 8) := []
  -- scheduler
  parts : NMap Part := []
  rings : NMap Ring := []
  queues : NMap Queue := []
  launches : List Launch := []
  launchId : Nat := 0
  seq : BitVec 32 := 0
  parked : List Parked := []
  saved : List Saved := []
  groups : List Group := []
  gLast : NMap (BitVec 32) := []
  /-- acceptances of replicated launches that came before their packet: origin, generation, device (15 R324) -/
  early : List (BitVec 8 × BitVec 32 × BitVec 8) := []
  msix : List (BitVec 16) := []
  reports : List Report := []
  -- power
  power : Power := {}
  -- time, trace, debug
  time : Word := 0
  dieTime : Vector Word 2 := Vector.replicate 2 0
  /-- what has still to be removed of an offset from the grandmaster, and whether by half rate (23 R427) -/
  timeOffset : Int := 0
  halfRate : Bool := false
  /-- ticks that have not yet been used to slew -/
  slewPart : Nat := 0
  lockState : BitVec 2 := 0
  /-- the Ethernet port that disciplines T; none when time comes from the host (23 R427) -/
  ptpPort : Option (BitVec 5) := none
  traces : NMap TraceV := []
  events : List Ev := []
  evts : NMap Word := []
  waitns : NMap Word := []
  /-- the time up to which WAITNS counts the events that are held -/
  waitMark : Word := 0
  dbg : NMap Dbg := []
  -- start and service
  boot : Boot := {}
deriving DecidableEq, Repr

/-- Why the machine stops: for nothing. Where the manual lets nothing run (24 R447-R449), a turn changes nothing. -/
inductive Fault where
deriving DecidableEq, Repr

/-- Why the model gives a step no meaning. -/
inductive Refusal where
  /-- Raised only by an arm of `exec` whose instruction has no meaning yet, with its mnemonic. Safe. -/
  | notModelled (mnemonic : String)
deriving DecidableEq, Repr

/-- The boot record and the void map of a module's first good start as the boot ROM mirrors them (24 R450, R451): MAGIC, STARTS 1, FLAGS
of a cold start, versions 1, and the entries past an empty void map. The bytes not listed are zero. -/
def resetMirror : List Host.Cell :=
  [(0, 0x58), (1, 0x48), (2, 0x54), (3, 0x58), (4, 0x42), (5, 0x4F), (6, 0x52), (7, 0x48), (8, 1), (17, 4), (20, 1), (24, 1)]
    ++ (List.range 64).map fun i => (66 + i, 0xFF)

/-- The state that a first good cold start leaves in the hardware (24 R447, R448), with nothing configured: no
partition, ring, queue or program (log 1); every register without a reset value of the manual at 0 (log 4). -/
def State.reset : State := { mem := resetMirror }

end Sys2Proof.Machine
end

