-- ==== Sys2Proof/Machine/Map.lean ====
section
/-!
DEFINITION. Reading and writing sparse data (`NMap`): one canonical form, keys strictly rising and no default listed, so
that equal contents are equal lists.
-/
namespace Sys2Proof.Machine

/-- What the map holds at `k`: the default `d` where nothing is listed. -/
def NMap.get {α : Type} (d : α) : NMap α → Nat → α
  | [], _ => d
  | (j, v) :: r, k => if j = k then v else NMap.get d r k

/-- Without the entry of `k`. -/
def NMap.drop {α : Type} (m : NMap α) (k : Nat) : NMap α := m.filter fun c => c.1 ≠ k

/-- An entry put in its place. -/
def NMap.insert {α : Type} (k : Nat) (v : α) : NMap α → NMap α
  | [] => [(k, v)]
  | (j, w) :: r => if k < j then (k, v) :: (j, w) :: r else (j, w) :: NMap.insert k v r

/-- The map with `v` at `k`; the default is not listed. -/
def NMap.put {α : Type} [DecidableEq α] (d : α) (m : NMap α) (k : Nat) (v : α) : NMap α :=
  if v = d then NMap.drop m k else NMap.insert k v (NMap.drop m k)

/-- The canonical form: keys strictly rising, no entry equal to the default. -/
def NMap.wf {α : Type} [DecidableEq α] (d : α) : NMap α → Bool
  | [] => true
  | [(_, v)] => v ≠ d
  | (j, v) :: (k, w) :: r => j < k && v ≠ d && NMap.wf d ((k, w) :: r)

end Sys2Proof.Machine
end

