-- ==== Sys2Proof/Machine/Geo.lean ====
section
/-!
DEFINITION. The plane's geometry (01 R8-R13), bit fields of words, and the accessors of the parts of the state that are
held as sparse data: clusters, slots, engines, store rows, groups.
-/
namespace Sys2Proof.Machine

/-- Bits [lo+n−1:lo] of a number. -/
def bits (v lo n : Nat) : Nat := v / 2 ^ lo % 2 ^ n

/-- A field of a word. -/
def fld {w : Nat} (v : BitVec w) (lo n : Nat) : Nat := bits v.toNat lo n

/-- A field of a word read as a two's complement number. -/
def sfld {w : Nat} (v : BitVec w) (lo n : Nat) : Int := (v.extractLsb' lo n).toInt

/-- The little-endian number of a list of bytes (00 R1). -/
def leNat : List Byte → Nat
  | [] => 0
  | b :: r => b.toNat + 256 * leNat r

/-- `n` bytes of a number, lowest first. -/
def leBytes : Nat → Nat → List Byte
  | 0, _ => []
  | n + 1, v => BitVec.ofNat 8 v :: leBytes n (v / 256)

/-- Sign extension of the low `w` bits to 64. -/
def sext64 (w v : Nat) : Word :=
  let b := v % 2 ^ w
  BitVec.ofNat 64 (if 0 < w ∧ 2 ^ (w - 1) ≤ b then b + 2 ^ 64 - 2 ^ w else b)

/-- A list with `k` put in its place, without repeats: a rising list of numbers as a set. -/
def setAdd (k : Nat) : List Nat → List Nat
  | [] => [k]
  | j :: r => if k < j then k :: j :: r else if k = j then j :: r else j :: setAdd k r

/-- A set without `k`. -/
def setDel (k : Nat) (l : List Nat) : List Nat := l.filter (· ≠ k)

/-- The entry listed at a key, if one is. -/
def NMap.find {α : Type} : NMap α → Nat → Option α
  | [], _ => none
  | (j, v) :: r, k => if j = k then some v else NMap.find r k

/-- An entry put at its key, whatever its value. -/
def NMap.set {α : Type} (m : NMap α) (k : Nat) (v : α) : NMap α := NMap.insert k v (NMap.drop m k)

/-- A cell by row and column (00 R4). -/
def cellOf (row col : Nat) : Nat := row * 256 + col
/-- The row of a cell. -/
def cellRow (c : Nat) : Nat := c / 256
/-- The column of a cell. -/
def cellCol (c : Nat) : Nat := c % 256
/-- The cluster of a cell: cr·16 + cc (01 R12, 09 R206). -/
def clusterOf (c : Nat) : Nat := cellRow c / 16 * 16 + cellCol c / 16
/-- The compute die of a cluster: west 0, east 1 (01 R8). -/
def dieOf (cl : Nat) : Nat := cl % 16 / 8
/-- The cluster of a slot. -/
def slotCluster (k : SlotNo) : Nat := k.toNat / 8

/-- A cluster's registers and record after reset: its RAIL is 2·(cc div 8) + (cr div 8) (22 R408). -/
def Cluster.atReset (c : Nat) : Cluster := { rail := BitVec.ofNat 2 (2 * (c % 16 / 8) + c / 16 / 8) }

/-- Cluster `c`. -/
def State.cluster (s : State) (c : Nat) : Cluster := NMap.get (Cluster.atReset c) s.clusters c
/-- The state with cluster `c` replaced. -/
def State.setCluster (s : State) (c : Nat) (v : Cluster) : State :=
  { s with clusters := NMap.put (Cluster.atReset c) s.clusters c v }

/-- The cluster of the thread that acts. -/
def State.cl (s : State) : Nat := slotCluster s.cur

/-- Is the power domain of the cell's cluster off (07 R169)? -/
def State.isOff (s : State) (c : Nat) : Bool := !(s.cluster (clusterOf c)).on
/-- Is the cell void: listed, or in a powered-off cluster (01 R13)? -/
def State.isVoid (s : State) (c : Nat) : Bool := s.voids.contains c || s.isOff c

/-- The thread of slot `k`. -/
def State.thread (s : State) (k : SlotNo) : Thread := if k = s.cur then s.thr else NMap.get {} s.slots k.toNat
/-- The state with the thread of slot `k` replaced. -/
def State.setThread (s : State) (k : SlotNo) (t : Thread) : State :=
  if k = s.cur then { s with thr := t } else { s with slots := NMap.put {} s.slots k.toNat t }
/-- The state in which slot `k` is the one that acts. -/
def State.atSlot (s : State) (k : SlotNo) : State :=
  if k = s.cur then s
  else { s with cur := k, thr := NMap.get {} s.slots k.toNat
                slots := NMap.put {} (NMap.put {} s.slots s.cur.toNat s.thr) k.toNat {} }

/-- Engine `e`. -/
def State.engine (s : State) (e : BitVec 10) : Engine := if e = s.curE then s.eng else NMap.get {} s.engines e.toNat
/-- The state with engine `e` replaced. -/
def State.setEngine (s : State) (e : BitVec 10) (v : Engine) : State :=
  if e = s.curE then { s with eng := v } else { s with engines := NMap.put {} s.engines e.toNat v }
/-- The state in which engine `e` is the one that acts. -/
def State.atEngine (s : State) (e : BitVec 10) : State :=
  if e = s.curE then s
  else { s with curE := e, eng := NMap.get {} s.engines e.toNat
                engines := NMap.put {} (NMap.put {} s.engines s.curE.toNat s.eng) e.toNat {} }

/-- Every slot that holds a thread. -/
def State.liveSlots (s : State) : List SlotNo :=
  let others := s.slots.filterMap fun c => if c.2.phase = .idle then none else some (BitVec.ofNat 11 c.1)
  if s.thr.phase = .idle then others
  else others.filter (fun k => k.toNat < s.cur.toNat) ++ s.cur :: others.filter (fun k => s.cur.toNat < k.toNat)

/-- The slot of the item `uid`, if it has one. -/
def State.slotOfUid (s : State) (uid : Nat) : Option SlotNo :=
  s.liveSlots.find? fun k => (s.thread k).src.uid == uid

/-- A change of the thread of an item that holds a slot. -/
def State.mapUid (s : State) (uid : Nat) (f : Thread → Thread) : State :=
  match s.slotOfUid uid with
  | some k => s.setThread k (f (s.thread k))
  | none => s

/-- Energy units of the model in one nJ (22 R419; log 14). -/
def unitsPerNJ : Nat := 102400 * 105 * 840 * 1000

/-- Energy units of the model in one µJ. -/
def unitsPerUJ : Nat := unitsPerNJ * 1000

/-- Energy that the item of slot `k` uses: it enters the item's sum and its function's (22 R419, R420). -/
def State.addEnergy (s : State) (k : SlotNo) (n : Nat) : State :=
  let t := s.thread k
  let v := t.vf.toNat
  let p := NMap.get 0 s.power.vfpart v + n
  let whole := NMap.get 0 s.power.vfenergy v + BitVec.ofNat 64 (p / unitsPerUJ)
  let s := s.setThread k { t with energy := t.energy + n }
  { s with power := { s.power with vfpart := NMap.put 0 s.power.vfpart v (p % unitsPerUJ)
                                   vfenergy := NMap.put 0 s.power.vfenergy v whole } }

/-- Store row `r` of cell `c`. -/
def State.row (s : State) (c r : Nat) : Row := NMap.get {} s.rows (c * 256 + r)
/-- The state with a store row replaced. -/
def State.setRow (s : State) (c r : Nat) (v : Row) : State := { s with rows := NMap.put {} s.rows (c * 256 + r) v }

/-- The matrix unit of a cell. -/
def State.munit (s : State) (c : Nat) : MUnit := NMap.get {} s.units c
/-- The state with a matrix unit replaced. -/
def State.setUnit (s : State) (c : Nat) (v : MUnit) : State := { s with units := NMap.put {} s.units c v }

/-- A live group. -/
def State.group (s : State) (gid : Nat) : Option Group := s.groups.find? (·.gid == gid)
/-- The state with a live group replaced. -/
def State.setGroup (s : State) (g : Group) : State :=
  { s with groups := s.groups.map fun h => if h.gid = g.gid then g else h }

/-- Where a plot lies (07 R164): its origin, its first store row and its extents. -/
structure Plot where
  row : Nat
  col : Nat
  sbase : Nat
  h : Nat
  w : Nat
  d : Nat
deriving DecidableEq, Repr

/-- The plot of a thread. -/
def Thread.plot (t : Thread) : Plot := ⟨t.row.toNat, t.col.toNat, t.sbase.toNat, t.plotH, t.plotW, t.plotD⟩

/-- The cell at a plot-relative row and column. -/
def Plot.cell (p : Plot) (r c : Nat) : Nat := cellOf (p.row + r) (p.col + c)

/-- An asynchronous fault of an item: the first one terminates it (20 R392, R394). -/
def Thread.fail (t : Thread) (f : FaultRec) : Thread := if t.term.isSome then t else { t with term := some f }

/-- The item of the thread that acts meets an asynchronous fault now (20 R392, R393). -/
def State.failNow (s : State) (f : FaultRec) : State := { s with thr := s.thr.fail { f with time := s.time } }

end Sys2Proof.Machine
end

