-- ==== Sys2Proof/Machine/Num.lean ====
section
/-!
DEFINITION. Number formats and rounding (10 R229-R248): exact values, the one rounding, overflow, conversions, and the
correctly rounded functions. A finite value is ±m · 2^e; a result that is not a dyadic number is held with more than
enough bits and a last bit 1 that stands for the rest, so that rounding it is rounding the exact value.
-/
namespace Sys2Proof.Machine

/-- An exact value with the IEEE special values. -/
inductive Val where
  | nan
  | inf (neg : Bool)
  | fin (neg : Bool) (m : Nat) (e : Int)
deriving DecidableEq, Repr

/-- A rounding mode (02 R31). -/
inductive Mode where
  | rne | rtz | rdn | rup | rna
deriving DecidableEq, Repr

/-- The mode of an RND code; 5-7 are refused at decode. -/
def Mode.ofCode (c : Nat) : Mode :=
  match c with
  | 0 => .rne
  | 1 => .rtz
  | 2 => .rdn
  | 3 => .rup
  | _ => .rna

/-- A binary floating-point format (10 R232, R234): exponent and fraction bits, bias, and which specials it has. -/
structure FFmt where
  ebits : Nat
  tbits : Nat
  bias : Nat
  hasInf : Bool
  hasNan : Bool
deriving DecidableEq, Repr

/-- The floating-point formats by FMT code (10 R229, R232). -/
def ffmt (code : Nat) : Option FFmt :=
  match code with
  | 7 => some ⟨11, 52, 1023, true, true⟩
  | 8 => some ⟨8, 23, 127, true, true⟩
  | 9 => some ⟨8, 7, 127, true, true⟩
  | 10 => some ⟨5, 10, 15, true, true⟩
  | 11 => some ⟨4, 3, 7, false, true⟩
  | 12 => some ⟨5, 2, 15, true, true⟩
  | 13 => some ⟨2, 1, 1, false, false⟩
  | _ => none

/-- FP64. -/
def fp64 : FFmt := ⟨11, 52, 1023, true, true⟩
/-- FP32. -/
def fp32 : FFmt := ⟨8, 23, 127, true, true⟩

/-- Width of a format in bits. -/
def FFmt.width (F : FFmt) : Nat := 1 + F.ebits + F.tbits

/-- The exponent of the last place of the smallest normal and of every subnormal. -/
def FFmt.qmin (F : FFmt) : Int := 1 - (F.bias : Int) - F.tbits

/-- The largest finite value, as significand and exponent of its last place (10 R232). -/
def FFmt.maxFin (F : FFmt) : Nat × Int :=
  let top : Int := if F.hasInf then (2 ^ F.ebits - 2 : Int) - F.bias else (2 ^ F.ebits - 1 : Int) - F.bias
  let sig := if F.hasInf || !F.hasNan then 2 ^ (F.tbits + 1) - 1 else 2 ^ (F.tbits + 1) - 2
  (sig, top - F.tbits)

/-- The canonical quiet NaN (10 R234); FP4E2M1, which has none, gives +0 (R240). -/
def FFmt.qnan (F : FFmt) : Nat :=
  if F.hasInf then (2 ^ F.ebits - 1) * 2 ^ F.tbits + 2 ^ (F.tbits - 1)
  else if F.hasNan then 2 ^ (F.ebits + F.tbits) - 1
  else 0

/-- The sign bit in place. -/
def FFmt.sign (F : FFmt) (neg : Bool) : Nat := if neg then 2 ^ (F.ebits + F.tbits) else 0

/-- The encoding of an infinity; formats without one have no use of it. -/
def FFmt.infBits (F : FFmt) (neg : Bool) : Nat := F.sign neg + (2 ^ F.ebits - 1) * 2 ^ F.tbits

/-- The encoding of k · 2^q, a value of the format (10 R233). -/
def FFmt.pack (F : FFmt) (neg : Bool) (k : Nat) (q : Int) : Nat :=
  if k < 2 ^ F.tbits then F.sign neg + k
  else
    let (k, q) := if k = 2 ^ (F.tbits + 1) then (k / 2, q + 1) else (k, q)
    F.sign neg + (q - F.qmin + 1).toNat * 2 ^ F.tbits + (k - 2 ^ F.tbits)

/-- The largest finite value's encoding. -/
def FFmt.maxBits (F : FFmt) (neg : Bool) : Nat := F.pack neg F.maxFin.1 F.maxFin.2

/-- The exact value of an encoding (10 R233, R234). -/
def FFmt.value (F : FFmt) (b : Nat) : Val :=
  let f := b % 2 ^ F.tbits
  let x := b / 2 ^ F.tbits % 2 ^ F.ebits
  let neg := b / 2 ^ (F.ebits + F.tbits) % 2 = 1
  if x = 2 ^ F.ebits - 1 ∧ F.hasInf then (if f = 0 then .inf neg else .nan)
  else if x = 2 ^ F.ebits - 1 ∧ F.hasNan ∧ f = 2 ^ F.tbits - 1 then .nan
  else if x = 0 then .fin neg f F.qmin
  else .fin neg (2 ^ F.tbits + f) (F.qmin + x - 1)

/-- Bits of m: 0 for 0. -/
def bitLen (m : Nat) : Nat := if m = 0 then 0 else Nat.log2 m + 1

/-- m · 2^(−s) to an integer under a mode, for a value of sign `neg` (10 R236). -/
def shiftRound (mode : Mode) (neg : Bool) (m s : Nat) : Nat :=
  let q := m / 2 ^ s
  let r := m % 2 ^ s
  if r = 0 then q
  else
    let half := 2 ^ (s - 1)
    match mode with
    | .rne => if r > half ∨ (r = half ∧ q % 2 = 1) then q + 1 else q
    | .rna => if r ≥ half then q + 1 else q
    | .rtz => q
    | .rdn => if neg then q + 1 else q
    | .rup => if neg then q else q + 1

/-- The overflow result of R239. -/
def FFmt.overflow (F : FFmt) (mode : Mode) (sat neg : Bool) : Nat :=
  let away := if F.hasInf then F.infBits neg else if F.hasNan then F.qnan else F.maxBits neg
  if sat then F.maxBits neg
  else match mode with
    | .rne | .rna => away
    | .rtz => F.maxBits neg
    | .rdn => if neg then away else F.maxBits neg
    | .rup => if neg then F.maxBits neg else away

/-- round(v, F, mode) with the overflow rule (10 R236, R239) of ±m · 2^e. -/
def FFmt.roundFin (F : FFmt) (mode : Mode) (sat neg : Bool) (m : Nat) (e : Int) : Nat :=
  if m = 0 then F.sign neg
  else
    let q := max (e + bitLen m - (F.tbits + 1)) F.qmin
    let k := if q ≤ e then m * 2 ^ (e - q).toNat else shiftRound mode neg m (q - e).toNat
    let (ms, mq) := F.maxFin
    let tooBig := if mq ≤ q then ms < k * 2 ^ (q - mq).toNat else ms * 2 ^ (mq - q).toNat < k
    if tooBig then F.overflow mode sat neg else F.pack neg k q

/-- An arithmetic result brought into a format: SAT acts only on the overflow of a finite value (10 R239). -/
def FFmt.result (F : FFmt) (mode : Mode) (sat : Bool) : Val → Nat
  | .nan => F.qnan
  | .inf neg => if F.hasInf then F.infBits neg else if F.hasNan then F.qnan else F.maxBits neg
  | .fin neg m e => F.roundFin mode sat neg m e

/-- A conversion into a float format (10 R240). -/
def FFmt.convert (F : FFmt) (mode : Mode) (sat : Bool) : Val → Nat
  | .nan => F.qnan
  | .inf neg =>
    if !F.hasNan || sat then F.maxBits neg
    else if F.hasInf then F.infBits neg else F.qnan
  | .fin neg m e => F.roundFin mode sat neg m e

/-- The signed value of ±m · 2^e at the exponent x ≤ e. -/
def alignTo (neg : Bool) (m : Nat) (e x : Int) : Int :=
  let n : Int := m * 2 ^ (e - x).toNat
  if neg then -n else n

/-- An integer times 2^x as a value; zero has the sign given. -/
def valOf (n : Int) (x : Int) (zeroNeg : Bool) : Val :=
  if n = 0 then .fin zeroNeg 0 0 else .fin (n < 0) n.natAbs x

/-- Negation changes the sign alone. -/
def Val.neg : Val → Val
  | .nan => .nan
  | .inf s => .inf !s
  | .fin s m e => .fin (!s) m e

/-- Is the value zero? -/
def Val.isZero : Val → Bool
  | .fin _ 0 _ => true
  | _ => false

/-- The exact product (09 R213, 10 R237). -/
def Val.mul : Val → Val → Val
  | .nan, _ | _, .nan => .nan
  | .inf s, .inf t => .inf (s != t)
  | .inf s, .fin t m _ | .fin t m _, .inf s => if m = 0 then .nan else .inf (s != t)
  | .fin s m e, .fin t n x => .fin (s != t) (m * n) (e + x)

/-- The exact sum of a list with special values, and the zero sign of R237: a zero sum is +0, −0 under RDN, and −0 when
every term is −0 (11 R264; log 18). -/
def xsum (mode : Mode) (l : List Val) : Val :=
  let hasInf (s : Bool) := l.any fun v => v == .inf s
  if l.any (· == .nan) || (hasInf true && hasInf false) then .nan
  else if hasInf true then .inf true
  else if hasInf false then .inf false
  else
    let x := l.foldl (fun x v => match v with | .fin _ _ e => min x e | _ => x) 0
    let n := l.foldl (fun n v => match v with | .fin s m e => n + alignTo s m e x | _ => n) (0 : Int)
    let allNegZero := !l.isEmpty && l.all fun v => match v with | .fin true 0 _ => true | _ => false
    valOf n x (allNegZero || (mode == .rdn && !l.isEmpty))

/-- The exact sum of two values. -/
def Val.add (mode : Mode) (a b : Val) : Val := xsum mode [a, b]

/-- The order of two values, −0 = +0; none with a NaN. -/
def Val.cmp : Val → Val → Option Ordering
  | .nan, _ | _, .nan => none
  | .inf s, .inf t => some (if s = t then .eq else if s then .lt else .gt)
  | .inf s, .fin .. => some (if s then .lt else .gt)
  | .fin .., .inf t => some (if t then .gt else .lt)
  | .fin s m e, .fin t n x =>
    let y := min e x
    some (compare (alignTo s m e y) (alignTo t n x y))

/-- FMIN, FMAX and their plane forms (09 R213): −0 below +0, one NaN gives the other operand. -/
def Val.pick (least : Bool) (a b : Val) : Val :=
  match a.cmp b with
  | none => if a = .nan then b else a
  | some .lt => if least then a else b
  | some .gt => if least then b else a
  | some .eq =>
    match a with
    | .fin s 0 _ => if s = least then a else b
    | _ => a

/-- Extra bits kept of an inexact quotient or root: more than any format's significand needs. -/
def extraBits : Nat := 160

/-- The exact quotient of finite values, b ≠ 0, as bits enough to round it. -/
def divFin (neg : Bool) (m : Nat) (e : Int) (n : Nat) (x : Int) : Val :=
  let k := extraBits + bitLen n
  let q := m * 2 ^ k / n
  let r := m * 2 ^ k % n
  .fin neg (2 * q + if r = 0 then 0 else 1) (e - x - k - 1)

/-- Division (09 R213). -/
def Val.div : Val → Val → Val
  | .nan, _ | _, .nan => .nan
  | .inf _, .inf _ => .nan
  | .inf s, .fin t _ _ => .inf (s != t)
  | .fin s _ _, .inf t => .fin (s != t) 0 0
  | .fin s m e, .fin t n x =>
    if n = 0 then (if m = 0 then .nan else .inf (s != t))
    else if m = 0 then .fin (s != t) 0 0
    else divFin (s != t) m e n x

/-- The integer square root by `fuel` bits of the root, highest first. -/
def isqrtGo (n : Nat) : Nat → Nat → Nat
  | 0, r => r
  | k + 1, r =>
    let r' := r + 2 ^ k
    isqrtGo n k (if r' * r' ≤ n then r' else r)

/-- ⌊√n⌋. -/
def isqrt (n : Nat) : Nat := isqrtGo n (bitLen n / 2 + 1) 0

/-- The square root (09 R213). -/
def Val.sqrt : Val → Val
  | .nan => .nan
  | .inf s => if s then .nan else .inf false
  | .fin s m e =>
    if m = 0 then .fin s 0 0
    else if s then .nan
    else
      let k := 2 * extraBits + (e % 2).toNat
      let n := m * 2 ^ k
      let r := isqrt n
      .fin false (2 * r + if r * r = n then 0 else 1) ((e - k) / 2 - 1)

/-- 1/√a (09 R213). -/
def Val.rsqrt : Val → Val
  | .nan => .nan
  | .inf s => if s then .nan else .fin false 0 0
  | .fin s m e =>
    if m = 0 then .inf s
    else if s then .nan
    else
      let n := m * 2 ^ (e % 2).toNat
      let k := extraBits + bitLen n
      let r := isqrt (2 ^ (2 * k) / n)
      .fin false (2 * r + if r * r * n = 2 ^ (2 * k) then 0 else 1) (-((e - e % 2) / 2) - k - 1)

/-- Bits to which 2^x and log2 are enclosed (log 17). -/
def funBits : Nat := 448

/-- 2^(f / 2^n) · 2^funBits from below, for the n low bits of f: the product of the roots 2^(2^−i) of its set bits. -/
def exp2Go (f : Nat) : Nat → Nat → Nat → Nat
  | 0, _, acc => acc
  | n + 1, root, acc =>
    let acc := if f / 2 ^ n % 2 = 1 then acc * root / 2 ^ funBits else acc
    exp2Go f n (isqrt (root * 2 ^ funBits)) acc

/-- 2^a (10 R248): exact for an integer a, otherwise its enclosure from below with a last bit 1. -/
def Val.exp2 : Val → Val
  | .nan => .nan
  | .inf s => if s then .fin false 0 0 else .inf false
  | .fin s m e =>
    if 0 ≤ e then
      let n := min (m * 2 ^ min e.toNat 4096) 4096
      .fin false 1 (if s then -(n : Int) else n)
    else
      let d := (-e).toNat
      let a : Int := if s then -(m : Int) else m
      let n := a / 2 ^ d
      let f := (a % 2 ^ d).toNat
      if f = 0 then .fin false 1 (max (-4096) (min n 4096))
      else .fin false (2 * exp2Go f d (isqrt (2 * 2 ^ (2 * funBits))) (2 ^ funBits) + 1)
             (max (-4096) (min n 4096) - funBits - 1)

/-- The first `n` bits of log2(y / 2^funBits), for y / 2^funBits in [1, 2). -/
def log2Go : Nat → Nat → Nat → Nat
  | 0, _, acc => acc
  | n + 1, y, acc =>
    let y2 := y * y / 2 ^ funBits
    if 2 ^ (funBits + 1) ≤ y2 then log2Go n (y2 / 2) (2 * acc + 1) else log2Go n y2 (2 * acc)

/-- log2 a (10 R248): exact for a power of two, otherwise its enclosure with a last bit 1. -/
def Val.log2 : Val → Val
  | .nan => .nan
  | .inf s => if s then .nan else .inf false
  | .fin s m e =>
    if m = 0 then .inf true
    else if s then .nan
    else
      let l := bitLen m - 1
      let n : Int := e + l
      if m = 2 ^ l then valOf n 0 false
      else
        let bits := 192
        let f := log2Go bits (m * 2 ^ funBits / 2 ^ l) 0
        let v : Int := n * 2 ^ bits + f
        if v < 0 then .fin true (2 * (v.natAbs - 1) + 1) (-(bits : Int) - 1)
        else .fin false (2 * v.natAbs + 1) (-(bits : Int) - 1)

/-- An integer format (10 R230): width and signedness. -/
def intFmt (code : Nat) : Option (Nat × Bool) :=
  match code with
  | 0 => some (8, true)
  | 1 => some (8, false)
  | 2 => some (16, true)
  | 3 => some (16, false)
  | 4 => some (32, true)
  | 5 => some (32, false)
  | 6 => some (64, true)
  | _ => none

/-- The least value of an integer format. -/
def intMin (w : Nat) (signed : Bool) : Int := if signed then -(2 ^ (w - 1) : Int) else 0
/-- The greatest value of an integer format. -/
def intMax (w : Nat) (signed : Bool) : Int := if signed then (2 ^ (w - 1) : Int) - 1 else (2 ^ w : Int) - 1

/-- The bits of an integer modulo 2^w: WRAP (10 R231). -/
def wrapBits (w : Nat) (v : Int) : Nat := (v % 2 ^ w).toNat

/-- v clamped to the format's range: SATI (10 R231). -/
def sati (w : Nat) (signed : Bool) (v : Int) : Int := max (intMin w signed) (min v (intMax w signed))

/-- An integer result under SAT (10 R231). -/
def intResult (w : Nat) (signed sat : Bool) (v : Int) : Nat :=
  wrapBits w (if sat then sati w signed v else v)

/-- The value of w bits read with a signedness. -/
def intValue (w : Nat) (signed : Bool) (b : Nat) : Int :=
  let b := b % 2 ^ w
  if signed ∧ 2 ^ (w - 1) ≤ b then (b : Int) - 2 ^ w else b

/-- A finite value rounded to an integer under a mode (10 R240). -/
def roundInt (mode : Mode) (neg : Bool) (m : Nat) (e : Int) : Int :=
  let n := if 0 ≤ e then m * 2 ^ e.toNat else shiftRound mode neg m (-e).toNat
  if neg then -(n : Int) else n

/-- The indefinite value of an integer format (10 R240). -/
def indefinite (w : Nat) (signed : Bool) : Nat := if signed then 2 ^ (w - 1) else 2 ^ w - 1

/-- A float converted to an integer format (10 R240). -/
def toIntFmt (w : Nat) (signed : Bool) (mode : Mode) (sat : Bool) : Val → Nat
  | .nan => if sat then 0 else indefinite w signed
  | .inf neg => if sat then wrapBits w (if neg then intMin w signed else intMax w signed) else indefinite w signed
  | .fin neg m e =>
    -- an exponent beyond any integer format is out of range at once
    let v : Int := if 128 < e ∧ m ≠ 0 then (if neg then -(2 ^ 128) else 2 ^ 128) else roundInt mode neg m e
    if intMin w signed ≤ v ∧ v ≤ intMax w signed then wrapBits w v
    else if sat then wrapBits w (sati w signed v) else indefinite w signed

/-- A conversion to E8M0 (10 R241), which acts on |v|. -/
def toE8m0 (mode : Mode) (sat : Bool) : Val → Nat
  | .nan => 0xFF
  | .inf _ => if sat then 0xFE else 0xFF
  | .fin _ m e =>
    if m = 0 then 0
    else
      let l := bitLen m - 1
      let up : Bool := match mode with
        | .rne | .rna => 3 * 2 ^ l ≤ 2 * m
        | .rup => m ≠ 2 ^ l
        | .rtz | .rdn => false
      let k : Int := e + l + if up then 1 else 0
      if k < -127 then 0 else if 127 < k then (if sat then 0xFE else 0xFF) else (k + 127).toNat

/-- The exact value of an element of any format but CB2 and ACC48 (10 R230-R243). -/
def elemValue (code b : Nat) : Val :=
  match ffmt code with
  | some F => F.value b
  | none =>
    match intFmt code with
    | some (w, signed) => valOf (intValue w signed b) 0 false
    | none =>
      if code = 15 then (if b % 256 = 255 then .nan else .fin false 1 ((b % 256 : Nat) - 127 : Int))
      else .fin false (b % 2) 0

/-- A conversion of a value to a format other than CB2 and ACC48 (10 R240, R241, R244). The source is an integer when
`fromInt`, and then an integer destination takes SATI or WRAP (of the rounded value, where a scale makes it no integer;
log 19). -/
def convertTo (code : Nat) (mode : Mode) (sat fromInt : Bool) (v : Val) : Nat :=
  match ffmt code with
  | some F => F.convert mode sat v
  | none =>
    match intFmt code with
    | some (w, signed) =>
      match fromInt, v with
      | true, .fin neg m e => intResult w signed sat (roundInt mode neg m e)
      | _, _ => toIntFmt w signed mode sat v
    | none => if code = 15 then toE8m0 mode sat v else if v.isZero then 0 else 1

/-- Multiplication by a power of two. -/
def Val.scale (k : Int) : Val → Val
  | .fin s m e => .fin s m (e + k)
  | v => v

/-- A dyadic number: mantissa and exponent. -/
abbrev Dyadic := Int × Int

/-- The sum of two dyadic numbers. -/
def Dyadic.add (a b : Dyadic) : Dyadic :=
  let x := min a.2 b.2
  (a.1 * 2 ^ (a.2 - x).toNat + b.1 * 2 ^ (b.2 - x).toNat, x)

/-- n · 2^s to an integer, to nearest even. -/
def rneInt (n : Int) (s : Int) : Int := roundInt .rne (n < 0) n.natAbs s

/-- round64 (10 R238): 64 significant bits to nearest even, unbounded exponent. -/
def round64 (a : Dyadic) : Dyadic :=
  let l := bitLen a.1.natAbs
  if l ≤ 64 then a else (rneInt a.1 (64 - (l : Int)), a.2 + l - 64)

/-- An ACC48 block (10 R245). -/
structure Acc where
  m : List Int
  e : Int
  flags : Nat
  stat : List Nat
deriving DecidableEq, Repr

/-- The block of an image (10 R246): E from the low 12 bits, reserved bits ignored. -/
def Acc.ofImage (b : BitVec 512) : Acc :=
  { m := (List.range 8).map fun j => (b.extractLsb' (48 * j) 48).toInt
    e := (b.extractLsb' 384 12).toInt
    flags := (b.extractLsb' 400 2).toNat
    stat := (List.range 8).map fun j => (b.extractLsb' (416 + 8 * j) 3).toNat }

/-- The image of a block (10 R245). -/
def Acc.image (a : Acc) : BitVec 512 :=
  let bits := (List.range 8).foldl (fun n j => n + wrapBits 48 (a.m.getD j 0) * 2 ^ (48 * j)
    + a.stat.getD j 0 * 2 ^ (416 + 8 * j)) 0
  BitVec.ofNat 512 (bits + wrapBits 16 a.e * 2 ^ 384 + a.flags * 2 ^ 400)

/-- A cleared block (05 R121, 13 R287). -/
def Acc.cleared (e : Int) (integer : Bool) : Acc :=
  ⟨List.replicate 8 0, if integer then 0 else e, if integer then 2 else 0, List.replicate 8 0⟩

/-- The largest mantissa of a block. -/
def accMax : Int := 2 ^ 47 - 1

/-- acc_update of 05 R120: the eight exact terms added; the second result says whether the exponent rose, the third
whether something was clamped. -/
def Acc.update (a : Acc) (xs : List Dyadic) : Acc × Bool × Bool :=
  let ts := (List.range 8).map fun j => Dyadic.add (a.m.getD j 0, a.e) (xs.getD j (0, 0))
  let clamp (v : Int) := max (-accMax) (min v accMax)
  if a.flags / 2 % 2 = 1 then
    let rs := ts.map fun t => rneInt t.1 t.2
    let hit := rs.any fun v => clamp v ≠ v
    ({ a with m := rs.map clamp, flags := if hit then a.flags ||| 1 else a.flags }, false, hit)
  else
    let need := ts.foldl (fun x t => if t.1 = 0 then x else max x ((bitLen t.1.natAbs : Int) + t.2 - 46)) a.e
    let e := min need 2047
    let rs := ts.map fun t => rneInt t.1 (t.2 - e)
    let hit := 2047 < need || rs.any fun v => clamp v ≠ v
    let flag := 2047 < need || rs.any fun v => clamp v ≠ v
    ({ a with m := rs.map clamp, e := e, flags := if flag then a.flags ||| 1 else a.flags }, a.e < need, hit)

/-- What an element of a block converts as (10 R247), without a scale. -/
def Acc.elem (a : Acc) (j : Nat) : Val :=
  let st := a.stat.getD j 0
  if st % 2 = 1 ∨ st / 2 % 4 = 3 then .nan
  else if st / 2 % 2 = 1 then .inf false
  else if st / 4 % 2 = 1 then .inf true
  else valOf (a.m.getD j 0) a.e false

/-- The eight weights of a CB2 index in quarters (10 R242). -/
def cb2 (index cblo cbhi : Nat) : List Int :=
  let s (i : Nat) := index / 2 ^ (i + 1) % 2
  let odd := ((List.range 7).map s).sum % 2
  (List.range 8).map fun i =>
    let mag : Int := if index / 2 ^ (8 + i) % 2 = 1 then cbhi else cblo
    let sign := if i = 7 then odd else s i
    (if sign = 1 then -mag else mag) + (index % 2 : Nat)

end Sys2Proof.Machine
end

