-- ==== Sys2Proof/Machine/Flags.lean ====
section
/-!
DEFINITION. The HX9 has no flag register: what other machines call flags are the results of compares, which go to
predicates. Every compare and class the manual gives, on bits (09 R211, R213, R215; 11 R259).
-/
namespace Sys2Proof.Machine

/-- The low `w` bits of a word, unsigned (09 R208: au, bu). -/
def uval (w : Nat) (v : Word) : Nat := v.toNat % 2 ^ w
/-- The low `w` bits of a word, signed (09 R208: as, bs). -/
def sval (w : Nat) (v : Word) : Int := intValue w true v.toNat

/-- CEQ (09 R211). -/
def flagEq (w : Nat) (a b : Word) : Bool := uval w a = uval w b
/-- CNE. -/
def flagNe (w : Nat) (a b : Word) : Bool := uval w a ≠ uval w b
/-- CLT: signed. -/
def flagLt (w : Nat) (a b : Word) : Bool := sval w a < sval w b
/-- CLE: signed. -/
def flagLe (w : Nat) (a b : Word) : Bool := sval w a ≤ sval w b
/-- CLTU: unsigned. -/
def flagLtu (w : Nat) (a b : Word) : Bool := uval w a < uval w b
/-- CLEU: unsigned. -/
def flagLeu (w : Nat) (a b : Word) : Bool := uval w a ≤ uval w b
/-- PGET: bit (b mod 64) of a (09 R211). -/
def flagBit (a b : Word) : Bool := a.getLsbD (b.toNat % 64)

/-- FCEQ: −0 = +0, false with a NaN (09 R213). -/
def flagFeq (a b : Val) : Bool := a.cmp b = some .eq
/-- FCLT. -/
def flagFlt (a b : Val) : Bool := a.cmp b = some .lt
/-- FCLE. -/
def flagFle (a b : Val) : Bool := a.cmp b = some .lt || a.cmp b = some .eq

/-- The FCLASS mask of an encoding (09 R215): exactly one bit. -/
def classMask (F : FFmt) (b : Nat) : Nat :=
  let f := b % 2 ^ F.tbits
  let x := b / 2 ^ F.tbits % 2 ^ F.ebits
  let neg := b / 2 ^ (F.ebits + F.tbits) % 2 = 1
  if x = 2 ^ F.ebits - 1 then
    if f = 0 then (if neg then 1 else 2 ^ 7)
    else if 2 ^ (F.tbits - 1) ≤ f then 2 ^ 9 else 2 ^ 8
  else if x = 0 then
    if f = 0 then (if neg then 2 ^ 3 else 2 ^ 4) else (if neg then 2 ^ 2 else 2 ^ 5)
  else if neg then 2 ^ 1 else 2 ^ 6

end Sys2Proof.Machine
end

