-- ==== Sys2Proof/Machine/SysRegs.lean ====
section
/-!
DEFINITION. Which system-register numbers are assigned, and who may read and write each (09 R205-R207; 07 R165; 04 R95,
R96; 20 R385, R386, R389, R397; 14 R294; 22 R413, R418, R419; 23 R428, R439; 19 R371).
-/
namespace Sys2Proof

/-- The access a register's map gives: readable, writable, and which of the two need privileged mode. -/
structure Access where
  read : Bool
  write : Bool
  privRead : Bool := false
  privWrite : Bool := false
deriving DecidableEq, Repr

/-- Read-only in either mode. -/
def Access.ro : Access := ⟨true, false, false, false⟩
/-- Read and write in either mode. -/
def Access.rw : Access := ⟨true, true, false, false⟩
/-- Readable by all, writable in privileged mode. -/
def Access.rpw : Access := ⟨true, true, false, true⟩
/-- Read and write in privileged mode only. -/
def Access.prw : Access := ⟨true, true, true, true⟩
/-- Read-only, in privileged mode only. -/
def Access.pro : Access := ⟨true, false, true, true⟩
/-- Write-only, in privileged mode only. -/
def Access.pwo : Access := ⟨false, true, true, true⟩

/-- The access of an assigned register number; none for an unassigned one, which traps ILLEGAL_FIELD (09 R205). TVEC's
row allows a user read, but R385 says that a user-mode access to any trap register traps PRIV: the sentence is followed. -/
def sysAccess (n : Nat) : Option Access :=
  if n ≤ 0x007 then some .ro                        -- ITEM NITEMS LAUNCHID THREADID CLUSTER PLOTORG PLOTEXT GROUPS
  else if n = 0x100 ∨ n = 0x101 then some .rpw      -- STKBASE STKLIM
  else if n = 0x102 ∨ n = 0x103 then some .rw       -- FEWAIT DEADLINE
  else if n = 0x200 ∨ n = 0x201 then some .prw      -- TVEC EPC
  else if 0x202 ≤ n ∧ n ≤ 0x205 then some .pro      -- ECAUSE ESTAT EADDR EINFO
  else if 0x210 ≤ n ∧ n ≤ 0x227 then some .pro      -- OPLA OPLP OPLC
  else if n = 0x228 then some .pwo                  -- OPLDROP
  else if n = 0x229 then some .rpw                  -- DRAINBUD
  else if 0x230 ≤ n ∧ n ≤ 0x237 then some .prw      -- UBANK0-7
  else if n = 0x240 then some .prw                  -- PTBASE
  else if n = 0x241 then some .pwo                  -- TLBINV
  else if 0x300 ≤ n ∧ n ≤ 0x303 then some .ro       -- CYCLE PTPTIME CHGBAL ENERGY
  else if n = 0x304 then some .rw                   -- LATECNT
  else if n = 0x305 then some .ro                   -- STALLRATIO
  else if 0x400 ≤ n ∧ n ≤ 0x402 then some .ro       -- OWSTATE OWCOUNT OWPERF
  else if 0x408 ≤ n ∧ n ≤ 0x417 then some .ro       -- OWBASE0-7 OWLEN0-7
  else if 0x510 ≤ n ∧ n ≤ 0x513 then some .prw      -- WATCHA0-3
  else if 0x518 ≤ n ∧ n ≤ 0x51B then some .prw      -- WATCHC0-3
  else if 0x520 ≤ n ∧ n ≤ 0x523 then some .prw      -- BP0-3
  else if n = 0x600 then some .pro                  -- CLPWR
  else none

end Sys2Proof
end

