-- ==== Sys2Proof/Machine/Memory.lean ====
section
/-!
DEFINITION. Bytes of every kind of location (16 R334): main memory with its layouts, keys and poison (04 R77-R90), cell
stores with poison (07 R161-R163), host and peer memory, and what an engine shows a thread (05 R110).
-/
namespace Sys2Proof.Machine

/-- Bytes of a channel: 768 MiB (04 R77). -/
def chanBytes : Nat := 805306368
/-- Bytes of main memory: 576 GiB (04 R79). -/
def mainBytes : Nat := 618475290624

/-- The storage byte of a main-memory PA under a layout, numbered c · 768 MiB + o (04 R80); 3-7 are malformed (R87). -/
def storageOf (layout pa : Nat) : Nat :=
  let u := pa / 256
  let b := pa % 256
  if layout = 0 then
    let j := u % 768
    ((j % 12) * 64 + j / 12) * chanBytes + (u / 768) * 256 + b
  else if layout = 1 then
    let v := pa % 51539607552 / 256
    (pa / 51539607552 * 64 + v % 64) * chanBytes + v / 64 * 256 + b
  else pa

/-- The memory's canonical form. -/
def Memory.wf (m : List Host.Cell) : Bool := NMap.wf (0 : Byte) m

/-- The sector of a storage byte. -/
def sectorOf (k : Nat) : Nat := k / 32

/-- The 256 bits of a sector as they were written, lowest byte first. -/
def sectorPlain (m : List Host.Cell) (sec : Nat) : BitVec 256 :=
  BitVec.ofNat 256 (leNat ((List.range 32).map fun i => NMap.get (0 : Byte) m (sec * 32 + i)))

/-- The key under which a sector was last written; the clear at start wrote it under slot 0's key of that start (04 R90). -/
def State.writerKey (s : State) (sec : Nat) : KeyVal := NMap.get s.baseKey s.memKey sec

/-- A byte of main memory as read under a key (04 R90). -/
def State.memByte (s : State) (k : Nat) (key : KeyVal) : Byte :=
  let sec := sectorOf k
  let w := s.writerKey sec
  if w = key then NMap.get 0 s.mem k
  else (Config.garble (sectorPlain s.mem sec) w key sec).extractLsb' (8 * (k % 32)) 8

/-- The sector brought under a key: what a partial store reads and merges (04 R90). -/
def State.rekey (s : State) (sec : Nat) (key : KeyVal) : State :=
  let w := s.writerKey sec
  if w = key then s
  else
    let g := Config.garble (sectorPlain s.mem sec) w key sec
    { s with mem := (List.range 32).foldl (fun m i => NMap.put 0 m (sec * 32 + i) (g.extractLsb' (8 * i) 8)) s.mem
             memKey := NMap.put s.baseKey s.memKey sec key }

/-- A byte of main memory written under a key. -/
def State.putMem (s : State) (k : Nat) (key : KeyVal) (v : Byte) : State :=
  let s := s.rekey (sectorOf k) key
  { s with mem := NMap.put 0 s.mem k v }

/-- The key that a slot holds; an empty slot's is never used (04 R90). -/
def State.keyAt (s : State) (slot : Nat) : KeyVal := (s.keySlots.find slot).getD (.drawn 0)

/-- The key that slot 0 holds. -/
def State.key0 (s : State) : KeyVal := s.keyAt 0

/-- A byte of a device as it was written from here under a slot, or as it stood (log 7). -/
def State.extPlain (s : State) (device pa slot : Nat) : Byte :=
  (((NMap.find s.extMem device).getD []).find pa).getD (Config.extByte device slot pa)

/-- A sector of a device brought from one of its key slots to another (04 R90, R91). -/
def State.extSector (s : State) (device sec from' to' : Nat) : BitVec 256 :=
  Config.extGarble device from' to' sec
    (BitVec.ofNat 256 (leNat ((List.range 32).map fun i => s.extPlain device (sec * 32 + i) from')))

/-- The key slot under which a device's sector was last written from here. -/
def State.extWriter (s : State) (device sec : Nat) : Option Nat := ((NMap.find s.extKey device).getD []).find sec

/-- A byte of host memory (device 256), which has no key, or of a peer's under a key slot of that device (04 R79, R91; log 7).
-/
def State.extGet (s : State) (device pa slot : Nat) : Byte :=
  match s.extWriter device (sectorOf pa) with
  | none => s.extPlain device pa slot
  | some w =>
    if w = slot then s.extPlain device pa slot
    else (s.extSector device (sectorOf pa) w slot).extractLsb' (8 * (pa % 32)) 8

/-- A byte of host or peer memory written under a key slot of that device. -/
def State.extPut (s : State) (device pa slot : Nat) (v : Byte) : State :=
  let sec := sectorOf pa
  let m := (NMap.find s.extMem device).getD []
  let m := match s.extWriter device sec with
    | none => m
    | some w =>
      if w = slot then m
      else
        let g := s.extSector device sec w slot
        (List.range 32).foldl (fun m i => NMap.set m (sec * 32 + i) (g.extractLsb' (8 * i) 8)) m
  { s with extMem := NMap.set s.extMem device (NMap.set m pa v)
           extKey := NMap.set s.extKey device (NMap.set ((NMap.find s.extKey device).getD []) sec slot) }

/-- The status word of an engine (05 R134) with the number of commands queued for it. -/
def Engine.status (e : Engine) (depth : Nat) : Word :=
  BitVec.ofNat 64 (e.token.toNat * 2 ^ 48 + e.pc.toNat * 2 ^ 38 + e.fault.toNat * 2 ^ 24 + min depth 65535 * 256
    + e.scaleNan.toNat * 8 + e.faulted.toNat * 4 + e.waiting.toNat * 2 + e.busy.toNat)

/-- Commands queued for engine `e`, a running call among them (05 R134, R135; log 22). -/
def State.queueDepth (s : State) (e : Nat) : Nat :=
  ((NMap.get [] s.cmdq (e / 64)).filter fun c => c.left.contains e).length

/-- A byte of what engine `e` shows in space 4 outside its buffer (05 R110). -/
def State.engByte (s : State) (e off : Nat) : Byte :=
  let g := s.engine (BitVec.ofNat 10 e)
  if off < 0x1000 then (NMap.get 0 g.prog (off / 4)).extractLsb' (8 * (off % 4)) 8
  else if off < 0x20040 then (g.b.toArray.getD ((off - 0x20000) / 4) 0).extractLsb' (8 * (off % 4)) 8
  else if off < 0x20300 then (g.acc.toArray.getD ((off - 0x20100) / 64) 0).extractLsb' (8 * (off % 64)) 8
  else if off < 0x20408 then (g.status (s.queueDepth e)).extractLsb' (8 * (off % 8)) 8
  else g.renorm.extractLsb' (8 * (off % 8)) 8

/-- A byte at a location; main memory depends on the key that a slot holds when the sector is read, and a peer's on the slot. A
void cell reads as zero (07 R168). -/
def State.get (s : State) (l : Loc) (slot : Nat) : Byte :=
  match l with
  | .mem k => s.memByte k (s.keyAt slot)
  | .ext d pa => s.extGet d pa slot
  | .cell c r b => if s.isVoid c then 0 else (s.row c r).data.extractLsb' (8 * b) 8
  | .buf e b => NMap.get 0 (s.engine (BitVec.ofNat 10 e)).buf b
  | .eng e off => s.engByte e off
  | .void => 0

/-- A byte of a 256-bit row replaced. -/
def rowSet (d : BitVec 256) (b : Nat) (v : Byte) : BitVec 256 :=
  (d &&& ~~~((0xFF#256) <<< (8 * b))) ||| (v.setWidth 256 <<< (8 * b))

/-- A byte written at a location, under the key that a slot holds when it is written (04 R90). An engine's state takes no write,
and a cell that is void when the write reaches it discards it (07 R168, R169). -/
def State.put (s : State) (l : Loc) (slot : Nat) (v : Byte) : State :=
  match l with
  | .mem k => s.putMem k (s.keyAt slot) v
  | .ext d pa => s.extPut d pa slot v
  | .cell c r b => if s.isVoid c then s else let w := s.row c r; s.setRow c r { w with data := rowSet w.data b v }
  | .buf e b => let g := s.engine (BitVec.ofNat 10 e)
                s.setEngine (BitVec.ofNat 10 e) { g with buf := NMap.put 0 g.buf b v }
  | .eng .. => s
  | .void => s

/-- Does the location lie in a poisoned sector or row (04 R78, 07 R163)? -/
def State.isPoisoned (s : State) : Loc → Bool
  | .mem k => s.poison.contains (sectorOf k)
  | .cell c r _ => !s.isVoid c && (s.row c r).poison
  | .buf e b => (s.engine (BitVec.ofNat 10 e)).bufPoison.contains (b / 32)
  | _ => false

/-- Poison goes from a unit of 32 bytes that one write covers whole (04 R78, 07 R163): `locs` are the bytes written. -/
def State.clearPoison (s : State) (locs : List Loc) : State :=
  locs.foldl (fun s l =>
    match l with
    | .mem k =>
      if k % 32 = 0 ∧ s.poison.contains (sectorOf k) ∧ (List.range 32).all (fun i => locs.contains (.mem (k + i)))
      then { s with poison := setDel (sectorOf k) s.poison } else s
    | .cell c r 0 =>
      if s.isVoid c = false ∧ (s.row c r).poison ∧ (List.range 32).all (fun i => locs.contains (.cell c r i))
      then s.setRow c r { s.row c r with poison := false } else s
    | .buf e b =>
      if b % 32 = 0 ∧ (s.engine (BitVec.ofNat 10 e)).bufPoison.contains (b / 32)
        ∧ (List.range 32).all (fun i => locs.contains (.buf e (b + i)))
      then s.setEngine (BitVec.ofNat 10 e)
             { s.engine (BitVec.ofNat 10 e) with bufPoison := setDel (b / 32) (s.engine (BitVec.ofNat 10 e)).bufPoison }
      else s
    | _ => s) s

/-- One write event: every byte, then the poison it clears. -/
def State.putBytes (s : State) (bs : List SqByte) : State :=
  (bs.foldl (fun s b => s.put b.loc b.key b.val) s).clearPoison (bs.map (·.loc))

/-- The values of a list of locations, lowest first. -/
def State.getBytes (s : State) (ls : List (Loc × Nat)) : List Byte := ls.map fun l => s.get l.1 l.2

/-- The full/empty bit of word `w` (0-7) of a store row; a void cell reads full (07 R168). -/
def State.isFull (s : State) (c r w : Nat) : Bool := s.isVoid c || (s.row c r).full.getLsbD w

/-- The full/empty bit of a word written; discarded at a void cell. -/
def State.setFull (s : State) (c r w : Nat) (v : Bool) : State :=
  if s.isVoid c then s
  else
    let x := s.row c r
    let m : BitVec 8 := 1#8 <<< w
    s.setRow c r { x with full := if v then x.full ||| m else x.full &&& ~~~m }

end Sys2Proof.Machine
end

