-- ==== Sys2Proof/Machine/Trans.lean ====
section
/-!
DEFINITION. Translation (04 R85-R97): the walk, its faults, the translation caches, the A and D bits.
-/
namespace Sys2Proof.Machine

/-- A PA in main memory. -/
def isMain (pa : Nat) : Bool := pa < mainBytes
/-- A PA in host memory (04 R79). -/
def isHost (pa : Nat) : Bool := pa / 2 ^ 48 = 1

/-- Bytes that an entry of a level covers (04 R85). -/
def levelSpan (level : Nat) : Nat :=
  match level with
  | 0 => 2 ^ 16
  | 1 => 2 ^ 21
  | 2 => 2 ^ 30
  | _ => 2 ^ 39

/-- Index of a VA in a table of a level (04 R85). -/
def levelIndex (level va : Nat) : Nat := va / levelSpan level % (if level = 0 then 32 else 512)

/-- A leaf as a walk or a cache gives it: the entry, its level, the first VA it covers, where the entry lies, whether a
walk read it now, and the table entries of the walk. -/
structure XLeaf where
  entry : Word
  level : Nat
  base : Nat
  slot : Nat
  fresh : Bool
  path : List TLeaf
deriving DecidableEq, Repr

/-- PA of the page. -/
def XLeaf.pa (x : XLeaf) : Nat := fld x.entry 16 40 * 65536
/-- LAYOUT of the page. -/
def XLeaf.layout (x : XLeaf) : Nat := fld x.entry 7 3
/-- KEY of the page. -/
def XLeaf.keySlot (x : XLeaf) : Nat := fld x.entry 10 6
/-- PEER of the page. -/
def XLeaf.peer (x : XLeaf) : Nat := fld x.entry 56 8
/-- The PA of an address of the page. -/
def XLeaf.paOf (x : XLeaf) (va : Nat) : Nat := x.pa + (va - x.base)

/-- Eight bytes of a page table: main memory through the device stripe under slot 0, host memory as it stands (R85). The manual
lets an LD or LDZ alone trap on poison, so a poisoned sector gives its bytes as they stand (R78; log 12). -/
def State.tableRead (s : State) (pa : Nat) : Word :=
  BitVec.ofNat 64 (leNat ((List.range 8).map fun i =>
    if isMain (pa + i) then s.memByte (storageOf 0 (pa + i)) s.key0 else s.extGet 256 (pa + i) 0))

/-- A page-table entry written back with A or D (R89). -/
def State.tableWrite (s : State) (pa : Nat) (v : Word) : State :=
  (List.range 8).foldl (fun s i =>
    let b := v.extractLsb' (8 * i) 8
    if isMain (pa + i) then s.putMem (storageOf 0 (pa + i)) s.key0 b else s.extPut 256 (pa + i) 0 b) s

/-- Is a table entry malformed: a nonzero reserved field (R86, R87)? -/
def badTable (e : Word) : Bool := fld e 56 8 ≠ 0 || fld e 4 4 ≠ 0 || fld e 1 2 ≠ 0

/-- Is a leaf of a level malformed (R87)? -/
def badLeaf (level : Nat) (e : Word) : Bool :=
  let pa := fld e 16 40 * 65536
  let lay := fld e 7 3
  level = 3 || pa % levelSpan level ≠ 0 || 3 ≤ lay || (lay = 2 && level = 2) || (isHost pa && (lay = 1 || lay = 2))

/-- Does a cached entry cover a VA for a tag? -/
def TLeaf.covers (t : TLeaf) (root : BitVec 44) (vf : BitVec 6) (va : Nat) : Bool :=
  t.root == root && t.vf == vf && t.base ≤ va && va < t.base + levelSpan t.level

/-- EINFO of a failed walk (R94). -/
def whyInfo (level why : Nat) : Nat := level * 16 + why

/-- The walk from a table of `level` (R85, R87); the error is EINFO[7:0] of R94. `wc` is the walk cache. A NEXT that is not
aligned to a 4 KiB table is no malformed entry: eight times the index is added to it as it stands, and an entry that lies past the end
of main or host memory has no target (R79; log 66). -/
def State.walkFrom (s : State) (wc : List TLeaf) (root : BitVec 44) (vf : BitVec 6) (va : Nat) :
    (level : Nat) → (table : Nat) → List TLeaf → Except Nat XLeaf
  | level, table, path =>
    let slot := table + 8 * levelIndex level va
    if !(isMain slot && isMain (slot + 7) || isHost slot && isHost (slot + 7)) then .error (whyInfo (level + 1) 2)
    else
      let base := va / levelSpan level * levelSpan level
      let cached := if level = 0 then none else wc.find? fun t => t.level == level && t.covers root vf va
      let e := match cached with
        | some t => t.entry
        | none => s.tableRead slot
      if e.getLsbD 0 = false then .error (whyInfo level 0)
      else if e.getLsbD 3 then
        if badLeaf level e then .error (whyInfo level 1)
        else .ok ⟨e, level, base, slot, true, path⟩
      else
        match level with
        | 0 => .error (whyInfo 0 1)
        | l + 1 =>
          if badTable e then .error (whyInfo level 1)
          else s.walkFrom wc root vf va l (fld e 8 48 * 256) (⟨root, vf, level, base, e⟩ :: path)

/-- Has link `n` trained, to either version, and not been retired (14 R303)? -/
def State.linkUp (s : State) (n : Nat) : Bool :=
  let l : Link := NMap.get {} s.links n
  l.version.isSome && !l.retired

/-- Is another device reached in this step: over some trained link (14 R304), and answering in time (log 7)? -/
def State.peerUp (s : State) (device : Nat) : Bool := (List.range 16).any s.linkUp && Config.peerUp device s.stepNo

/-- The faults of a leaf's target (R91, R94): an unreachable peer, no target, an empty key slot. The manual orders none of them;
the model reports WHY 4, then 2, then 3 (log 66). -/
def State.leafTarget (s : State) (x : XLeaf) : Except Nat XLeaf :=
  let own := x.peer = 0 ∨ x.peer = s.deviceId.toNat
  if ¬ own ∧ s.peerUp x.peer = false then .error (whyInfo x.level 4)
  else if !(isMain x.pa || isHost x.pa) then .error (whyInfo x.level 2)
  else if own ∧ isMain x.pa ∧ (s.keySlots.find x.keySlot).isNone then .error (whyInfo x.level 3)
  else .ok x

/-- An access's leaf: from the caches of cluster `cl` and its die, or by a walk; a store to a leaf that was cached
without its D bit walks again (R89, R92). No cluster: a walk that reads memory alone. -/
def State.lookup (s : State) (cl : Option Nat) (root : BitVec 44) (vf : BitVec 6) (va : Nat) (store : Bool) :
    Except Nat XLeaf :=
  let wc := match cl with
    | some c => NMap.get [] s.walkCache (dieOf c)
    | none => []
  let walk := s.walkFrom wc root vf va 3 (root.toNat * 4096) []
  let cached := match cl with
    | some c => ((s.cluster c).tlb ++ NMap.get [] s.l2tlb (dieOf c)).find? fun (t : TLeaf) => t.covers root vf va
    | none => none
  match cached with
  | some t =>
    let needD := store && !t.entry.getLsbD 6 && t.entry.getLsbD 1 && !t.entry.getLsbD 4
    if needD then walk >>= s.leafTarget
    else s.leafTarget ⟨t.entry, t.level, t.base, 0, false, []⟩
  | none => walk >>= s.leafTarget

/-- An entry put at the front of a cache of `cap` entries; the oldest goes (log 11). -/
def cachePut (cap : Nat) (l : List TLeaf) (t : TLeaf) : List TLeaf :=
  (t :: l.filter fun u => !(u.root == t.root && u.vf == t.vf && u.level == t.level && u.base == t.base)).take cap

/-- The caches of a cluster and its die take a leaf, and the walk cache the table entries of its walk (R92). -/
def State.cacheLeaf (s : State) (c : Nat) (t : TLeaf) (path : List TLeaf) : State :=
  let k := s.cluster c
  let s := s.setCluster c { k with tlb := cachePut 32 k.tlb t }
  let d := dieOf c
  { s with l2tlb := NMap.put [] s.l2tlb d (cachePut 16384 (NMap.get [] s.l2tlb d) t)
           walkCache := NMap.put [] s.walkCache d (path.foldl (cachePut 1024) (NMap.get [] s.walkCache d)) }

/-- The walker's writes: A, and D for a store, in the entry; then the caches take the leaf and the table entries (R89, R92). A leaf
that only the die's cache held is taken into the cluster's (R92, R103). -/
def State.commitLeaf (s : State) (cl : Option Nat) (root : BitVec 44) (vf : BitVec 6) (store : Bool) (x : XLeaf) : State :=
  if x.fresh then
    let e := x.entry ||| 0x20 ||| (if store then 0x40 else 0)
    let s := if e = x.entry then s else s.tableWrite x.slot e
    match cl with
    | none => s
    | some c => s.cacheLeaf c ⟨root, vf, x.level, x.base, e⟩ x.path
  else match cl with
    | none => s
    | some c =>
      if (s.cluster c).tlb.any (·.covers root vf x.base) then s
      else
        let k := s.cluster c
        s.setCluster c { k with tlb := cachePut 32 k.tlb ⟨root, vf, x.level, x.base, x.entry⟩ }

/-- The location of an address of a page with the key slot it is read and written under (04 R80, R90, R91); host memory has no
key. -/
def State.leafLoc (s : State) (x : XLeaf) (va : Nat) : Loc × Nat :=
  let pa := x.paOf va
  let own := x.peer = 0 ∨ x.peer = s.deviceId.toNat
  if isMain pa then (if own then .mem (storageOf x.layout pa) else .ext x.peer (storageOf x.layout pa), x.keySlot)
  else (.ext (if own then 256 else x.peer) pa, 0)

/-- The leaves of a list of addresses, by 64 KiB page; the error names the first address that fails. -/
def State.leaves (s : State) (cl : Option Nat) (root : BitVec 44) (vf : BitVec 6) (store : Bool) :
    List Nat → NMap XLeaf → Except (Nat × Nat) (NMap XLeaf)
  | [], m => .ok m
  | va :: r, m =>
    match m.find (va / 65536) with
    | some _ => s.leaves cl root vf store r m
    | none =>
      match s.lookup cl root vf va store with
      | .error w => .error (va, w)
      | .ok x => s.leaves cl root vf store r (NMap.set m (va / 65536) x)

/-- Entries of a cache that a TLBINV keeps (R96): `all` drops the tag, otherwise what covers the address. -/
def invKeep (root : BitVec 44) (vf : BitVec 6) (all : Bool) (va : Nat) (t : TLeaf) : Bool :=
  !(t.root == root && t.vf == vf && (all || (t.base / 65536 ≤ va / 65536 && va / 65536 < (t.base + levelSpan t.level) / 65536)))

/-- The entries a TLBINV drops: with `dev` in every cluster and both dies, otherwise in the cluster's own cache and the
walk cache of its die (R96). -/
def State.tlbInv (s : State) (cl : Nat) (root : BitVec 44) (vf : BitVec 6) (all dev : Bool) (va : Nat) : State :=
  let keep := List.filter (invKeep root vf all va)
  if dev then
    { s with clusters := (List.range 256).foldl (fun m c =>
               let k := NMap.get (Cluster.atReset c) m c
               NMap.put (Cluster.atReset c) m c { k with tlb := keep k.tlb }) s.clusters
             l2tlb := [0, 1].foldl (fun m d => NMap.put [] m d (keep (NMap.get [] m d))) s.l2tlb
             walkCache := [0, 1].foldl (fun m d => NMap.put [] m d (keep (NMap.get [] m d))) s.walkCache }
  else
    let k := s.cluster cl
    let s := s.setCluster cl { k with tlb := keep k.tlb }
    { s with walkCache := NMap.put [] s.walkCache (dieOf cl) (keep (NMap.get [] s.walkCache (dieOf cl))) }

end Sys2Proof.Machine
end

