-- ==== Sys2Proof/Machine/Access.lean ====
section
/-!
DEFINITION. Scalar accesses (04 R82-R84, R100-R102): the checks of R100 in their order, the locations an access names,
its footprint, the store queue (16 R337), watchpoints (23 R440).
-/
namespace Sys2Proof.Machine

/-- What keeps an instruction from completing in a step. -/
inductive Stop where
  /-- it traps -/
  | trap (t : Trap)
  /-- it waits: the state holds what the wait has entered (a queue, an arrival, a hold) -/
  | wait (s : State)
  /-- a debugger stops the slot before it, with this REASON (23 R438) -/
  | stop (reason : Nat)

/-! ### Causes (20 R387) -/
abbrev cILLEGAL_FORMAT : BitVec 16 := 0x0001
abbrev cILLEGAL_OP : BitVec 16 := 0x0002
abbrev cILLEGAL_FIELD : BitVec 16 := 0x0003
abbrev cFETCH_BOUND : BitVec 16 := 0x0004
abbrev cPRIV : BitVec 16 := 0x0005
abbrev cLA_HAZARD : BitVec 16 := 0x0006
abbrev cORD_MISPLACED : BitVec 16 := 0x0007
abbrev cNOTMAPPED : BitVec 16 := 0x0101
abbrev cPERM : BitVec 16 := 0x0102
abbrev cMISALIGN : BitVec 16 := 0x0103
abbrev cSPACE : BitVec 16 := 0x0104
abbrev cRANK : BitVec 16 := 0x0105
abbrev cECC : BitVec 16 := 0x0106
abbrev cCOW : BitVec 16 := 0x0107
abbrev cPLOT_BOUND : BitVec 16 := 0x0201
abbrev cPLANE_OFF : BitVec 16 := 0x0202
abbrev cPLOT_DEADLOCK : BitVec 16 := 0x0203
abbrev cFE_TIMEOUT : BitVec 16 := 0x0301
abbrev cGROUP : BitVec 16 := 0x0302
abbrev cLATE : BitVec 16 := 0x0303
abbrev cJT_RANGE : BitVec 16 := 0x0401
abbrev cLOOP_DEPTH : BitVec 16 := 0x0402
abbrev cSTACK_LIMIT : BitVec 16 := 0x0403
abbrev cOW_READ : BitVec 16 := 0x0501
abbrev cOW_REG : BitVec 16 := 0x0502
abbrev cOW_PARTIAL : BitVec 16 := 0x0503
abbrev cOW_ENGINE : BitVec 16 := 0x0504
abbrev cOW_PENDING : BitVec 16 := 0x0505
abbrev cBANK : BitVec 16 := 0x0701
abbrev cDOUBLE : BitVec 16 := 0x0702
abbrev cCONFIG_PARITY : BitVec 16 := 0x0703
abbrev cTRAP_EXIT : BitVec 16 := 0x0704
abbrev cBRK : BitVec 16 := 0x0801
abbrev cWATCH : BitVec 16 := 0x0802
abbrev cHALT : BitVec 16 := 0x0803

/-- An instruction's outcome: its value, or why it does not complete. -/
abbrev Res := Except Stop

/-- A trap with its EADDR and EINFO. -/
def raise {α : Type} (cause : BitVec 16) (addr info : Word := 0) : Res α := .error (.trap ⟨cause, addr, info⟩)

/-- A trap unless the condition holds. -/
def need (c : Prop) [Decidable c] (cause : BitVec 16) (addr info : Word := 0) : Res Unit :=
  if c then .ok () else raise cause addr info

/-- The forms of access that R100 checks alike but for the spaces they may name. -/
inductive AccKind where
  /-- loads and stores: spaces 0-4 -/
  | plain
  /-- the ATOM family: not space 4 (17 R354) -/
  | atomic
  /-- tagged words: spaces 1-3 (17 R360) -/
  | tagged
deriving DecidableEq, Repr

/-- What an access asks of R100: the store rule of R88, whether it reads (for watchpoints), the data check, its alignment
(0: none), whether host memory may serve it (17 R355), whether watchpoints see it, and before which of the thread's queued stores it
stands, when not after them all. -/
structure Want where
  kind : AccKind := .plain
  store : Bool := false
  reads : Bool := true
  data : Bool := true
  align : Nat := 0
  hostOk : Bool := true
  watch : Bool := true
  before : Option Nat := none
deriving DecidableEq, Repr

/-- SPACE of a pointer. -/
def spaceOf (a : Word) : Nat := fld a 60 4
/-- RANK of a pointer. -/
def rankOf (a : Word) : Nat := fld a 48 12
/-- OFFSET of a pointer. -/
def offsetOf (a : Word) : Nat := fld a 0 48

/-- The group the thread has made current (15 R319). -/
def State.curGroup (s : State) : Option Group := s.thr.groups.head?.bind fun m => s.group m.gid

/-- The member of a group that holds a rank (15 R319). -/
def Group.member (g : Group) (rank : Nat) : Option Member := g.members.find? fun m => m.rank.toNat == rank

/-- The plot of an item: of the thread that acts, of another slot's thread, or of a parked item. None: it is saved, and
an access to its plot waits (20 R401). -/
def State.plotOfUid (s : State) (uid : Nat) : Option Plot :=
  if s.thr.phase ≠ .idle ∧ s.thr.src.uid = uid then some s.thr.plot
  else match s.slotOfUid uid with
    | some k => some (s.thread k).plot
    | none => (s.parked.find? fun p => p.thr.src.uid == uid).map fun p => p.thr.plot

/-- Check 1 of R100 for one byte: SPACE, RANK field and OFFSET form (04 R82-R84). -/
def State.formOk (s : State) (kind : AccKind) (a : Word) : Bool :=
  let sp := spaceOf a
  let off := offsetOf a
  let shape : Bool := match sp with
    | 0 => rankOf a == 0
    | 1 => rankOf a == 0 && off / 2 ^ 29 == 0
    | 2 | 3 => off / 2 ^ 29 == 0
    | 4 => rankOf a == 0 && off / 2 ^ 38 == 0 && bits off 28 10 < 768
           && (s.engine (BitVec.ofNat 10 (bits off 28 10))).part == some s.thr.part
    | _ => false
  shape && match kind with
    | .plain => true
    | .atomic => sp != 4
    | .tagged => sp == 1 || sp == 2 || sp == 3

/-- Where a byte of spaces 1-3 lies: the plot, the cell in it, the plot row and the byte of the row. -/
structure PlotByte where
  plot : Plot
  r : Nat
  c : Nat
  p : Nat
  b : Nat
  /-- the byte lies inside what the space reaches (04 R83) -/
  inside : Bool
  own : Bool
deriving DecidableEq, Repr

/-- Checks 2 and 3 of R100, then the byte's place (04 R83, 15 R319, R320). -/
def State.plotByte (s : State) (a : Word) : Res PlotByte := do
  let off := offsetOf a
  let r := bits off 21 8
  let c := bits off 13 8
  let p := bits off 5 8
  let b := bits off 0 5
  if spaceOf a = 1 then
    let q := s.thr.plot
    pure ⟨q, r, c, p, b, r < q.h && c < q.w && p < q.d, true⟩
  else
    match s.curGroup with
    | none => raise cGROUP a 1
    | some g =>
      match if rankOf a < g.next then g.member (rankOf a) else none with
      | none => raise cRANK a
      | some m =>
        match s.plotOfUid m.uid with
        | none => .error (.wait s)
        | some q =>
          let own := false
          if spaceOf a = 2 then pure ⟨q, r, c, p, b, r < q.h && c < q.w && p < q.d, own⟩
          else
            let p' := g.xbase + ((g.phase.toNat + 1) % 2) * g.xrows + p
            pure ⟨q, r, c, p', b, r < q.h && c < q.w && p < g.xrows, own⟩

/-- The cell of a plot byte. -/
def PlotByte.cell (x : PlotByte) : Nat := x.plot.cell x.r x.c

/-- The location of a plot byte. -/
def State.plotLoc (s : State) (x : PlotByte) : Loc :=
  if s.isVoid x.cell then .void else .cell x.cell (x.plot.sbase + x.p) x.b

/-- The last byte of the range of R110 that an offset lies in, and whether a thread may store there. -/
def engRange (off : Nat) : Option (Nat × Bool) :=
  if off < 0x1000 then some (0xFFF, false)
  else if 0x10000 ≤ off ∧ off < 0x20000 then some (0x1FFFF, true)
  else if 0x20000 ≤ off ∧ off < 0x20040 then some (0x2003F, false)
  else if 0x20100 ≤ off ∧ off < 0x20300 then some (0x202FF, false)
  else if 0x20400 ≤ off ∧ off < 0x20408 then some (0x20407, false)
  else if 0x20408 ≤ off ∧ off < 0x20410 then some (0x2040F, false)
  else none

/-- What an access names once every check has passed: its locations with their key slots, its own-plot footprint, the peer
devices of its pages and the leaves that translated it: root, first VA and level. -/
structure Named where
  locs : List (Loc × Nat)
  fps : List Fp
  peers : List Nat := []
  leaves : List (BitVec 44 × Nat × Nat) := []

/-- The stores still queued, performed: what the thread's own loads see (16 R337). -/
def State.drained (s : State) : State := s.thr.sq.foldl (fun s e => s.putBytes e.bytes) s

/-- The stores still queued that stand before an access, performed: all, or those older than its number (16 R336, R337). -/
def State.drainedFor (s : State) (before : Option Nat) : State :=
  match before with
  | none => s.drained
  | some n => (s.thr.sq.filter fun e => e.no < n).foldl (fun s e => s.putBytes e.bytes) s

/-- The bytes of an access, lowest address first (04 R82: modulo 2^64). -/
def bytesOf (ea : Word) (n : Nat) : List Word := (List.range n).map fun i => ea + BitVec.ofNat 64 i

/-- WATCHC as it is read, by programs and by the match alike: a LOG2LEN above 12 is 12 (23 R439). -/
def watchcRead (c : Word) : Word := if 12 < fld c 0 4 then (c &&& ~~~15) ||| 12 else c

/-- The range of a watchpoint: its first byte and its length (23 R439). -/
def watchRange (a c : Word) : Nat × Nat :=
  let l := 2 ^ fld (watchcRead c) 0 4
  (a.toNat / l * l, l)

/-- The first enabled watchpoint that an access matches, with the first matching byte (23 R440). -/
def Thread.watchHit (t : Thread) (store reads : Bool) (bs : List Word) : Option (Nat × Word) :=
  (List.range 4).findSome? fun n =>
    let c := t.watchC.toArray.getD n 0
    if c.getLsbD 63 && ((c.getLsbD 62 && reads) || (c.getLsbD 61 && store)) then
      let w := watchRange (t.watchA.toArray.getD n 0) c
      (bs.find? fun a => spaceOf a ≤ 3 && w.1 ≤ a.toNat && a.toNat < w.1 + w.2).map fun a => (n, a)
    else none

/-- The debug registers of the slot that acts. -/
def State.curDbg (s : State) : Dbg := NMap.get {} s.dbg s.cur.toNat

/-- Where a slot's next instruction stands: the ORD that prefixes it, or the PC. -/
def Thread.here (t : Thread) : Word := match t.ord with
  | some o => o.pc
  | none => t.pc

/-- Does the instruction pass the breakpoint or watchpoint at which its slot stopped: it has been resumed there (23 R441; log 35)? -/
def State.passes (s : State) : Bool := s.curDbg.pass == some s.thr.here

/-- Every check of R100, in order, over the bytes `bs` of an access at `ea`; the state has the walker's A and D bits and the
filled caches. The EADDR is the lowest faulting byte. -/
def State.resolveBytes (s : State) (w : Want) (ea : Word) (bs : List Word) : Res (State × Named) := do
  let n := bs.length
  -- 1
  bs.forM fun a => need (s.formOk w.kind a = true) cSPACE a
  -- 2, 3
  let plots := bs.filter fun a => spaceOf a = 1 || spaceOf a = 2 || spaceOf a = 3
  plots.forM fun a => need (spaceOf a = 1 ∨ s.curGroup.isSome) cGROUP a 1
  let pbs ← plots.mapM fun a => do pure (a, ← s.plotByte a)
  -- 4
  need (w.align = 0 ∨ ea.toNat % w.align = 0) cMISALIGN ea
  -- 5, 6
  pbs.forM fun x => need (x.2.inside = true) cPLOT_BOUND x.1
  pbs.forM fun x => need (s.isOff x.2.cell = false) cPLANE_OFF x.1
  -- 7
  let global := bs.filter fun a => spaceOf a = 0
  let root := s.thr.root
  let vf := s.thr.vf
  let cl := some s.cl
  let lv ← match s.leaves cl root vf w.store (global.map offsetOf) [] with
    | .ok m => pure m
    | .error (va, info) => raise cNOTMAPPED (BitVec.ofNat 64 va) (BitVec.ofNat 64 info)
  let leafOf (a : Word) : XLeaf := (lv.find (offsetOf a / 65536)).getD ⟨0, 0, 0, 0, false, []⟩
  -- 8
  global.forM fun a => do
    let x := leafOf a
    need (w.store = false ∨ x.entry.getLsbD 4 = false) cCOW a
    need (w.store = false ∨ x.entry.getLsbD 1 = true) cPERM a
    need (w.hostOk = true ∨ isMain x.pa = true) cPERM a
  if spaceOf ea = 4 then do
    match engRange (bits (offsetOf ea) 0 28) with
    | none => raise cPERM ea
    | some (last, rw) =>
      need (w.store = false ∨ rw = true) cPERM ea
      need (bits (offsetOf ea) 0 28 + n ≤ last + 1) cPERM
        (ea + BitVec.ofNat 64 (last + 1 - bits (offsetOf ea) 0 28))
  let s' := lv.foldl (fun s x => s.commitLeaf cl root vf w.store x.2) s
  let locs := bs.map fun a =>
    match spaceOf a with
    | 0 => s.leafLoc (leafOf a) (offsetOf a)
    | 4 =>
      let e := bits (offsetOf a) 28 10
      let o := bits (offsetOf a) 0 28
      (if 0x10000 ≤ o ∧ o < 0x20000 then .buf e (o - 0x10000) else .eng e o, 0)
    | _ =>
      match pbs.find? fun x => x.1 == a with
      | some x => (s.plotLoc x.2, 0)
      | none => (.void, 0)
  -- 9
  if w.data then do
    let d := s.drainedFor w.before
    (bs.zip locs).forM fun x => need (d.isPoisoned x.2.1 = false) cECC x.1
  let fps := (pbs.filter fun x => x.2.own).map fun x =>
    (⟨x.2.r, x.2.r + 1, x.2.c, x.2.c + 1, x.2.p, x.2.p + 1, w.store⟩ : Fp)
  -- watchpoints
  if w.watch && !s.passes then
    match s.thr.watchHit w.store w.reads bs with
    | some (k, a) => if s.curDbg.attach then .error (.stop 5) else raise cWATCH a (BitVec.ofNat 64 k)
    | none => pure ()
  let peers := ((global.map fun a => (leafOf a).peer).filter fun p => p ≠ 0 && p ≠ s.deviceId.toNat).eraseDups
  pure (s', ⟨locs, fps.eraseDups, peers, lv.map fun x => (root, x.2.base, x.2.level)⟩)

/-- The checks of R100 over an access of `n` bytes at `ea`. -/
def State.resolve (s : State) (w : Want) (ea : Word) (n : Nat) : Res (State × Named) := s.resolveBytes w ea (bytesOf ea n)

/-- The thread under another root: what was issued before PTBASE was written keeps the one of its issue (04 R95, 09 R205). -/
def State.withRoot (s : State) (root : BitVec 44) : State := { s with thr := { s.thr with root := root } }

/-- Something done under the root of its issue, with the thread's own root as before it where it ends or waits. -/
def State.rooted (s : State) (root : BitVec 44) (f : State → Res State) : Res State :=
  match f (s.withRoot root) with
  | .ok u => .ok (u.withRoot s.thr.root)
  | .error (.wait u) => .error (.wait (u.withRoot s.thr.root))
  | .error r => .error r

end Sys2Proof.Machine
end

