-- ==== Sys2Proof/Machine/Desc.lean ====
section
/-!
DEFINITION. Tensor descriptors (07 R170-R174), element placement (R172), edge registers (R176), and the reading and
writing of elements of plots.
-/
namespace Sys2Proof.Machine

/-- The fields of a descriptor (07 R170). -/
structure Ten where
  kind : Nat
  fmt : Nat
  row0 : Nat
  col0 : Nat
  h : Nat
  w : Nat
  layer : Nat
  depth : Nat
  lbr : Nat
  lbc : Nat
  scale : Nat
  sblk : Nat
  hole : Nat
  edge : Nat
  cblo : Nat
  cbhi : Nat
  rank : Nat
  base : Nat
  fill : Nat
  stride : Nat
deriving DecidableEq, Repr

/-- The descriptor's fields from its 256 bits. -/
def Ten.of (t : BitVec 256) : Ten :=
  { kind := fld t 0 4, fmt := fld t 4 5, row0 := fld t 9 8, col0 := fld t 17 8, h := fld t 25 9, w := fld t 34 9
    layer := fld t 43 8, depth := fld t 51 9, lbr := fld t 64 3, lbc := fld t 67 3, scale := fld t 70 6
    sblk := fld t 76 2, hole := fld t 78 2, edge := fld t 80 2, cblo := fld t 82 4, cbhi := fld t 86 4
    rank := fld t 90 12, base := fld t 160 16 * 2 ^ 32 + fld t 128 32, fill := fld t 128 32, stride := fld t 192 32 }

/-- A field of a descriptor replaced. -/
def setFld (t : BitVec 256) (lo n v : Nat) : BitVec 256 :=
  (t &&& ~~~(BitVec.ofNat 256 ((2 ^ n - 1) * 2 ^ lo))) ||| BitVec.ofNat 256 (v % 2 ^ n * 2 ^ lo)

/-- Element width in bits; an ACC48 element counts 64 (07 R172). -/
def fmtBits (fmt : Nat) : Nat :=
  match fmt with
  | 17 => 1
  | 13 => 4
  | 0 | 1 | 11 | 12 | 15 => 8
  | 2 | 3 | 9 | 10 | 14 => 16
  | 4 | 5 | 8 => 32
  | _ => 64

/-- Element rows of a cell. -/
def Ten.ebr (t : Ten) : Nat := 2 ^ t.lbr
/-- Element columns of a cell. -/
def Ten.ebc (t : Ten) : Nat := 2 ^ t.lbc
/-- Elements of a cell in one slice. -/
def Ten.n (t : Ten) : Nat := t.ebr * t.ebc
/-- Slice height in store rows (07 R172). -/
def Ten.sr (t : Ten) : Nat := max 1 (t.n * fmtBits t.fmt / 256)
/-- Slices. -/
def Ten.slices (t : Ten) : Nat := t.depth / t.sr
/-- Element rows of the grid. -/
def Ten.rows (t : Ten) : Nat := t.h * t.ebr
/-- Element columns of the grid. -/
def Ten.cols (t : Ten) : Nat := t.w * t.ebc
/-- An own-plot kind. -/
def Ten.own (t : Ten) : Bool := t.kind = 1 || t.kind = 2 || t.kind = 3

/-- Check 1 of R173: is the descriptor well formed? -/
def descOk (t : BitVec 256) : Bool :=
  let d := Ten.of t
  if d.kind = 0 then t == 0
  else
    d.kind ≤ 6 && d.fmt ≤ 17 && d.hole ≤ 1
    && fld t 60 4 = 0 && fld t 102 26 = 0 && fld t 176 16 = 0 && fld t 224 32 = 0
    && 1 ≤ d.h && d.h ≤ 256 && 1 ≤ d.w && d.w ≤ 256 && 1 ≤ d.depth && d.depth ≤ 256
    && d.lbr ≤ 5 && d.lbc ≤ 5
    && (d.fmt = 14 || (d.cblo = 0 && d.cbhi = 0))
    && d.sr ≤ 8 && d.depth % d.sr = 0
    && (match d.kind with
      | 1 => d.fmt ≠ 16 && d.fmt ≠ 17
      | 2 => d.fmt = 16
      | 3 => d.fmt = 17
      | 4 => d.fmt ≠ 17
      | _ => true)
    && (if d.kind = 4 then
          d.row0 = 0 && d.col0 = 0 && d.layer = 0 && d.lbr = 0 && d.lbc = 0 && d.scale = 0 && d.sblk = 0
          && d.hole = 0 && d.edge = 0 && d.rank = 0
        else
          d.stride = 0 && fld t 160 16 = 0 && (d.kind = 5 || d.kind = 6 || d.rank = 0)
          && (d.fmt ≠ 16 || d.n % 8 = 0))

/-- Check 2 of R173: does an own-plot rectangle lie within the plot? -/
def Ten.inPlot (t : Ten) (p : Plot) : Bool := t.row0 + t.h ≤ p.h && t.col0 + t.w ≤ p.w && t.layer + t.depth ≤ p.d

/-- R173: the descriptor may be written. -/
def State.validate (s : State) (t : BitVec 256) : Res Unit := do
  need (descOk t = true) cILLEGAL_FIELD
  need ((Ten.of t).own = false ∨ (Ten.of t).inPlot s.thr.plot = true) cPLOT_BOUND

/-- Descriptor `t` of the thread; t0 is null (07 R175). -/
def State.T (s : State) (t : BitVec 6) : BitVec 256 := if t = 0 then 0 else s.thr.t.toArray.getD t.toNat 0

/-- Edge register `e` (07 R176). -/
def State.E (s : State) (e : BitVec 3) : Word := if e = 0 then 0xFFFF0000FFFF0000 else s.thr.e.toArray.getD e.toNat 0

/-- Is element (i, j) inside a bound (07 R176)? -/
def inBound (e : Word) (i j : Nat) : Bool := fld e 0 16 ≤ i && i < fld e 16 16 && fld e 32 16 ≤ j && j < fld e 48 16

/-- A tensor with the plot it lies in and what its plot rows are counted from (07 R171, 15 R320). -/
structure Place where
  t : Ten
  plot : Plot
  off : Nat
deriving DecidableEq, Repr

/-- The plot of a tensor: the own one, or for kinds 5 and 6 the member's of a group, with the checks of R174. -/
def State.placeIn (s : State) (group : Option Group) (t : Ten) : Res Place :=
  if t.kind = 5 ∨ t.kind = 6 then
    match group with
    | none => raise cGROUP 0 1
    | some g =>
      match if t.rank < g.next then g.member t.rank else none with
      | none => raise cRANK
      | some m =>
        match s.plotOfUid m.uid with
        | none => .error (.wait s)
        | some q =>
          if t.row0 + t.h ≤ q.h ∧ t.col0 + t.w ≤ q.w
             ∧ t.layer + t.depth ≤ (if t.kind = 5 then q.d else g.xrows) then
            .ok ⟨t, q, if t.kind = 5 then 0 else g.xbase + (g.phase.toNat + 1) % 2 * g.xrows⟩
          else raise cPLOT_BOUND
  else .ok ⟨t, s.thr.plot, 0⟩

/-- The plot of a tensor, with the thread's current group. -/
def State.place (s : State) (t : Ten) : Res Place := s.placeIn s.curGroup t

/-- The current group's number, as an op that goes on captures it. -/
def State.curGid (s : State) : Option Nat := s.curGroup.map (·.gid)

/-- The plot of a tensor, with the group captured at issue. -/
def State.placeAs (s : State) (gid : Option Nat) (t : Ten) : Res Place := s.placeIn (gid.bind s.group) t

/-- The cells of a tensor's rectangle, row-major, by plot-relative row and column. -/
def Ten.cells (t : Ten) : List (Nat × Nat) :=
  (List.range t.h).flatMap fun r => (List.range t.w).map fun c => (t.row0 + r, t.col0 + c)

/-- Does an own-plot rectangle touch a powered-off cluster (07 R169)? -/
def State.touchesOff (s : State) (t : Ten) : Bool :=
  t.own && t.cells.any fun x => s.isOff (s.thr.plot.cell x.1 x.2)

/-- Live cells of a rectangle of the own plot (22 R410). -/
def State.liveCells (s : State) (t : Ten) : Nat :=
  if t.own then (t.cells.filter fun x => !s.isVoid (s.thr.plot.cell x.1 x.2)).length else 0

/-- The placement of element (d, i, j) (07 R172): the cell of the rectangle, the row counted from LAYER, the bit in it. -/
def Ten.at (t : Ten) (d i j : Nat) : (Nat × Nat) × Nat × Nat :=
  let e := i % t.ebr * t.ebc + j % t.ebc
  let bit := if t.fmt = 16 then 512 * (e / 8) + 48 * (e % 8) else e * fmtBits t.fmt
  ((t.row0 + i / t.ebr, t.col0 + j / t.ebc), d * t.sr + bit / 256, bit % 256)

/-- A tagged pointer to the first byte of a row of an operand, in the space of its kind (11 R266). -/
def Ten.rowPointer (t : Ten) (x : Nat × Nat × Nat) : Word :=
  let (cell, k, _) := t.at x.1 x.2.1 x.2.2
  let sp := if t.kind = 5 then 2 else if t.kind = 6 then 3 else 1
  BitVec.ofNat 64 (sp * 2 ^ 60 + (if sp = 1 then 0 else t.rank) * 2 ^ 48 + cell.1 * 2 ^ 21 + cell.2 * 2 ^ 13
    + (t.layer + k) * 32)

/-- The offsets of a window selector (02 R31, 00 R4). -/
def windowOff (w : BitVec 4) : Int × Int :=
  match w.toNat with
  | 1 => (-1, 0)
  | 2 => (-1, 1)
  | 3 => (0, 1)
  | 4 => (1, 1)
  | 5 => (1, 0)
  | 6 => (1, -1)
  | 7 => (0, -1)
  | 8 => (-1, -1)
  | _ => (0, 0)

/-- The plot cell a window reads for a cell: none outside the plot (08 R187, R188). -/
def Plot.window (p : Plot) (w : BitVec 4) (r c : Nat) : Option Nat :=
  let (dr, dc) := windowOff w
  let r' := (r : Int) + dr
  let c' := (c : Int) + dc
  if 0 ≤ r' ∧ r' < p.h ∧ 0 ≤ c' ∧ c' < p.w then some (p.cell r'.toNat c'.toNat) else none

/-- The store row of a tensor's row `k`. -/
def Place.storeRow (p : Place) (k : Nat) : Nat := p.plot.sbase + p.off + p.t.layer + k

/-- The row `k` of the tensor in the cell that a window reads for (r, c): zero outside the plot and at a void cell
(08 R188, 07 R168). -/
def State.winRow (s : State) (p : Place) (w : BitVec 4) (r c k : Nat) : Row :=
  match p.plot.window w r c with
  | none => {}
  | some cell => if s.isVoid cell then {} else s.row cell (p.storeRow k)

/-- The bits of element (d, i, j) read through a window. -/
def State.elem (s : State) (p : Place) (w : BitVec 4) (d i j : Nat) : Nat :=
  let (cell, k, bit) := p.t.at d i j
  fld (s.winRow p w cell.1 cell.2 k).data bit (fmtBits p.t.fmt)

/-- Was a poisoned row read for element (d, i, j)? -/
def State.elemPoison (s : State) (p : Place) (w : BitVec 4) (d i j : Nat) : Bool :=
  let (cell, k, _) := p.t.at d i j
  (s.winRow p w cell.1 cell.2 k).poison

/-- One element to be written, with the poison of what it was computed from. -/
structure EWrite where
  d : Nat
  i : Nat
  j : Nat
  v : Nat
  poison : Bool := false

/-- Is the cell of element (d, i, j) void? -/
def State.elemVoid (s : State) (p : Place) (d i j : Nat) : Bool :=
  let (cell, _, _) := p.t.at d i j
  s.isVoid (p.plot.cell cell.1 cell.2)

/-- The number of elements of a slice that lie in one row of a cell. -/
def Ten.perRow (t : Ten) : Nat := min t.n (256 / fmtBits t.fmt)

/-- Elements written (07 R163, 11 R250): a row becomes poisoned when it is written from a poisoned row, and is clean when
all its 32 bytes are written from clean ones. -/
def State.writeElems (s : State) (p : Place) (ws : List EWrite) : State :=
  let wd := fmtBits p.t.fmt
  let keyed := ws.filterMap fun w =>
    let (cell, k, bit) := p.t.at w.d w.i w.j
    let c := p.plot.cell cell.1 cell.2
    if s.isVoid c then none else some (c * 256 + p.storeRow k, bit, w)
  let s' := keyed.foldl (fun s x =>
    let r := NMap.get ({} : Row) s.rows x.1
    let data := (r.data &&& ~~~(BitVec.ofNat 256 ((2 ^ wd - 1) * 2 ^ x.2.1))) ||| BitVec.ofNat 256 (x.2.2.v % 2 ^ wd * 2 ^ x.2.1)
    { s with rows := NMap.put {} s.rows x.1 { r with data := data, poison := r.poison || x.2.2.poison } }) s
  -- rows all of whose bits were written from clean rows are clean
  (keyed.map (·.1)).eraseDups.foldl (fun s k =>
    let mine := keyed.filter fun x => x.1 == k
    let r := NMap.get ({} : Row) s.rows k
    if r.poison ∧ mine.all (fun x => !x.2.2.poison) ∧ (mine.map fun x => x.2.1).eraseDups.length * wd = 256
    then { s with rows := NMap.put {} s.rows k { r with poison := false } } else s) s'

/-- Every element index of a grid in prefix order (17 R357): by slice, element row, element column. -/
def Ten.grid (t : Ten) : List (Nat × Nat × Nat) :=
  (List.range t.slices).flatMap fun d => (List.range t.rows).flatMap fun i => (List.range t.cols).map fun j => (d, i, j)

/-- The footprint of an operand (07 R179). -/
def Ten.fp (t : Ten) (write : Bool) : List Fp :=
  if t.own then [⟨t.row0, t.row0 + t.h, t.col0, t.col0 + t.w, t.layer, t.layer + t.depth, write⟩] else []

/-- The footprint of a source read through a window, one cell wider and clipped to the plot (07 R180). -/
def Ten.fpWin (t : Ten) (p : Plot) (w : BitVec 4) : List Fp :=
  if w = 0 then t.fp false
  else if t.own then
    [⟨t.row0 - 1, min p.h (t.row0 + t.h + 1), t.col0 - 1, min p.w (t.col0 + t.w + 1), t.layer, t.layer + t.depth, false⟩]
  else []

/-- The bit of a predicate plane for element (d, i, j); no plane is active everywhere. One slice serves every slice
(11 R249). -/
def State.predBit (s : State) (tc : Option Place) (d i j : Nat) : Bool :=
  match tc with
  | none => true
  | some p => s.elem p 0 (if p.t.slices = 1 then 0 else d) i j == 1

/-- Does a bound cut an ACC48 block: some but not all of its eight elements inside (06 R153)? -/
def Ten.cutsBlock (t : Ten) (e : Word) : Bool :=
  (List.range t.rows).any fun i => (List.range t.cols).any fun j =>
    -- the eight elements of a block are indices 8q … 8q + 7 of a cell
    let inCell := i % t.ebr * t.ebc + j % t.ebc
    let first := inCell / 8 * 8
    let i0 := i / t.ebr * t.ebr
    let j0 := j / t.ebc * t.ebc
    inBound e i j != inBound e (i0 + first / t.ebc) (j0 + first % t.ebc)

end Sys2Proof.Machine
end

