-- ==== Sys2Proof/Machine/Opcodes.lean ====
section
/-!
DEFINITION. The opcode map (02 R42) and the bank-engine op numbers (02 R45): the format, major opcode and FN of every
thread form, the op of every bank word, and the way back. Everything that decodes, encodes or checks an instruction
goes through these two maps.
-/
namespace Sys2Proof

/-- An instruction as its encoding sees it: the format with OPC, FN and fields, a bank-engine op with its fields, or no
encoding at all (an event or engine step). -/
inductive Form where
  | a (opc fn : Nat) (f : FA)
  | b (opc fn : Nat) (f : FB)
  | m (opc fn : Nat) (f : FM)
  | e (opc fn : Nat) (f : FE)
  | t (opc fn : Nat) (f : FT)
  | q (opc fn : Nat) (f : FQ)
  | bank (op : Nat) (f : FBk)
  | none
deriving DecidableEq, Repr

/-- The encoding view of each constructor (02 R42, R45). -/
def Instr.form : Instr → Form
  | .nop f => .e 0x00 0 f
  | .exitThread f => .e 0x00 1 f
  | .yieldSlot f => .e 0x00 2 f
  | .trap f => .e 0x00 3 f
  | .eret f => .e 0x00 4 f
  | .sysr f => .e 0x00 5 f
  | .sysw f => .e 0x00 6 f
  | .sysx f => .e 0x00 7 f
  | .brk f => .e 0x00 8 f
  | .tstamp f => .e 0x00 9 f
  | .evt f => .e 0x00 10 f
  | .br f => .b 0x01 0 f
  | .brl f => .b 0x01 1 f
  | .ret f => .b 0x01 2 f
  | .jt f => .b 0x01 3 f
  | .jtl f => .b 0x01 4 f
  | .loop f => .b 0x01 5 f
  | .loopx f => .b 0x01 6 f
  | .lbrk f => .b 0x01 7 f
  | .add f => .a 0x10 0 f
  | .sub f => .a 0x10 1 f
  | .mul f => .a 0x10 2 f
  | .mulh f => .a 0x10 3 f
  | .mulhu f => .a 0x10 4 f
  | .div f => .a 0x10 5 f
  | .divu f => .a 0x10 6 f
  | .rem f => .a 0x10 7 f
  | .remu f => .a 0x10 8 f
  | .and f => .a 0x10 9 f
  | .or f => .a 0x10 10 f
  | .xor f => .a 0x10 11 f
  | .andn f => .a 0x10 12 f
  | .shl f => .a 0x10 13 f
  | .shr f => .a 0x10 14 f
  | .sar f => .a 0x10 15 f
  | .min f => .a 0x10 16 f
  | .minu f => .a 0x10 17 f
  | .max f => .a 0x10 18 f
  | .maxu f => .a 0x10 19 f
  | .clz f => .a 0x10 20 f
  | .ctz f => .a 0x10 21 f
  | .popc f => .a 0x10 22 f
  | .brev f => .a 0x10 23 f
  | .exts f => .a 0x10 24 f
  | .extz f => .a 0x10 25 f
  | .ins f => .a 0x10 26 f
  | .sel f => .a 0x10 27 f
  | .ceq f => .a 0x11 0 f
  | .cne f => .a 0x11 1 f
  | .clt f => .a 0x11 2 f
  | .cle f => .a 0x11 3 f
  | .cltu f => .a 0x11 4 f
  | .cleu f => .a 0x11 5 f
  | .pand f => .a 0x11 6 f
  | .por f => .a 0x11 7 f
  | .pxor f => .a 0x11 8 f
  | .pnot f => .a 0x11 9 f
  | .pmov f => .a 0x11 10 f
  | .pget f => .a 0x11 11 f
  | .movi f => .b 0x12 0 f
  | .movhi f => .b 0x12 1 f
  | .addi f => .b 0x12 2 f
  | .ptrmk f => .b 0x12 3 f
  | .ptrsp f => .b 0x12 4 f
  | .ptrrk f => .b 0x12 5 f
  | .ptroff f => .b 0x12 6 f
  | .pladr f => .b 0x12 7 f
  | .fadd f => .a 0x20 0 f
  | .fsub f => .a 0x20 1 f
  | .fmul f => .a 0x20 2 f
  | .fma f => .a 0x20 3 f
  | .fdiv f => .a 0x20 4 f
  | .fsqrt f => .a 0x20 5 f
  | .frsq f => .a 0x20 6 f
  | .fmin f => .a 0x20 7 f
  | .fmax f => .a 0x20 8 f
  | .fabs f => .a 0x20 9 f
  | .fneg f => .a 0x20 10 f
  | .fceq f => .a 0x20 11 f
  | .fclt f => .a 0x20 12 f
  | .fcle f => .a 0x20 13 f
  | .fcvt f => .a 0x20 14 f
  | .fclass f => .a 0x20 15 f
  | .ld f => .m 0x30 0 f
  | .ldz f => .m 0x30 1 f
  | .st f => .m 0x30 2 f
  | .pref f => .m 0x30 8 f
  | .ldf f => .m 0x30 3 f
  | .ldfe f => .m 0x30 4 f
  | .ste f => .m 0x30 5 f
  | .stf f => .m 0x30 6 f
  | .feq f => .m 0x30 7 f
  | .aadd f => .m 0x31 0 f
  | .amin f => .m 0x31 1 f
  | .amax f => .m 0x31 2 f
  | .aminu f => .m 0x31 3 f
  | .amaxu f => .m 0x31 4 f
  | .aand f => .m 0x31 5 f
  | .aor f => .m 0x31 6 f
  | .axor f => .m 0x31 7 f
  | .axchg f => .m 0x31 8 f
  | .acas f => .m 0x31 9 f
  | .afadd f => .m 0x31 10 f
  | .ord f => .e 0x32 0 f
  | .fence f => .e 0x32 1 f
  | .qfence f => .e 0x32 2 f
  | .enter f => .a 0x33 0 f
  | .leavef f => .a 0x33 1 f
  | .spill f => .a 0x33 2 f
  | .vaadd f => .t 0x34 0 f
  | .vamin f => .t 0x34 1 f
  | .vamax f => .t 0x34 2 f
  | .vaxchg f => .t 0x34 3 f
  | .vafadd f => .t 0x34 4 f
  | .spawn f => .b 0x40 0 f
  | .cont f => .b 0x40 1 f
  | .park f => .b 0x40 2 f
  | .gnew f => .b 0x40 3 f
  | .joinGroup f => .b 0x40 4 f
  | .leaveGroup f => .b 0x40 5 f
  | .gbar f => .b 0x40 6 f
  | .grank f => .b 0x40 7 f
  | .gsize f => .b 0x40 8 f
  | .launch f => .b 0x40 9 f
  | .plotgrow f => .b 0x40 10 f
  | .plotinfo f => .b 0x40 11 f
  | .tdset f => .t 0x50 0 f
  | .tdget f => .t 0x50 1 f
  | .tdld f => .t 0x50 2 f
  | .tdst f => .t 0x50 3 f
  | .tdmove f => .t 0x50 4 f
  | .tdsub f => .t 0x50 5 f
  | .edset f => .t 0x50 6 f
  | .edget f => .t 0x50 7 f
  | .vadd f => .t 0x60 0 f
  | .vsub f => .t 0x60 1 f
  | .vmul f => .t 0x60 2 f
  | .vfma f => .t 0x60 3 f
  | .vmin f => .t 0x60 4 f
  | .vmax f => .t 0x60 5 f
  | .vabs f => .t 0x60 6 f
  | .vneg f => .t 0x60 7 f
  | .vdiv f => .t 0x60 8 f
  | .vrcp f => .t 0x60 9 f
  | .vsqrt f => .t 0x60 10 f
  | .vrsq f => .t 0x60 11 f
  | .vexp2 f => .t 0x60 12 f
  | .vlog2 f => .t 0x60 13 f
  | .vand f => .t 0x60 14 f
  | .vor f => .t 0x60 15 f
  | .vxor f => .t 0x60 16 f
  | .vnot f => .t 0x60 17 f
  | .vshl f => .t 0x60 18 f
  | .vshr f => .t 0x60 19 f
  | .vsar f => .t 0x60 20 f
  | .vclz f => .t 0x60 21 f
  | .vpopc f => .t 0x60 22 f
  | .vmov f => .t 0x60 23 f
  | .vcvt f => .t 0x60 24 f
  | .vsel f => .t 0x60 25 f
  | .vceq f => .t 0x60 26 f
  | .vcne f => .t 0x60 27 f
  | .vclt f => .t 0x60 28 f
  | .vcle f => .t 0x60 29 f
  | .vadds f => .t 0x61 0 f
  | .vmuls f => .t 0x61 1 f
  | .vfmas f => .t 0x61 2 f
  | .vmins f => .t 0x61 3 f
  | .vmaxs f => .t 0x61 4 f
  | .vbcast f => .t 0x61 5 f
  | .viota f => .t 0x61 6 f
  | .vperm f => .t 0x62 0 f
  | .vrot f => .t 0x62 1 f
  | .vxch f => .t 0x62 2 f
  | .vredc f => .t 0x62 3 f
  | .vscanc f => .t 0x62 4 f
  | .vdotc f => .t 0x62 5 f
  | .vlut f => .t 0x62 6 f
  | .ppset f => .t 0x63 0 f
  | .ppand f => .t 0x63 1 f
  | .ppor f => .t 0x63 2 f
  | .ppnot f => .t 0x63 3 f
  | .ppcnt f => .t 0x63 4 f
  | .ppany f => .t 0x63 5 f
  | .ppall f => .t 0x63 6 f
  | .feset f => .t 0x63 7 f
  | .feclr f => .t 0x63 8 f
  | .scroll f => .t 0x70 0 f
  | .scrollx f => .t 0x70 1 f
  | .plcopy f => .t 0x70 2 f
  | .plfill f => .t 0x70 3 f
  | .nredr f => .t 0x80 0 f
  | .nredc f => .t 0x80 1 f
  | .nredx f => .t 0x80 2 f
  | .nbcr f => .t 0x80 3 f
  | .nbcc f => .t 0x80 4 f
  | .dred f => .t 0x80 5 f
  | .wld f => .q 0x90 0 f
  | .wswap f => .q 0x90 1 f
  | .mstream f => .q 0x90 2 f
  | .accz f => .q 0x90 3 f
  | .accrd f => .q 0x90 4 f
  | .accnrm f => .q 0x90 5 f
  | .cpin f => .q 0xA0 0 f
  | .cpout f => .q 0xA0 1 f
  | .cpg f => .q 0xA0 2 f
  | .cps f => .q 0xA0 3 f
  | .cpp f => .q 0xA0 4 f
  | .cpm f => .q 0xA0 5 f
  | .seal f => .q 0xA0 6 f
  | .waitb f => .q 0xA0 7 f
  | .wptr f => .q 0xA0 8 f
  | .cpstat f => .q 0xA0 9 f
  | .bkload f => .q 0xB0 0 f
  | .bkact f => .q 0xB0 1 f
  | .bkcall f => .q 0xB0 2 f
  | .bkwait f => .q 0xB0 3 f
  | .bkstat f => .q 0xB0 4 f
  | .owloop f => .q 0xC0 0 f
  | .owwin f => .q 0xC0 1 f
  | .owdecl f => .q 0xC0 2 f
  | .owchk f => .q 0xC0 3 f
  | .owstat f => .q 0xC0 4 f
  | .pwrhint f => .e 0xD0 0 f
  | .chgrd f => .e 0xD0 1 f
  | .bli f => .bank 2 f
  | .baddi f => .bank 3 f
  | .badd f => .bank 4 f
  | .bsub f => .bank 5 f
  | .bmul f => .bank 6 f
  | .bbz f => .bank 7 f
  | .bbnz f => .bank 8 f
  | .bloop f => .bank 9 f
  | .bza f => .bank 10 f
  | .bmac f => .bank 11 f
  | .bfmt f => .bank 12 f
  | .bscl f => .bank 13 f
  | .brda f => .bank 14 f
  | .bsend f => .bank 15 f
  | .brd f => .bank 16 f
  | .bwr f => .bank 17 f
  | .bsig f => .bank 18 f
  | .bwait f => .bank 19 f
  | .bnop => .bank 0 ⟨0, 0, 0, 0⟩
  | .bhalt => .bank 1 ⟨0, 0, 0, 0⟩
  | .feTimeout => .none
  | .aggregatorRmw => .none
  | .scrollUnitStep => .none
  | .planeOpComplete => .none
  | .reductionRoot => .none
  | .dredCombine => .none
  | .dredTimeout => .none
  | .copyBurst => .none
  | .copySlackDecay => .none
  | .cpgSectorArrival => .none
  | .engineProgramWrite => .none
  | .engineActWrite => .none
  | .engineCallStart => .none
  | .callComplete => .none
  | .callFaultReport => .none
  | .bsendDelivery => .none
  | .bankTimeout => .none
  | .hintExpiry => .none
  | .loadComplete => .none
  | .storeLeavesQueue => .none
  | .pageWalk => .none
  | .loggedFaultTrap => .none
  | .lateTrap => .none
  | .packetArrival => .none
  | .itemTerminate => .none
  | .itemEnd => .none
  | .launchRingRead => .none
  | .ringReset => .none
  | .queueConfig => .none
  | .dispatchItem => .none
  | .priorityAging => .none
  | .parkCheck => .none
  | .replicaAccept => .none
  | .startTimeout => .none
  | .peerTimeout => .none
  | .partitionReset => .none
  | .preemptRequest => .none
  | .drainExpiry => .none
  | .saveItem => .none
  | .flushItem => .none
  | .tlbinvVa => .none
  | .tlbinvAll => .none
  | .ptbaseWrite => .none
  | .latecntWrite => .none
  | .opldrop => .none
  | .keySlotLoad => .none
  | .eccScrub => .none
  | .parityError => .none
  | .railctlWrite => .none
  | .clctlWrite => .none
  | .vfenergyWrite => .none
  | .dvfsRequest => .none
  | .railRampDone => .none
  | .clockHop => .none
  | .droopDetect => .none
  | .droopEnd => .none
  | .chargeCycle => .none
  | .clusterSample => .none
  | .thermalThreshold => .none
  | .ptpAdjust => .none
  | .timeResync => .none
  | .pcSample => .none
  | .watermarkStep => .none
  | .haltSlot => .none
  | .resumeSlot => .none
  | .stepSlot => .none
  | .dbgRead => .none
  | .dbgWrite => .none
  | .dbgSample => .none
  | .droplog => .none
  | .registerWrite => .none
  | .linkRetrain => .none
  | .coldStart => .none
  | .warmStart => .none
  | .startWatchdog => .none
  | .imageUpdate => .none
  | .illegalEncoding => .none
  | .bankIllegal => .none
  | .peerAccess => .none
  | .hostAccess => .none
  | .rdmaTransfer => .none
  | .systemCoreAccess => .none
  | .replicatedPacket => .none
  | .hostAttach => .none
  | .ptpLockChange => .none
  | .inputPowerLoss => .none
  | .coolantFlowLow => .none
  | .flitCrcReplay => .none
  | .mergeCounterRead => .none
  | .faultRingSpace => .none
  | .clusterRecalibration => .none
  | .linkRetirement => .none
  | .enginePartitionAssign => .none

/-- The format A instruction of an opcode and FN (02 R42); none where the map assigns none (R43). -/
def ofA (opc fn : Nat) (f : FA) : Option Instr :=
  match opc with
  | 0x10 => ([.add f, .sub f, .mul f, .mulh f, .mulhu f, .div f, .divu f, .rem f, .remu f, .and f, .or f, .xor f, .andn f, .shl f, .shr f, .sar f, .min f, .minu f, .max f, .maxu f, .clz f, .ctz f, .popc f, .brev f, .exts f, .extz f, .ins f, .sel f] : List Instr)[fn]?
  | 0x11 => ([.ceq f, .cne f, .clt f, .cle f, .cltu f, .cleu f, .pand f, .por f, .pxor f, .pnot f, .pmov f, .pget f] : List Instr)[fn]?
  | 0x20 => ([.fadd f, .fsub f, .fmul f, .fma f, .fdiv f, .fsqrt f, .frsq f, .fmin f, .fmax f, .fabs f, .fneg f, .fceq f, .fclt f, .fcle f, .fcvt f, .fclass f] : List Instr)[fn]?
  | 0x33 => ([.enter f, .leavef f, .spill f] : List Instr)[fn]?
  | _ => none

/-- The format B instruction of an opcode and FN (02 R42); none where the map assigns none (R43). -/
def ofB (opc fn : Nat) (f : FB) : Option Instr :=
  match opc with
  | 0x01 => ([.br f, .brl f, .ret f, .jt f, .jtl f, .loop f, .loopx f, .lbrk f] : List Instr)[fn]?
  | 0x12 => ([.movi f, .movhi f, .addi f, .ptrmk f, .ptrsp f, .ptrrk f, .ptroff f, .pladr f] : List Instr)[fn]?
  | 0x40 => ([.spawn f, .cont f, .park f, .gnew f, .joinGroup f, .leaveGroup f, .gbar f, .grank f, .gsize f, .launch f, .plotgrow f, .plotinfo f] : List Instr)[fn]?
  | _ => none

/-- The format M instruction of an opcode and FN (02 R42); none where the map assigns none (R43). -/
def ofM (opc fn : Nat) (f : FM) : Option Instr :=
  match opc with
  | 0x30 => ([.ld f, .ldz f, .st f, .ldf f, .ldfe f, .ste f, .stf f, .feq f, .pref f] : List Instr)[fn]?
  | 0x31 => ([.aadd f, .amin f, .amax f, .aminu f, .amaxu f, .aand f, .aor f, .axor f, .axchg f, .acas f, .afadd f] : List Instr)[fn]?
  | _ => none

/-- The format E instruction of an opcode and FN (02 R42); none where the map assigns none (R43). -/
def ofE (opc fn : Nat) (f : FE) : Option Instr :=
  match opc with
  | 0x00 => ([.nop f, .exitThread f, .yieldSlot f, .trap f, .eret f, .sysr f, .sysw f, .sysx f, .brk f, .tstamp f, .evt f] : List Instr)[fn]?
  | 0x32 => ([.ord f, .fence f, .qfence f] : List Instr)[fn]?
  | 0xD0 => ([.pwrhint f, .chgrd f] : List Instr)[fn]?
  | _ => none

/-- The format T instruction of an opcode and FN (02 R42); none where the map assigns none (R43). -/
def ofT (opc fn : Nat) (f : FT) : Option Instr :=
  match opc with
  | 0x34 => ([.vaadd f, .vamin f, .vamax f, .vaxchg f, .vafadd f] : List Instr)[fn]?
  | 0x50 => ([.tdset f, .tdget f, .tdld f, .tdst f, .tdmove f, .tdsub f, .edset f, .edget f] : List Instr)[fn]?
  | 0x60 => ([.vadd f, .vsub f, .vmul f, .vfma f, .vmin f, .vmax f, .vabs f, .vneg f, .vdiv f, .vrcp f, .vsqrt f, .vrsq f, .vexp2 f, .vlog2 f, .vand f, .vor f, .vxor f, .vnot f, .vshl f, .vshr f, .vsar f, .vclz f, .vpopc f, .vmov f, .vcvt f, .vsel f, .vceq f, .vcne f, .vclt f, .vcle f] : List Instr)[fn]?
  | 0x61 => ([.vadds f, .vmuls f, .vfmas f, .vmins f, .vmaxs f, .vbcast f, .viota f] : List Instr)[fn]?
  | 0x62 => ([.vperm f, .vrot f, .vxch f, .vredc f, .vscanc f, .vdotc f, .vlut f] : List Instr)[fn]?
  | 0x63 => ([.ppset f, .ppand f, .ppor f, .ppnot f, .ppcnt f, .ppany f, .ppall f, .feset f, .feclr f] : List Instr)[fn]?
  | 0x70 => ([.scroll f, .scrollx f, .plcopy f, .plfill f] : List Instr)[fn]?
  | 0x80 => ([.nredr f, .nredc f, .nredx f, .nbcr f, .nbcc f, .dred f] : List Instr)[fn]?
  | _ => none

/-- The format Q instruction of an opcode and FN (02 R42); none where the map assigns none (R43). -/
def ofQ (opc fn : Nat) (f : FQ) : Option Instr :=
  match opc with
  | 0x90 => ([.wld f, .wswap f, .mstream f, .accz f, .accrd f, .accnrm f] : List Instr)[fn]?
  | 0xA0 => ([.cpin f, .cpout f, .cpg f, .cps f, .cpp f, .cpm f, .seal f, .waitb f, .wptr f, .cpstat f] : List Instr)[fn]?
  | 0xB0 => ([.bkload f, .bkact f, .bkcall f, .bkwait f, .bkstat f] : List Instr)[fn]?
  | 0xC0 => ([.owloop f, .owwin f, .owdecl f, .owchk f, .owstat f] : List Instr)[fn]?
  | _ => none

/-- The bank word of an op value (02 R45); none for 20-63. BNOP and BHALT use no field. -/
def ofBank (op : Nat) (f : FBk) : Option Instr :=
  match op with
  | 0 => if f = ⟨0, 0, 0, 0⟩ then some .bnop else none
  | 1 => if f = ⟨0, 0, 0, 0⟩ then some .bhalt else none
  | n + 2 => ([.bli f, .baddi f, .badd f, .bsub f, .bmul f, .bbz f, .bbnz f, .bloop f, .bza f, .bmac f, .bfmt f, .bscl f, .brda f, .bsend f, .brd f, .bwr f, .bsig f, .bwait f] : List Instr)[n]?

/-- The instruction of an encoding view. -/
def Form.instr : Form → Option Instr
  | .a opc fn f => ofA opc fn f
  | .b opc fn f => ofB opc fn f
  | .m opc fn f => ofM opc fn f
  | .e opc fn f => ofE opc fn f
  | .t opc fn f => ofT opc fn f
  | .q opc fn f => ofQ opc fn f
  | .bank op f => ofBank op f
  | .none => Option.none

/-- The format letter of a family: the number of its parcels and its LEN code are the format's (02 R18, R34). -/
inductive Fmt where
  | a | b | m | e | t | q
deriving DecidableEq, Repr

/-- Parcels of a format (02 R18). -/
def Fmt.parcels : Fmt → Nat
  | .a | .e => 2
  | .b | .m | .t => 3
  | .q => 4

/-- The LEN code of a format (02 R18). -/
def Fmt.len : Fmt → BitVec 2
  | .a | .e => 0
  | .b | .m | .t => 1
  | .q => 2

/-- The format and the number of FN values of each assigned major opcode (02 R42). -/
def family (opc : Nat) : Option (Fmt × Nat) :=
  match opc with
  | 0x00 => some (.e, 11)   -- CTRL
  | 0x01 => some (.b, 8)   -- BRANCH
  | 0x10 => some (.a, 28)   -- IALU
  | 0x11 => some (.a, 12)   -- ICMP
  | 0x12 => some (.b, 8)   -- IMM
  | 0x20 => some (.a, 16)   -- FALU
  | 0x30 => some (.m, 9)   -- MEM
  | 0x31 => some (.m, 11)   -- ATOM
  | 0x32 => some (.e, 3)   -- ORDER
  | 0x33 => some (.a, 3)   -- STACK
  | 0x34 => some (.t, 5)   -- VATOM
  | 0x40 => some (.b, 12)   -- SCHED
  | 0x50 => some (.t, 8)   -- TDESC
  | 0x60 => some (.t, 30)   -- VARITH
  | 0x61 => some (.t, 7)   -- VSCALAR
  | 0x62 => some (.t, 7)   -- VLANE
  | 0x63 => some (.t, 9)   -- VPRED
  | 0x70 => some (.t, 4)   -- PMOVE
  | 0x80 => some (.t, 6)   -- NET
  | 0x90 => some (.q, 6)   -- MATRIX
  | 0xA0 => some (.q, 10)   -- COPY
  | 0xB0 => some (.q, 5)   -- BANK
  | 0xC0 => some (.q, 5)   -- WALK
  | 0xD0 => some (.e, 2)   -- POWER
  | _ => none

end Sys2Proof
end

