-- ==== Sys2Proof/Machine/Operands.lean ====
section
/-!
DEFINITION. Operands: the general registers with their banks and x0, predicates with p7, the second operand of format A,
effective addresses, and what registers an encoding names (09 R202-R210; 02 R25-R30, R38).
-/
namespace Sys2Proof.Machine

/-- General register `n` (09 R202, R203): x0 reads zero, and in privileged mode x56-x63 are the second bank. -/
def Thread.X (t : Thread) (n : BitVec 6) : Word :=
  if n = 0 then 0
  else if t.priv = true ∧ 56 ≤ n.toNat then t.xp.toArray.getD (n.toNat - 56) 0
  else t.x.toArray.getD n.toNat 0

/-- General register `n` of the thread that acts. -/
def State.X (s : State) (n : BitVec 6) : Word := s.thr.X n

/-- A write of a general register in a mode: discarded for x0, to the second bank in privileged mode (09 R202, R203). -/
def Thread.setXAs (t : Thread) (priv : Bool) (n : BitVec 6) (v : Word) : Thread :=
  if n = 0 then t
  else if priv = true ∧ 56 ≤ n.toNat then { t with xp := t.xp.setIfInBounds (n.toNat - 56) v }
  else { t with x := t.x.setIfInBounds n.toNat v }

/-- A write of a general register in the mode the thread is in. -/
def Thread.setX (t : Thread) (n : BitVec 6) (v : Word) : Thread := t.setXAs t.priv n v

/-- A write of a general register of the thread that acts. -/
def State.setX (s : State) (n : BitVec 6) (v : Word) : State := { s with thr := s.thr.setX n v }

/-- Predicate `n`; p7 reads 1 (09 R202). -/
def State.P (s : State) (n : BitVec 3) : Bool := n = 7 || s.thr.p.getLsbD n.toNat

/-- A write of a predicate: discarded for p7 (09 R202). -/
def State.setP (s : State) (n : BitVec 3) (v : Bool) : State :=
  if n = 7 then s
  else
    let m : BitVec 8 := 1#8 <<< n.toNat
    { s with thr := { s.thr with p := if v then s.thr.p ||| m else s.thr.p &&& ~~~m } }

/-- The guard (02 R24): its predicate, inverted when GP[17] is set. -/
def State.guard (s : State) (h : Hd) : Bool := (s.P (h.gp.setWidth 3)) != h.gp.getLsbD 3

/-- The second operand of format A (02 R25). -/
def State.opB (s : State) (f : FA) : Word := if f.ib = 1 then f.imm.signExtend 64 else s.X f.xb

/-- Width of an integer size code (02 R31). -/
def szBits (sz : BitVec 2) : Nat :=
  match sz.toNat with
  | 0 => 64
  | 1 => 32
  | 2 => 16
  | _ => 8

/-- Bytes of a SIZE code of format M (02 R31). -/
def sizeBytes (n : BitVec 3) : Nat := 2 ^ n.toNat

/-- The effective address of format M (02 R27). -/
def State.ea (s : State) (f : FM) : Word :=
  s.X f.xa + (if f.xb = 0 then 0 else s.X f.xb <<< f.scl.toNat) + f.disp.signExtend 64

/-- The address of the ATOM family: no index (02 R27, 17 R353). -/
def State.eaAtom (s : State) (f : FM) : Word := s.X f.xa + f.disp.signExtend 64

/-- The target of a parcel offset (02 R40). -/
def parcelTarget (pc : Word) (off : BitVec 32) : Word := pc + (off.signExtend 64 <<< 2)

end Sys2Proof.Machine

namespace Sys2Proof

/-- General registers that an encoding names as sources or destinations (02 R38); an unused field names x0. -/
def Form.namesX : Form → List (BitVec 6)
  | .a 0x11 fn f => if fn = 6 ∨ fn = 7 ∨ fn = 8 ∨ fn = 9 ∨ fn = 10 then [] else [f.xa, f.xb]
  | .a 0x20 fn f => if fn = 11 ∨ fn = 12 ∨ fn = 13 then [f.xa, f.xb] else [f.xa, f.xb, f.xd]
  | .a 0x33 fn f =>
    if fn = 2 then f.xa :: (List.range 16).filterMap fun k =>
      if f.imm.getLsbD k then Option.some (f.xd + BitVec.ofNat 6 k) else Option.none
    else [f.xa, f.xb, f.xd]
  | .a _ _ f => [f.xa, f.xb, f.xd]
  | .b _ _ f => [f.xa, f.xb, f.xd]
  | .m _ _ f => [f.xa, f.xb, f.xd] ++ (if f.size = 4 then [f.xd + 1] else [])
  | .e _ _ f => [f.xa, f.xd]
  | .t 0x50 fn f => if fn = 0 ∨ fn = 1 then [f.xs, f.xs + 1, f.xs + 2, f.xs + 3] else [f.xs]
  | .t _ _ f => [f.xs]
  | .q _ _ f => [f.xa, f.xb, f.xc]
  | .bank .. | .none => []

/-- Registers that a form reads or writes without naming them: sp, fp and lr of ENTER and LEAVEF (09 R226). An
instruction waits for them; they raise no LA_HAZARD (log 34). -/
def Form.implicitX : Form → List (BitVec 6)
  | .a 0x33 0 _ | .a 0x33 1 _ => [61, 62, 63]
  | _ => []

/-- Predicates that an encoding names besides its guard. -/
def Form.namesP : Form → List (BitVec 3)
  | .a 0x10 27 f => [f.imm.setWidth 3]
  | .a 0x11 fn f =>
    if fn = 6 ∨ fn = 7 ∨ fn = 8 then [f.xa.setWidth 3, f.xb.setWidth 3, f.xd.setWidth 3]
    else if fn = 9 ∨ fn = 10 then [f.xa.setWidth 3, f.xd.setWidth 3] else [f.xd.setWidth 3]
  | .a 0x20 fn f => if fn = 11 ∨ fn = 12 ∨ fn = 13 then [f.xd.setWidth 3] else []
  | _ => []

/-- The common fields of a form. -/
def Form.hd : Form → Hd
  | .a _ _ f => f.hd
  | .b _ _ f => f.hd
  | .m _ _ f => f.hd
  | .e _ _ f => f.hd
  | .t _ _ f => f.hd
  | .q _ _ f => f.hd
  | .bank .. | .none => ⟨7, 0⟩

/-- OPC of a form. -/
def Form.opc : Form → Nat
  | .a o _ _ | .b o _ _ | .m o _ _ | .e o _ _ | .t o _ _ | .q o _ _ => o
  | .bank .. | .none => 0x100

/-- FN of a form. -/
def Form.fn : Form → Nat
  | .a _ n _ | .b _ n _ | .m _ n _ | .e _ n _ | .t _ n _ | .q _ n _ => n
  | .bank o _ => o
  | .none => 0

/-- Parcels of a form (02 R18). -/
def Form.len : Form → Nat
  | .a .. | .e .. => 2
  | .b .. | .m .. | .t .. => 3
  | .q .. => 4
  | .bank .. | .none => 1

/-- Pending destination of a form of the long-latency class (02 R36, R37). -/
def Form.pendingDests : Form → List Machine.Dest
  | .m 0x30 fn f =>
    if fn = 0 ∨ fn = 1 then (if f.size = 4 then [.reg f.xd, .reg (f.xd + 1)] else [.reg f.xd]) else [.reg f.xd]
  | .a _ _ f => [.reg f.xd]
  | .m _ _ f => [.reg f.xd]
  | .e _ _ f => [.reg f.xd]
  | .t _ _ f => [.reg f.xs]
  | .q _ _ f => [.reg f.xc]
  | .b .. | .bank .. | .none => []

/-- The general registers that an instruction of a walker body writes (19 R372): both of a 16-byte load's pair. -/
def Form.writesX : Form → List (BitVec 6)
  | .a 0x11 _ _ => []
  | .a 0x20 fn f => if fn = 11 ∨ fn = 12 ∨ fn = 13 then [] else [f.xd]
  | .a _ _ f => [f.xd]
  | .b 0x01 fn f => if fn = 1 ∨ fn = 4 ∨ fn = 6 then [f.xd] else []
  | .b _ _ f => [f.xd]
  | .m 0x30 fn f => if fn = 0 ∨ fn = 1 then (if f.size = 4 then [f.xd, f.xd + 1] else [f.xd]) else []
  | .e 0x00 fn f => if fn = 9 then [f.xd] else []
  | .q 0xC0 fn f => if fn = 3 ∨ fn = 4 then [f.xc] else []
  | _ => []

/-- The predicate that an instruction of a walker body may write; p7 where it writes none. -/
def Form.writesP : Form → BitVec 3
  | .a 0x11 _ f => f.xd.setWidth 3
  | .a 0x20 fn f => if fn = 11 ∨ fn = 12 ∨ fn = 13 then f.xd.setWidth 3 else 7
  | _ => 7

/-- Does a form need privileged mode (02 R35 check 5; 09 R205)? -/
def Form.needsPriv : Form → Bool
  | .e 0x00 fn f =>
    match sysAccess f.sysn.toNat with
    | Option.some acc =>
      if fn = 4 then true
      else if fn = 5 then acc.privRead
      else if fn = 6 then acc.privWrite
      else if fn = 7 then acc.privRead || acc.privWrite
      else false
    | Option.none => fn = 4
  | _ => false

/-- Members of a walker body that fall under OW_ENGINE (19 R372): all but those the table allows and SYSW, SYSX. -/
def Form.owEngine (f : Form) : Bool :=
  match f.opc with
  | 0x01 | 0x10 | 0x11 | 0x12 | 0x20 => false
  | 0x00 => !(f.fn = 0 || f.fn = 3 || f.fn = 6 || f.fn = 7 || f.fn = 8 || f.fn = 9 || f.fn = 10)
  | 0x32 => f.fn = 2
  | 0x30 => !(f.fn = 0 || f.fn = 1 || f.fn = 2 || f.fn = 8)
  | 0xC0 => f.fn = 0 || f.fn = 1
  | _ => true

/-- OW_REG: a write of a register or predicate that a walker body may not write, SYSW or SYSX (19 R372). -/
def Form.owReg (f : Form) (index : BitVec 6) : Bool :=
  let p := f.writesP
  (f.opc = 0x00 && (f.fn = 6 || f.fn = 7))
    || f.writesX.any (fun x => !(x = 0 || x = index || (32 ≤ x.toNat && x.toNat ≤ 55))) || !(p.toNat ≤ 3 || p = 7)

end Sys2Proof
end

