-- ==== Sys2Proof/Machine/Ops.lean ====
section
/-!
DEFINITION. The operations that instructions share: events of the trace, footprints, waits, taking a trap and returning
from one, hardware loops, and the issue of one instruction around its own effect.
-/
namespace Sys2Proof.Machine

/-! ### Accesses of agents other than a thread -/

/-- The checks of translation and permission for addresses of space 0, with the locations they name (04 R86-R91): used
by copies, bank calls, the launch engine and the merge unit. -/
def State.agentLocs (s : State) (cl : Option Nat) (root : BitVec 44) (vf : BitVec 6) (store : Bool) (vas : List Word) :
    Except Trap (State × List (Loc × Nat)) :=
  match vas.find? fun a => a.toNat / 2 ^ 48 ≠ 0 with
  | some a => .error ⟨cSPACE, a, 0⟩
  | none =>
    match s.leaves cl root vf store (vas.map (·.toNat)) [] with
    | .error (va, info) => .error ⟨cNOTMAPPED, BitVec.ofNat 64 va, BitVec.ofNat 64 info⟩
    | .ok lv =>
      let leafOf (a : Word) : XLeaf := (lv.find (a.toNat / 65536)).getD ⟨0, 0, 0, 0, false, []⟩
      match if store then vas.find? fun a => (leafOf a).entry.getLsbD 4 || !(leafOf a).entry.getLsbD 1 else none with
      | some a => .error ⟨if (leafOf a).entry.getLsbD 4 then cCOW else cPERM, a, 0⟩
      | none =>
        .ok (lv.foldl (fun s x => s.commitLeaf cl root vf store x.2) s, vas.map fun a => s.leafLoc (leafOf a) a.toNat)

/-- Addresses from `a`, `n` of them. -/
def vaRange (a n : Nat) : List Word := (List.range n).map fun i => BitVec.ofNat 64 (a + i)

/-- Bytes that an agent reads in a space, with the state in which the leaves have their A bits (04 R89); none where they do not
translate or are poisoned. -/
def State.agentRead (s : State) (root : BitVec 44) (vf : BitVec 6) (a n : Nat) : Option (State × List Byte) :=
  match s.agentLocs none root vf false (vaRange a n) with
  | .error _ => none
  | .ok (s', ls) => if ls.any fun l => s.isPoisoned l.1 then none else some (s', s.getBytes ls)

/-- Bytes that an agent writes in a space; none where they are not writable. -/
def State.agentWrite (s : State) (root : BitVec 44) (vf : BitVec 6) (a : Nat) (bs : List Byte) : Option State :=
  match s.agentLocs none root vf true (vaRange a bs.length) with
  | .error _ => none
  | .ok (s, ls) => some (s.putBytes ((ls.zip bs).map fun x => ⟨x.1.1, x.2, x.1.2⟩))

/-! ### Galliard events (23 R429-R434) -/

/-- What the merge unit knows of a virtual function's trace. -/
def State.trace (s : State) (vf : Nat) : TraceV := NMap.get {} s.traces vf

/-- Is a kind of a virtual function written: EN and its MASK bit (23 R433)? -/
def State.traced (s : State) (vf : Nat) (kind : Nat) : Bool := (s.trace vf).ctl.getLsbD 0 && (s.trace vf).mask.getLsbD kind

/-- The die whose collector takes a source's events: 0 west, 1 east, 2 the I/O die (23 R432). -/
def sourceDie (src : Nat) : Nat :=
  if src < 0x800 then dieOf (src / 8)
  else if src < 0xC00 then (src - 0x800) / 384
  else if src < 0xD00 then dieOf (src - 0xC00)
  else if src < 0xE00 then (src - 0xD00) / 6
  else 2

/-- T as a source reads it: each compute die keeps its copy (23 R427). -/
def State.sourceTime (s : State) (src : Nat) : Word :=
  if sourceDie src < 2 then s.dieTime.toArray.getD (sourceDie src) 0 else s.time

/-- An event, when its function's trace takes its kind (23 R429-R433); a filtered event is never emitted. -/
def State.emit (s : State) (kind src vf payload : Nat) (stamp : Option (BitVec 384) := none) : State :=
  if s.traced vf kind then
    { s with events := s.events ++ [⟨s.sourceTime src, BitVec.ofNat 8 kind, BitVec.ofNat 12 src, BitVec.ofNat 12 vf,
                                     BitVec.ofNat 32 payload, stamp, false⟩] }
  else s

/-- A trace of a function changed. -/
def State.mapTrace (s : State) (vf : Nat) (f : TraceV → TraceV) : State :=
  { s with traces := NMap.put {} s.traces vf (f (s.trace vf)) }

/-- An event that is discarded is counted (23 R434). -/
def TraceV.lose (t : TraceV) : TraceV := { t with lost := t.lost + 1, uncounted := t.uncounted + 1 }

/-- Is the item of a thread traced: pf bit 9 (15 R310)? -/
def Thread.tracedItem (t : Thread) : Bool := t.src.pf.getLsbD 9

/-- An item event of the thread that acts (23 R430): only of a traced item. -/
def State.emitItem (s : State) (kind payload : Nat) : State :=
  if s.thr.tracedItem then s.emit kind s.cur.toNat s.thr.vf.toNat payload else s

/-- An item event of the item in slot `k`. -/
def State.emitSlot (s : State) (k : SlotNo) (kind payload : Nat) : State :=
  if (s.thread k).tracedItem then s.emit kind k.toNat (s.thread k).vf.toNat payload else s

/-- A device event: a source that has 64 of them queued discards it (23 R434). -/
def State.emitDev (s : State) (kind src payload : Nat) : State :=
  if s.traced 0xFFF kind && 64 ≤ (s.events.filter fun e => e.vf = 0xFFF && e.source.toNat = src).length then
    s.mapTrace 0xFFF TraceV.lose
  else s.emit kind src 0xFFF payload

/-- Values that depend on timing are recorded: RVAL_LO then RVAL_HI, when the function's CTL.RECORD is set (23 R445). -/
def State.record (s : State) (v : Word) : State :=
  if s.thr.tracedItem && (s.trace s.thr.vf.toNat).ctl.getLsbD 3 then
    (s.emitItem 0x7E (fld v 0 32)).emitItem 0x7F (fld v 32 32)
  else s

/-- Is a lossless event of the item `t` of slot `k` held (23 R434)? -/
def State.heldEvents (s : State) (k : SlotNo) (t : Thread) : Bool :=
  t.tracedItem && (s.trace t.vf.toNat).halted && s.events.any fun e => e.source.toNat = k.toNat && e.vf.toNat = t.vf.toNat

/-- A lossless event of the item is held: the slot waits at issue (23 R434). -/
def State.traceWaits (s : State) : Bool := s.heldEvents s.cur s.thr

/-- Long accesses still to be performed that have not faulted and do not stand behind one that has. -/
def Thread.openOuts (t : Thread) : List Out := t.outs.filter fun o => o.faulted.isNone && !o.blocked

/-! ### Footprints and the scoreboard (07 R179-R182) -/

/-- Do two footprints conflict (07 R179)? -/
def Fp.conflicts (a b : Fp) : Bool :=
  (a.write || b.write) && a.r0 < b.r1 && b.r0 < a.r1 && a.c0 < b.c1 && b.c0 < a.c1 && a.p0 < b.p1 && b.p0 < a.p1

/-- Do two lists of footprints conflict? -/
def fpsConflict (a b : List Fp) : Bool := a.any fun x => b.any fun y => x.conflicts y

/-- The rows of an own-plot operand not delivered after `u` units (06 R143). -/
def Ten.fpFrom (t : Ten) (write : Bool) (u : Nat) : List Fp :=
  if t.own ∧ u / t.ebr < t.h then
    [⟨t.row0 + u / t.ebr, t.row0 + t.h, t.col0, t.col0 + t.w, t.layer, t.layer + t.depth, write⟩]
  else []

/-- The first plot row of an operand alone (06 R143). -/
def Ten.fpLayer (t : Ten) (write : Bool) : List Fp :=
  if t.own then [⟨t.row0, t.row0 + t.h, t.col0, t.col0 + t.w, t.layer, t.layer + 1, write⟩] else []

/-- The footprint of `n` bytes of one cell from byte `b`, by the number of the cell in a pointer: ROW and COL. -/
def cellFp (q b n : Nat) (write : Bool) : Fp :=
  ⟨bits q 8 8, bits q 8 8 + 1, bits q 0 8, bits q 0 8 + 1, b / 32, (b + n - 1) / 32 + 1, write⟩

/-- The footprint of a range named by a space-1 pointer: a range that passes a cell's last byte goes on in the next COL, and then
in the next ROW (04 R83). None in another space. -/
def ptrFp (a : Word) (n : Nat) (write : Bool) : List Fp :=
  if spaceOf a = 1 ∧ 0 < n then
    let o := offsetOf a
    (List.range ((o + n - 1) / 8192 + 1 - o / 8192)).map fun i =>
      let q := o / 8192 + i
      let lo := max o (q * 8192)
      cellFp q (lo - q * 8192) (min (o + n) ((q + 1) * 8192) - lo) write
  else []

/-- The footprint a copy holds (06 R143). -/
def Copy.fps (c : Copy) : List Fp :=
  match c.kind with
  | .cpin => (Ten.of c.td).fpFrom true c.units
  | .cpout => (Ten.of c.ta).fpFrom false c.units
  | .cpp => (Ten.of c.td).fpFrom true c.units ++ (Ten.of c.ta).fpFrom false c.units
  | .cpg => (Ten.of c.td).fpLayer true ++ (Ten.of c.tb).fp false ++ (Ten.of c.tc).fp false
  | .cps => (Ten.of c.ta).fpLayer false ++ (Ten.of c.tb).fp false ++ (Ten.of c.tc).fp false
  | .cpm => ptrFp c.src c.len false ++ ptrFp c.dst c.len true

/-- Every unfinished copy of a thread. -/
def Thread.copies (t : Thread) : List Copy := t.chans.toList.flatMap (·.queue)

/-- Footprints of a thread's plane ops, copies and calls in progress, each with its issue order. -/
def State.workFps (s : State) (t : Thread) : List (Nat × List Fp) :=
  t.ops.map (fun o => (o.no, o.fps)) ++ t.copies.map (fun c => (c.no, c.fps))
    ++ (s.calls.filter fun c => c.uid = t.src.uid).map fun c => (c.no, c.fps)

/-- Footprints of a thread's long accesses that are to be performed, each with its issue order. -/
def Thread.outFps (t : Thread) : List (Nat × List Fp) := t.openOuts.map fun o => (o.no, o.fps)

/-- Footprints of the queued stores. -/
def Thread.sqFps (t : Thread) : List (Nat × List Fp) := t.sq.map fun e => (e.no, e.fps)

/-- Scoreboard entries that a thread holds: one for each instruction with a footprint (07 R182) and for each copy
(06 R145). -/
def State.entriesOf (s : State) (t : Thread) : Nat :=
  ((s.workFps t ++ t.outFps ++ t.sqFps).filter fun x => !x.2.isEmpty || t.copies.any fun c => c.no = x.1).length

/-- Is an entry free for the thread that acts: two are reserved for each slot, sixteen are shared (07 R182)? -/
def State.entryFree (s : State) : Bool :=
  let own := s.entriesOf s.thr
  own < 2 ||
    ((List.range 8).map fun i =>
      s.entriesOf (s.thread (BitVec.ofNat 11 (s.cl * 8 + i))) - 2).sum < 16

/-- Wait while an earlier footprint of the thread conflicts, or no entry is free (07 R181, R182). Scalar accesses do not wait for
one another here: the store queue and the log keep their order (04 R104, 16 R336). -/
def State.claim (s : State) (fps : List Fp) (scalar : Bool := false) : Res Unit :=
  if fps.isEmpty then .ok ()
  else if (s.workFps s.thr).any (fun x => fpsConflict fps x.2)
    || (!scalar && (s.thr.outFps ++ s.thr.sqFps).any fun x => fpsConflict fps x.2)
  then .error (.wait s)
  else if s.entryFree then .ok () else .error (.wait s)

/-- Wait unless the condition holds. -/
def State.waitFor (s : State) (c : Prop) [Decidable c] : Res Unit := if c then .ok () else .error (.wait s)

/-- Plane ops of the thread that a release waits for: all but the cover map that a walker loop holds (16 R342). -/
def Thread.opsDone (t : Thread) : Bool := t.ops.all (·.untilLoopEnds)

/-- A long access of the thread's mode that faulted before any instruction retired past it: its trap is taken at its own
instruction (20 R384, R388). -/
def Thread.unlogged (t : Thread) : Option Out := t.outs.find? fun o => o.faulted.isSome && !o.logged && o.priv == t.priv

/-- Has the thread a VATOM whose elements are not all performed? No later access is performed before it (16 R338). -/
def Thread.vatomOpen (t : Thread) : Bool := t.ops.any fun o => match o.work with
  | .vatom _ _ _ _ (_ :: _) _ => true
  | _ => false

/-- Is a queued store held back until a logged access before it in program order is re-issued: it names a byte of one that faulted, or
follows an RMW that did (16 R336, R338; log 67)? -/
def Thread.sqStuck (t : Thread) (e : SqEntry) : Bool :=
  e.stuck && t.outs.any fun o => o.no < e.no && (o.faulted.isSome || o.blocked)

/-- Does a queued store stand behind one that is held back: stores leave the queue in program order (16 R337)? -/
def Thread.sqHeld (t : Thread) (e : SqEntry) : Bool := t.sq.any fun u => u.no ≤ e.no && t.sqStuck u

/-- Has every earlier plane op and open access of the thread been performed (16 R342)? A logged access that faulted waits for ERET (log
67). -/
def Thread.settled (t : Thread) : Bool := t.opsDone && t.openOuts.isEmpty

/-- Every earlier event of the thread that a release covers is performed (16 R342). -/
def Thread.released (t : Thread) : Bool := t.settled && t.sq.isEmpty

/-! ### Charge (22 R410-R412) -/

/-- A charged instruction begins, or is held by charge (22 R411, R412): `c` is its cost per cycle, `T` its busy cycles.
A scroll by no step has none: it begins like another and is debited nothing. -/
def State.charge (s : State) (c T : Nat) : Res State :=
  if c = 0 then .ok s
  else
    let k := s.cluster s.cl
    let held := k.charges.filter fun x => !x.begun
    let mine := held.any fun x => x.slot = s.cur.toNat
    let first := match held.head? with
      | none => true
      | some x => x.slot = s.cur.toNat
    let s := { s with thr := { s.thr with lastCost := c } }
    if first && (min c k.cap.toNat : Int) ≤ k.balance.toInt then
      let rest := k.charges.filter fun x => x.begun || x.slot ≠ s.cur.toNat
      .ok (s.setCluster s.cl { k with charges := if T = 0 then rest else rest ++ [⟨s.cur.toNat, c, T, true, s.opNo + 1, s.thr.src.uid⟩] })
    else if mine then .error (.wait s)
    else .error (.wait (s.setCluster s.cl { k with charges := k.charges ++ [⟨s.cur.toNat, c, T, false, 0, s.thr.src.uid⟩] }))

/-! ### Parcels of the code segment (02 R19, R22) -/

/-- A parcel of the thread's code segment: none where its page cannot be fetched (02 R22; log 12). -/
def State.parcelAt (s : State) (a : Word) : Option Parcel :=
  if a.toNat / 2 ^ 48 ≠ 0 then none
  else
    match s.lookup (some s.cl) s.thr.root s.thr.vf a.toNat false with
    | .error _ => none
    | .ok x =>
      if x.entry.getLsbD 2 then
        some (BitVec.ofNat 32 (leNat ((List.range 4).map fun i =>
          let l := s.leafLoc x (a.toNat + i); s.get l.1 l.2)))
      else none

/-- The address once up to so many filler parcels are skipped (02 R19; log 16). -/
def State.skipFiller (s : State) : Nat → Word → Word
  | 0, a => a
  | k + 1, a => if s.parcelAt a = some 0xFFFFFFFF then s.skipFiller k (a + 4) else a

/-- Are the parcels from an address fillers, for so many parcels? -/
def State.fillers (s : State) : Nat → Word → Bool
  | 0, _ => true
  | k + 1, a => s.parcelAt a == some 0xFFFFFFFF && s.fillers k (a + 4)

/-- Does `b` follow `a` once filler parcels are skipped (09 R221)? -/
def State.skipsTo (s : State) (a b : Word) : Bool :=
  a.toNat ≤ b.toNat && (b.toNat - a.toNat) % 4 = 0 && s.fillers ((b.toNat - a.toNat) / 4) a

/-- Does the instruction that follows `a` stand at `b`: fillers up to it, and none there (02 R19; 09 R221)? -/
def State.endsAt (s : State) (a b : Word) : Bool := s.skipsTo a b && s.parcelAt b != some 0xFFFFFFFF

/-- A fetch at an address is an access through its leaf: A is set and the caches filled (04 R89, R92). -/
def State.touchCode (s : State) (a : Word) : State :=
  match s.lookup (some s.cl) s.thr.root s.thr.vf a.toNat false with
  | .ok x => if x.entry.getLsbD 2 then s.commitLeaf (some s.cl) s.thr.root s.thr.vf false x else s
  | .error _ => s

/-- The fetch of the parcels from `a` to before `b`, page by page. -/
def State.touchRange (s : State) (a b : Word) : State :=
  (List.range (if a.toNat < b.toNat then (b.toNat - 1) / 65536 + 1 - a.toNat / 65536 else 0)).foldl
    (fun s i => s.touchCode (BitVec.ofNat 64 ((a.toNat / 65536 + i) * 65536))) s

/-- Parcels of the 48-bit space that a thread's code can lie in: no run of fillers is longer. -/
def allParcels : Nat := 2 ^ 46

/-- The boundary at the next instruction: fillers before it are no instruction (02 R18, R19), so what a trap or a stop shows is the
address past them, and they have been fetched (04 R89). A prefix in force stands there itself (02 R41). -/
def State.atNext (s : State) : State :=
  if s.thr.ord.isSome then s
  else
    let b := s.skipFiller allParcels s.thr.pc
    let s := s.touchRange s.thr.pc b
    { s with thr := { s.thr with pc := b } }

/-! ### Traps (20 R384-R391) -/

/-- ESTAT as it reads (20 R385): LOGN as it was counted at the entry (log 37). -/
def Thread.estatWord (t : Thread) (inh priv : Bool) : BitVec 16 :=
  BitVec.ofNat 16 ((min 8 (t.outs.filter (·.logged)).length) * 256 + t.ow.act.toNat * 16 + inh.toNat * 8 + priv.toNat)

/-- A cluster without the charge entry of an instruction that a slot holds and has not begun (22 R412). -/
def Cluster.unheld (k : Cluster) (slot : Nat) : Cluster :=
  { k with charges := k.charges.filter fun x => x.begun || x.slot ≠ slot }

/-- What a slot forgets when its instruction is abandoned: the place in a queue that it waits in at issue, a charge not begun, a
granted value, a request to grow. -/
def State.leaveQueues (s : State) : State :=
  let s := if (s.cluster s.cl).charges.isEmpty then s else s.setCluster s.cl ((s.cluster s.cl).unheld s.cur.toNat)
  { s with feq := s.feq.filter fun w => w.slot ≠ s.cur.toNat || w.out ≠ 0
           thr := { s.thr with waiting := false, granted := none, growing := none } }

/-- The same, with every queue of a word in which the slot stands. -/
def State.leaveEvery (s : State) : State :=
  let s := s.leaveQueues
  { s with feq := s.feq.filter fun w => w.slot ≠ s.cur.toNat }

/-- The trap registers written (20 R384 step 2), and the trap counted: LATE is none of the synchronous ones (20 R387, 23 R437); `h` is
where the trapping instruction stands. A trap of a re-issue leaves EPC unchanged (R390). -/
def Thread.trapRegs (t : Thread) (tr : Trap) (h : Word) : Thread :=
  { t with epc := if t.reissuing then t.epc else h.setWidth 48, ecause := tr.cause, estat := t.estatWord false false
           eaddr := tr.addr, einfo := tr.info, traps := if tr.cause = cLATE then t.traps else t.traps + 1
           latePending := t.latePending && tr.cause ≠ cLATE
           ord := none, reissuing := false, trapDue := none }

/-- Privileged mode with the handler's own empty loop stack, at TVEC (20 R384 steps 3-5). A back-edge that was due is due again
after ERET (09 R223). -/
def Thread.enterHandler (t : Thread) : Thread :=
  { t with priv := true, wins := [], handlerLoops := [], edgeDue := false, edgeKept := t.edgeDue, pc := t.tvec.setWidth 64 }

/-- The thread of the slot that acts replaced. -/
def State.withThr (s : State) (t : Thread) : State := { s with thr := t }

/-- Entering a synchronous trap (20 R384 steps 2-5, R391). In privileged mode it is a double fault, which ends the item. Otherwise
the trap registers are written, and with a TVEC of 0 the item ends with TRAP_EXIT; else the thread enters its handler. -/
def State.enterTrap (s : State) (t : Trap) : State :=
  let s := s.leaveQueues
  let h := s.thr.here
  if s.thr.priv then
    s.failNow { cause := cDOUBLE, cause2 := t.cause, pc := h, addr := t.addr }
  else
    let s := (s.withThr (s.thr.trapRegs t h)).emitItem 0x10 t.cause.toNat
    if s.thr.tvec = 0 then
      s.failNow { cause := cTRAP_EXIT, cause2 := t.cause, pc := h, addr := t.addr }
    else s.withThr s.thr.enterHandler

/-- Is an operation unfinished that opened a window still open: its destination is pending in it (02 R37)? -/
def Thread.openerPending (t : Thread) : Bool :=
  t.ops.any fun o => o.dest ≠ 0 && t.wins.any fun w => w.dests.contains (.reg o.dest)

/-- Must a trap wait: for a long access that has neither completed nor faulted (20 R384 step 1), and an LA_HAZARD for the
instructions whose windows are open (02 R38)? -/
def Thread.trapWaits (t : Thread) (tr : Trap) : Bool := !t.openOuts.isEmpty || (tr.cause = cLA_HAZARD && t.openerPending)

/-- Taking a synchronous trap (20 R384): at once, or once what it waits for has ended; until then the thread keeps it. -/
def State.takeTrap (s : State) (t : Trap) : State :=
  if s.thr.trapWaits t then
    let s := s.leaveQueues
    s.withThr { s.thr with trapDue := some t, waiting := true }
  else s.enterTrap t

/-- An entry of the log at ERET: a user's is to be re-issued, and keeps no fault of before (20 R390). -/
def Out.reopened (o : Out) : Out := if o.priv then o else { o with faulted := none, blocked := true }

/-- Leaving the handler (20 R390): user mode with its bank, the thread's own loop stack, at EPC (02 R20: the PC is a
multiple of 4; log 38). The entries of the log are re-issued before the instruction there, one in each turn. -/
def State.leaveHandler (s : State) : State :=
  s.withThr { s.thr with priv := false, handlerLoops := [], wins := [], reissuing := s.thr.outs.any (!·.priv)
                         outs := s.thr.outs.map Out.reopened, edgeDue := s.thr.edgeKept, edgeKept := false
                         pc := s.thr.epc.setWidth 64 &&& ~~~3 }

/-! ### The walker's cover map (19 R370) -/

/-- The captured cover map in the thread's plot. -/
def State.cover (s : State) : Place := ⟨Ten.of s.thr.ow.map, s.thr.plot, 0⟩

/-- Element of cover bit `b`: row-major over slice, element row, element column (19 R370). -/
def coverElem (t : Ten) (b : Nat) : Nat × Nat × Nat :=
  (b / (t.rows * t.cols), b / t.cols % t.rows, b % t.cols)

/-- Is the cover bit of a granule of a window set? Before any loop has run no granule is covered (19 R380). -/
def State.covered (s : State) (w g : Nat) : Bool :=
  if s.thr.ow.map = 0 then false
  else
    let p := s.cover
    let b := (s.thr.ow.wins.toArray.getD w {}).bitoff.toNat + g
    let (d, i, j) := coverElem p.t b
    b < p.t.slices * (p.t.rows * p.t.cols) && s.elem p 0 d i j == 1

/-- Cover bits written. -/
def State.setCover (s : State) (bs : List Nat) (v : Nat) : State :=
  let p := s.cover
  s.writeElems p (bs.map fun b => let (d, i, j) := coverElem p.t b; ⟨d, i, j, v, false⟩)

/-- x32-x55 and p0-p3 zeroed (19 R373). -/
def Thread.zeroScratch (t : Thread) : Thread :=
  { t with x := (List.range 24).foldl (fun x i => x.setIfInBounds (32 + i) 0) t.x, p := t.p &&& 0xF0 }

/-- The end of a walker iteration (19 R376): pending granules become covered, PEND and NDECL 0, scratch zeroed. -/
def State.walkIterEnd (s : State) : State :=
  let bs := s.thr.ow.pending.map fun x => (s.thr.ow.wins.toArray.getD x.1 {}).bitoff.toNat + x.2
  let s := if bs.isEmpty then s else s.setCover bs 1
  { s with thr := { s.thr.zeroScratch with ow := { s.thr.ow with pending := [], decls := [], stored := false } } }

/-! ### Hardware loops (09 R219-R223) -/

/-- The active loop stack: the handler's own in privileged mode (09 R223). -/
def Thread.loopStack (t : Thread) : List Loop := if t.priv then t.handlerLoops else t.loops

/-- The active loop stack replaced. -/
def Thread.setLoops (t : Thread) (l : List Loop) : Thread := if t.priv then { t with handlerLoops := l } else { t with loops := l }

/-- Is a general register still pending: the destination of a long access of this mode, faulted ones among them, or of an operation
that writes one (02 R37)? -/
def Thread.pendingX (t : Thread) (n : BitVec 6) : Bool :=
  n ≠ 0 && (t.outs.any (fun o => o.priv == t.priv && (o.dest = n || (o.pair && o.dest + 1 = n)))
    || t.ops.any fun o => o.dest = n && (n.toNat < 56 || o.priv == t.priv))

/-- Does a back-edge of a loop wait: for its index register (09 R221), and the end of a walker iteration for x32-x55, which it
zeroes (19 R373, R376)? -/
def Thread.edgeWaits (t : Thread) (l : Loop) : Bool :=
  if l.walker then t.pendingX l.index || (List.range 24).any fun i => t.pendingX (BitVec.ofNat 6 (32 + i))
  else l.indexed && 1 < l.remaining.toNat && t.pendingX l.index

/-- The back-edge test at `a` (09 R221, 19 R376), with as much fuel as loops can stand. -/
def State.backEdge (s : State) (a : Word) : Nat → State
  | 0 => { s with thr := { s.thr with pc := a } }
  | k + 1 =>
    match s.thr.loopStack with
    | [] => { s with thr := { s.thr with pc := a } }
    | l :: r =>
      if a ≠ l.stop then { s with thr := { s.thr with pc := a } }
      else if s.thr.edgeWaits l then { s with thr := { s.thr with pc := a, edgeDue := true } }
      else if 1 < l.remaining.toNat then
        let s := if l.walker then
            let s := s.walkIterEnd
            let i := s.thr.ow.iter - 1
            ({ s with thr := { s.thr with ow := { s.thr.ow with iter := i } } }).setX l.index (i.setWidth 64)
          else if l.indexed then s.setX l.index (s.X l.index + l.step.signExtend 64)
          else s
        { s with thr := { (s.thr.setLoops ({ l with remaining := l.remaining - 1 } :: r)) with pc := l.start, wins := [] } }
      else
        let s := if l.walker then
            let s := s.walkIterEnd.setX l.index 0
            { s with thr := { s.thr with ow := { s.thr.ow with act := false }
                                         ops := s.thr.ops.filter fun o => !o.untilLoopEnds } }
          else s
        ({ s with thr := s.thr.setLoops r }).backEdge a k

/-- The newest long access while it is open and no instruction has retired past it: a fault of it is still a trap at its own
instruction. -/
def Thread.lastOpen (t : Thread) : Option Out :=
  t.outs.getLast?.filter fun o => !o.logged && o.faulted.isNone && !o.blocked

/-- The logged access that a trap at the boundary describes: the oldest that faulted (20 R388); in a handler, of those that
the handler issued. -/
def Thread.loggedFault (t : Thread) : Option Trap := (t.outs.filter fun o => o.priv == t.priv).findSome? (·.faulted)

/-- An instruction has completed and `a` is the address that follows it: the back-edge test once fillers are skipped (09 R221). The
back-edge after a long access waits until that access can no longer trap at its own instruction (09 R223; log 68). Where no loop
ends there, the fillers are skipped when they are fetched. -/
def State.fallTo (s : State) (a : Word) : State :=
  match s.thr.loopStack with
  | [] => { s with thr := { s.thr with pc := a } }
  | l :: _ =>
    if s.endsAt a l.stop then
      let s := s.touchRange a l.stop
      if s.thr.lastOpen.isSome then { s with thr := { s.thr with pc := l.stop, edgeDue := true } } else s.backEdge l.stop 5
    else { s with thr := { s.thr with pc := a } }

/-- A taken branch deactivates the loops whose body does not hold its target, with every loop inside them (09 R222). -/
def keepLoops (t : Word) (l : List Loop) : List Loop :=
  match l.reverse.findIdx? fun x => !(x.start.toNat ≤ t.toNat && t.toNat < x.stop.toNat) with
  | none => l
  | some k => (l.reverse.take k).reverse

/-! ### Issue -/

/-- How an instruction completes. -/
inductive Flow where
  /-- it falls through -/
  | seq
  /-- a control transfer to an address (02 R37, 09 R222) -/
  | jump (t : Word)
  /-- it completes with an address that follows it, without a control transfer (09 R220) -/
  | skip (t : Word)
  /-- it falls through and closes the window: YIELD (02 R37) -/
  | turn
  /-- it retires, then traps, or stops for a debugger, at the next instruction: TRAP and BRK (09 R228) -/
  | trapNext (t : Trap)
  | stopNext (reason : Nat)
  /-- the meaning has set where the thread goes itself -/
  | set
deriving DecidableEq, Repr

/-- An instruction's effect and how it completes. -/
structure Done where
  st : State
  flow : Flow := .seq
  /-- with a nonzero LA: its window's pending destinations -/
  opens : Bool := true

/-- What stands before an instruction's own effect. -/
inductive Gate where
  | run
  | off
  | trap (t : Trap)
  | wait
  | stop (reason : Nat)

/-- OPCs that an ORD may prefix (02 R41). -/
def ordable (opc : Nat) : Bool := opc = 0x30 || opc = 0x31 || opc = 0x34

/-- EINFO of a walker cause: ITER and the reason (19 R372). -/
def State.owInfo (s : State) (reason : Nat) : Word := BitVec.ofNat 64 (s.thr.ow.iter.toNat + reason * 2 ^ 32)

/-- Do the walker's rules apply: a loop is active and the thread in user mode (19 R372)? -/
def Thread.walking (t : Thread) : Bool := t.ow.act && !t.priv

/-- The first enabled breakpoint at an address (23 R440). -/
def Thread.bpHit (t : Thread) (a : Word) : Option Nat :=
  (List.range 4).find? fun n =>
    let b := t.bp.toArray.getD n 0
    b.getLsbD 0 && fld b 2 46 * 4 = a.toNat

/-- The breakpoint that stops an instruction: its own, or for an ORD that of the instruction it prefixes (23 R440). -/
def State.breakAt (s : State) (f : Form) : Option Nat :=
  if s.thr.ord.isSome || s.passes then none
  else if s.thr.bp.toList.all fun b => !b.getLsbD 0 then none
  else match s.thr.bpHit s.thr.pc with
    | some n => some n
    | none =>
      if f.opc = 0x32 ∧ f.fn = 0 then
        (List.range 4).find? fun n =>
          let b := s.thr.bp.toArray.getD n 0
          b.getLsbD 0 && s.endsAt (s.thr.pc + 8) (BitVec.ofNat 64 (fld b 2 46 * 4))
      else none

/-- An order that acquires (16 R340). -/
def acquires (o : Option Ord) : Bool := match o with
  | some o => o.order = 1 || o.order = 3 || o.order = 4
  | none => false
/-- An order that releases (16 R340). -/
def releases (o : Option Ord) : Bool := match o with
  | some o => o.order = 2 || o.order = 3 || o.order = 4
  | none => false

/-- The checks before an instruction's effect, in the order of R35: privilege, ORD_MISPLACED, LA_HAZARD; then
breakpoints; then the guard; then the walker's table; then the waits of R37, R216, R340, R363 and R388. PREF waits for its
address alone (04 R103), and like every instruction while its thread waits for a tagged word (17 R363). -/
def State.gate (s : State) (f : Form) : Gate :=
  let t := s.thr
  if f.needsPriv && !t.priv then .trap ⟨cPRIV, 0, 0⟩
  else if t.ord.isSome && !ordable f.opc then .trap ⟨cORD_MISPLACED, 0, 0⟩
  else
    let g : BitVec 3 := f.hd.gp.setWidth 3
    let names := f.namesX
    let preds := g :: f.namesP
    if t.wins.any fun w => w.dests.any fun d => match d with
        | .reg n => n ≠ 0 && names.contains n
        | .pred n => n ≠ 7 && preds.contains n
    then .trap ⟨cLA_HAZARD, 0, 0⟩
    else match s.breakAt f with
      | some n => if s.curDbg.attach then .stop 4 else .trap ⟨cBRK, 0, BitVec.ofNat 64 (0x100 + n)⟩
      | none =>
        if s.guard f.hd = false then .off
        else if t.walking && f.owEngine then .trap ⟨cOW_ENGINE, 0, s.owInfo 1⟩
        else if (names ++ f.implicitX).any t.pendingX then .wait
        else if s.feq.any (fun w => w.slot = s.cur.toNat && w.out ≠ 0) then .wait
        else if f.opc = 0x30 && f.fn = 8 then .run
        else if 0x30 ≤ f.opc && t.openOuts.any (fun o => acquires o.ord) then .wait
        else if 0x33 ≤ f.opc && t.openOuts.any (fun o => o.opc = 0x31) then .wait
        else if 0x30 ≤ f.opc && t.vatomOpen then .wait
        else if f.hd.la ≠ 0 && (f.opc = 0x30 || f.opc = 0x31 || f.opc = 0x63) && 8 ≤ t.outs.length then .wait
        else .run

/-- Another slot of the cluster has issued: YIELD counts it (09 R228). -/
def State.issued (s : State) : State :=
  let mates := (List.range 8).map fun i => BitVec.ofNat 11 (s.cl * 8 + i)
  mates.foldl (fun s k =>
    let t := s.thread k
    if t.yieldTo.contains s.cur.toNat then s.setThread k { t with yieldTo := t.yieldTo.filter (· ≠ s.cur.toNat) } else s) s

/-- Windows after an instruction (02 R37): each takes one more member, a control transfer closes all, and a nonzero LA
opens one. -/
def stepWins (ws : List Win) (closes : Bool) (new : Option Win) : List Win :=
  (if closes then [] else (ws.map fun w => { w with left := w.left - 1 }).filter fun w => 0 < w.left) ++ new.toList

/-- Does a long access wait for what may never come: a tagged form in the queue of a word (17 R362), or an access to the plot of a
saved member (20 R401)? -/
def State.outHeld (s : State) (o : Out) : Bool :=
  s.feq.any (fun w => w.slot = s.cur.toNat && w.out = o.no)
    || match s.resolve { watch := false, data := false } o.ea 1 with
      | .error (.wait _) => true
      | _ => false

/-- The newest long access taken back to its issue, with the windows as they stood then: it, or one before it, waits for what may never
come, and no instruction has retired past it (17 R363, 20 R401). -/
def State.rewound (s : State) : State :=
  match s.thr.lastOpen with
  | some o =>
    if s.thr.openOuts.any s.outHeld then
      { s with feq := s.feq.filter fun w => w.slot ≠ s.cur.toNat || w.out ≠ o.no
               thr := { s.thr with outs := s.thr.outs.filter (fun u => u.no ≠ o.no), pc := (o.ord.map (·.pc)).getD o.pc
                                   ord := none, edgeDue := false, wins := o.wins } }
    else s
  | none => s

/-- Must a stop wait: for an access that is neither complete nor logged (20 R402), or for a matrix or network op (13 R282,
14 R300)? -/
def Thread.stopWaits (t : Thread) : Bool := t.openOuts.any (!·.logged) || t.ops.any (·.whole)

/-- The slot stops for a debugger (23 R438, R441): it holds at the instruction it would issue next, or at the ORD that
prefixes it. -/
def State.debugStop (s : State) (reason : Nat) : State :=
  let s := s.leaveEvery
  let s := s.withThr { s.thr with pc := s.thr.here, ord := none }
  let d := s.curDbg
  let inh := s.thr.priv
  let stat := BitVec.ofNat 64 (s.thr.pc.toNat % 2 ^ 48 * 2 ^ 16 + min 8 (s.thr.outs.filter (·.logged)).length * 2 ^ 12
                + inh.toNat * 2 ^ 9 + s.thr.priv.toNat * 2 ^ 8 + reason)
  let s := { s with thr := { s.thr with estat := if inh then s.thr.estatWord true true else s.thr.estat } }
  let s := { s with dbg := NMap.put {} s.dbg s.cur.toNat
                      { d with stopped := true, haltReq := false, stepReq := false, due := none, stat := stat, cmd := 0
                               result := 0 } }
  s.emitItem 0x3F reason

/-- A stop at the next boundary once nothing holds it up (20 R402). -/
def State.stopDue (s : State) (reason : Nat) : State :=
  { s with dbg := NMap.put {} s.dbg s.cur.toNat { s.curDbg with due := some reason } }

/-- A stop before the instruction at the PC: at once, or once what is in flight has completed (20 R402). -/
def State.stopHere (s : State) (reason : Nat) : State :=
  let s := s.rewound
  if s.thr.stopWaits then s.withThr { s.thr with waiting := true } else s.debugStop reason

/-- Does a flow close the windows (02 R37)? -/
def Flow.closes : Flow → Bool
  | .jump _ | .turn | .trapNext _ | .set => true
  | _ => false

/-- What retiring an instruction notes in its thread (02 R37): the prefix is used up, the windows move on, and the log takes the
accesses that it retires past. An ORD is no member of its own: it counts with the instruction it prefixes. -/
def Thread.retired (t : Thread) (f : Form) (on opens : Bool) (pc : Word) (flow : Flow) (opNo : Nat) : Thread :=
  let isOrd := f.opc = 0x32 && f.fn = 0
  let new := if on && opens && f.hd.la ≠ 0 then some (⟨f.pendingDests, f.hd.la.toNat⟩ : Win) else none
  { t with waiting := false, granted := none, lastPc := pc
           ord := if isOrd then t.ord else none
           wins := if isOrd then t.wins else stepWins t.wins flow.closes new
           outs := if isOrd then t.outs
                   else t.outs.map fun o => { o with logged := o.logged || !(new.isSome && o.no = opNo) } }

/-- The same in the state: other slots see that one has issued, and a breakpoint that was passed may match again. -/
def State.retired (s : State) (f : Form) (on opens : Bool) (pc : Word) (flow : Flow) : State :=
  let s := s.issued
  { s with thr := s.thr.retired f on opens pc flow s.opNo
           dbg := if s.curDbg.pass.isSome && !(f.opc = 0x32 && f.fn = 0) then NMap.put {} s.dbg s.cur.toNat { s.curDbg with pass := none }
                  else s.dbg }

/-- Where the thread goes after an instruction (09 R221, R222, R228); `next` is the address that follows it. YIELD, TRAP and BRK end at
that address, so they take the back-edge that is due there although R37 counts YIELD and TRAP among the control transfers, and TRAP and
BRK retire, and take it, before they trap: EPC is then the loop's start (R221, R223 and R228 do not say; DESIGN CHOICE, log 68). -/
def State.follow (s : State) (flow : Flow) (next : Word) : State :=
  match flow with
  | .seq | .turn => s.fallTo next
  | .jump a => { s with thr := { (s.thr.setLoops (keepLoops a s.thr.loopStack)) with pc := a } }
  | .skip a => s.fallTo a
  | .trapNext tr =>
    let s := (s.fallTo next).atNext
    if s.thr.edgeDue then s.withThr { s.thr with trapDue := some tr } else s.takeTrap tr
  | .stopNext r =>
    let s := (s.fallTo next).atNext
    if s.thr.edgeDue || s.thr.stopWaits then s.stopDue r else s.debugStop r
  | .set => s

/-- The instruction retires and the PC goes to what follows (02 R37; 09 R221, R222); `on` is its guard. -/
def State.retire (s : State) (f : Form) (on : Bool) (pc : Word) (flow : Flow) (opens : Bool) : State :=
  (s.retired f on opens pc flow).follow flow (pc + BitVec.ofNat 64 (4 * f.len))

/-- The slot's turn issues nothing: its instruction waits. -/
def State.stall (s : State) : State := { s with thr := { s.thr with waiting := true } }

/-- Does an address lie outside the body of the active walker loop (19 R372)? -/
def Thread.outsideBody (t : Thread) (a : Word) : Bool :=
  match t.loops.find? (·.walker) with
  | some l => !(l.start.toNat ≤ a.toNat && a.toNat < l.stop.toNat)
  | none => false

/-- Does a control transfer leave the body of the active walker loop (19 R372)? -/
def State.leavesBody (s : State) (flow : Flow) : Bool :=
  match flow with
  | .jump a => s.thr.outsideBody a
  | _ => false

/-- One instruction around its own effect: the checks of `gate`, the effect of a true guard, a false guard's effect, and
what the walker's table says of the result. -/
def issueWith (f : Form) (offEffect : State → Done) (body : State → Res Done) (s : State) :
    Host.Outcome State Fault Refusal :=
  match s.gate f with
  | .trap t => .next (s.takeTrap t)
  | .stop r => .next (s.stopHere r)
  | .wait => .next s.stall
  | .off => let d := offEffect s; .next (d.st.retire f false s.thr.pc d.flow false)
  | .run =>
    let r := body s
    let outside := s.thr.walking && (match r with
      | .ok d => s.leavesBody d.flow
      | .error _ => false)
    if outside then .next (s.takeTrap ⟨cOW_ENGINE, 0, s.owInfo 2⟩)
    else if s.thr.walking && f.owReg s.thr.ow.index then .next (s.takeTrap ⟨cOW_REG, 0, s.owInfo 0⟩)
    else match r with
      | .ok d => .next (d.st.retire f true s.thr.pc d.flow d.opens)
      | .error (.trap t) => .next (s.takeTrap t)
      | .error (.wait s') => .next s'.stall
      | .error (.stop k) => .next (s.stopHere k)

/-- An instruction whose false guard has no effect (02 R24). -/
def issue (f : Form) (body : State → Res Done) (s : State) : Host.Outcome State Fault Refusal :=
  issueWith f (fun s => { st := s }) body s

/-- An effect that always completes and falls through. -/
def pureOp (f : Form) (eff : State → State) (s : State) : Host.Outcome State Fault Refusal :=
  issue f (fun s => .ok { st := eff s }) s

/-! ### Events -/

/-- An event or an engine step: it changes the state where it can happen, and otherwise nothing (log 15). -/
def event (f : State → Option State) (s : State) : Host.Outcome State Fault Refusal := .next ((f s).getD s)

/-- An event of one slot, which becomes the slot that acts. -/
def slotEvent (f : State → Option State) (s : State) : Host.Outcome State Fault Refusal :=
  event (fun s => f (s.atSlot s.input.slot)) s

/-- A plane op of the slot that acts, by its number. -/
def State.opNamed (s : State) (no : Nat) : Option PlaneOp := s.thr.ops.find? fun o => o.no == no

/-- A plane op replaced. -/
def State.setOp (s : State) (o : PlaneOp) : State :=
  s.withThr { s.thr with ops := s.thr.ops.map fun p => if p.no = o.no then o else p }

/-- A register that an op writes, in the bank of the mode it was issued in; it is pending no longer. -/
def State.deliver (s : State) (o : PlaneOp) (v : Word) : State :=
  (s.withThr (s.thr.setXAs o.priv o.dest v)).setOp { o with dest := 0 }

end Sys2Proof.Machine
end

