-- ==== Sys2Proof/Machine/Mem.lean ====
section
/-!
DEFINITION. The MEM family: loads and stores (04 R98-R104), their queue (16 R337-R340), walker stores (19 R372, R374) and
tagged words (17 R360-R363).
-/
namespace Sys2Proof.Machine

/-! ### Order (16 R336-R340; log 10) -/

/-- Does the thread's ORD ask for SC (16 R338)? -/
def State.isSc (s : State) : Bool := match s.thr.ord with
  | some o => o.order = 4
  | none => false

/-- A load performed now follows every open access of the thread and its SC stores, and with SC an empty store queue (16 R337,
R338). -/
def State.loadWaits (s : State) : Res Unit := do
  s.waitFor s.thr.openOuts.isEmpty
  s.waitFor (s.thr.sq.all (!·.sc) = true)
  s.waitFor (s.isSc = false ∨ s.thr.sq.isEmpty)

/-- A store's wait for what its order releases (16 R340): the stores before it leave the queue before it does (R337). -/
def State.storeWaits (s : State) : Res Unit := s.waitFor (releases s.thr.ord = false ∨ s.thr.settled)

/-- An RMW's waits: the store queue is empty, and a release holds it (16 R338, R340). -/
def State.rmwWaits (s : State) : Res Unit := do
  s.waitFor s.thr.sq.isEmpty
  s.storeWaits

/-! ### Loads -/

/-- The register image of a loaded value (04 R101). -/
def loadImage (signed : Bool) (n v : Nat) : Word := if signed then sext64 (8 * n) v else BitVec.ofNat 64 v

/-- What a load of `n` bytes writes (04 R99, R101). -/
def State.setLoaded (s : State) (signed : Bool) (d : BitVec 6) (n v : Nat) : State :=
  if n = 16 then (s.setX d (BitVec.ofNat 64 v)).setX (d + 1) (BitVec.ofNat 64 (v / 2 ^ 64))
  else s.setX d (loadImage signed n v)

/-- The checks and the value of a load; own-plot bytes wait on the scoreboard (04 R100-R102). -/
def State.loadValue (s : State) (w : Want) (ea : Word) (n : Nat) : Res (State × Nat) := do
  let (s, nm) ← s.resolve w ea n
  s.claim nm.fps true
  pure (s, leNat (s.drained.getBytes nm.locs))

/-- Alignment that AT asks for (04 R100 check 4). -/
def atAlign (f : FM) : Nat := if f.at' = 0 then 0 else sizeBytes f.size

/-- The first byte of an access that lies in an enabled window of the walker (19 R372: OW_READ). -/
def State.inWindow (s : State) (ea : Word) (n : Nat) : Option Word :=
  (bytesOf ea n).find? fun a => (List.range 8).any fun w =>
    let o := s.thr.ow.wins.toArray.getD w {}
    s.thr.ow.wmask.getLsbD w && o.base.toNat ≤ a.toNat && a.toNat < o.base.toNat + o.len.toNat

/-- A long-latency access enters the log of outstanding ones (02 R37, 20 R388). -/
def State.pushOut (s : State) (o : Out) : State :=
  let o := { o with no := s.opNo + 1, pc := s.thr.pc, ord := s.thr.ord, logged := false, faulted := none }
  let o := { o with priv := s.thr.priv, wins := s.thr.wins, walked := s.thr.walking, root := s.thr.root }
  { s with opNo := s.opNo + 1, thr := { s.thr with outs := s.thr.outs ++ [o] } }

/-- The entry of a scalar long access; `desc` keeps its size. -/
def outOf (opc fn : Nat) (f : FM) (ea b e : Word) (fps : List Fp) : Out :=
  { no := 0, pc := 0, opc := BitVec.ofNat 8 opc, fn := BitVec.ofNat 8 fn, ea := ea, opB := b, opE := e
    desc := f.size.setWidth 256, edge := 0, dest := f.xd, pair := f.size = 4, ord := none, fps := fps, logged := false
    faulted := none }

/-- What can end a long access at its issue: a watchpoint or a debugger; every other trap is found when it is performed
(20 R388, 23 R440). -/
def atIssue {α : Type} (r : Res α) : Res Unit :=
  match r with
  | .error (.stop k) => .error (.stop k)
  | .error (.trap t) => if t.cause = cWATCH then .error (.trap t) else .ok ()
  | _ => .ok ()

/-- A load: with LA = 0 it is performed here, otherwise it stays outstanding (02 R37; log 9). -/
def loadForm (fn : Nat) (signed : Bool) (f : FM) (s : State) : Host.Outcome State Fault Refusal :=
  issue (.m 0x30 fn f) (fun s => do
    let ea := s.ea f
    let n := sizeBytes f.size
    if s.thr.walking then
      match s.inWindow ea n with
      | some a => raise cOW_READ a (s.owInfo 0)
      | none => pure ()
    if f.hd.la = 0 then do
      s.loadWaits
      let (s, v) ← s.loadValue { align := atAlign f } ea n
      pure { st := s.setLoaded signed f.xd n v }
    else do
      atIssue (s.resolve { align := atAlign f } ea n)
      s.claim (ptrFp ea n false) true
      pure { st := s.pushOut (outOf 0x30 fn f ea (BitVec.ofNat 64 (atAlign f)) 0 (ptrFp ea n false)) }) s

/-- LD (04 R101). -/
def execLd (f : FM) (s : State) : Host.Outcome State Fault Refusal := loadForm 0 true f s

/-- LDZ (04 R101). -/
def execLdz (f : FM) (s : State) : Host.Outcome State Fault Refusal := loadForm 1 false f s

/-- An outstanding LD or LDZ performed, with every check, those of a walker body among them, in its place among the thread's stores
(16 R336; 19 R381; 20 R388, R390). -/
def State.performLoad (s : State) (o : Out) : Res State := do
  let n := if o.pair then 16 else 2 ^ fld o.desc 0 3
  if o.walked && s.thr.walking then
    match s.inWindow o.ea n with
    | some a => raise cOW_READ a (s.owInfo 0)
    | none => pure ()
  let (s, nm) ← s.resolve { align := o.opB.toNat, watch := false, before := some o.no } o.ea n
  pure (s.setLoaded (o.fn = 0) o.dest n (leNat ((s.drainedFor (some o.no)).getBytes nm.locs)))

/-! ### Stores -/

/-- A store enters the queue (04 R104, 16 R337): the bytes it writes with their locations. -/
def State.pushStore (s : State) (ea : Word) (nm : Named) (bs : List Byte) : State :=
  let e : SqEntry := { no := s.opNo + 1, pc := s.thr.pc, ea := ea, bytes := (nm.locs.zip bs).map (fun x => ⟨x.1.1, x.2, x.1.2⟩)
                       fps := nm.fps, peers := nm.peers, sc := s.isSc, leaves := nm.leaves, priv := s.thr.priv }
  { s with opNo := s.opNo + 1, thr := { s.thr with sq := s.thr.sq ++ [e] } }

/-- The waits of a store of `k` queue entries: its order, the scoreboard, and room in the queue (04 R104; 07 R181; 16 R340). -/
def State.storeClaims (s : State) (nm : Named) (k : Nat) : Res Unit := do
  s.storeWaits
  s.claim nm.fps true
  s.waitFor (s.thr.sq.length + k ≤ 16)

/-- What a store needs of R100. -/
def storeWant (align : Nat) : Want := { store := true, reads := false, data := false, align := align }

/-- The value that a store of format M writes (04 R101). -/
def State.storeBytes (s : State) (f : FM) : List Byte :=
  leBytes (sizeBytes f.size) ((s.X f.xd).toNat + (if f.size = 4 then (s.X (f.xd + 1)).toNat * 2 ^ 64 else 0))

/-- Granules that bytes [a, a + n) of a window touch (19 R374). -/
def OwWin.granules (o : OwWin) (a : Word) (n : Nat) : List Nat :=
  let g0 := (a.toNat - o.base.toNat) / 2 ^ o.gran.toNat
  let g1 := (a.toNat + n - 1 - o.base.toNat) / 2 ^ o.gran.toNat
  (List.range (g1 + 1 - g0)).map (· + g0)

/-- The enabled window that holds a range whole (19 R374). -/
def State.windowOf (s : State) (ea : Word) (n : Nat) : Option Nat :=
  (List.range 8).find? fun w =>
    let o := s.thr.ow.wins.toArray.getD w {}
    s.thr.ow.wmask.getLsbD w && o.base.toNat ≤ ea.toNat && ea.toNat + n ≤ o.base.toNat + o.len.toNat

/-- A counter that stays at its greatest value. -/
def satInc (v : BitVec 32) : BitVec 32 := if v = BitVec.allOnes 32 then v else v + 1

/-- Granules marked pending by a store of the walker's body, counted as performed (19 R374). -/
def State.markPending (s : State) (w : Nat) (us : List Nat) : State :=
  let o := s.thr.ow
  let p := o.pending ++ us.map fun g => (w, g)
  { s with thr := { s.thr with ow := { o with perf := satInc o.perf, stored := true, pending := p } } }

/-- A store suppressed whole (19 R374). -/
def State.suppress (s : State) : State :=
  { s with thr := { s.thr with ow := { s.thr.ow with supp := satInc s.thr.ow.supp, stored := true } } }

/-- A store of the walker's body (19 R374): only its bytes in granules not covered are performed. -/
def State.walkStore (s : State) (align : Nat) (ea : Word) (bs : List Byte) : Res State := do
  let n := bs.length
  match s.windowOf ea n with
  | none => raise cOW_PARTIAL ea (s.owInfo 1)
  | some w =>
    let o := s.thr.ow.wins.toArray.getD w {}
    let gs := o.granules ea n
    let declared (g : Nat) : Bool := s.thr.ow.decls.any fun d => d.1 = w && d.2.1 ≤ g && g < d.2.1 + d.2.2
    need (s.thr.ow.decls = [] ∨ gs.all declared = true) cOW_PARTIAL ea (s.owInfo 2)
    let us := gs.filter fun g => !s.covered w g
    if us.isEmpty then pure s.suppress
    else do
      let new := us.filter fun g => !s.thr.ow.pending.contains (w, g)
      need (s.thr.ow.pending.length + new.length ≤ 64) cOW_PENDING 0 (s.owInfo 1)
      let parts := ((bytesOf ea n).zip bs).filter fun x => (o.granules x.1 1).all us.contains
      let (s, nm) ← s.resolveBytes (storeWant align) ea (parts.map (·.1))
      s.storeClaims nm 1
      pure ((s.pushStore ea nm (parts.map (·.2))).markPending w new)

/-- ST (04 R101; in a walker body 19 R374). -/
def execSt (f : FM) (s : State) : Host.Outcome State Fault Refusal :=
  issue (.m 0x30 2 f) (fun s => do
    let ea := s.ea f
    let bs := s.storeBytes f
    if s.thr.walking then do
      let s ← s.walkStore (atAlign f) ea bs
      pure { st := s }
    else do
      let (s, nm) ← s.resolve (storeWant (atAlign f)) ea bs.length
      s.storeClaims nm 1
      pure { st := s.pushStore ea nm bs }) s

/-- PREF (04 R103): the translation is brought into the caches; a prefetch that would fault is dropped. -/
def execPref (f : FM) (s : State) : Host.Outcome State Fault Refusal :=
  pureOp (.m 0x30 8 f) (fun s =>
    let ea := s.ea f
    if spaceOf ea = 0 ∧ rankOf ea = 0 then
      match s.lookup (some s.cl) s.thr.root s.thr.vf (offsetOf ea) false with
      | .ok x => s.commitLeaf (some s.cl) s.thr.root s.thr.vf false x
      | .error _ => s
    else s) s

/-! ### Tagged words (17 R360-R363) -/

/-- A waiter is served: its slot may complete with this value, or its outstanding access has completed. -/
def State.grant (s : State) (x : FeWait) (v : BitVec 32) : State :=
  let k : SlotNo := BitVec.ofNat 11 x.slot
  let t := s.thread k
  match t.outs.find? fun o => o.no = x.out with
  | some o =>
    let t := t.setXAs o.priv o.dest (sext64 32 v.toNat)
    s.setThread k { t with outs := t.outs.filter (fun u => u.no ≠ o.no), waiting := false }
  | none => if x.out = 0 then s.setThread k { t with granted := some v, waiting := false } else s

/-- A waiter leaves its queue without being served: its form checks again. -/
def State.turnAway (s : State) (x : FeWait) : State :=
  let k : SlotNo := BitVec.ofNat 11 x.slot
  s.setThread k { s.thread k with waiting := false }

/-- The value of word `w` of a store row. -/
def State.wordAt (s : State) (c r w : Nat) : BitVec 32 := (s.row c r).data.extractLsb' (32 * w) 32

/-- Word `w` of a store row written as one event; its poison is left (04 R78). -/
def State.putWord (s : State) (c r w : Nat) (v : BitVec 32) : State :=
  s.putBytes ((List.range 4).map fun i => ⟨.cell c r (4 * w + i), v.extractLsb' (8 * i) 8, 0⟩)

/-- The queues of a word served after its bit changed (17 R362), with as much fuel as there are waiters. A row that has been
poisoned meanwhile serves nothing: the form at the head checks again, and traps (R361). -/
def State.serve (s : State) (c r w : Nat) : Nat → State
  | 0 => s
  | n + 1 =>
    let full := s.isFull c r w
    match s.feq.find? fun x => x.cell = c ∧ x.row = r ∧ x.word = w ∧ x.full = full with
    | none => s
    | some x =>
      let s := { s with feq := s.feq.filter fun y => y.slot ≠ x.slot }
      let s :=
        if s.isPoisoned (.cell c r (4 * w)) then s.turnAway x
        else if full then (if x.empties then s.setFull c r w false else s).grant x (s.wordAt c r w)
        else ((s.putWord c r w x.val).setFull c r w true).grant x 0
      s.serve c r w n

/-- The bit of a word set, and the queue it opens served. -/
def State.setTag (s : State) (c r w : Nat) (full : Bool) : State :=
  let t := s.setFull c r w full
  t.serve c r w t.feq.length

/-- The word of a tagged access; none at a void cell. -/
def Named.word (nm : Named) : Option (Nat × Nat × Nat) :=
  match nm.locs.head? with
  | some (.cell c r b, _) => some (c, r, b / 4)
  | _ => none

/-- Joining the queue of a word, unless the slot stands in it already: the reads and the writes wait apart (17 R362). -/
def State.joinQueue (s : State) (w : FeWait) : State :=
  if s.feq.any fun x => x.slot = w.slot then s else { s with feq := s.feq ++ [w] }

/-- Does another slot stand in the same queue before this one? -/
def State.queued (s : State) (w : FeWait) : Bool :=
  (s.feq.takeWhile fun x => x.slot ≠ w.slot).any fun x =>
    x.cell = w.cell && x.row = w.row && x.word = w.word && x.full = w.full

/-- What a tagged form asks of R100. -/
def tagWant (store : Bool) : Want := { kind := .tagged, store := store, reads := !store, align := 4 }

/-- The checks of a tagged form and its waits before it completes or joins a queue; `writes` is whether it changes the word or its
bit, which a release holds (17 R361; 16 R337). -/
def State.tagChecks (s : State) (f : FM) (store writes : Bool) : Res (State × Named) := do
  let ea := s.ea f
  s.loadWaits
  s.waitFor s.thr.sq.isEmpty
  let (s, nm) ← s.resolve (tagWant store) ea 4
  s.claim (nm.fps.map fun x => { x with write := true })
  s.waitFor (writes = false ∨ releases s.thr.ord = false ∨ s.thr.settled)
  pure (s, nm)

/-- What a tagged read gives: the word, or for FEQ the word and its bit (17 R360). -/
def State.tagValue (s : State) (fn c r w : Nat) : Word :=
  if fn = 7 then BitVec.ofNat 64 ((s.isFull c r w).toNat * 2 ^ 32 + (s.wordAt c r w).toNat)
  else sext64 32 (s.wordAt c r w).toNat

/-- What a tagged read gives at a void cell: zero, and full (17 R361). -/
def tagVoid (fn : Nat) : Word := if fn = 7 then BitVec.ofNat 64 (2 ^ 32) else 0

/-- Can a tagged read complete: FEQ waits for nothing, LDF and LDFE for a full word that no other slot waits for before it? -/
def State.tagReady (s : State) (fn : Nat) (q : FeWait) : Bool := fn = 7 || (s.isFull q.cell q.row q.word && !s.queued q)

/-- A tagged read of a named word completes as one event, or joins the full-queue (17 R360-R362). -/
def State.tagRead (s : State) (fn : Nat) (dest : BitVec 6) (out : Nat) (nm : Named) : Res State :=
  match nm.word with
  | none => .ok (s.setX dest (tagVoid fn))
  | some (c, r, w) =>
    let q : FeWait := ⟨s.cur.toNat, c, r, w, true, fn = 4, 0, out⟩
    if s.tagReady fn q then
      let v := s.tagValue fn c r w
      let s := { s with feq := s.feq.filter fun x => x.slot ≠ q.slot }
      .ok ((if fn = 4 then s.setTag c r w false else s).setX dest v)
    else .error (.wait (s.joinQueue q))

/-- May a tagged read with a nonzero LA go outstanding: it would not wait for its word now (17 R363)? -/
def State.tagLater (s : State) (fn : Nat) (ea : Word) : Bool :=
  match s.resolve { tagWant false with watch := false } ea 4 with
  | .ok (_, nm) => match nm.word with
    | none => true
    | some (c, r, w) => s.tagReady fn ⟨s.cur.toNat, c, r, w, true, fn = 4, 0, 0⟩
  | .error _ => true

/-- An outstanding LDF, LDFE or FEQ performed, with every check; one whose word is no longer full waits in its queue (17 R362; 20
R388). -/
def State.performTag (s : State) (o : Out) : Res State := do
  let (s, nm) ← s.resolve { tagWant false with watch := false, before := some o.no } o.ea 4
  s.tagRead o.fn.toNat o.dest o.no nm

/-- A tagged read (17 R360, R362): with LA = 0, or where it has to wait for its word, it completes here; otherwise it stays
outstanding (02 R36, R37; 20 R388). -/
def tagLoad (fn : Nat) (f : FM) (s : State) : Host.Outcome State Fault Refusal :=
  issue (.m 0x30 fn f) (fun s =>
    match s.thr.granted with
    | some v => .ok { st := s.setX f.xd (sext64 32 v.toNat) }
    | none =>
      let ea := s.ea f
      if f.hd.la ≠ 0 ∧ s.tagLater fn ea then do
        s.waitFor (fn ≠ 4 ∨ releases s.thr.ord = false ∨ s.thr.settled)
        atIssue (s.resolve (tagWant false) ea 4)
        s.claim (ptrFp ea 4 true) true
        pure { st := s.pushOut (outOf 0x30 fn f ea 0 0 (ptrFp ea 4 true)) }
      else do
        let (s, nm) ← s.tagChecks f false (fn = 4)
        let s ← s.tagRead fn f.xd 0 nm
        pure { st := s }) s

/-- LDF (17 R360). -/
def execLdf (f : FM) (s : State) : Host.Outcome State Fault Refusal := tagLoad 3 f s

/-- LDFE (17 R360). -/
def execLdfe (f : FM) (s : State) : Host.Outcome State Fault Refusal := tagLoad 4 f s

/-- STE (17 R360, R362): waits for empty. -/
def execSte (f : FM) (s : State) : Host.Outcome State Fault Refusal :=
  issue (.m 0x30 5 f) (fun s =>
    match s.thr.granted with
    | some _ => .ok { st := s }
    | none => do
      let (s, nm) ← s.tagChecks f true true
      match nm.word with
      | none => pure { st := s }
      | some (c, r, w) =>
        let v := (s.X f.xd).setWidth 32
        let q : FeWait := ⟨s.cur.toNat, c, r, w, false, false, v, 0⟩
        if !s.isFull c r w && !s.queued q then
          let s := { s with feq := s.feq.filter fun x => x.slot ≠ q.slot }
          pure { st := (s.putWord c r w v).setTag c r w true }
        else .error (.wait (s.joinQueue q))) s

/-- STF (17 R360): waits for nothing. -/
def execStf (f : FM) (s : State) : Host.Outcome State Fault Refusal :=
  issue (.m 0x30 6 f) (fun s => do
    let (s, nm) ← s.tagChecks f true true
    match nm.word with
    | none => pure { st := s }
    | some (c, r, w) => pure { st := (s.putWord c r w ((s.X f.xd).setWidth 32)).setTag c r w true }) s

/-- FEQ (17 R360): the value and the bit, unchanged; a void cell reads full and zero. -/
def execFeq (f : FM) (s : State) : Host.Outcome State Fault Refusal := tagLoad 7 f s

end Sys2Proof.Machine
end

