-- ==== Sys2Proof/Machine/Atom.lean ====
section
/-!
DEFINITION. The ATOM family (17 R352-R355): one read-modify-write event.
-/
namespace Sys2Proof.Machine

/-- The new value of `n` bytes from the old one and b (17 R352); ACAS's write when its comparison holds. -/
def atomNew (fn n old b : Nat) : Nat :=
  let w := 8 * n
  let so := intValue w true old
  let sb := intValue w true b
  match fn with
  | 0 => (old + b) % 2 ^ w
  | 1 => if so ≤ sb then old else b
  | 2 => if sb ≤ so then old else b
  | 3 => min old b
  | 4 => max old b
  | 5 => old &&& b
  | 6 => old ||| b
  | 7 => old ^^^ b
  | 10 => fp32.result .rne false (Val.add .rne (fp32.value old) (fp32.value b))
  | _ => b

/-- Is the old value returned sign-extended (17 R352)? -/
def atomSigned (fn : Nat) : Bool := !(fn = 3 || fn = 4 || fn = 10)

/-- What an ATOM asks of R100 (17 R354, R355). -/
def atomWant (fn n : Nat) (watch : Bool) : Want :=
  { kind := .atomic, store := true, align := n, hostOk := fn = 0 || fn = 8 || fn = 9, watch := watch }

/-- The RMW once its checks have passed (17 R353): the new bytes are written but for an ACAS that compares unequal. -/
def State.rmw (s : State) (fn n : Nat) (nm : Named) (b e : Nat) : State × Nat :=
  let old := leNat (s.getBytes nm.locs)
  if fn = 9 ∧ old ≠ e then (s, old)
  else (s.putBytes ((nm.locs.zip (leBytes n (atomNew fn n old b))).map fun x => ⟨x.1.1, x.2, x.1.2⟩), old)

/-- An RMW with its checks, and its destination written (17 R353, R354); `out` is the number of an outstanding one, which stands in
its place among the thread's stores (16 R336). -/
def State.performAtom (s : State) (fn n : Nat) (ea b e : Word) (dest : BitVec 6) (out : Option Nat) : Res State := do
  let (s, nm) ← s.resolve { atomWant fn n out.isNone with before := out } ea n
  let (s, old) := s.rmw fn n nm (b.toNat % 2 ^ (8 * n)) (e.toNat % 2 ^ (8 * n))
  pure (s.setX dest (loadImage (atomSigned fn) n old))

/-- An outstanding ATOM performed (20 R388, R390). -/
def State.performAtomOut (s : State) (o : Out) : Res State :=
  s.performAtom o.fn.toNat (2 ^ fld o.desc 0 3) o.ea o.opB o.opE o.dest (some o.no)

/-- A member of the ATOM family (17 R353): with LA = 0 it is performed here, otherwise it stays outstanding. -/
def atomForm (fn : Nat) (f : FM) (s : State) : Host.Outcome State Fault Refusal :=
  issue (.m 0x31 fn f) (fun s => do
    let ea := s.eaAtom f
    let n := sizeBytes f.size
    s.storeWaits
    if f.hd.la = 0 then do
      s.rmwWaits
      s.loadWaits
      let _ ← s.resolve (atomWant fn n true) ea n
      s.claim (ptrFp ea n true) true
      let s ← s.performAtom fn n ea (s.X f.xb) (s.X f.xd) f.xd none
      pure { st := s }
    else do
      atIssue (s.resolve (atomWant fn n true) ea n)
      s.claim (ptrFp ea n true) true
      pure { st := s.pushOut (outOf 0x31 fn f ea (s.X f.xb) (s.X f.xd) (ptrFp ea n true)) }) s

/-- AADD (17 R352). -/
def execAadd (f : FM) (s : State) : Host.Outcome State Fault Refusal := atomForm 0 f s
/-- AMIN (17 R352). -/
def execAmin (f : FM) (s : State) : Host.Outcome State Fault Refusal := atomForm 1 f s
/-- AMAX (17 R352). -/
def execAmax (f : FM) (s : State) : Host.Outcome State Fault Refusal := atomForm 2 f s
/-- AMINU (17 R352). -/
def execAminu (f : FM) (s : State) : Host.Outcome State Fault Refusal := atomForm 3 f s
/-- AMAXU (17 R352). -/
def execAmaxu (f : FM) (s : State) : Host.Outcome State Fault Refusal := atomForm 4 f s
/-- AAND (17 R352). -/
def execAand (f : FM) (s : State) : Host.Outcome State Fault Refusal := atomForm 5 f s
/-- AOR (17 R352). -/
def execAor (f : FM) (s : State) : Host.Outcome State Fault Refusal := atomForm 6 f s
/-- AXOR (17 R352). -/
def execAxor (f : FM) (s : State) : Host.Outcome State Fault Refusal := atomForm 7 f s
/-- AXCHG (17 R352). -/
def execAxchg (f : FM) (s : State) : Host.Outcome State Fault Refusal := atomForm 8 f s
/-- ACAS (17 R352): compares with X[XD]. -/
def execAcas (f : FM) (s : State) : Host.Outcome State Fault Refusal := atomForm 9 f s
/-- AFADD (17 R352). -/
def execAfadd (f : FM) (s : State) : Host.Outcome State Fault Refusal := atomForm 10 f s

end Sys2Proof.Machine
end

