-- ==== Sys2Proof/Machine/Legal.lean ====
section
/-!
DEFINITION. The field checks of decoding (02 R31, R33, R36 and the entries of the family chapters): which values of the
fields an instruction of the opcode map may have. A value they refuse traps ILLEGAL_FIELD at decode (02 R35 check 4).
-/
namespace Sys2Proof

/-- The long-latency class (02 R36): the instructions on which LA may be nonzero. -/
def laAllowed (opc fn : Nat) : Bool :=
  match opc with
  | 0x30 => fn ∈ [0, 1, 3, 4, 7]           -- LD LDZ LDF LDFE FEQ
  | 0x31 => fn ≤ 10                        -- ATOM
  | 0x10 => fn ∈ [5, 6, 7, 8]              -- DIV DIVU REM REMU
  | 0x20 => fn ∈ [4, 5, 6]                 -- FDIV FSQRT FRSQ
  | 0x00 => fn ∈ [5, 7]                    -- SYSR SYSX
  | 0x63 => fn ∈ [4, 5, 6]                 -- PPCNT PPANY PPALL
  | 0x80 => fn = 2                         -- NREDX
  | 0xA0 => fn ∈ [8, 9]                    -- WPTR CPSTAT
  | 0xB0 => fn = 4                         -- BKSTAT
  | _ => false

/-- The LA check of R36. -/
def laOk (opc fn : Nat) (hd : Hd) : Bool := hd.la == 0 || laAllowed opc fn

/-- The second operand of format A (02 R25): a register with IMM16 0, or an immediate with XB 0. -/
def FA.second (f : FA) : Bool := if f.ib = 1 then f.xb == 0 else f.imm == 0

/-- No second operand: IB, XB and IMM16 are 0. -/
def FA.unary (f : FA) : Bool := f.ib == 0 && f.xb == 0 && f.imm == 0

/-- A second operand in a register only. -/
def FA.regs (f : FA) : Bool := f.ib == 0 && f.imm == 0

/-- A register field that names a predicate has its bits above 2 zero (02 R33). -/
def isPred (x : BitVec 6) : Bool := x.toNat < 8

/-- The RND codes of R31: 5-7 are illegal. -/
def rndOk (r : BitVec 3) : Bool := r.toNat ≤ 4

/-- The formats FCVT accepts (09 R214). -/
def fcvtFmt (c : BitVec 5) : Bool := 4 ≤ c.toNat && c.toNat ≤ 10

/-- Format A fields: IALU (09 R208-R210), ICMP (R211), FALU (R213, R214), STACK (R225). -/
def legalA (opc fn : Nat) (f : FA) : Bool :=
  laOk opc fn f.hd &&
  match opc with
  | 0x10 =>
    if 20 ≤ fn ∧ fn ≤ 23 then f.unary
    else if fn = 27 then f.ib == 0 && f.imm.toNat < 16
    else f.second
  | 0x11 =>
    isPred f.xd &&
    (if fn ≤ 5 then f.second
     else if fn ≤ 8 then f.regs && f.sz == 0 && isPred f.xa && isPred f.xb
     else if fn ≤ 10 then f.unary && f.sz == 0 && isPred f.xa
     else f.second && f.sz == 0)
  | 0x20 =>
    f.sz.toNat ≤ 1 &&
    (if fn = 14 then
       f.ib == 1 && f.xb == 0 && f.sz == 0 && f.imm.toNat < 2 ^ 14 && rndOk (f.imm.extractLsb' 10 3)
         && fcvtFmt (f.imm.extractLsb' 5 5) && fcvtFmt (f.imm.extractLsb' 0 5)
     else if fn = 5 ∨ fn = 6 ∨ fn = 9 ∨ fn = 10 ∨ fn = 15 then f.unary
     else f.regs && (fn < 11 || isPred f.xd))
  | 0x33 =>
    f.sz == 0 &&
    (match fn with
     | 0 => f.ib == 1 && f.xd == 0 && f.xa == 0 && f.xb == 0
              && f.imm.toNat % 16 == 0 && 16 ≤ f.imm.toNat && f.imm.toNat ≤ 32752
     | 1 => f.unary && f.xd == 0 && f.xa == 0
     | _ => f.ib == 1 && f.xb == 0
              && (List.range 16).all fun k => !f.imm.getLsbD k || f.xd.toNat + k ≤ 63)
  | _ => false

/-- An end offset of at least five parcels (09 R219, 19 R377). -/
def endOk (i : BitVec 32) : Bool := 5 ≤ i.toInt

/-- Format B fields: BRANCH (09 R217, R219), IMM (09 R212, 04 R105), SCHED (15 R328). -/
def legalB (opc fn : Nat) (f : FB) : Bool :=
  laOk opc fn f.hd &&
  match opc with
  | 0x01 =>
    f.sz == 0 && f.xb == 0 &&
    (match fn with
     | 0 => f.xa == 0 && f.xd == 0 && f.imm16 == 0
     | 1 => f.xa == 0 && f.imm16 == 0
     | 2 => f.xd == 0 && f.imm16 == 0 && f.imm32 == 0
     | 3 => f.xd == 0
     | 4 => true
     | 5 => f.xd == 0 && f.imm16 == 0 && endOk f.imm32
     | 6 => endOk f.imm32
     | _ => f.xa == 0 && f.xd == 0 && f.imm16 == 0 && f.imm32 == 0)
  | 0x12 =>
    (match fn with
     | 0 | 1 => f.sz == 0 && f.xa == 0 && f.xb == 0 && f.imm16 == 0
     | 2 => f.xb == 0 && f.imm16 == 0
     | 3 => f.sz == 0 && f.xb == 0
     | 4 => f.sz == 0 && f.xb == 0 && f.imm32 == 0 && f.imm16.toNat < 16
     | 5 => f.sz == 0 && f.imm32 == 0
     | 6 => f.sz == 0 && f.imm16 == 0
     | _ => f.sz == 0)
  | 0x40 =>
    f.sz == 0 &&
    (match fn with
     | 0 | 1 => f.xd == 0 && f.xb == 0 && f.imm16.toNat ≤ 63 && f.imm32 == 0
     | 2 => f.xd == 0 && f.imm16 == 0
     | 3 => f.xb == 0 && 1 ≤ f.imm16.toNat && f.imm16.toNat ≤ 4096 && f.imm32.toNat < 2 ^ 16
              && f.imm32.toNat / 256 ≤ 128
     | 4 | 9 | 10 => f.xb == 0 && f.imm16 == 0 && f.imm32 == 0
     | 5 => f.xd == 0 && f.xb == 0 && f.imm16 == 0 && f.imm32 == 0
     | 6 | 7 | 8 => f.xa == 0 && f.xb == 0 && f.imm16 == 0 && f.imm32 == 0
     | _ => f.xb == 0 && f.imm16 == 0 && f.imm32.toNat ≤ 1)
  | _ => false

/-- The index rule of R27: XB = x0 needs SCL 0. -/
def FM.indexOk (f : FM) : Bool := f.xb != 0 || f.scl == 0

/-- The AT codes of R31. -/
def FM.atOk (f : FM) : Bool :=
  f.at' == 0 || (f.at' == 1 && f.size == 3) || (f.at' == 2 && f.size == 4)

/-- Format M fields: MEM (04 R98, R99; 17 R360), ATOM (17 R352). -/
def legalM (opc fn : Nat) (f : FM) : Bool :=
  laOk opc fn f.hd &&
  match opc with
  | 0x30 =>
    f.indexOk &&
    (match fn with
     | 0 | 1 | 2 => f.size.toNat ≤ 4 && f.atOk && (f.size != 4 || f.xd.toNat % 2 == 0)
     | 8 => f.xd == 0 && f.at' == 0 && f.size == 0
     | _ => f.size == 2 && f.at' == 0)
  | 0x31 => f.scl == 0 && f.at' == 0 && (f.size == 2 || (f.size == 3 && fn != 10))
  | _ => false

/-- Is the register assigned and readable (09 R205)? -/
def canRead (n : BitVec 12) : Bool := ((sysAccess n.toNat).map (·.read)).getD false

/-- Is the register assigned and writable (09 R205)? -/
def canWrite (n : BitVec 12) : Bool := ((sysAccess n.toNat).map (·.write)).getD false

/-- Format E fields: CTRL (09 R227, R205; 23 R436), ORDER (02 R41, 17 R351), POWER (22 R422). -/
def legalE (opc fn : Nat) (f : FE) : Bool :=
  laOk opc fn f.hd && f.imm12 == 0 &&
  match opc with
  | 0x00 =>
    (match fn with
     | 0 | 1 | 2 | 4 => f.xa == 0 && f.xd == 0 && f.sysn == 0
     | 3 | 8 => f.xa == 0 && f.xd == 0 && f.sysn.toNat < 256
     | 5 => f.xa == 0 && canRead f.sysn
     | 6 => f.xd == 0 && canWrite f.sysn
     | 7 => canRead f.sysn && canWrite f.sysn
     | 9 => f.xa == 0 && f.sysn == 0
     | _ => f.xd == 0 && 0x80 ≤ f.sysn.toNat && f.sysn.toNat ≤ 0xFF)
  | 0x32 =>
    f.xa == 0 && f.xd == 0 &&
    (if fn = 2 then f.sysn == 0
     else f.sysn.toNat < 64 && (f.sysn.extractLsb' 3 3).toNat ≤ 3 && (f.sysn.extractLsb' 0 3).toNat ≤ 4)
  | 0xD0 => if fn = 0 then f.xd == 0 && f.sysn.toNat ≤ 3 else f.xa == 0 && f.sysn.toNat ≤ 2
  | _ => false

/-- The fields of format T that a form can leave unused. -/
inductive TField where
  | ta | td | sat | rnd | edg | wb | wa | tc | tb | imm | xs
deriving DecidableEq, Repr

/-- Every field of format T. -/
def TField.all : List TField := [.ta, .td, .sat, .rnd, .edg, .wb, .wa, .tc, .tb, .imm, .xs]

/-- Is this field zero? -/
def FT.zero (f : FT) : TField → Bool
  | .ta => f.ta == 0
  | .td => f.td == 0
  | .sat => f.sat == 0
  | .rnd => f.rnd == 0
  | .edg => f.edg == 0
  | .wb => f.wb == 0
  | .wa => f.wa == 0
  | .tc => f.tc == 0
  | .tb => f.tb == 0
  | .imm => f.imm18 == 0
  | .xs => f.xs == 0

/-- Every field but the listed ones is zero (02 R33). -/
def FT.only (f : FT) (used : List TField) : Bool := TField.all.all fun x => used.contains x || f.zero x

/-- The window selectors of R31: 9-15 are illegal. -/
def FT.windowsOk (f : FT) : Bool := f.wa.toNat ≤ 8 && f.wb.toNat ≤ 8

/-- An XS that names the first of four registers (07 R184). -/
def quadOk (x : BitVec 6) : Bool := x.toNat % 4 == 0 && 4 ≤ x.toNat && x.toNat ≤ 60

/-- A power of two from 1 to 512 (11 R262). -/
def pow2Ok (m : BitVec 18) : Bool := (List.range 10).any fun k => m.toNat == 2 ^ k

/-- The fields each VARITH form uses (11 R255): VABS, VNEG and VSHL use SAT alone, VSQRT and VRSQ RND alone. -/
def varithUses (fn : Nat) : List TField :=
  let common : List TField := [.ta, .wa, .td, .tc, .edg]
  let binary : List TField := [.tb, .wb]
  match fn with
  | 0 | 1 | 2 | 3 | 8 => common ++ binary ++ [.rnd, .sat]
  | 4 | 5 => common ++ binary
  | 6 | 7 => common ++ [.sat]
  | 9 | 12 | 24 => common ++ [.rnd, .sat]
  | 10 | 11 | 13 => common ++ [.rnd]
  | 17 | 21 | 22 | 23 => common
  | 18 => common ++ binary ++ [.sat]
  | _ => common ++ binary

/-- Format T fields: VATOM (17 R356), TDESC (07 R184), VARITH (11 R255), VSCALAR (R260), VLANE (R262), VPRED (R265),
PMOVE (08 R198), NET (14 R297). -/
def legalT (opc fn : Nat) (f : FT) : Bool :=
  laOk opc fn f.hd && f.windowsOk && rndOk f.rnd &&
  match opc with
  | 0x34 => f.only [.ta, .tb, .td, .tc, .edg]
  | 0x50 =>
    (match fn with
     | 0 => f.only [.td, .xs] && f.td != 0 && quadOk f.xs
     | 1 => f.only [.ta, .xs] && quadOk f.xs
     | 2 => f.only [.td, .xs, .imm] && f.td != 0
     | 3 => f.only [.ta, .xs, .imm]
     | 4 => f.only [.td, .ta, .xs] && f.td != 0
     | 5 => f.only [.td, .ta, .xs, .imm] && f.td != 0
     | 6 => f.only [.edg, .xs] && f.edg != 0
     | _ => f.only [.edg, .xs])
  | 0x60 => f.only (varithUses fn)
  | 0x61 =>
    (match fn with
     | 0 | 1 => f.only [.td, .ta, .wa, .xs, .tc, .edg, .rnd, .sat]
     | 2 => f.only [.td, .ta, .wa, .tb, .wb, .xs, .tc, .edg, .rnd, .sat]
     | 3 | 4 => f.only [.td, .ta, .wa, .xs, .tc, .edg]
     | 5 => f.only [.td, .xs, .tc, .edg]
     | _ => f.only [.td, .xs, .tc, .edg, .imm, .sat])
  | 0x62 =>
    (match fn with
     | 0 => f.only [.td, .ta, .wa, .tb, .wb, .tc, .edg]
     | 1 => f.only [.td, .ta, .wa, .xs, .imm, .tc, .edg]
     | 2 => f.only [.td, .ta, .wa, .imm, .tc, .edg] && pow2Ok f.imm18
     | 3 => f.only [.td, .ta, .wa, .imm, .tc, .edg, .rnd, .sat] && f.imm18.toNat ≤ 2
     | 4 => f.only [.td, .ta, .wa, .imm, .tc, .edg, .rnd, .sat] && f.imm18.toNat < 8 && f.imm18.toNat % 4 ≤ 2
     | 5 => f.only [.td, .ta, .wa, .tb, .wb, .imm, .tc, .edg, .rnd, .sat] && f.imm18.toNat ≤ 1
     | _ => f.only [.td, .ta, .wa, .tb, .wb, .tc, .edg])
  | 0x63 =>
    (match fn with
     | 0 => f.only [.td, .edg, .imm] && f.imm18.toNat ≤ 1
     | 1 | 2 => f.only [.td, .ta, .tb, .wa, .wb, .edg]
     | 3 => f.only [.td, .ta, .wa, .edg]
     | 4 | 5 | 6 => f.only [.xs, .ta, .edg]
     | _ => f.only [.td, .edg])
  | 0x70 =>
    (match fn with
     | 0 => f.only [.td, .ta, .imm]
     | 1 => f.only [.td, .ta, .xs, .imm] && f.imm18.toNat < 8
     | 2 => f.only [.td, .ta, .wa, .edg]
     | _ => f.only [.td, .xs, .edg])
  | 0x80 =>
    (match fn with
     | 0 | 1 => f.only [.td, .ta, .tc, .edg, .sat, .imm] && f.imm18.toNat ≤ 2
     | 2 => f.only [.xs, .ta, .tc, .edg, .sat, .imm] && f.imm18.toNat % 4 ≤ 2 && f.imm18.toNat < 8
     | 3 | 4 => f.only [.td, .ta, .tc, .edg]
     | _ => f.only [.td, .ta, .xs, .sat])
  | _ => false

/-- The fields of format Q that a form can leave unused. -/
inductive QField where
  | ch | ta | td | edn | edm | xb | xa | tc | tb | sbb | sba | edk | xc | flg | slack | imm
deriving DecidableEq, Repr

/-- Every field of format Q. -/
def QField.all : List QField :=
  [.ch, .ta, .td, .edn, .edm, .xb, .xa, .tc, .tb, .sbb, .sba, .edk, .xc, .flg, .slack, .imm]

/-- Is this field zero? -/
def FQ.zero (f : FQ) : QField → Bool
  | .ch => f.ch == 0
  | .ta => f.ta == 0
  | .td => f.td == 0
  | .edn => f.edn == 0
  | .edm => f.edm == 0
  | .xb => f.xb == 0
  | .xa => f.xa == 0
  | .tc => f.tc == 0
  | .tb => f.tb == 0
  | .sbb => f.sbb == 0
  | .sba => f.sba == 0
  | .edk => f.edk == 0
  | .xc => f.xc == 0
  | .flg => f.flg == 0
  | .slack => f.slack == 0
  | .imm => f.imm32 == 0

/-- Every field but the listed ones is zero (02 R33). -/
def FQ.only (f : FQ) (used : List QField) : Bool := QField.all.all fun x => used.contains x || f.zero x

/-- An accumulator exponent in range (13 R283). -/
def expOk (i : BitVec 32) : Bool := -2048 ≤ i.toInt && i.toInt ≤ 2047

/-- Format Q fields: MATRIX (13 R283), COPY (06 R152), BANK (05 R128), WALK (19 R377). The IMM32 range of BKLOAD and
BKCALL is checked at execution, where 05 R129 lists it. -/
def legalQ (opc fn : Nat) (f : FQ) : Bool :=
  laOk opc fn f.hd &&
  match opc with
  | 0x90 =>
    (match fn with
     | 0 => f.only [.ta, .tb, .imm]
     | 1 => f.only [.ta]
     | 2 => f.only [.td, .ta, .tb, .tc, .xc, .edm, .edn, .edk, .sba, .sbb]
     | 3 => f.only [.td, .imm, .flg] && f.flg.toNat ≤ 1 && expOk f.imm32 && (f.flg == 0 || f.imm32 == 0)
     | 4 => f.only [.td, .ta, .tc, .edm, .edn, .flg] && rndOk (f.flg.extractLsb' 0 3)
     | _ => f.only [.td, .imm] && expOk f.imm32)
  | 0xA0 =>
    (match fn with
     | 0 | 1 => f.only [.ch, .td, .ta, .xa, .edm, .slack, .imm]
     | 2 => f.only [.ch, .td, .tb, .tc, .slack]
     | 3 => f.only [.ch, .ta, .tb, .tc, .slack]
     | 4 => f.only [.ch, .td, .ta, .edm, .slack]
     | 5 => f.only [.ch, .xb, .xa, .xc, .slack]
     | 6 => f.only [.xc]
     | 7 => f.only [.imm] && f.imm32.toNat ≤ 15
     | _ => f.only [.ch, .xc])
  | 0xB0 =>
    (match fn with
     | 0 => f.only [.xa, .xb, .imm, .flg] && f.flg.toNat ≤ 1
     | 1 => f.only [.xa, .xb, .xc, .imm, .flg] && f.flg.toNat ≤ 1
     | 2 => f.only [.xc, .td, .xa, .xb, .imm, .flg] && f.flg.toNat ≤ 3
     | 3 => if f.flg = 1 then f.only [.flg] else f.only [.xa]
     | _ => f.only [.xc, .xa])
  | 0xC0 =>
    (match fn with
     | 0 => f.only [.td, .xc, .xa, .imm] && endOk f.imm32
     | 1 => f.only [.xa, .xb, .imm] && !f.imm32.getLsbD 7 && 2 ≤ f.imm32.toNat % 16 && f.imm32.toNat % 16 ≤ 12
     | 2 => f.only [.xa, .xb, .imm, .flg] && f.flg.toNat ≤ 1 && f.imm32.toNat ≤ 7
     | 3 => f.only [.xc, .xa, .xb, .imm] && f.imm32.toNat ≤ 7
     | _ => f.only [.xc, .imm] && f.imm32.toNat ≤ 1)
  | _ => false

/-- The largest op value that names a bank-engine operation (05 R45). -/
def bankOps : Nat := 20

/-- A bank word's fields: those its entry does not use are 0 (05 R115), accumulator fields are a0-a7 (R44). The values
of an immediate that an entry refuses fault when the word runs. -/
def legalBank (op : Nat) (f : FBk) : Bool :=
  match op with
  | 0 | 1 => f.imm14 == 0 && f.rt == 0 && f.rs == 0 && f.rd == 0
  | 2 => f.rt == 0 && f.rs == 0
  | 3 => f.rt == 0
  | 4 | 5 | 6 => f.imm14 == 0
  | 7 | 8 => f.rt == 0 && f.rd == 0
  | 9 => f.rt == 0 && f.rs == 0
  | 10 => f.rs == 0 && f.rd.toNat < 8
  | 11 => f.rd.toNat < 8
  | 12 => f.rt == 0 && f.rs == 0 && f.rd == 0
  | 13 => f.rd == 0
  | 14 => f.rt == 0 && f.rs.toNat < 8
  | 15 => f.rd == 0 && f.rs.toNat < 8
  | 16 => f.rt == 0
  | 17 | 18 | 19 => f.rd == 0
  | _ => false

/-- The field checks of one encoding view; an event has no fields. -/
def Form.legal : Form → Bool
  | .a opc fn f => legalA opc fn f
  | .b opc fn f => legalB opc fn f
  | .m opc fn f => legalM opc fn f
  | .e opc fn f => legalE opc fn f
  | .t opc fn f => legalT opc fn f
  | .q opc fn f => legalQ opc fn f
  | .bank op f => legalBank op f
  | .none => true

end Sys2Proof
end

