-- ==== Sys2Proof/WellFormed.lean ====
section
/-!
DEFINITION. When an instruction is well formed: every coded field has a legal code, every field it does not use is zero
and its LA is allowed (02 R31, R33, R36), as `Form.legal` states entry by entry.
-/
namespace Sys2Proof

/-- The instruction's fields pass every decode check of 02 R35 order 4. -/
def Instr.wf (i : Instr) : Bool := i.form.legal

end Sys2Proof
end

