-- ==== Sys2Proof/Decode.lean ====
section
/-!
DEFINITION. Decoding and encoding (02 R18-R45). `decode` reads one thread instruction from the parcels of its fetch
block, `decodeBank` one bank-engine word; both are total and refuse by name. `encode` and `encodeBank` write the words
of an instruction from the same format tables.
-/
namespace Sys2Proof

/-- Why the decoder refuses a first parcel: the cause of 02 R35 that applies first. -/
inductive DecodeError where
  | filler          -- R19: no instruction at all, skipped
  | illegalFormat   -- R35 check 2: the fetch block (R21) or a LEN that differs from the family's (R34)
  | illegalField    -- R35 check 4: a reserved field, a coded field or LA
deriving DecidableEq, Repr

/-- The filler parcel (02 R19). -/
def fillerParcel : Parcel := 0xFFFF_FFFF

/-- Bits [lo+n-1:lo] of a parcel. -/
abbrev bitsOf (p : Parcel) (lo n : Nat) : BitVec n := p.extractLsb' lo n

/-- The LEN code, OPC, and the common fields GP and LA of a first parcel (02 R23). -/
def lenOf (p0 : Parcel) : BitVec 2 := bitsOf p0 0 2
/-- OPC (02 R23). -/
def opcOf (p0 : Parcel) : BitVec 8 := bitsOf p0 2 8
/-- GP and LA (02 R23). -/
def hdOf (p0 : Parcel) : Hd := ⟨bitsOf p0 14 4, bitsOf p0 10 4⟩

/-- Parcels that a LEN code names; none for 0b11 (02 R18). -/
def parcelsOfLen (l : BitVec 2) : Option Nat :=
  match l.toNat with
  | 0 => some 2
  | 1 => some 3
  | 2 => some 4
  | _ => none

/-- The FN field, where each format has it (02 R25-R30). -/
def fnOf (fmt : Fmt) (p1 p2 : Parcel) : BitVec 8 :=
  match fmt with
  | .a => bitsOf p1 23 8
  | .b => bitsOf p1 0 8
  | .m => bitsOf p1 11 8
  | .e => bitsOf p1 12 8
  | .t | .q => bitsOf p2 0 8

/-- The bits a format table marks 0 (02 R25-R30) are zero. -/
def zerosOk (fmt : Fmt) (p0 p1 p2 : Parcel) : Bool :=
  match fmt with
  | .a => bitsOf p1 31 1 == 0
  | .b => bitsOf p1 30 2 == 0
  | .m => bitsOf p1 19 13 == 0
  | .e => bitsOf p0 30 2 == 0
  | .t => bitsOf p0 30 2 == 0 && bitsOf p1 27 5 == 0
  | .q => bitsOf p1 30 2 == 0 && bitsOf p2 29 3 == 0

/-- Format A fields (02 R25). -/
def fieldsA (p0 p1 : Parcel) : FA :=
  ⟨hdOf p0, bitsOf p0 30 2, bitsOf p0 24 6, bitsOf p0 18 6, bitsOf p1 22 1, bitsOf p1 6 16, bitsOf p1 0 6⟩

/-- Format B fields (02 R26). -/
def fieldsB (p0 p1 p2 : Parcel) : FB :=
  ⟨hdOf p0, bitsOf p0 30 2, bitsOf p0 24 6, bitsOf p0 18 6, bitsOf p1 14 16, bitsOf p1 8 6, p2⟩

/-- Format M fields (02 R27). -/
def fieldsM (p0 p1 p2 : Parcel) : FM :=
  ⟨hdOf p0, bitsOf p0 30 2, bitsOf p0 24 6, bitsOf p0 18 6, bitsOf p1 9 2, bitsOf p1 6 3, bitsOf p1 0 6, p2⟩

/-- Format E fields (02 R28). -/
def fieldsE (p0 p1 : Parcel) : FE :=
  ⟨hdOf p0, bitsOf p0 24 6, bitsOf p0 18 6, bitsOf p1 20 12, bitsOf p1 0 12⟩

/-- Format T fields (02 R29). -/
def fieldsT (p0 p1 p2 : Parcel) : FT :=
  ⟨hdOf p0, bitsOf p0 24 6, bitsOf p0 18 6, bitsOf p1 26 1, bitsOf p1 23 3, bitsOf p1 20 3, bitsOf p1 16 4,
    bitsOf p1 12 4, bitsOf p1 6 6, bitsOf p1 0 6, bitsOf p2 14 18, bitsOf p2 8 6⟩

/-- Format Q fields (02 R30). -/
def fieldsQ (p0 p1 p2 p3 : Parcel) : FQ :=
  ⟨hdOf p0, bitsOf p0 30 2, bitsOf p0 24 6, bitsOf p0 18 6, bitsOf p1 27 3, bitsOf p1 24 3, bitsOf p1 18 6,
    bitsOf p1 12 6, bitsOf p1 6 6, bitsOf p1 0 6, bitsOf p2 27 2, bitsOf p2 25 2, bitsOf p2 22 3, bitsOf p2 16 6,
    bitsOf p2 12 4, bitsOf p2 8 4, p3⟩

/-- The encoding view of an assigned opcode's parcels. -/
def formOf (fmt : Fmt) (opc : Nat) (p0 p1 p2 p3 : Parcel) : Form :=
  let fn := (fnOf fmt p1 p2).toNat
  match fmt with
  | .a => .a opc fn (fieldsA p0 p1)
  | .b => .b opc fn (fieldsB p0 p1 p2)
  | .m => .m opc fn (fieldsM p0 p1 p2)
  | .e => .e opc fn (fieldsE p0 p1)
  | .t => .t opc fn (fieldsT p0 p1 p2)
  | .q => .q opc fn (fieldsQ p0 p1 p2 p3)

/-- One thread instruction from the parcels that stand between its first parcel and the end of its fetch block, with
the number of parcels it takes. An unassigned OPC or FN and a LEN of 0b11 are `illegalEncoding`, which traps when it
runs (02 R43); the other refusals are errors, in the order of R35. -/
def decode (ps : List Parcel) : Except DecodeError (Instr × Nat) :=
  let p0 := ps.getD 0 0
  let p1 := ps.getD 1 0
  let p2 := ps.getD 2 0
  let p3 := ps.getD 3 0
  if p0 = fillerParcel then .error .filler
  else match parcelsOfLen (lenOf p0) with
    | none => .ok (.illegalEncoding, 1)
    | some n =>
      if ps.length < n then .error .illegalFormat
      else match family (opcOf p0).toNat with
        | none => .ok (.illegalEncoding, n)
        | some (fmt, _) =>
          if fmt.len ≠ lenOf p0 then .error .illegalFormat
          else
            let form := formOf fmt (opcOf p0).toNat p0 p1 p2 p3
            match form.instr with
            | none => .ok (.illegalEncoding, n)
            | some i => if zerosOk fmt p0 p1 p2 && form.legal then .ok (i, n) else .error .illegalField

/-- One bank-engine word (05 R44, R45, R115): an op of 20-63, an accumulator field of 8-15 or a nonzero unused field is
`bankIllegal`, which faults the engine when it runs. -/
def decodeBank (w : Parcel) : Instr :=
  let f : FBk := ⟨bitsOf w 18 14, bitsOf w 14 4, bitsOf w 10 4, bitsOf w 6 4⟩
  let op := (bitsOf w 0 6).toNat
  match ofBank op f with
  | some i => if legalBank op f then i else .bankIllegal
  | none => .bankIllegal

/-- The common 18 bits of a first parcel (02 R23). -/
def commonBits (hd : Hd) (opc : Nat) (len : BitVec 2) : BitVec 18 :=
  hd.gp ++ hd.la ++ BitVec.ofNat 8 opc ++ len

/-- The parcels of an encoding view, first parcel first (02 R25-R30); a bank word is one parcel (R44); an event has
none. -/
def Form.parcels : Form → List Parcel
  | .a opc fn f =>
    [f.sz ++ f.xa ++ f.xd ++ commonBits f.hd opc 0,
     0#1 ++ BitVec.ofNat 8 fn ++ f.ib ++ f.imm ++ f.xb]
  | .b opc fn f =>
    [f.sz ++ f.xa ++ f.xd ++ commonBits f.hd opc 1,
     0#2 ++ f.imm16 ++ f.xb ++ BitVec.ofNat 8 fn,
     f.imm32]
  | .m opc fn f =>
    [f.scl ++ f.xa ++ f.xd ++ commonBits f.hd opc 1,
     0#13 ++ BitVec.ofNat 8 fn ++ f.at' ++ f.size ++ f.xb,
     f.disp]
  | .e opc fn f =>
    [0#2 ++ f.xa ++ f.xd ++ commonBits f.hd opc 0,
     f.imm12 ++ BitVec.ofNat 8 fn ++ f.sysn]
  | .t opc fn f =>
    [0#2 ++ f.ta ++ f.td ++ commonBits f.hd opc 1,
     0#5 ++ f.sat ++ f.rnd ++ f.edg ++ f.wb ++ f.wa ++ f.tc ++ f.tb,
     f.imm18 ++ f.xs ++ BitVec.ofNat 8 fn]
  | .q opc fn f =>
    [f.ch ++ f.ta ++ f.td ++ commonBits f.hd opc 2,
     0#2 ++ f.edn ++ f.edm ++ f.xb ++ f.xa ++ f.tc ++ f.tb,
     0#3 ++ f.sbb ++ f.sba ++ f.edk ++ f.xc ++ f.flg ++ f.slack ++ BitVec.ofNat 8 fn,
     f.imm32]
  | .bank op f => [f.imm14 ++ f.rt ++ f.rs ++ f.rd ++ BitVec.ofNat 6 op]
  | .none => []

/-- The parcels of an instruction; none for an event. -/
def encode (i : Instr) : List Parcel := i.form.parcels

/-- The word of a bank instruction; 0 for any other. -/
def encodeBank (i : Instr) : Parcel :=
  match i.form with
  | .bank .. => (encode i).headD 0
  | _ => 0

/-- Is the instruction a thread form, one that a slot fetches? -/
def Instr.isThread (i : Instr) : Bool :=
  match i.form with
  | .bank .. | .none => false
  | _ => true

/-- Is the instruction a bank-engine operation? -/
def Instr.isBank (i : Instr) : Bool :=
  match i.form with
  | .bank .. => true
  | _ => false

/-- The four parcels of a word whose first parcel is its low 32 bits. -/
def tableParcels (w : Nat) : List Parcel :=
  [BitVec.ofNat 32 w, BitVec.ofNat 32 (w / 2 ^ 32), BitVec.ofNat 32 (w / 2 ^ 64), BitVec.ofNat 32 (w / 2 ^ 96)]

/-- The instruction the decoder reads from a word numbered as the opcode table numbers it. A row of at most 32 bits is
a bank-engine word; any other is a thread instruction. -/
def decodeTableWord (nbits w : Nat) : Option Instr :=
  if nbits ≤ 32 then some (decodeBank (BitVec.ofNat 32 w))
  else
    match decode (tableParcels (w % 2 ^ nbits)) with
    | .ok (i, _) => some i
    | .error _ => none

end Sys2Proof
end

