-- ==== Sys2Proof/Machine/Fetch.lean ====
section
/-!
DEFINITION. Fetching and decoding an instruction (02 R18-R22, R35), whether a slot may take a turn, placing an instruction
for a test, and time.
-/
namespace Sys2Proof.Machine

/-- What the slot's PC names. -/
inductive Fetched where
  /-- fillers up to an address -/
  | filler (next : Word)
  | instr (i : Instr)
  | trap (t : Trap)
deriving DecidableEq, Repr

/-- The parcels from an address to the end of its fetch block (02 R21). -/
def State.blockParcels (s : State) (a : Word) : List Parcel :=
  (List.range ((32 - a.toNat % 32) / 4)).map fun i => (s.parcelAt (a + BitVec.ofNat 64 (4 * i))).getD 0

/-- The instruction at the PC (02 R35 checks 1 to 4). -/
def State.fetch (s : State) : Fetched :=
  let a := s.thr.pc
  match s.parcelAt a with
  | none => .trap ⟨cFETCH_BOUND, a, 0⟩
  | some _ =>
    match decode (s.blockParcels a) with
    | .ok (i, _) => .instr i
    | .error .filler => .filler (s.skipFiller ((32 - a.toNat % 32) / 4) a)
    | .error .illegalFormat => .trap ⟨cILLEGAL_FORMAT, 0, 0⟩
    | .error .illegalField => .trap ⟨cILLEGAL_FIELD, 0, 0⟩

/-- Has a thread that is asked to stop something to do first: a handler to leave, re-issues, a back-edge or a trap that is due, a tagged
wait that has ended, stores that wait for a re-issue (20 R390, R396, R402)? -/
def Thread.mustGoOn (t : Thread) : Bool :=
  t.priv || t.reissuing || t.edgeDue || t.granted.isSome || t.trapDue.isSome || t.unlogged.isSome || t.sq.any t.sqHeld

/-- May the slot take a turn: it runs an item, is not stopped, has not failed, is not held for a save or a flush, and no
slot that its YIELD lets go first is ready? A trap that is due goes before a pre-emption (20 R396). -/
def State.slotMay (s : State) : Bool :=
  let t := s.thr
  t.phase == .running && t.term.isNone && !s.curDbg.stopped
    && (match t.preempt with
      | .none | .drain _ => true
      | .flush => t.mustGoOn || t.loggedFault.isSome
      | .save _ => t.mustGoOn)
    && !(t.yieldTo.any fun k =>
      let u := s.thread (BitVec.ofNat 11 k)
      u.phase == .running && !u.waiting && u.term.isNone && !(NMap.get {} s.dbg k).stopped)

/-- How far device time is moved beyond `n` ticks of the oscillator to remove an offset (23 R427): by 1,000 ppm of the ticks that have
passed since it last moved, `p` and these, when it slews; by half of them when it runs slow. -/
def timeShift (offset : Int) (half : Bool) (p n : Nat) : Int :=
  let most : Int := if half then (((p + n) / 2 - p / 2 : Nat) : Int) else (((p + n) / 1000 : Nat) : Int)
  max (-most) (min most offset)

/-- Ticks of the oscillator in a step: a free number, of two at least, so that device time moves on in every step, at half rate too
(23 R427; log 3). -/
def State.stepTicks (s : State) : Nat := (Config.ticks s.stepNo).toNat + 2

/-- Device time runs on in each step (23 R427; log 3), and each die's copy with it. -/
def State.tick (s : State) : State :=
  let n := s.stepTicks
  let d := timeShift s.timeOffset s.halfRate s.slewPart n
  let by' : Word := BitVec.ofInt 64 (n + d)
  { s with time := s.time + by', dieTime := s.dieTime.map (· + by'), stepNo := s.stepNo + 1, timeOffset := s.timeOffset - d
           halfRate := s.halfRate && s.timeOffset - d ≠ 0, slewPart := (s.slewPart + n) % 1000
           netCycles := s.netCycles + (s.netPart + n) / 8, netPart := (s.netPart + n) % 8 }

/-! ### Placing an instruction where the next step runs it -/

/-- The virtual address of the code that `withFetchWord` places. -/
def placeVa : Nat := 0x10000

/-- Bytes placed in main memory at physical addresses of the device stripe from `pa`. -/
def State.placeBytes (s : State) (pa : Nat) (bs : List Byte) : State :=
  (bs.zip (List.range bs.length)).foldl (fun s x => s.put (.mem (storageOf 0 (pa + x.2))) 0 x.1) s

/-- A module that runs (24 R447), with slot 0's key there. -/
def State.powerUp (s : State) : State :=
  { s with boot := { s.boot with powered := true, marked := true, recovery := false, due := false }, keySlots := NMap.set s.keySlots 0 s.key0 }

/-- A thread that stands at an instruction boundary at the placed address, with nothing that would happen there first: it runs, is
held by nothing, and has no logged fault, late packet, prefix or back-edge to see to. -/
def Thread.atPlace (t : Thread) : Thread :=
  { t with phase := .running, pc := BitVec.ofNat 64 placeVa, ord := none, outs := [], granted := none, latePending := false
           reissuing := false, edgeDue := false, trapDue := none, term := none, preempt := .none, yieldTo := [] }

/-- A slot that no debugger stops and no trace holds. -/
def State.unheld (s : State) : State :=
  let v := s.thr.vf.toNat
  { s with dbg := NMap.put {} s.dbg s.cur.toNat { s.curDbg with stopped := false, haltReq := false, due := none }
           traces := NMap.put {} s.traces v { NMap.get {} s.traces v with halted := false } }

/-- A thread instruction of four parcels at the PC of the slot that acts, whose page is executable (log 1). -/
def State.placeThread (s : State) (w : Nat) : State :=
  let s := s.powerUp.placeBytes placeVa (leBytes 16 w)
  let s := (s.withThr s.thr.atPlace).unheld
  let leaf : TLeaf := ⟨s.thr.root, s.thr.vf, 0, placeVa, BitVec.ofNat 64 (placeVa + 0x2F)⟩
  let k := s.cluster s.cl
  let s := s.setCluster s.cl { k with tlb := leaf :: k.tlb }
  { s with turns := .slot s.cur :: s.turns }

/-- A bank word at the PC of engine `curE`, which runs a call of its own. -/
def State.placeBank (s : State) (w : Nat) : State :=
  let s := s.powerUp
  let e := s.eng
  { s with turns := .engine s.curE :: s.turns
           eng := { e with prog := NMap.put 0 e.prog e.pc.toNat (BitVec.ofNat 32 w), busy := true, call := some 0 } }

end Sys2Proof.Machine
end

