-- ==== Sys2Proof/Machine/Ialu.lean ====
section
/-!
DEFINITION. The IALU family (09 R208-R210): integer arithmetic at 64, 32, 16 or 8 bits, every result sign-extended.
-/
namespace Sys2Proof.Machine

/-- A result reduced modulo 2^w and sign-extended (09 R208). -/
def aluOut (w : Nat) (r : Int) : Word := sext64 w (wrapBits w r)

/-- DIV (09 R208). -/
def aluDiv (w : Nat) (a b : Int) : Int := if b = 0 then -1 else if a = -(2 ^ (w - 1)) ∧ b = -1 then a else a.tdiv b
/-- REM (09 R208). -/
def aluRem (w : Nat) (a b : Int) : Int := if b = 0 then a else if a = -(2 ^ (w - 1)) ∧ b = -1 then 0 else a.tmod b
/-- DIVU (09 R208). -/
def aluDivu (w a b : Nat) : Nat := if b = 0 then 2 ^ w - 1 else a / b
/-- REMU (09 R208). -/
def aluRemu (a b : Nat) : Nat := if b = 0 then a else a % b
/-- Zero bits above the highest 1 (09 R208). -/
def aluClz (w a : Nat) : Nat := w - bitLen a
/-- Zero bits below the lowest 1 of the `w` bits (09 R208). -/
def aluCtz (w a : Nat) : Nat := ((List.range w).find? fun k => a / 2 ^ k % 2 = 1).getD w
/-- One bits (09 R208). -/
def aluPopc (w a : Nat) : Nat := ((List.range w).map fun k => a / 2 ^ k % 2).sum
/-- Bit k moved to bit w − 1 − k (09 R208). -/
def aluBrev (w a : Nat) : Nat := ((List.range w).map fun k => a / 2 ^ k % 2 * 2 ^ (w - 1 - k)).sum

/-- The length that EXTS, EXTZ and INS use (09 R209). -/
def fieldLen (w pos len : Nat) : Nat := if pos < w then min len (w - pos) else 0
/-- pos of a control value (09 R209). -/
def ctlPos (c : Word) : Nat := fld c 0 6
/-- len of a control value (09 R209). -/
def ctlLen (c : Word) : Nat := fld c 6 7
/-- EXTZ (09 R209). -/
def aluExtz (w : Nat) (a c : Word) : Nat := uval w a / 2 ^ ctlPos c % 2 ^ fieldLen w (ctlPos c) (ctlLen c)
/-- EXTS (09 R209). -/
def aluExts (w : Nat) (a c : Word) : Int :=
  let l := fieldLen w (ctlPos c) (ctlLen c)
  if l = 0 then 0 else intValue l true (aluExtz w a c)
/-- INS (09 R209): `d` is the old XD. -/
def aluIns (w : Nat) (a c d : Word) : Nat :=
  let l := fieldLen w (ctlPos c) (ctlLen c)
  let p := ctlPos c
  let old := uval w d
  if l = 0 then old else old - old / 2 ^ p % 2 ^ l * 2 ^ p + uval w a % 2 ^ l * 2 ^ p

/-- An IALU form: `r` is the exact result from the width and the two operands (09 R208). -/
def ialu (fn : Nat) (r : Nat → Word → Word → Int) (f : FA) (s : State) : Host.Outcome State Fault Refusal :=
  pureOp (.a 0x10 fn f) (fun s => s.setX f.xd (aluOut (szBits f.sz) (r (szBits f.sz) (s.X f.xa) (s.opB f)))) s

/-- ADD (09 R208). -/
def execAdd (f : FA) (s : State) : Host.Outcome State Fault Refusal :=
  ialu 0 (fun w a b => (uval w a + uval w b : Nat)) f s

/-- SUB (09 R208). -/
def execSub (f : FA) (s : State) : Host.Outcome State Fault Refusal :=
  ialu 1 (fun w a b => ((uval w a : Int) - uval w b)) f s

/-- MUL (09 R208). -/
def execMul (f : FA) (s : State) : Host.Outcome State Fault Refusal :=
  ialu 2 (fun w a b => sval w a * sval w b) f s

/-- MULH (09 R208). -/
def execMulh (f : FA) (s : State) : Host.Outcome State Fault Refusal :=
  ialu 3 (fun w a b => (sval w a * sval w b) / 2 ^ w) f s

/-- MULHU (09 R208). -/
def execMulhu (f : FA) (s : State) : Host.Outcome State Fault Refusal :=
  ialu 4 (fun w a b => (uval w a * uval w b / 2 ^ w : Nat)) f s

/-- DIV (09 R208). -/
def execDiv (f : FA) (s : State) : Host.Outcome State Fault Refusal :=
  ialu 5 (fun w a b => aluDiv w (sval w a) (sval w b)) f s

/-- DIVU (09 R208). -/
def execDivu (f : FA) (s : State) : Host.Outcome State Fault Refusal :=
  ialu 6 (fun w a b => aluDivu w (uval w a) (uval w b)) f s

/-- REM (09 R208). -/
def execRem (f : FA) (s : State) : Host.Outcome State Fault Refusal :=
  ialu 7 (fun w a b => aluRem w (sval w a) (sval w b)) f s

/-- REMU (09 R208). -/
def execRemu (f : FA) (s : State) : Host.Outcome State Fault Refusal :=
  ialu 8 (fun w a b => aluRemu (uval w a) (uval w b)) f s

/-- AND (09 R208). -/
def execAnd (f : FA) (s : State) : Host.Outcome State Fault Refusal :=
  ialu 9 (fun _w a b => (a &&& b).toNat) f s

/-- OR (09 R208). -/
def execOr (f : FA) (s : State) : Host.Outcome State Fault Refusal :=
  ialu 10 (fun _w a b => (a ||| b).toNat) f s

/-- XOR (09 R208). -/
def execXor (f : FA) (s : State) : Host.Outcome State Fault Refusal :=
  ialu 11 (fun _w a b => (a ^^^ b).toNat) f s

/-- ANDN (09 R208). -/
def execAndn (f : FA) (s : State) : Host.Outcome State Fault Refusal :=
  ialu 12 (fun _w a b => (a &&& ~~~b).toNat) f s

/-- SHL (09 R208). -/
def execShl (f : FA) (s : State) : Host.Outcome State Fault Refusal :=
  ialu 13 (fun w a b => (uval w a * 2 ^ (uval w b % w) : Nat)) f s

/-- SHR (09 R208). -/
def execShr (f : FA) (s : State) : Host.Outcome State Fault Refusal :=
  ialu 14 (fun w a b => (uval w a / 2 ^ (uval w b % w) : Nat)) f s

/-- SAR (09 R208). -/
def execSar (f : FA) (s : State) : Host.Outcome State Fault Refusal :=
  ialu 15 (fun w a b => sval w a / 2 ^ (uval w b % w)) f s

/-- MIN (09 R208). -/
def execMin (f : FA) (s : State) : Host.Outcome State Fault Refusal :=
  ialu 16 (fun w a b => Min.min (sval w a) (sval w b)) f s

/-- MINU (09 R208). -/
def execMinu (f : FA) (s : State) : Host.Outcome State Fault Refusal :=
  ialu 17 (fun w a b => (Min.min (uval w a) (uval w b) : Nat)) f s

/-- MAX (09 R208). -/
def execMax (f : FA) (s : State) : Host.Outcome State Fault Refusal :=
  ialu 18 (fun w a b => Max.max (sval w a) (sval w b)) f s

/-- MAXU (09 R208). -/
def execMaxu (f : FA) (s : State) : Host.Outcome State Fault Refusal :=
  ialu 19 (fun w a b => (Max.max (uval w a) (uval w b) : Nat)) f s

/-- CLZ (09 R208). -/
def execClz (f : FA) (s : State) : Host.Outcome State Fault Refusal :=
  ialu 20 (fun w a _b => aluClz w (uval w a)) f s

/-- CTZ (09 R208). -/
def execCtz (f : FA) (s : State) : Host.Outcome State Fault Refusal :=
  ialu 21 (fun w a _b => aluCtz w (uval w a)) f s

/-- POPC (09 R208). -/
def execPopc (f : FA) (s : State) : Host.Outcome State Fault Refusal :=
  ialu 22 (fun w a _b => aluPopc w (uval w a)) f s

/-- BREV (09 R208). -/
def execBrev (f : FA) (s : State) : Host.Outcome State Fault Refusal :=
  ialu 23 (fun w a _b => aluBrev w (uval w a)) f s

/-- EXTS (09 R209). -/
def execExts (f : FA) (s : State) : Host.Outcome State Fault Refusal :=
  ialu 24 (fun w a b => aluExts w a b) f s

/-- EXTZ (09 R209). -/
def execExtz (f : FA) (s : State) : Host.Outcome State Fault Refusal :=
  ialu 25 (fun w a b => aluExtz w a b) f s

/-- INS (09 R209): XD is a third source. -/
def execIns (f : FA) (s : State) : Host.Outcome State Fault Refusal :=
  pureOp (.a 0x10 26 f) (fun s =>
    let w := szBits f.sz
    s.setX f.xd (aluOut w (aluIns w (s.X f.xa) (s.opB f) (s.X f.xd)))) s

/-- SEL (09 R210): a when the predicate, inverted by the negate bit, is 1; else b, register XB. -/
def execSel (f : FA) (s : State) : Host.Outcome State Fault Refusal :=
  pureOp (.a 0x10 27 f) (fun s =>
    let w := szBits f.sz
    let v := if s.P (f.imm.setWidth 3) != f.imm.getLsbD 3 then s.X f.xa else s.X f.xb
    s.setX f.xd (aluOut w v.toNat)) s

end Sys2Proof.Machine
end

