-- ==== Sys2Proof/Machine/Vec.lean ====
section
/-!
DEFINITION. What the plane's vector families share (11 R249-R254; 22 R410): format classes, the checks at issue, footprints,
charge, and the reading and writing of elements.
-/
namespace Sys2Proof.Machine

/-! ### Format classes (11 R255) -/

/-- F: FP64, FP32, BF16, FP16. -/
def fmtF (c : Nat) : Bool := 7 ≤ c && c ≤ 10
/-- F': F without FP64. -/
def fmtF' (c : Nat) : Bool := 8 ≤ c && c ≤ 10
/-- I: the integer formats. -/
def fmtI (c : Nat) : Bool := c ≤ 6
/-- F or I. -/
def fmtFI (c : Nat) : Bool := c ≤ 10
/-- X: every format but ACC48. -/
def fmtX (c : Nat) : Bool := c ≤ 17 && c ≠ 16
/-- PRED1. -/
def fmtP (c : Nat) : Bool := c = 17

/-! ### Operands (11 R249) -/

/-- A member or exchange plane. -/
def Ten.member (t : Ten) : Bool := t.kind = 5 || t.kind = 6
/-- A data operand: plane, member or exchange plane of a format class; PRED1 may lie in a predicate plane. -/
def Ten.data (t : Ten) (cls : Nat → Bool) : Bool := (t.kind = 1 || t.kind = 3 || t.member) && t.fmt ≠ 16 && cls t.fmt
/-- Two operands conform. -/
def Ten.conforms (a b : Ten) : Bool :=
  a.h = b.h && a.w = b.w && a.lbr = b.lbr && a.lbc = b.lbc && a.slices = b.slices
/-- A predicate plane that fits a tensor. -/
def Ten.predFor (c t : Ten) : Bool :=
  c.kind = 3 && c.h = t.h && c.w = t.w && c.lbr = t.lbr && c.lbc = t.lbc && (c.slices = 1 || c.slices = t.slices)
/-- A window other than C reads no member or exchange plane (08 R188). -/
def Ten.winOk (t : Ten) (w : BitVec 4) : Bool := w = 0 || !t.member

/-- The operand that a TC field names: none for t0. -/
def State.optT (s : State) (n : BitVec 6) : Option Ten := if n = 0 then none else some (Ten.of (s.T n))

/-- Does an optional predicate plane fit a tensor? -/
def optPred (c : Option Ten) (t : Ten) : Bool := match c with
  | none => true
  | some c => c.predFor t

/-- Checks 3 of R252 over all member and exchange operands, then their places: the group, every rank, every rectangle. -/
def State.placesOf (s : State) (l : List Ten) : Res (List Place) := do
  let ms := l.filter (·.member)
  need (ms = [] ∨ s.curGroup.isSome) cGROUP 0 1
  ms.forM fun t => need ((s.curGroup.bind fun g => if t.rank < g.next then g.member t.rank else none).isSome) cRANK
  l.mapM s.place

/-- Check 4 of R252. -/
def State.powered (s : State) (l : List Ten) : Res Unit := need (l.any s.touchesOff = false) cPLANE_OFF

/-! ### Time and charge (11 R254, 22 R410) -/

/-- Elements of a format per cycle as a fraction: element-wise, multiplies of INT64, and the slow class. -/
def rateOf (slow mul : Bool) (fmt : Nat) : Nat × Nat :=
  match fmt with
  | 0 | 1 => (if slow then 8 else 32, 1)
  | 2 | 3 => (if slow then 8 else 16, 1)
  | 4 | 5 => (if slow then 4 else 8, 1)
  | 6 => (if slow || mul then 1 else 4, 1)
  | 7 => if slow then (1, 16) else (1, 1)
  | 8 => (if slow then 1 else 4, 1)
  | 9 | 10 => (if slow then 1 else 8, 1)
  | _ => (256 / fmtBits fmt, 1)

/-- S·⌈n / rate⌉. -/
def Ten.busy (t : Ten) (rate : Nat × Nat) : Nat := t.slices * ((t.n * rate.2 + rate.1 - 1) / rate.1)

/-- Busy cycles of an arithmetic op. -/
def Ten.busyArith (t : Ten) (slow mul : Bool) : Nat := t.busy (rateOf slow mul t.fmt)
/-- Busy cycles of an op at 256 bits a cycle. -/
def Ten.busyBits (t : Ten) : Nat := t.busy (256 / fmtBits t.fmt, 1)

/-- Live cells of the widest own-plot rectangle (22 R410). -/
def State.widest (s : State) (l : List Ten) : Nat := l.foldl (fun m t => max m (s.liveCells t)) 0

/-- A plane op begins: no earlier footprint conflicts, an entry is free, and the charge record lets it (07 R181; 22 R411). -/
def State.begin' (s : State) (fps : List Fp) (ops : List Ten) (weight busy : Nat) : Res State := do
  s.claim fps
  s.charge (weight * s.widest ops) busy

/-- A plane op in progress: its effect is made, and it holds its footprint until it completes (log 8). -/
def State.hold (s : State) (fps : List Fp) (poison : Bool) (work : Work := .held) (dest : BitVec 6 := 0) (val : Word := 0)
    (whole : Bool := false) : State :=
  let o : PlaneOp := { no := s.opNo + 1, pc := s.thr.pc, fps := fps, work := work, poison := poison, dest := dest
                       destVal := val, priv := s.thr.priv, root := s.thr.root, whole := whole }
  { s with opNo := s.opNo + 1, thr := { s.thr with ops := s.thr.ops ++ [o] } }

/-! ### Elements -/

/-- A source of an op: where it lies and the window it is read through. -/
structure Src where
  place : Place
  win : BitVec 4 := 0

/-- The bits of a source's element. -/
def State.src (s : State) (x : Src) (d i j : Nat) : Nat := s.elem x.place x.win d i j
/-- Was a poisoned row read for it? -/
def State.srcPoison (s : State) (x : Src) (d i j : Nat) : Bool := s.elemPoison x.place x.win d i j

/-- Elements of a grid inside a bound. -/
def Ten.bounded (t : Ten) (e : Word) : List (Nat × Nat × Nat) := t.grid.filter fun x => inBound e x.2.1 x.2.2

/-- Was the predicate row of an element poisoned? -/
def State.predPoison (s : State) (tc : Option Place) (d i j : Nat) : Bool := match tc with
  | none => false
  | some p => s.elemPoison p 0 (if p.t.slices = 1 then 0 else d) i j

/-- Is element (d, i, j) written (11 R250)? -/
def State.written (s : State) (td : Place) (tc : Option Place) (e : Word) (x : Nat × Nat × Nat) : Bool :=
  inBound e x.2.1 x.2.2 && !s.elemVoid td x.1 x.2.1 x.2.2 && s.predBit tc x.1 x.2.1 x.2.2

/-- Coordinates of in-cell element `k` of tensor `t` in the cell at row `r` and column `c` of its rectangle. -/
def Ten.inCell (t : Ten) (r c k : Nat) : Nat × Nat := (r * t.ebr + k / t.ebc, c * t.ebc + k % t.ebc)

/-- In-cell index of an element. -/
def Ten.idx (t : Ten) (i j : Nat) : Nat := i % t.ebr * t.ebc + j % t.ebc

/-- The elements that share a byte with element (i, j) in a format narrower than 8 bits, itself among them (11 R250). -/
def Ten.byteMates (t : Ten) (i j : Nat) : List (Nat × Nat) :=
  let q := 8 / fmtBits t.fmt
  let first := t.idx i j / q * q
  ((List.range q).filter fun x => first + x < t.n).map fun x => t.inCell (i / t.ebr) (j / t.ebc) (first + x)

/-- Does the write of an element read another one of its byte from a poisoned row, to write it back (11 R250)? -/
def State.writesBackPoison (s : State) (td : Place) (ws : List EWrite) : Bool :=
  fmtBits td.t.fmt < 8 && ws.any fun w =>
    s.elemPoison td 0 w.d w.i w.j
      && (td.t.byteMates w.i w.j).any fun y => !ws.any fun v => v.d = w.d && v.i = y.1 && v.j = y.2

/-- An op over the elements of TD's grid: `v` gives each written element's new bits and whether a poisoned row was read for
it; the second result says whether the op read a poisoned row, the one that it writes back included (07 R163; log 20). -/
def State.overGrid (s : State) (td : Place) (tc : Option Place) (e : Word) (v : Nat → Nat → Nat → Nat × Bool) : State × Bool :=
  let inside := td.t.grid.filter fun x => inBound e x.2.1 x.2.2 && !s.elemVoid td x.1 x.2.1 x.2.2
  let tcBad := inside.any fun x => s.predPoison tc x.1 x.2.1 x.2.2
  let ws := (inside.filter (s.written td tc e)).map fun x =>
    let r := v x.1 x.2.1 x.2.2
    (⟨x.1, x.2.1, x.2.2, r.1, r.2 || s.predPoison tc x.1 x.2.1 x.2.2⟩ : EWrite)
  (s.writeElems td ws, tcBad || ws.any (·.poison) || s.writesBackPoison td ws)

/-- What a vector op asks for: its destination, its sources with their windows, its predicate plane, further own-plot sources,
the checks of its entry, its weight and busy cycles, and each written element's bits from the placed sources. -/
structure Vop where
  td : Ten
  srcs : List (Ten × BitVec 4) := []
  tc : Option Ten := none
  extra : List Ten := []
  ok : Bool
  weight : Nat
  busy : Nat
  /-- halts and debug stops wait for its end (14 R300) -/
  whole : Bool := false
  val : State → Place → List Src → Nat → Nat → Nat → Nat × Bool

/-- A vector op: the checks of R252 in order, its wait on the scoreboard and on charge, its effect. -/
def State.vrun (s : State) (edg : BitVec 3) (o : Vop) : Res Done := do
  need (o.ok = true) cSPACE
  let data := o.td :: o.srcs.map (·.1)
  let own := o.extra ++ o.tc.toList
  let ps ← s.placesOf data
  s.powered (data ++ own)
  let fps := o.td.fp true ++ o.srcs.flatMap (fun x => x.1.fpWin s.thr.plot x.2) ++ own.flatMap (·.fp false)
  let s ← s.begin' fps (data ++ own) o.weight o.busy
  let dst := ps.headD ⟨o.td, s.thr.plot, 0⟩
  let xs := ((ps.drop 1).zip (o.srcs.map (·.2))).map fun x => (⟨x.1, x.2⟩ : Src)
  let (s', bad) := s.overGrid dst (o.tc.map fun t => ⟨t, s.thr.plot, 0⟩) (s.E edg) (o.val s dst xs)
  pure { st := s'.hold fps bad (whole := o.whole) }

/-- The bits of every source at the element's own coordinates, and whether a poisoned row was read. -/
def State.srcsAt (s : State) (xs : List Src) (d i j : Nat) : List Nat × Bool :=
  (xs.map fun x => s.src x d i j, xs.any fun x => s.srcPoison x d i j)

/-- The rounding mode and SAT of format T. -/
def tMode (f : FT) : Mode := Mode.ofCode f.rnd.toNat
/-- SAT of format T. -/
def tSat (f : FT) : Bool := f.sat = 1

/-- A result in a float or an integer format: the float op on exact values, or the integer op on exact integers with SATI or
WRAP (11 R256, R257). -/
def arith (fmt : Nat) (mode : Mode) (sat : Bool) (fop : List Val → Val) (iop : List Int → Int) (bs : List Nat) : Nat :=
  match ffmt fmt with
  | some F => F.result mode sat (fop (bs.map F.value))
  | none =>
    match intFmt fmt with
    | some (w, signed) => intResult w signed sat (iop (bs.map (intValue w signed)))
    | none => 0

end Sys2Proof.Machine
end

