-- ==== Sys2Proof/Machine/Varith.lean ====
section
/-!
DEFINITION. The VARITH family (11 R255-R259): element-wise arithmetic, logic, moves, conversion, selection and compares.
-/
namespace Sys2Proof.Machine

/-- What an element-wise form is: its FN, format class, whether TB is a source, whether TD is read, whether it writes PRED1,
its weight and time, and its effect on the bits of the sources. -/
structure Ewise where
  fn : Nat
  cls : Nat → Bool
  two : Bool := true
  acc : Bool := false
  cmp : Bool := false
  weight : Nat → Nat
  busy : Ten → Nat
  val : FT → Nat → List Nat → Nat

/-- An element-wise form of VARITH (11 R249-R253, R255). -/
def ewise (o : Ewise) (f : FT) (s : State) : Host.Outcome State Fault Refusal :=
  issue (.t 0x60 o.fn f) (fun s =>
    let td := Ten.of (s.T f.td)
    let ta := Ten.of (s.T f.ta)
    let tc := s.optT f.tc
    let srcs := (ta, f.wa) :: if o.two then [(Ten.of (s.T f.tb), f.wb)] else []
    s.vrun f.edg
      { td := td, srcs := srcs, tc := tc, weight := o.weight ta.fmt, busy := o.busy ta
        ok := td.data (if o.cmp then fmtP else o.cls) && (o.cmp || td.fmt = ta.fmt)
          && (srcs.all fun x => x.1.data o.cls && x.1.fmt = ta.fmt && x.1.conforms td && x.1.winOk x.2) && optPred tc td
        val := fun s dst xs d i j =>
          let (bs, bad) := s.srcsAt (xs ++ if o.acc then [⟨dst, 0⟩] else []) d i j
          (o.val f ta.fmt bs, bad) }) s

/-- Weight of an arithmetic form: 16 in a float format, 8 in an integer one (22 R410). -/
def arithWeight (fmt : Nat) : Nat := if fmtI fmt then 8 else 16

/-- The sources' bits, first, second and third. -/
def b0 (l : List Nat) : Nat := l.getD 0 0
/-- Second source. -/
def b1 (l : List Nat) : Nat := l.getD 1 0
/-- Third source. -/
def b2 (l : List Nat) : Nat := l.getD 2 0
/-- First value. -/
def v0 (l : List Val) : Val := l.getD 0 .nan
/-- Second value. -/
def v1 (l : List Val) : Val := l.getD 1 .nan
/-- Third value. -/
def v2 (l : List Val) : Val := l.getD 2 .nan
/-- First integer. -/
def i0 (l : List Int) : Int := l.getD 0 0
/-- Second integer. -/
def i1 (l : List Int) : Int := l.getD 1 0
/-- Third integer. -/
def i2 (l : List Int) : Int := l.getD 2 0

/-- VADD, VSUB, VMUL, VFMA: the exact result rounded once, or SATI/WRAP (11 R256, R257). -/
def arithForm (fn : Nat) (mul : Bool) (acc : Bool) (fop : Mode → List Val → Val) (iop : List Int → Int) (f : FT) (s : State) :
    Host.Outcome State Fault Refusal :=
  ewise { fn := fn, cls := fmtFI, acc := acc, weight := arithWeight, busy := fun t => t.busyArith false mul
          val := fun f fmt bs => arith fmt (tMode f) (tSat f) (fop (tMode f)) iop bs } f s

/-- VADD (11 R255). -/
def execVadd (f : FT) (s : State) : Host.Outcome State Fault Refusal :=
  arithForm 0 false false (fun m l => Val.add m (v0 l) (v1 l)) (fun l => i0 l + i1 l) f s
/-- VSUB (11 R255). -/
def execVsub (f : FT) (s : State) : Host.Outcome State Fault Refusal :=
  arithForm 1 false false (fun m l => Val.add m (v0 l) (v1 l).neg) (fun l => i0 l - i1 l) f s
/-- VMUL (11 R255). -/
def execVmul (f : FT) (s : State) : Host.Outcome State Fault Refusal :=
  arithForm 2 true false (fun _ l => (v0 l).mul (v1 l)) (fun l => i0 l * i1 l) f s
/-- VFMA (11 R255): TD is the addend. -/
def execVfma (f : FT) (s : State) : Host.Outcome State Fault Refusal :=
  arithForm 3 true true (fun m l => Val.add m ((v0 l).mul (v1 l)) (v2 l)) (fun l => i0 l * i1 l + i2 l) f s

/-- The lesser or greater of two elements (11 R256, R257). -/
def pickBits (least : Bool) (fmt : Nat) (bs : List Nat) : Nat :=
  arith fmt .rne false (fun l => Val.pick least (v0 l) (v1 l)) (fun l => if least then min (i0 l) (i1 l) else max (i0 l) (i1 l)) bs

/-- VMIN (11 R255). -/
def execVmin (f : FT) (s : State) : Host.Outcome State Fault Refusal :=
  ewise { fn := 4, cls := fmtFI, weight := arithWeight, busy := fun t => t.busyArith false false
          val := fun _ fmt bs => pickBits true fmt bs } f s
/-- VMAX (11 R255). -/
def execVmax (f : FT) (s : State) : Host.Outcome State Fault Refusal :=
  ewise { fn := 5, cls := fmtFI, weight := arithWeight, busy := fun t => t.busyArith false false
          val := fun _ fmt bs => pickBits false fmt bs } f s

/-- A form that changes only the sign of a float and takes SATI or WRAP in an integer format (11 R256, R257). -/
def signForm (fn : Nat) (fop : FFmt → Nat → Nat) (iop : Int → Int) (f : FT) (s : State) : Host.Outcome State Fault Refusal :=
  ewise { fn := fn, cls := fmtFI, two := false, weight := arithWeight, busy := fun t => t.busyArith false false
          val := fun f fmt bs => match ffmt fmt with
            | some F => fop F (b0 bs)
            | none => arith fmt .rne (tSat f) v0 (fun l => iop (i0 l)) bs } f s

/-- VABS (11 R255). -/
def execVabs (f : FT) (s : State) : Host.Outcome State Fault Refusal :=
  signForm 6 (fun F b => b % 2 ^ (F.width - 1)) (fun v => v.natAbs) f s
/-- VNEG (11 R255). -/
def execVneg (f : FT) (s : State) : Host.Outcome State Fault Refusal :=
  signForm 7 (fun F b => b ^^^ 2 ^ (F.width - 1)) (fun v => -v) f s

/-- The integer form of VDIV: DIV and DIVU at the format's width, SAT ignored (11 R257). -/
def divBits (fmt : Nat) (bs : List Nat) : Nat :=
  match intFmt fmt with
  | some (w, true) => wrapBits w (aluDiv w (intValue w true (b0 bs)) (intValue w true (b1 bs)))
  | some (w, false) => aluDivu w (b0 bs) (b1 bs)
  | none => 0

/-- VDIV (11 R255). -/
def execVdiv (f : FT) (s : State) : Host.Outcome State Fault Refusal :=
  ewise { fn := 8, cls := fmtFI, weight := fun _ => 24, busy := fun t => t.busyArith true false
          val := fun f fmt bs => if fmtI fmt then divBits fmt bs
                                 else arith fmt (tMode f) (tSat f) (fun l => (v0 l).div (v1 l)) i0 bs } f s

/-- A correctly rounded function of one operand (10 R248). -/
def funForm (fn : Nat) (cls : Nat → Bool) (g : Val → Val) (f : FT) (s : State) : Host.Outcome State Fault Refusal :=
  ewise { fn := fn, cls := cls, two := false, weight := fun _ => 24, busy := fun t => t.busyArith true false
          val := fun f fmt bs => arith fmt (tMode f) (tSat f) (fun l => g (v0 l)) i0 bs } f s

/-- VRCP (10 R248). -/
def execVrcp (f : FT) (s : State) : Host.Outcome State Fault Refusal := funForm 9 fmtF' (fun a => (Val.fin false 1 0).div a) f s
/-- VSQRT (10 R248). -/
def execVsqrt (f : FT) (s : State) : Host.Outcome State Fault Refusal := funForm 10 fmtF Val.sqrt f s
/-- VRSQ (10 R248). -/
def execVrsq (f : FT) (s : State) : Host.Outcome State Fault Refusal := funForm 11 fmtF' Val.rsqrt f s
/-- VEXP2 (10 R248). -/
def execVexp2 (f : FT) (s : State) : Host.Outcome State Fault Refusal := funForm 12 fmtF' Val.exp2 f s
/-- VLOG2 (10 R248). -/
def execVlog2 (f : FT) (s : State) : Host.Outcome State Fault Refusal := funForm 13 fmtF' Val.log2 f s

/-- A form on the bits of integers: `g` has the width and the two elements' bits (11 R257). -/
def bitForm (fn : Nat) (two : Bool) (g : Nat → Nat → Nat → Nat) (f : FT) (s : State) : Host.Outcome State Fault Refusal :=
  ewise { fn := fn, cls := fmtI, two := two, weight := fun _ => 8, busy := fun t => t.busyArith false false
          val := fun _ fmt bs => g (fmtBits fmt) (b0 bs) (b1 bs) } f s

/-- VAND (11 R255). -/
def execVand (f : FT) (s : State) : Host.Outcome State Fault Refusal := bitForm 14 true (fun _ a b => a &&& b) f s
/-- VOR (11 R255). -/
def execVor (f : FT) (s : State) : Host.Outcome State Fault Refusal := bitForm 15 true (fun _ a b => a ||| b) f s
/-- VXOR (11 R255). -/
def execVxor (f : FT) (s : State) : Host.Outcome State Fault Refusal := bitForm 16 true (fun _ a b => a ^^^ b) f s
/-- VNOT (11 R255). -/
def execVnot (f : FT) (s : State) : Host.Outcome State Fault Refusal := bitForm 17 false (fun w a _ => 2 ^ w - 1 - a) f s

/-- VSHL (11 R257): SATI(a·2^k) with SAT. -/
def execVshl (f : FT) (s : State) : Host.Outcome State Fault Refusal :=
  ewise { fn := 18, cls := fmtI, weight := fun _ => 8, busy := fun t => t.busyArith false false
          val := fun f fmt bs => arith fmt .rne (tSat f) v0 (fun l => i0 l * 2 ^ (b1 bs % fmtBits fmt)) bs } f s
/-- VSHR (11 R257): logical. -/
def execVshr (f : FT) (s : State) : Host.Outcome State Fault Refusal := bitForm 19 true (fun w a b => a / 2 ^ (b % w)) f s
/-- VSAR (11 R257): arithmetic, on signed and unsigned formats alike. -/
def execVsar (f : FT) (s : State) : Host.Outcome State Fault Refusal :=
  bitForm 20 true (fun w a b => wrapBits w (intValue w true a / 2 ^ (b % w))) f s
/-- VCLZ (11 R257). -/
def execVclz (f : FT) (s : State) : Host.Outcome State Fault Refusal := bitForm 21 false (fun w a _ => aluClz w a) f s
/-- VPOPC (11 R257). -/
def execVpopc (f : FT) (s : State) : Host.Outcome State Fault Refusal := bitForm 22 false (fun w a _ => aluPopc w a) f s

/-- VMOV (11 R259): bit for bit. -/
def execVmov (f : FT) (s : State) : Host.Outcome State Fault Refusal :=
  ewise { fn := 23, cls := fmtX, two := false, weight := fun _ => 8, busy := Ten.busyBits, val := fun _ _ bs => b0 bs } f s

/-- Elements of a scale block (07 R170). -/
def sblkOf (c : Nat) : Nat := 16 * 2 ^ c

/-- Does a scale tensor fit a tensor whose blocks it scales: one slice, or as many as the source (11 R258)? -/
def Ten.scaleFor (c t : Ten) (slices : Nat := t.slices) : Bool :=
  c.kind = 1 && c.fmt = 15 && c.rows = t.rows && c.cols = (t.cols + sblkOf t.sblk - 1) / sblkOf t.sblk
    && (c.slices = 1 || c.slices = slices)

/-- An optional scale of an element: its bits; none where no scale is named. -/
def State.scaleAt (s : State) (c : Option Ten) (sblk d i j : Nat) : Option Nat :=
  c.map fun t => s.elem ⟨t, s.thr.plot, 0⟩ 0 (if t.slices = 1 then 0 else d) i (j / sblkOf sblk)

/-- Was a poisoned row read for a scale? -/
def State.scalePoison (s : State) (c : Option Ten) (sblk d i j : Nat) : Bool :=
  match c with
  | none => false
  | some t => s.elemPoison ⟨t, s.thr.plot, 0⟩ 0 (if t.slices = 1 then 0 else d) i (j / sblkOf sblk)

/-- A value under a source scale and an output scale; a NaN scale makes it a NaN (11 R258). -/
def scaled (v : Val) (src out : Option Nat) : Val :=
  if src = some 255 ∨ out = some 255 then .nan
  else
    let v := match src with
      | some b => v.scale ((b : Int) - 127)
      | none => v
    match out with
    | some b => v.scale (127 - (b : Int))
    | none => v

/-- VCVT (11 R258): one conversion with an optional source and output scale; only the bound masks it. -/
def execVcvt (f : FT) (s : State) : Host.Outcome State Fault Refusal :=
  issue (.t 0x60 24 f) (fun s => do
    let td := Ten.of (s.T f.td)
    let ta := Ten.of (s.T f.ta)
    need (td.fmt ≠ 14 ∧ td.fmt ≠ 16) cILLEGAL_FIELD
    let sc : Option Ten := if ta.scale = 0 then none else some (Ten.of (s.T (BitVec.ofNat 6 ta.scale)))
    let oc := s.optT f.tc
    s.vrun f.edg
      { td := td, srcs := [(ta, f.wa)], extra := sc.toList ++ oc.toList, weight := 16
        busy := max (td.busyArith false false) (ta.busyArith false false)
        ok := td.data fmtX && ta.data fmtX && ta.fmt ≠ 14 && ta.conforms td && ta.winOk f.wa
          && (sc.all fun c => c.scaleFor ta) && oc.all fun c => c.scaleFor td
        val := fun s _ xs d i j =>
          let (bs, bad) := s.srcsAt xs d i j
          (convertTo td.fmt (tMode f) (tSat f) (fmtI ta.fmt)
             (scaled (elemValue ta.fmt (b0 bs)) (s.scaleAt sc ta.sblk d i j) (s.scaleAt oc td.sblk d i j)),
           bad || s.scalePoison sc ta.sblk d i j || s.scalePoison oc td.sblk d i j) }) s

/-- VSEL (11 R259): TA where TC's bit is 1 and TB where it is 0; t0 selects TA everywhere. -/
def execVsel (f : FT) (s : State) : Host.Outcome State Fault Refusal :=
  issue (.t 0x60 25 f) (fun s =>
    let td := Ten.of (s.T f.td)
    let ta := Ten.of (s.T f.ta)
    let tb := Ten.of (s.T f.tb)
    let tc := s.optT f.tc
    s.vrun f.edg
      { td := td, srcs := [(ta, f.wa), (tb, f.wb)], extra := tc.toList, weight := 8, busy := td.busyBits
        ok := ([td, ta, tb].all fun t => t.data fmtX && t.fmt = td.fmt && t.conforms td) && ta.winOk f.wa && tb.winOk f.wb
          && optPred tc td
        val := fun s _ xs d i j =>
          let c : Option Place := tc.map fun t => ⟨t, s.thr.plot, 0⟩
          let (bs, bad) := s.srcsAt xs d i j
          (if s.predBit c d i j then b0 bs else b1 bs, bad || s.predPoison c d i j) }) s

/-- A compare of two elements into one PRED1 bit (11 R259). -/
def cmpForm (fn : Nat) (ft : Val → Val → Bool) (it : Int → Int → Bool) (f : FT) (s : State) :
    Host.Outcome State Fault Refusal :=
  ewise { fn := fn, cls := fmtFI, cmp := true, weight := arithWeight, busy := fun t => t.busyArith false false
          val := fun _ fmt bs => match ffmt fmt with
            | some F => (ft (F.value (b0 bs)) (F.value (b1 bs))).toNat
            | none => match intFmt fmt with
              | some (w, sg) => (it (intValue w sg (b0 bs)) (intValue w sg (b1 bs))).toNat
              | none => 0 } f s

/-- VCEQ (11 R259). -/
def execVceq (f : FT) (s : State) : Host.Outcome State Fault Refusal := cmpForm 26 flagFeq (fun a b => a = b) f s
/-- VCNE (11 R259): 1 with a NaN. -/
def execVcne (f : FT) (s : State) : Host.Outcome State Fault Refusal :=
  cmpForm 27 (fun a b => !flagFeq a b) (fun a b => a ≠ b) f s
/-- VCLT (11 R259). -/
def execVclt (f : FT) (s : State) : Host.Outcome State Fault Refusal := cmpForm 28 flagFlt (fun a b => a < b) f s
/-- VCLE (11 R259). -/
def execVcle (f : FT) (s : State) : Host.Outcome State Fault Refusal := cmpForm 29 flagFle (fun a b => a ≤ b) f s

end Sys2Proof.Machine
end

