-- ==== Sys2Proof/Machine/Vpred.lean ====
section
/-!
DEFINITION. The VPRED family (11 R265-R267): predicate planes, their counts, and full/empty bits.
-/
namespace Sys2Proof.Machine

/-- A logic form on predicate planes (11 R265). -/
def predForm (fn nsrc : Nat) (g : List Nat → Nat) (f : FT) (s : State) : Host.Outcome State Fault Refusal :=
  issue (.t 0x63 fn f) (fun s =>
    let td := Ten.of (s.T f.td)
    let srcs := [(Ten.of (s.T f.ta), f.wa), (Ten.of (s.T f.tb), f.wb)].take nsrc
    s.vrun f.edg
      { td := td, srcs := srcs, weight := 8, busy := td.busyBits
        ok := td.data fmtP && srcs.all fun x => x.1.data fmtP && x.1.conforms td && x.1.winOk x.2
        val := fun s _ xs d i j =>
          let (bs, bad) := s.srcsAt xs d i j
          (g bs, bad) }) s

/-- PPSET (11 R265). -/
def execPpset (f : FT) (s : State) : Host.Outcome State Fault Refusal := predForm 0 0 (fun _ => fld f.imm18 0 1) f s
/-- PPAND (11 R265). -/
def execPpand (f : FT) (s : State) : Host.Outcome State Fault Refusal := predForm 1 2 (fun l => b0 l &&& b1 l) f s
/-- PPOR (11 R265). -/
def execPpor (f : FT) (s : State) : Host.Outcome State Fault Refusal := predForm 2 2 (fun l => b0 l ||| b1 l) f s
/-- PPNOT (11 R265). -/
def execPpnot (f : FT) (s : State) : Host.Outcome State Fault Refusal := predForm 3 1 (fun l => 1 - b0 l) f s

/-- What PPCNT, PPANY and PPALL give (11 R265). -/
def predCount (fn : Nat) (bs : List Nat) : Nat :=
  match fn with
  | 4 => bs.sum
  | 5 => if bs.any (· = 1) then 1 else 0
  | _ => if bs.all (· = 1) then 1 else 0

/-- The result of a counting form; a poisoned row that it reads traps ECC (11 R266). Of several, EADDR names the first in grid order,
slice by slice and row by row (DESIGN CHOICE, log 66). -/
def State.countBits (s : State) (fn : Nat) (p : Place) (e : Word) : Res Nat := do
  let xs := p.t.bounded e
  match xs.find? fun x => s.elemPoison p 0 x.1 x.2.1 x.2.2 with
  | some x => raise cECC (p.t.rowPointer x)
  | none => pure (predCount fn (xs.map fun x => s.elem p 0 x.1 x.2.1 x.2.2))

/-- An outstanding counting form performed (20 R388, R390). DESIGN CHOICE (log 66): a member or exchange operand is looked up again in the
group that is current at that moment. -/
def State.performCount (s : State) (o : Out) : Res State := do
  let t := Ten.of o.desc
  let ps ← s.placesOf [t]
  let n ← s.countBits o.fn.toNat (ps.headD ⟨t, s.thr.plot, 0⟩) o.edge
  pure (s.setX o.dest (BitVec.ofNat 64 n))

/-- PPCNT, PPANY and PPALL (11 R265, R266): with LA = 0 performed here, otherwise outstanding. -/
def countForm (fn : Nat) (f : FT) (s : State) : Host.Outcome State Fault Refusal :=
  issue (.t 0x63 fn f) (fun s => do
    let ta := Ten.of (s.T f.ta)
    need (ta.data fmtP = true) cSPACE
    let ps ← s.placesOf [ta]
    s.powered [ta]
    let s ← s.begin' (ta.fp false) [ta] 8 ta.busyBits
    let e := s.E f.edg
    if f.hd.la = 0 then do
      let n ← s.countBits fn (ps.headD ⟨ta, s.thr.plot, 0⟩) e
      pure { st := { s.setX f.xs (BitVec.ofNat 64 n) with opNo := s.opNo + 1 } }
    else
      pure { st := s.pushOut { no := 0, pc := 0, opc := 0x63, fn := BitVec.ofNat 8 fn, ea := 0, opB := 0, opE := 0
                               desc := s.T f.ta, edge := e, dest := f.xs, pair := false, ord := none, fps := ta.fp false
                               logged := false, faulted := none } }) s

/-- PPCNT (11 R266). -/
def execPpcnt (f : FT) (s : State) : Host.Outcome State Fault Refusal := countForm 4 f s
/-- PPANY (11 R266). -/
def execPpany (f : FT) (s : State) : Host.Outcome State Fault Refusal := countForm 5 f s
/-- PPALL (11 R266). -/
def execPpall (f : FT) (s : State) : Host.Outcome State Fault Refusal := countForm 6 f s

/-- Words (cell, store row, word) that hold a written element (11 R267). -/
def State.wordsOf (s : State) (p : Place) (e : Word) : List (Nat × Nat × Nat) :=
  let ws := ((p.t.bounded e).filter fun x => !s.elemVoid p x.1 x.2.1 x.2.2).flatMap fun x =>
    let (cell, k, bit) := p.t.at x.1 x.2.1 x.2.2
    (List.range ((fmtBits p.t.fmt + 31) / 32)).map fun q => (p.plot.cell cell.1 cell.2, p.storeRow k, bit / 32 + q)
  ws.eraseDups

/-- FESET and FECLR (11 R267): FESET waits for what its DEVICE release covers. -/
def tagForm (fn : Nat) (full : Bool) (f : FT) (s : State) : Host.Outcome State Fault Refusal :=
  issue (.t 0x63 fn f) (fun s => do
    let td := Ten.of (s.T f.td)
    need (td.data fmtX = true) cSPACE
    let ps ← s.placesOf [td]
    s.powered [td]
    s.waitFor (full = false ∨ s.thr.released)
    let s ← s.begin' (td.fp true) [td] 8 td.busyBits
    let s' := (s.wordsOf (ps.headD ⟨td, s.thr.plot, 0⟩) (s.E f.edg)).foldl (fun s x => s.setTag x.1 x.2.1 x.2.2 full) s
    pure { st := s'.hold (td.fp true) false }) s

/-- FESET (11 R267). -/
def execFeset (f : FT) (s : State) : Host.Outcome State Fault Refusal := tagForm 7 true f s
/-- FECLR (11 R267). -/
def execFeclr (f : FT) (s : State) : Host.Outcome State Fault Refusal := tagForm 8 false f s

end Sys2Proof.Machine
end

