-- ==== Sys2Proof/Machine/Boundary.lean ====
section
/-!
DEFINITION. Outstanding accesses performed (02 R37; 20 R388, R390), and the boundary before an instruction (20 R388, R396,
R402; 14 R294; 23 R434, R441).
-/
namespace Sys2Proof.Machine

/-- Must the stores queued before an outstanding access leave first: an RMW, a tagged form, and an access that is SC (16 R338)? -/
def Out.afterStores (o : Out) : Bool :=
  o.opc = 0x31 || (o.opc = 0x30 && 3 ≤ o.fn.toNat) || o.ord.any fun x => x.order = 4

/-- An outstanding access performed, with every check: an LD or LDZ, a tagged form, an ATOM, or a counting form (20 R388). It
waits for the stores that go before it (16 R338). -/
def State.performOut (s : State) (o : Out) : Res State := do
  s.waitFor (s.thr.sq.all (fun e => o.no < e.no || !(o.afterStores || e.sc)) = true)
  match o.opc.toNat with
  | 0x30 => if 3 ≤ o.fn.toNat then s.performTag o else s.performLoad o
  | 0x31 => s.performAtomOut o
  | _ => s.performCount o

/-- An entry of the log freed. -/
def State.dropOut (s : State) (no : Nat) : State :=
  s.withThr { s.thr with outs := s.thr.outs.filter fun u => u.no ≠ no }

/-- The location of one byte of memory or a plot, where it translates. -/
def State.byteLoc (s : State) (a : Word) : Option Loc :=
  match s.resolve { watch := false, data := false } a 1 with
  | .ok (_, nm) => (nm.locs.head?.map (·.1)).filter (· ≠ .void)
  | .error _ => none

/-- The addresses that a scalar long access names. -/
def Out.bytes (o : Out) : List Word := bytesOf o.ea (if o.pair then 16 else 2 ^ fld o.desc 0 3)

/-- The same under the root of its issue (04 R95, 09 R205). -/
def State.performOpen (s : State) (o : Out) : Res State := s.rooted o.root fun s => s.performOut o

/-- Does a long access name one of these addresses or locations, or conflict with these footprints (16 R336)? -/
def State.outMeets (s : State) (o : Out) (vas : List Word) (ls : List Loc) (fps : List Fp) : Bool :=
  fpsConflict o.fps fps
    || (o.opc ≠ 0x63#8 && o.bytes.any fun a => vas.contains a || ((s.withRoot o.root).byteLoc a).any ls.contains)

/-- The addresses and the locations that an access names as scalar bytes: none for a counting form. -/
def State.outBytes (s : State) (o : Out) : List Word × List Loc :=
  if o.opc = 0x63#8 then ([], []) else (o.bytes, o.bytes.filterMap (s.withRoot o.root).byteLoc)

/-- Does an access that is not performed hold back a younger one of its mode: an RMW every one (16 R338), another what names one of its
bytes (16 R336)? -/
def State.holdsBack (s : State) (v : Out) (no : Nat) (priv : Bool) (vas : List Word) (ls : List Loc) (fps : List Fp) : Bool :=
  (v.faulted.isSome || v.blocked) && v.no < no && v.priv == priv && (v.opc = 0x31#8 || s.outMeets v vas ls fps)

/-- A long access has met a trap and stays in the log with it, in the queue of no word: the younger accesses that it holds back, and
what those hold back, wait until it is re-issued (16 R336, R338; 20 R388). -/
def State.failOut (s : State) (o : Out) (t : Trap) : State :=
  let outs := s.thr.outs.map fun u => if u.no = o.no then { u with faulted := some t } else u
  let outs := outs.foldl (fun (l : List Out) u =>
    let b := s.outBytes u
    l ++ [{ u with blocked := u.blocked || (u.faulted.isNone && l.any fun v => s.holdsBack v u.no u.priv b.1 b.2 u.fps) }]) []
  let sq := s.thr.sq.map fun e =>
    { e with stuck := e.stuck || outs.any fun v =>
               s.holdsBack v e.no e.priv (bytesOf e.ea e.bytes.length) ((e.bytes.map (·.loc)).filter (· ≠ .void)) e.fps }
  { s with feq := s.feq.filter fun w => w.slot ≠ s.cur.toNat || w.out ≠ o.no, thr := { s.thr with outs := outs, sq := sq } }

/-- What a re-issued access waits for beside what every outstanding one does (20 R390): the handler's stores, but for those that stand
behind one which waits for a re-issue itself (log 67); what its release covers; and the scoreboard. -/
def State.reissueWaits (s : State) (o : Out) : Res Unit := do
  s.waitFor (s.thr.sq.all (fun e => !e.priv || s.thr.sqHeld e) = true)
  s.waitFor (releases o.ord = false
    ∨ (s.thr.sq.all (fun e => o.no < e.no) && s.thr.ops.all fun p => p.untilLoopEnds || o.no < p.no) = true)
  s.claim o.fps true

/-- One re-issue after ERET, oldest first (20 R390). A trap of it is taken with EPC unchanged. -/
def State.reissueOne (s : State) : State :=
  match s.thr.outs.find? (!·.priv) with
  | none => s.withThr { s.thr with reissuing := false, waiting := false }
  | some o =>
    match s.reissueWaits o >>= fun _ => s.performOut o with
    | .ok s' =>
      let s' := s'.dropOut o.no
      s'.withThr { s'.thr with waiting := false, reissuing := s'.thr.outs.any (!·.priv) }
    | .error (.trap t) => (s.failOut o t).takeTrap t
    | .error (.wait s') => s'.stall
    | .error (.stop _) => s.stall

/-- A fault of an access that no instruction has retired past is taken at its own instruction: what followed it in the sequencer
is abandoned. -/
def State.unlog (s : State) (o : Out) : State :=
  let s := s.withThr { s.thr with outs := s.thr.outs.filter (fun u => u.no ≠ o.no), pc := o.pc, ord := o.ord, wins := o.wins
                                  edgeDue := false, trapDue := none }
  match o.faulted with
  | some t => s.takeTrap t
  | none => s

/-- The trap of a logged fault, once every other access has completed or faulted (20 R384, R388). -/
def State.loggedTrap (s : State) : Option State :=
  match s.thr.loggedFault with
  | some tr => if s.thr.openOuts.isEmpty then some (s.atNext.enterTrap tr) else none
  | none => none

/-- LATE at a boundary, in user mode (14 R294): EPC names the oldest instruction not yet retired. It stays pending until it is taken, once
every open access has completed or faulted (20 R384); packets that come late until then are only counted. -/
def State.lateTrap (s : State) : Option State :=
  if s.thr.latePending && !s.thr.priv then some (if s.thr.openOuts.isEmpty then s.atNext.enterTrap ⟨cLATE, 0, 0⟩ else s.stall)
  else none

/-- Is a stop or a pre-emption asked for? -/
def State.stopAsked (s : State) : Bool :=
  s.curDbg.haltReq || s.curDbg.due.isSome || (match s.thr.preempt with
    | .flush | .save _ => true
    | _ => false)

/-- Does the re-issue that stands first wait for what may never come (17 R363, 20 R401)? -/
def State.reissueHeld (s : State) : Bool :=
  match s.thr.outs.find? (!·.priv) with
  | some o => s.outHeld o
  | none => false

/-- A back-edge that was due, tested again. -/
def State.edgeAgain (s : State) : State := (s.withThr { s.thr with edgeDue := false, waiting := false }).backEdge s.thr.pc 5

/-- What a stop, a lossless wait or neither makes of a boundary where no trap is taken (20 R402; 23 R434, R441). -/
def State.stopAt (s : State) : Option State :=
  match s.curDbg.due with
  | some r => some (s.atNext.stopHere r)
  | none =>
    if s.curDbg.haltReq then some (s.atNext.stopHere 1)
    else if s.traceWaits then some s.stall
    else none

/-- Traps that are taken at a boundary, and a back-edge that still waits; then LATE, and stops. A trap at an instruction goes before
a logged fault that came later (20 R396). -/
def State.trapAt (s : State) : Option State :=
  match s.thr.trapDue with
  | some t => some (if s.thr.trapWaits t then s.stall else s.enterTrap t)
  | none =>
    if s.thr.loggedFault.isSome then some (s.loggedTrap.getD s.stall)
    else if s.thr.edgeDue then some (if s.stopAsked then s.rewound.stall else s.stall)
    else s.lateTrap <|> s.stopAt

/-- What happens at the boundary instead of an instruction: a re-issue, a fault at its own instruction, a back-edge that is due, a
trap, a stop, a lossless wait. Behind an ORD it is taken before the ORD (02 R41). -/
def State.boundary (s : State) : Option State :=
  if s.thr.reissuing && !(s.stopAsked && s.reissueHeld) then some s.reissueOne
  else if s.thr.granted.isSome then none
  else match s.thr.unlogged with
    | some o => some (s.unlog o)
    | none =>
      if s.thr.edgeDue && s.thr.lastOpen.isNone && !s.edgeAgain.thr.edgeDue then some s.edgeAgain
      else s.trapAt

/-- After an instruction under STEP: the slot stops unless it waits or stands behind an ORD (23 R441), once its back-edge and its
trap are taken, the re-issues of an ERET are made, and what is in flight has completed or been logged (09 R223; 20 R390, R402). -/
def State.afterStep (s : State) (k : SlotNo) : State :=
  let d := NMap.get {} s.dbg k.toNat
  if d.stepReq && s.cur == k && s.thr.phase == .running && s.thr.term.isNone && !s.thr.waiting && s.thr.ord.isNone then
    if s.thr.edgeDue || s.thr.trapDue.isSome || s.thr.reissuing || s.thr.stopWaits then s.stopDue 2 else s.atNext.debugStop 2
  else s

/-! ### Where a pre-emption is taken (20 R396, R398, R402) -/

/-- Does the thread stand where a pre-emption can take it: at an instruction boundary outside any handler, not at a back-edge or a trap
that is due; an ORD before its instruction is the boundary (20 R398, R402)? -/
def State.takable (s : State) : Bool :=
  let t := s.thr
  t.phase == .running && t.term.isNone && !t.priv && !t.edgeDue && t.granted.isNone && t.trapDue.isNone && t.unlogged.isNone
    && (!t.reissuing || s.reissueHeld)

/-- Where a FLUSH can take it: the trap of a logged access that has faulted goes before (R396); a SAVE keeps the faulted entry (R398). -/
def State.flushable (s : State) : Bool := s.takable && s.thr.loggedFault.isNone

end Sys2Proof.Machine
end

