-- ==== Sys2Proof/Machine/Order.lean ====
section
/-!
DEFINITION. The ORDER family (02 R41; 17 R351; 16 R340): the ORD prefix, fences and QFENCE.
-/
namespace Sys2Proof.Machine

/-- An ORD in force for the next instruction. -/
def State.prefixed (s : State) (order scope : BitVec 3) : State :=
  s.withThr { s.thr with ord := some ⟨order, scope, s.thr.pc⟩ }

/-- ORD (02 R41): guarded off it imposes no order, and ORD_MISPLACED is still checked (R24). -/
def execOrd (f : FE) (s : State) : Host.Outcome State Fault Refusal :=
  issueWith (.e 0x32 0 f) (fun s => { st := s.prefixed 0 0 })
    (fun s => .ok { st := s.prefixed (f.sysn.extractLsb' 0 3) (f.sysn.extractLsb' 3 3) }) s

/-- FENCE (16 R340): it waits until its ordering is met. Later stores leave the queue behind the earlier ones (R337), so that only an SC
fence waits until the queue is empty (R338). -/
def execFence (f : FE) (s : State) : Host.Outcome State Fault Refusal :=
  issue (.e 0x32 1 f) (fun s => do
    let o : Option Ord := some ⟨f.sysn.extractLsb' 0 3, f.sysn.extractLsb' 3 3, s.thr.pc⟩
    s.waitFor (acquires o = false ∨ s.thr.openOuts.isEmpty)
    s.waitFor (releases o = false ∨ s.thr.settled)
    s.waitFor (f.sysn.extractLsb' 0 3 ≠ 4 ∨ s.thr.sq.isEmpty)
    pure { st := s }) s

/-- BANK commands of an item not completed on every engine: the queued ones, and calls (05 R135). -/
def State.bankBusy (s : State) (uid : Nat) : Bool :=
  s.cmdq.any (fun q => q.2.any (·.uid = uid)) || s.calls.any fun c => c.uid = uid && !c.gone

/-- QFENCE (05 R135; 17 R351). -/
def execQfence (f : FE) (s : State) : Host.Outcome State Fault Refusal :=
  issue (.e 0x32 2 f) (fun s => do
    s.waitFor (s.bankBusy s.thr.src.uid = false)
    pure { st := s }) s

end Sys2Proof.Machine
end

