-- ==== Sys2Proof/Machine/Launch.lean ====
section
/-!
DEFINITION. What an item's life shares: fault reports (20 R391-R394), launches with their completion (15 R308, R309, R325,
R326), groups (R318-R322), and the end of an item (R316; 20 R392; 23 R437).
-/
namespace Sys2Proof.Machine

/-! ### Rings in device memory (15 R306) -/

/-- A ring's control block as its fields. -/
structure RingBlk where
  base : Nat
  size : Nat
  tail : Nat
  head : Nat
  bad : Nat
  vec : Nat

/-- The control block of a ring, with the state after its read; none where it cannot be read. -/
def State.ringBlk (s : State) (root : BitVec 44) (vf : BitVec 6) (a : Nat) : Option (State × RingBlk) := do
  let (s, bs) ← s.agentRead root vf a 64
  let v := leNat bs
  some (s, ⟨bits v 0 64, bits v 64 32, bits v 96 32, bits v 128 32, bits v 160 32, bits v 208 16⟩)

/-! ### Fault reports (20 R393, R394) -/

/-- The 64 bytes of a report of the thread `t` of slot `k`. -/
def reportBytes (k : SlotNo) (t : Thread) (f : FaultRec) : List Byte :=
  leBytes 64 (f.cause.toNat + t.item.toNat * 2 ^ 32 + t.seq.toNat * 2 ^ 64 + k.toNat * 2 ^ 96 + f.pc.toNat * 2 ^ 128
    + f.addr.toNat * 2 ^ 192 + f.count.toNat * 2 ^ 256 + f.ordinal.toNat * 2 ^ 320 + f.detail.toNat * 2 ^ 352
    + f.time.toNat * 2 ^ 384 + f.cause2.toNat * 2 ^ 448 + t.vf.toNat * 2 ^ 464)

/-- A launch changed. -/
def State.mapLaunch (s : State) (id : Nat) (f : Launch → Launch) : State :=
  { s with launches := s.launches.map fun l => if l.id = id then f l else l }

/-- A report counted by its launch; FCAUSE and FITEM come from the first (15 R325). -/
def Launch.report (l : Launch) (cause : BitVec 16) (item : BitVec 32) : Launch :=
  { l with faults := l.faults + 1, first := if l.first.isNone then some (cause, item) else l.first }

/-- A report written into the partition's fault ring and counted; none while the ring has no place (20 R393; log 27). -/
def State.pushReport (s : State) (k : SlotNo) (t : Thread) (f : FaultRec) : Option State := do
  let c ← (NMap.get {} s.parts t.part.toNat).cfg
  let (s, b) ← s.ringBlk c.root c.vf c.faultBlock.toNat
  let next := (b.tail + 64) % b.size
  if next = b.head then none
  else
    let s ← s.agentWrite c.root c.vf (b.base + b.tail) (reportBytes k t f)
    let s ← s.agentWrite c.root c.vf (c.faultBlock.toNat + 12) (leBytes 4 next)
    let s := if t.tracedItem then s.emit 0x12 k.toNat t.vf.toNat f.cause.toNat else s
    some (s.mapLaunch t.src.launch fun l => l.report f.cause t.item)

/-! ### Launches (15 R308, R309, R323-R326) -/

/-- The 64 bytes of a completion record (R325). -/
def State.recordBytes (s : State) (l : Launch) (status : Nat) : List Byte :=
  let z := status = 2 || status = 3 || status = 4
  let n (v : Nat) : Nat := if z then 0 else v
  leBytes 64 (status + n l.ok.toNat * 2 ^ 32 + n l.failed.toNat * 2 ^ 64 + n l.faults.toNat * 2 ^ 96
    + n ((l.first.map (·.1.toNat)).getD 0) * 2 ^ 128 + n ((l.first.map (·.2.toNat)).getD 0) * 2 ^ 160
    + (l.start.getD 0).toNat * 2 ^ 192 + s.time.toNat * 2 ^ 256
    + n (l.energy / unitsPerUJ % 2 ^ 64) * 2 ^ 320 + n l.late.toNat * 2 ^ 384)

/-- An 8-byte AADD in a space, without effect where it cannot be made (R326). -/
def State.agentAdd (s : State) (root : BitVec 44) (vf : BitVec 6) (a : Word) (v : Word) : Option State :=
  match s.agentLocs none root vf true (bytesOf a 8) with
  | .error _ => none
  | .ok (s, ls) =>
    if ls.any fun x => s.isPoisoned x.1 then none
    else
      let old := BitVec.ofNat 64 (leNat (s.getBytes ls))
      some (s.putBytes ((ls.zip (leBytes 8 (old + v).toNat)).map fun x => ⟨x.1.1, x.2, x.1.2⟩))

/-- The configuration of a ring. -/
def State.ringCfg (s : State) (r : Nat) : Option RingCfg := (NMap.get {} s.rings r).cfg

/-- The ring's MSI-X vector raised (R326). -/
def State.raiseVec (s : State) (r : Nat) : State :=
  match s.ringCfg r with
  | none => s
  | some c =>
    match s.ringBlk c.root c.vf c.block.toNat with
    | none => s
    | some (s, b) => if b.vec = 0 then s else { s with msix := s.msix ++ [BitVec.ofNat 16 (b.vec - 1)] }

/-- A launch event of a ring's source, of a packet whose trace flag is set (23 R430). -/
def State.emitLaunch (s : State) (l : Launch) (kind payload : Nat) : State :=
  if l.flags.getLsbD 2 then s.emit kind (0xE00 + l.ring.toNat) l.vf.toNat payload else s

/-- A launch ends with a status: the completion record, then the signal, the vector and the event (R325, R326). -/
def State.finishLaunch (s : State) (l : Launch) (status : Nat) : State :=
  let s := (s.agentWrite l.root l.vf l.done.toNat (s.recordBytes l status)).getD s
  let s := if l.signal = 0 ∨ l.signal.toNat % 8 ≠ 0 then s else (s.agentAdd l.root l.vf l.signal 1).getD s
  let s := (s.raiseVec l.ring.toNat).emitLaunch l 0x53 l.seq.toNat
  { s with launches := s.launches.filter fun m => m.id ≠ l.id }

/-- Is a launch event of a ring's function held at its source (23 R434)? -/
def State.launchHeld (s : State) (l : Launch) : Bool :=
  l.flags.getLsbD 2 && (NMap.get {} s.traces l.vf.toNat).halted
    && s.events.any fun e => e.source.toNat = 0xE00 + l.ring.toNat && e.vf.toNat = l.vf.toNat

/-- An item counted in its launch (R316 step 5). -/
def Launch.count (l : Launch) (t : Thread) (failed : Bool) : Launch :=
  { l with ok := if failed then l.ok else l.ok + 1, failed := if failed then l.failed + 1 else l.failed
           energy := l.energy + t.energy, late := l.late + t.lateItem }

/-- Have all items of a launch ended? -/
def Launch.over (l : Launch) : Bool := l.ok.toNat + l.failed.toNat = l.expected

/-- The status of a launch whose items have ended (R325). -/
def Launch.status (l : Launch) : Nat := if l.cancelled then 5 else if l.failed = 0 then 0 else 1

/-- An item counted; the last one of a launch ends it. None while the launch engine waits for trace (23 R434). -/
def State.countItem (s : State) (t : Thread) (failed : Bool) : Option State :=
  match s.launches.find? (·.id == t.src.launch) with
  | none => some s
  | some l =>
    let l' := l.count t failed
    if l'.over then (if s.launchHeld l' then none else some (s.finishLaunch l' l'.status))
    else some (s.mapLaunch l.id fun _ => l')

/-! ### Groups (15 R318-R322) -/

/-- The 64 bytes of a group's record (R318). -/
def Group.bytes (g : Group) : List Byte :=
  leBytes 64 (g.gid + g.broken.toNat * 2 ^ 96 + g.xbase * 2 ^ 112 + g.xrows * 2 ^ 120 + g.cap * 2 ^ 128 + g.next * 2 ^ 144
    + g.live * 2 ^ 160 + g.arrived * 2 ^ 176 + g.phase.toNat * 2 ^ 192)

/-- The record of a group written back (R318). -/
def State.writeRecord (s : State) (g : Group) : State := (s.agentWrite g.root g.vf g.record.toNat g.bytes).getD s

/-- A group replaced, with its record. -/
def State.putGroup (s : State) (g : Group) : State := (s.setGroup g).writeRecord g

/-- The barrier completes when every member has arrived, in a group that is not broken (R321). -/
def Group.barrier (g : Group) : Group :=
  if !g.broken && 0 < g.live && g.arrived = g.live then
    { g with phase := g.phase + 1, arrived := 0, members := g.members.map fun m => { m with arrived := false } }
  else g

/-- A group without one of its members; a failure breaks it (R316 step 2, R321). -/
def Group.without (g : Group) (uid : Nat) (breaks : Bool) : Group :=
  let gone := g.members.any fun m => m.uid = uid && m.arrived
  { g with live := g.live - 1, arrived := g.arrived - gone.toNat, broken := g.broken || breaks
           members := g.members.filter fun m => m.uid ≠ uid }

/-- A member leaves: the group dissolves with its last one, and otherwise a barrier may complete (R321, R322). -/
def State.leaveGroup (s : State) (uid gid : Nat) (breaks : Bool) : State :=
  match s.group gid with
  | none => s
  | some g =>
    let g := g.without uid breaks
    if g.live = 0 then
      let s := { s with groups := s.groups.filter fun h => h.gid ≠ gid }
      (s.agentWrite g.root g.vf g.record.toNat (List.replicate 64 0)).getD s
    else s.putGroup g.barrier

/-! ### Join counters and parked items (15 R316, R317) -/

/-- An 8-byte AADD of the thread that acts, with the checks of 17 R354; `watch`: as an access of an instruction, which watchpoints see
(23 R440). -/
def State.joinAdd (s : State) (a v : Word) (watch : Bool := false) : Res State := do
  let (s, nm) ← s.resolve { kind := .atomic, store := true, align := 8, watch := watch } a 8
  let old := BitVec.ofNat 64 (leNat (s.getBytes nm.locs))
  pure (s.putBytes ((nm.locs.zip (leBytes 8 (old + v).toNat)).map fun x => ⟨x.1.1, x.2, x.1.2⟩))

/-- The word that a parked item waits for, read as its own 8-byte load (R317), with the state in which its leaf has its A bit (04
R89). -/
def State.parkWord (s : State) (p : Parked) : Res (State × Word) := do
  let (u, nm) ← (s.withThr p.thr).resolve { watch := false } p.wait 8
  pure (u.withThr s.thr, BitVec.ofNat 64 (leNat (s.getBytes nm.locs)))

/-- A queue changed. -/
def State.mapQueue (s : State) (q : Nat) (f : Queue → Queue) : State :=
  { s with queues := NMap.put {} s.queues q (f (NMap.get {} s.queues q)) }

/-- A parked item becomes eligible and joins the tail of its queue (R317). -/
def State.wake (s : State) (p : Parked) : State :=
  let mark (x : Parked) : Parked := if x.thr.src.uid = p.thr.src.uid then { x with eligible := true } else x
  let s := { s with parked := s.parked.map mark }
  s.mapQueue p.thr.src.queue.toNat fun q => { q with entries := q.entries ++ [QEntry.parked p.thr.src.uid] }

/-- The parked items that wait on a word, once a decrement has made it 0 (R317). -/
def State.wakeOn (s : State) (t : Thread) (j : Word) : State :=
  (s.parked.filter fun p => !p.eligible && p.wait == j && p.thr.root == t.root && p.thr.vf == t.vf).foldl (fun s p =>
    match s.parkWord p with
    | .ok (s, v) => if v = 0 then s.wake p else s
    | .error _ => s) s

/-! ### The end of an item (15 R316; 20 R392; 23 R437) -/

/-- Has everything that a thread issued completed (R316 step 1)? A cover map that a walker loop holds is no work. -/
def State.workDone (s : State) : Bool :=
  s.thr.sq.isEmpty && s.thr.opsDone && s.thr.copies.isEmpty && s.thr.openOuts.isEmpty && !s.bankBusy s.thr.src.uid

/-- Does a cell's store row lie in a plot? -/
def Plot.holdsRow (p : Plot) (c r : Nat) : Bool :=
  p.row ≤ cellRow c && cellRow c < p.row + p.h && p.col ≤ cellCol c && cellCol c < p.col + p.w && p.sbase ≤ r && r < p.sbase + p.d

/-- Does a location lie in a plot? -/
def Plot.holdsLoc (p : Plot) (l : Loc) : Bool := match l with
  | .cell c r _ => p.holdsRow c r
  | _ => false

/-- A plot is given up: what other members wait for on its words leaves those queues, and its forms check again (17 R362; 20 R401). -/
def State.dropWaiters (s : State) (p : Plot) : State :=
  let inside (x : FeWait) : Bool := p.holdsRow x.cell x.row
  (s.feq.filter inside).foldl State.turnAway { s with feq := s.feq.filter fun x => !inside x }

/-- Is nothing of another item on its way into the plot of item `uid`: stores in a queue, and bank sends? A plot is given up only
then (log 10). -/
def State.quiet (s : State) (uid : Nat) (p : Plot) : Bool :=
  (s.liveSlots.all fun k => (s.thread k).src.uid = uid || (s.thread k).sq.all fun e => e.bytes.all fun b => !p.holdsLoc b.loc)
    && s.sends.all fun x => (s.calls.any fun c => c.id = x.call && c.uid = uid) || x.bytes.all fun b => !p.holdsLoc b.1

/-- Is nothing of another item on its way into the plot of the thread that acts? -/
def State.plotQuiet (s : State) : Bool := s.quiet s.thr.src.uid s.thr.plot

/-- The stamp record of an item behind its STAMP event (23 R437). -/
def Thread.stamp (t : Thread) (failed : Bool) : BitVec 384 :=
  let p := t.src.past
  BitVec.ofNat 384 (t.seq.toNat + (failed.toNat * 65536 + if failed then t.endCause.toNat else 0) * 2 ^ 32
    + t.started.toNat * 2 ^ 64 + (t.occupied + p.occupied).toNat * 2 ^ 128
    + (t.energy + p.energy) / unitsPerNJ % 2 ^ 64 * 2 ^ 192 + t.lateItem.toNat * 2 ^ 256
    + ((t.saves + p.saves).toNat * 65536 + (t.flushes + p.flushes).toNat) * 2 ^ 288 + (t.traps + p.traps).toNat * 2 ^ 320)

/-- The END event and, with CTL.STAMP, the stamp record (23 R430, R437). -/
def State.emitEnd (s : State) (code : Nat) (failed : Bool) : State :=
  let s := s.emitItem 0x03 (code * 65536 + if failed then s.thr.endCause.toNat else 0)
  if s.thr.tracedItem && (s.trace s.thr.vf.toNat).ctl.getLsbD 2 then
    s.emit 0x0F s.cur.toNat s.thr.vf.toNat s.thr.item.toNat (some (s.thr.stamp failed))
  else s

/-- A slot once its item has ended or given it up: its registers stand until the next dispatch clears them (09 R204), and it keeps
where it stopped (23 R443). -/
def Thread.vacant (t : Thread) : Thread :=
  { x := t.x, xp := t.xp, p := t.p, e := t.e, t := t.t, pc := t.pc, src := { uid := t.src.uid }, lastPc := t.lastPc
    exited := t.exited }

/-- A slot without an item holds no stop and no request for one, and DBGSTAT shows none (23 R438); ATTACH and the other registers
of its block stay. -/
def Dbg.vacant (d : Dbg) : Dbg :=
  { d with stopped := false, haltReq := false, stepReq := false, due := none, pass := none, cmd := 0, stat := 15 }

/-- The item of the slot that acts gives it up. -/
def State.vacate (s : State) : State :=
  { s.withThr s.thr.vacant with dbg := NMap.put {} s.dbg s.cur.toNat s.curDbg.vacant }

/-- The matrix claims of an item released (13 R272). -/
def State.freeUnits (s : State) (uid : Nat) : State := { s with units := s.units.filter fun u => u.2.owner ≠ some uid }

/-- Steps 2 and 3 of R316: the groups are left, then J is decremented; the item fails where J cannot be. None while
a report has no place. -/
def State.leaveAll (s : State) (failed : Bool) : Option (State × Bool) :=
  let t := s.thr
  let s := t.groups.foldl (fun s m => s.leaveGroup t.src.uid m.gid failed) s
  if t.src.join = 0 then some (s, failed)
  else match s.joinAdd t.src.join (BitVec.allOnes 64) with
    | .ok s => some (s.wakeOn t t.src.join, failed)
    | .error (.trap tr) =>
      if failed then some (s, true)
      else do
        let s ← s.pushReport s.cur t { cause := tr.cause, pc := t.lastPc, addr := t.src.join, time := s.time }
        some (s.withThr { s.thr with endCause := tr.cause }, true)
    | .error _ => none

/-- The number of an END event's kind. -/
def endCode (k : EndKind) (failed : Bool) : Nat :=
  if failed then 3 else match k with
  | .exit => 0
  | .cont => 1
  | .failed => 3

/-- A draining item that has ended is reported drained (20 R397; 05 R138). -/
def State.reportDrained (s : State) (t : Thread) : State :=
  match t.preempt with
  | .drain _ => { s with reports := s.reports ++ [Report.drained t.src.uid] }
  | _ => s

/-- The item of the thread that acts ends, its work having completed (15 R316 steps 2 to 5). -/
def State.endItem (s : State) (k : EndKind) : Option State := do
  let (s, failed) ← s.leaveAll (k == .failed)
  let t := s.thr
  let s := ((s.dropWaiters t.plot).freeUnits t.src.uid).emitEnd (endCode k failed) failed
  let s ← s.countItem t failed
  some (s.reportDrained t).vacate

/-- BANK commands of an item that no engine has begun are discarded (05 R125). A call among them never completes: its record stays,
for a BKWAIT that waits for it, until the item has ended. -/
def State.dropBank (s : State) (uid : Nat) : State :=
  let drop (c : Cmd) : Bool := c.uid = uid && !c.begun
  let ids := s.cmdq.flatMap fun q => q.2.filterMap fun c =>
    match c.kind with
    | .call id => if drop c then some id else none
    | _ => none
  { s with cmdq := s.cmdq.filterMap fun q =>
             let l := q.2.filter fun c => !drop c
             if l.isEmpty then none else some (q.1, l)
           calls := s.calls.map fun c => if ids.contains c.id then { c with gone := true, left := [], fps := [] } else c }

/-- The records of an item's discarded calls go with it. -/
def State.forgetCalls (s : State) (uid : Nat) : State := { s with calls := s.calls.filter fun c => !(c.uid = uid && c.gone) }

/-- Is a copy at a unit boundary: nothing of its next unit has been moved or asked for? -/
def Copy.atBoundary (c : Copy) : Bool := c.part = 0 && !c.sectorsAsked

/-- Unstarted copies discarded, and running ones that stand at a unit boundary stopped (06 R150, R151). -/
def Thread.dropCopies (t : Thread) : Thread :=
  { t with chans := t.chans.map fun h => { h with queue := h.queue.filter fun c => !c.atBoundary } }

/-- The thread stops, what it issued and has not started is discarded, and its end is awaited (20 R392). A long access that faulted, stands
behind one that did, or waits for what may never come is given up with it, so the stores behind it leave (16 R349). -/
def State.abandon (s : State) (cause : BitVec 16) : State :=
  let going := s.thr.openOuts.filter fun o => !s.outHeld o
  let s := (s.leaveEvery.dropBank s.thr.src.uid).forgetCalls s.thr.src.uid
  let s := { s with dbg := NMap.put {} s.dbg s.cur.toNat { s.curDbg with stopped := false, due := none } }
  let t := s.thr.dropCopies
  s.withThr { t with phase := .ended .failed, endCause := cause, waiting := false, preempt := .none, wins := [], ord := none
                     edgeDue := false, edgeKept := false, trapDue := none, reissuing := false, hint := 0
                     hintUntil := none, yieldTo := [], outs := going }

/-- Has a terminated item a report that is not written yet (20 R393)? -/
def Thread.reportDue (t : Thread) : Bool := t.term.isSome && !t.reported

/-- The item of the thread that acts is terminated by the asynchronous fault it has met: it stops, and its report is written, at once or
when the fault ring has a place (20 R392, R393). -/
def State.terminate (s : State) : Option State := do
  let f ← s.thr.term
  if s.thr.phase == .idle || s.thr.reported then none
  else
    let stops := s.thr.phase != .ended .failed
    let u := if stops then s.abandon f.cause else s
    match u.pushReport u.cur u.thr f with
    | some v => some (v.withThr { v.thr with reported := true })
    | none => if stops then some u else none

/-- ITEM_TERMINATE (20 R392). -/
def execItemTerminate (s : State) : Host.Outcome State Fault Refusal := slotEvent (fun s => s.terminate) s

/-- ITEM_END (15 R316). -/
def execItemEnd (s : State) : Host.Outcome State Fault Refusal :=
  slotEvent (fun s =>
    match s.thr.phase with
    | .ended k => if s.thr.reportDue || !s.workDone || !s.plotQuiet then none else s.endItem k
    | _ => none) s

/-- A parked item ends as failed: its check found a fault (15 R317), or it has met an asynchronous one (20 R392). It leaves its
queue, where it was eligible. -/
def State.failParked (s : State) (p : Parked) (f : FaultRec) : Option State := do
  let s := { s with parked := s.parked.filter fun x => x.thr.src.uid ≠ p.thr.src.uid }
  let s := s.mapQueue p.thr.src.queue.toNat fun q => { q with entries := q.entries.filter (· ≠ .parked p.thr.src.uid) }
  let s := s.atSlot p.slot
  let occupant := s.thr
  let block := s.dbg
  let s ← s.pushReport p.slot p.thr f
  let s ← (s.withThr { p.thr with endCause := f.cause }).endItem .failed
  some { s.withThr occupant with dbg := block }

/-- PARK_CHECK (15 R317): a parked item that has met a fault ends; else its word is read. -/
def execParkCheck (s : State) : Host.Outcome State Fault Refusal :=
  event (fun s => do
    let p ← s.parked.find? fun p => p.thr.src.uid == s.input.unit
    match p.thr.term with
    | some f => s.failParked p f
    | none =>
      if p.eligible then none
      else match s.parkWord p with
        | .ok (s, v) => some (if v = 0 then s.wake p else s)
        | .error (.trap tr) => s.failParked p { cause := tr.cause, addr := p.wait, time := s.time, info := tr.info }
        | .error _ => none) s

end Sys2Proof.Machine
end

