-- ==== Sys2Proof/Machine/Alloc.lean ====
section
/-!
DEFINITION. The plot allocator (15 R313, R332; 07 R164-R167) and the start of an item's thread (15 R314; 09 R204).
-/
namespace Sys2Proof.Machine

/-! ### Places for plots -/

/-- Do two plots share a pair of cell and store row (07 R164)? -/
def Plot.meets (a b : Plot) : Bool :=
  a.row < b.row + b.h && b.row < a.row + a.h && a.col < b.col + b.w && b.col < a.col + a.w
    && a.sbase < b.sbase + b.d && b.sbase < a.sbase + a.d

/-- The clusters that a plot covers. -/
def Plot.clusters (p : Plot) : List Nat :=
  let rows := (List.range 16).filter fun r => p.row < 16 * r + 16 && 16 * r < p.row + p.h
  let cols := (List.range 16).filter fun c => p.col < 16 * c + 16 && 16 * c < p.col + p.w
  rows.flatMap fun r => cols.map fun c => r * 16 + c

/-- The cluster of a plot's north-west cell. -/
def Plot.home (p : Plot) : Nat := clusterOf (cellOf p.row p.col)

/-- Does a plot lie on the plane? -/
def Plot.onPlane (p : Plot) : Bool := p.row + p.h ≤ 256 && p.col + p.w ≤ 256 && p.sbase + p.d ≤ 256

/-- Does a plot lie on the plane, within the clusters of a partition, all of them powered (R313)? -/
def State.allowed (s : State) (part : Nat) (p : Plot) : Bool :=
  p.onPlane && match (NMap.get {} s.parts part).cfg with
  | none => false
  | some c => p.clusters.all fun k => c.clusters.contains (BitVec.ofNat 8 k) && (s.cluster k).on

/-- Every live plot, with its item (07 R164): those of slots and of parked items. -/
def State.livePlots (s : State) : List (Nat × Plot) :=
  (s.liveSlots.map fun k => ((s.thread k).src.uid, (s.thread k).plot))
    ++ s.parked.map fun p => (p.thr.src.uid, p.thr.plot)

/-- The place that a reservation holds. -/
def Reserve.plot (r : Reserve) : Plot := ⟨r.row, r.col, r.sbase, r.h, r.w, r.d⟩

/-- Every reservation. -/
def State.reserves (s : State) : List Reserve := s.parts.flatMap fun x => x.2.reserves

/-- The slots of a cluster. -/
def slotsOf (cl : Nat) : List SlotNo := (List.range 8).map fun i => BitVec.ofNat 11 (cl * 8 + i)

/-- The lowest idle slot of a cluster (R313 names none of them; log 45). -/
def State.idleSlot (s : State) (cl : Nat) : Option SlotNo := (slotsOf cl).find? fun k => (s.thread k).phase == .idle

/-- Is a place free of live plots but those of `uid`, and of reservations? -/
def State.free (s : State) (uid : Nat) (p : Plot) : Bool :=
  (s.livePlots.all fun x => x.1 = uid || !x.2.meets p) && s.reserves.all fun r => !r.plot.meets p

/-- The cells of a plot that a test takes, by plot-relative number, row-major. -/
def Plot.cellsWhere (p : Plot) (ok : Nat → Bool) : List Nat :=
  ((List.range p.h).flatMap fun r => (List.range p.w).map fun c => r * 256 + c).filter fun x => ok (p.cell (x / 256) (x % 256))

/-- The void cells of a plot, listed and in powered-off clusters (07 R167, 15 R333). -/
def State.voidCells (s : State) (p : Plot) : List Nat := p.cellsWhere s.isVoid

/-- The listed void cells of a plot. No place that the allocator takes has a powered-off cluster, so these alone tell whether a saved
plot fits, and its original place always does (07 R164, R167; log 30). -/
def State.listedVoids (s : State) (p : Plot) : List Nat := p.cellsWhere s.voids.contains

/-- Do the void cells of a place, and with `now` its matrix units, suit the plot of an entry: any for one that is new; for a saved one
its void cells at the same positions (20 R400), and units that no other live plot claims (13 R272)? -/
def State.suits (s : State) (now : Bool) (v : Option Saved) (p : Plot) : Bool :=
  v.all fun v => s.listedVoids p == v.voids && (!now || v.units.all fun u => (s.munit (p.cell (u.1 / 256) (u.1 % 256))).owner.isNone)

/-- Can a plot be granted here now: it is allowed and free, its home cluster has an idle slot, and it suits the entry (R313, 20
R400)? -/
def State.grants (s : State) (part : Nat) (v : Option Saved) (p : Plot) : Bool :=
  s.allowed part p && s.free 0 p && (s.idleSlot p.home).isSome && s.suits true v p

/-- Would a plot be granted here once its occupants have ended (R313)? -/
def State.wouldGrant (s : State) (part : Nat) (v : Option Saved) (p : Plot) : Bool :=
  s.allowed part p && (s.reserves.all fun r => !r.plot.meets p) && s.suits false v p

/-- The `k`-th place that the allocator tries: SBASE rising, then rod origins in row-major order (R313). -/
def nthPlace (h w d k : Nat) : Plot := ⟨k / 64 % 64 * 4, k % 64 * 4, k / 4096, h, w, d⟩

/-- The first place from the `k`-th on that a test takes. -/
def firstPlace (ok : Plot → Bool) (h w d : Nat) : Nat → Nat → Option Plot
  | 0, _ => none
  | n + 1, k => if ok (nthPlace h w d k) then some (nthPlace h w d k) else firstPlace ok h w d n (k + 1)

/-- The first place in the allocator's order that a test takes. -/
def findPlace (ok : Plot → Bool) (h w d : Nat) : Option Plot := firstPlace ok h w d ((257 - d) * 4096) 0

/-- Store rows that lie in a plot and not in another, cleared: zero, empty and clean (07 R166). -/
def State.clearRows (s : State) (p : Plot) (kept : Option Plot) : State :=
  let inside (p : Plot) (k : Nat) : Bool :=
    let c := k / 256
    p.row ≤ cellRow c && cellRow c < p.row + p.h && p.col ≤ cellCol c && cellCol c < p.col + p.w
      && p.sbase ≤ k % 256 && k % 256 < p.sbase + p.d
  { s with rows := s.rows.filter fun x => !(inside p x.1 && !kept.any fun q => inside q x.1) }

/-- A queue with other entries: what its head has waited counts afresh for another head (R312). -/
def Queue.hold (q : Queue) (l : List QEntry) : Queue :=
  { q with entries := l, boost := if l.head? = q.entries.head? then q.boost else 0 }

/-! ### Starting a thread (R314; 09 R204, R207; 20 R385, R386) -/

/-- The stack addresses that the partition gives a slot. -/
def slotStack (c : PartCfg) (k : SlotNo) : SlotStack := (c.stackAreas.find? fun a => a.slot == k).getD ⟨k, 0, 0, 0⟩

/-- A thread with the stack and trap addresses that its partition gives the slot. -/
def Thread.configured (t : Thread) (c : PartCfg) (k : SlotNo) : Thread :=
  let a := slotStack c k
  { t with stkbase := a.base, stklim := a.lim, tvec := c.tvec &&& 0xFFFFFFFFFFFC
           x := t.x.setIfInBounds 63 (a.base.setWidth 64), xp := t.xp.setIfInBounds 7 a.handler }

/-- A thread at its first instruction (R314): x20 the frame, x19 J, DL, its identity; all else as 09 R204 gives. -/
def newThread (r : ItemRec) (start : Word) (frame : Word) : Thread :=
  { phase := .running, src := r, pc := start, x := ((Vector.replicate 64 0).setIfInBounds 20 frame).setIfInBounds 19 r.join
    item := r.item, nitems := r.nitems, ring := r.ring, seq := r.seq, root := r.root, vf := r.vf, part := r.part
    deadline := r.dl, lateItem := r.past.late }

/-- A thread in its plot. -/
def Thread.placed (t : Thread) (p : Plot) : Thread :=
  { t with row := BitVec.ofNat 8 p.row, col := BitVec.ofNat 8 p.col, sbase := BitVec.ofNat 8 p.sbase
           plotH := p.h, plotW := p.w, plotD := p.d }

/-- Device time as a slot reads it: its die's copy (23 R427). -/
def State.slotTime (s : State) (k : SlotNo) : Word := s.dieTime.toArray.getD (dieOf (slotCluster k)) 0

/-- The thread of slot `k` replaced by one that starts there; a stop held for the former thread is none of its own. -/
def State.seat (s : State) (k : SlotNo) (t : Thread) : State :=
  let d : Dbg := NMap.get {} s.dbg k.toNat
  let s := s.setThread k { t with pcSampled := s.slotTime k }
  let d := { d with stopped := false, haltReq := false, stepReq := false, pass := none, due := none, stat := 0 }
  { s with dbg := NMap.put {} s.dbg k.toNat d }

/-- The first dispatch of a launch is timed (15 R325). -/
def State.startLaunch (s : State) (id : Nat) : State :=
  s.mapLaunch id fun l => { l with start := some (l.start.getD s.time) }

/-- DISPATCH or RESTORE with DISPATCH_ITEM of the item in a slot (23 R430). -/
def State.emitStart (s : State) (k : SlotNo) (kind : Nat) : State :=
  (s.emitSlot k kind (s.thread k).seq.toNat).emitSlot k 0x02 (s.thread k).item.toNat

/-- An item starts on an idle slot in a granted plot (R313, R314): the plot is cleared, the item is given its number. -/
def State.startItem (s : State) (r : ItemRec) (p : Plot) (k : SlotNo) : State :=
  let uid := s.uid + 1
  let began := if r.past.started = 0 then s.slotTime k else r.past.started
  let t := (newThread { r with uid := uid } r.code r.frame).placed p
  let t := { t with started := began }
  let t := match (NMap.get {} s.parts r.part.toNat).cfg with
    | some c => t.configured c k
    | none => t
  let s := ({ s with uid := uid }.clearRows p none).seat k t
  (s.startLaunch r.launch).emitStart k 0x01

/-! ### PLOTGROW and PLOTINFO (R332, R333) -/

/-- PLOTEXT (07 R165). -/
def Thread.plotExt (t : Thread) : Word := BitVec.ofNat 64 (t.plotD * 2 ^ 18 + t.plotW * 2 ^ 9 + t.plotH)

/-- The plot a PLOTGROW asks for: never smaller than the current one. -/
def Thread.grownPlot (t : Thread) (req : Word) : Plot :=
  { t.plot with
    h := max t.plotH (4 * fld req 0 8)
    w := max t.plotW (4 * fld req 8 8)
    d := max t.plotD (fld req 16 16) }

/-- Can a thread's plot be extended to a larger one? -/
def State.mayGrow (s : State) (t : Thread) (h w d : Nat) : Bool :=
  let p : Plot := { t.plot with h := h, w := w, d := d }
  s.allowed t.part.toNat p && s.free t.src.uid p

/-- Is every occupied slot of the cluster held in a PLOTGROW, with none to be granted, and the thread that acts the one that
issued its own last? -/
def State.growDeadlock (s : State) : Bool :=
  let held := (slotsOf s.cl).map s.thread |>.filter fun t => t.phase != .idle
  (held.all fun t => match t.growing with
    | some (_, h, w, d) => !s.mayGrow t h w d
    | none => false)
  && held.all fun t => (t.growing.map (·.1)).getD 0 ≤ (s.thr.growing.map (·.1)).getD 0

/-- PLOTGROW (R332). -/
def execPlotgrow (f : FB) (s : State) : Host.Outcome State Fault Refusal :=
  issue (.b 0x40 10 f) (fun s => do
    let q := s.X f.xa
    need (fld q 32 32 = 0 ∧ fld q 0 8 ≤ 64 ∧ fld q 8 8 ≤ 64 ∧ fld q 16 16 ≤ 256) cILLEGAL_FIELD
    let p := s.thr.grownPlot q
    need (p.onPlane = true) cPLOT_BOUND
    if s.mayGrow s.thr p.h p.w p.d then
      let s := s.clearRows p (some s.thr.plot)
      let s := s.withThr { s.thr.placed p with growing := none }
      pure { st := s.setX f.xd s.thr.plotExt }
    else
      let no := match s.thr.growing with
        | some x => x.1
        | none => s.stepNo
      let s := s.withThr { s.thr with growing := some (no, p.h, p.w, p.d) }
      if s.growDeadlock then raise cPLOT_DEADLOCK else .error (.wait s)) s

/-- What PLOTINFO reads (R333). -/
def State.plotInfo (s : State) (sel : Nat) (i : Word) : Word :=
  let v := s.voidCells s.thr.plot
  if sel = 0 then BitVec.ofNat 64 v.length
  else match v[i.toNat]? with
    | some x => BitVec.ofNat 64 (x % 256 * 256 + x / 256)
    | none => BitVec.allOnes 64

/-- PLOTINFO (R333). -/
def execPlotinfo (f : FB) (s : State) : Host.Outcome State Fault Refusal :=
  pureOp (.b 0x40 11 f) (fun s => s.setX f.xd (s.plotInfo f.imm32.toNat (s.X f.xa))) s

end Sys2Proof.Machine
end

