-- ==== Sys2Proof/Machine/Sched.lean ====
section
/-!
DEFINITION. Launch packets as they are validated and accepted (15 R308, R309, R323, R324) and the SCHED family but for
PLOTGROW and PLOTINFO (15 R316-R322, R328-R331).
-/
namespace Sys2Proof.Machine

/-! ### Launch packets (03 R63; 15 R308, R309) -/

/-- A launch with the fields of a packet. -/
def packetOf (id : Nat) (seq : BitVec 32) (ring : BitVec 8) (part : BitVec 4) (vf : BitVec 6) (root : BitVec 44)
    (origin : BitVec 8) (bytes : List Byte) : Launch :=
  let v := leNat bytes
  { id := id, seq := seq, ring := ring, part := part, vf := vf, root := root, origin := origin
    code := BitVec.ofNat 64 (bits v 0 64), arg := BitVec.ofNat 64 (bits v 64 64), items := BitVec.ofNat 32 (bits v 128 32)
    rodsH := bits v 160 8, rodsW := bits v 168 8, depth := bits v 176 16, prio := BitVec.ofNat 8 (bits v 192 8)
    queue := BitVec.ofNat 8 (bits v 200 8), flags := BitVec.ofNat 16 (bits v 208 16), dl := 0
    cycles := BitVec.ofNat 32 (bits v 256 32), done := BitVec.ofNat 64 (bits v 288 64)
    signal := BitVec.ofNat 64 (bits v 352 64), gen := BitVec.ofNat 32 (bits v 416 32)
    devmask := BitVec.ofNat 64 (bits v 448 64), expected := bits v 128 32
    replicated := bits v 209 1 = 1 }

/-- The devices of a mask. -/
def Launch.devices (l : Launch) : List Nat := (List.range 64).filter fun d => l.devmask.getLsbD d

/-- Is a queue enabled for a partition (R311)? -/
def State.queueFor (s : State) (q : Nat) (part : BitVec 4) : Bool :=
  let x := NMap.get ({} : Queue) s.queues q
  q < 64 && x.enabled && x.part == part

/-- Does a packet pass the table of R308? `deadline` is its deadline field. -/
def State.packetOk (s : State) (l : Launch) (deadline : Nat) : Bool :=
  l.code.toNat % 4 = 0 && l.arg.toNat % 8 = 0 && l.signal.toNat % 8 = 0 && l.items ≠ 0
    && (1 ≤ l.rodsH && l.rodsH ≤ 64) && (1 ≤ l.rodsW && l.rodsW ≤ 64) && (1 ≤ l.depth && l.depth ≤ 256)
    && l.prio.toNat ≤ 7 && s.queueFor l.queue.toNat l.part && l.flags.toNat < 16 && deadline < 32768
    && (!l.replicated || (l.devices.contains s.deviceId.toNat
          && l.devices.all fun d => d = s.deviceId.toNat || s.domain.any fun x => x.toNat = d))

/-- Does the done address take a completion record (R308)? -/
def State.doneOk (s : State) (l : Launch) : Bool :=
  l.done ≠ 0 && l.done.toNat % 64 = 0
    && match s.agentLocs none l.root l.vf true (vaRange l.done.toNat 64) with
       | .ok _ => true
       | .error _ => false

/-- Is the generation of a replicated packet one that starts (R323)? -/
def State.genOk (s : State) (l : Launch) : Bool :=
  let d := (l.gen - NMap.get 0 s.gLast l.origin.toNat).toNat
  !l.replicated || (1 ≤ d && d < 2 ^ 31)

/-- BADCNT counts and RING_BAD is emitted (R307, R308; 23 R430). -/
def State.ringBad (s : State) (r : Nat) : State :=
  match s.ringCfg r with
  | none => s
  | some c =>
    let counted : Option (State × Nat) := do
      let (s, b) ← s.ringBlk c.root c.vf c.block.toNat
      let n := (b.bad + 1) % 2 ^ 32
      let s ← s.agentWrite c.root c.vf (c.block.toNat + 20) (leBytes 4 n)
      some (s, n)
    match counted with
    | some (s, n) => s.emit 0x54 (0xE00 + r) c.vf.toNat n
    | none => s.emit 0x54 (0xE00 + r) c.vf.toNat 0xFFFFFFFF

/-- The start barrier of a replicated launch has passed: g_last is its generation (R324). -/
def State.passBarrier (s : State) (l : Launch) : State :=
  if l.replicated && l.lacks.isEmpty then { s with gLast := NMap.put 0 s.gLast l.origin.toNat l.gen } else s

/-- DL at acceptance (R309). -/
def State.dlOf (s : State) (deadline : Nat) : BitVec 16 :=
  if deadline = 0 then 0
  else
    let v := BitVec.ofNat 16 (s.netCycles / 1024 + deadline)
    if v = 0 then 1 else v

/-- The name of a ring (23 R444). -/
def State.ringName (s : State) (r : Nat) : Word := ((s.ringCfg r).map (·.name)).getD 0

/-- What an accepted replicated launch sends to the other devices of its mask (R323): the packet itself from the device whose ring it
came from, and this device's acceptance. -/
def State.sendReplicas (s : State) (l : Launch) : State :=
  if l.replicated then
    let others := (l.devices.map (BitVec.ofNat 8)).filter (· ≠ s.deviceId)
    let packets := if l.origin = s.deviceId then others.map fun d => Report.forwarded d l.id else []
    { s with reports := s.reports ++ packets ++ others.map fun d => Report.acceptance d l.origin l.gen }
  else s

/-- An accepted launch enters its queue as one entry (R309). -/
def State.enterLaunch (s : State) (l : Launch) (deadline : Nat) : State :=
  let mine (x : BitVec 8 × BitVec 32 × BitVec 8) : Bool := l.replicated && x.1 == l.origin && x.2.1 == l.gen
  let given := (s.early.filter mine).map (·.2.2)
  let others := l.devices.map (BitVec.ofNat 8) |>.filter fun d => d ≠ s.deviceId && !given.contains d
  let l := { l with dl := s.dlOf deadline, age := s.stepNo, lacks := if l.replicated then others else [] }
  let s := { s with launchId := l.id, seq := l.seq, launches := s.launches ++ [l]
                    early := s.early.filter fun x => !mine x }
  let s := s.mapQueue l.queue.toNat fun q => { q with entries := q.entries ++ [.launch l.id] }
  let s := ((s.passBarrier l).sendReplicas l).emitLaunch l 0x50 l.seq.toNat
  (s.emitLaunch l 0x51 (fld (s.ringName l.ring.toNat) 0 32)).emitLaunch l 0x52 (fld (s.ringName l.ring.toNat) 32 32)

/-- A packet validated (R308, R323): discarded, rejected with its record, or accepted with the next SEQ (R309). -/
def State.acceptPacket (s : State) (ring : BitVec 8) (part : BitVec 4) (vf : BitVec 6) (root : BitVec 44)
    (origin : BitVec 8) (bytes : List Byte) : State × Option (BitVec 32) :=
  let l := packetOf (s.launchId + 1) (s.seq + 1) ring part vf root origin bytes
  let deadline := bits (leNat bytes) 224 32
  let rejected := { l with seq := Config.noSeq s.stepNo }
  if !s.doneOk l then (s.ringBad ring.toNat, none)
  else if !s.packetOk l deadline then (s.finishLaunch rejected 2, none)
  else if !s.genOk l then (s.finishLaunch rejected 4, none)
  else (s.enterLaunch l deadline, some l.seq)

/-! ### SPAWN, CONT, PARK and LAUNCH (R328-R330) -/

/-- The memory operand of a SCHED member: its pointer lies in space 0 and passes the checks of R100 (R329). -/
def State.schedOperand (s : State) (store : Bool) (a : Word) (n : Nat) : Res (State × Named) := do
  need (spaceOf a = 0) cSPACE a
  s.resolve { store := store, reads := !store, data := !store, align := n } a n

/-- The fields of a continuation record, for an item that the thread that acts issues on queue `q` (R310, R314). -/
def State.recordOf (s : State) (q : Nat) (v : Nat) : ItemRec :=
  { code := BitVec.ofNat 64 (bits v 0 64), frame := BitVec.ofNat 64 (bits v 64 64), join := BitVec.ofNat 64 (bits v 128 64)
    rodsH := bits v 192 8, rodsW := bits v 200 8, depth := bits v 208 16, pf := BitVec.ofNat 16 (bits v 224 16)
    dl := BitVec.ofNat 16 (bits v 240 16), item := 0, nitems := 1, launch := s.thr.src.launch, ring := s.thr.ring
    seq := s.thr.seq, part := s.thr.part, vf := s.thr.vf, root := s.thr.root, queue := BitVec.ofNat 6 q, age := s.stepNo }

/-- Are a record's fields within their limits (R330)? -/
def recordFits (r : ItemRec) : Bool :=
  r.code.toNat % 4 = 0 && (1 ≤ r.rodsH && r.rodsH ≤ 64) && (1 ≤ r.rodsW && r.rodsW ≤ 64) && (1 ≤ r.depth && r.depth ≤ 256)
    && r.pf &&& 0xF8F8 = 0

/-- Records that a queue's backing area holds: launch entries need no place in it (log 45). -/
def Queue.records (q : Queue) : Nat := (q.entries.filter fun e => match e with
  | .launch _ => false
  | _ => true).length

/-- Has a queue a place for a record (R311)? -/
def State.queueRoomFor (s : State) (q : Nat) : Bool :=
  let x := NMap.get ({} : Queue) s.queues q
  x.records < x.capacity

/-- The 32 bytes of a record (03 R64; R310). -/
def ItemRec.bytes (r : ItemRec) : List Byte :=
  leBytes 32 (r.code.toNat + r.frame.toNat * 2 ^ 64 + r.join.toNat * 2 ^ 128 + r.rodsH * 2 ^ 192 + r.rodsW * 2 ^ 200 + r.depth * 2 ^ 208
    + r.pf.toNat * 2 ^ 224 + r.dl.toNat * 2 ^ 240)

/-- The physical address at which a queue's backing area takes its next record (R311): its places in turn (log 45). -/
def Queue.nextPlace (q : Queue) : Nat := q.area + 32 * (q.entered % q.capacity)

/-- The locations of a record in device memory. -/
def placeLocs (pa : Nat) : List (Loc × Nat) := (List.range 32).map fun i => (.mem (storageOf 0 (pa + i)), 0)

/-- A record enters a queue and its backing area; its launch ends only after it (R325). -/
def State.enqueue (s : State) (r : ItemRec) : State :=
  let q := NMap.get ({} : Queue) s.queues r.queue.toNat
  let r := { r with place := some q.nextPlace }
  let s := s.putBytes (((placeLocs q.nextPlace).zip r.bytes).map fun x => ⟨x.1.1, x.2, x.1.2⟩)
  let s := s.mapQueue r.queue.toNat fun q => { q with entries := q.entries ++ [.item r], entered := q.entered + 1 }
  s.mapLaunch r.launch fun l => { l with expected := l.expected + 1 }

/-- A record as its queue's backing area holds it, while that is one that SPAWN takes (R330): what somebody has made of its place beyond
those limits is not dispatched, so a thread's PC stays a multiple of 4 (02 R20; log 45). -/
def State.recordNow (s : State) (r : ItemRec) : ItemRec :=
  match r.place with
  | none => r
  | some pa =>
    let v := leNat (s.getBytes (placeLocs pa))
    let now : ItemRec := { r with
      code := BitVec.ofNat 64 (bits v 0 64), frame := BitVec.ofNat 64 (bits v 64 64), join := BitVec.ofNat 64 (bits v 128 64)
      rodsH := bits v 192 8, rodsW := bits v 200 8, depth := bits v 208 16, pf := BitVec.ofNat 16 (bits v 224 16)
      dl := BitVec.ofNat 16 (bits v 240 16) }
    if recordFits now then now else r

/-- SPAWN and CONT up to the queue (R330): the AADD is made once there is a place and the earlier stores are released. -/
def State.spawn (s : State) (f : FB) : Res State := do
  let (s, nm) ← s.schedOperand false (s.X f.xa) 32
  let r := s.recordOf f.imm16.toNat (leNat (s.drained.getBytes nm.locs))
  need (recordFits r = true) cILLEGAL_FIELD
  need (s.queueFor f.imm16.toNat s.thr.part = true) cSPACE
  let raised ← if r.join = 0 then pure s else s.joinAdd r.join 1 true
  s.waitFor (s.queueRoomFor f.imm16.toNat = true)
  s.waitFor (s.thr.released = true)
  pure (raised.enqueue r)

/-- SPAWN (R330). -/
def execSpawn (f : FB) (s : State) : Host.Outcome State Fault Refusal :=
  issue (.b 0x40 0 f) (fun s => do pure { st := ← s.spawn f }) s

/-- CONT (R330): the item then ends. -/
def execCont (f : FB) (s : State) : Host.Outcome State Fault Refusal :=
  issue (.b 0x40 1 f) (fun s => do
    let s ← s.spawn f
    pure { st := s.withThr { s.thr with phase := .ended .cont }, flow := .set }) s

/-- The item gives up its slot (R317); with a wait pointer of 0 it is eligible at once. -/
def State.parkItem (s : State) (wait frame resume : Word) : State :=
  let s := s.emitItem 0x03 (2 * 65536)
  let s := s.withThr { s.thr with lastPc := s.thr.pc }
  let p : Parked := { thr := s.thr, wait := wait, frame := frame, resume := resume, eligible := false, slot := s.cur }
  let s := { s with parked := s.parked ++ [p] }
  let s := s.vacate
  if wait = 0 then s.wake p else s

/-- PARK (R330). -/
def execPark (f : FB) (s : State) : Host.Outcome State Fault Refusal :=
  issue (.b 0x40 2 f) (fun s => do
    let wait := s.X f.xb
    need (wait.toNat % 8 = 0) cMISALIGN wait
    let s ← if wait = 0 then pure s else do
      let (s, _) ← s.schedOperand false wait 8
      pure s
    s.waitFor (s.workDone = true)
    pure { st := s.parkItem wait (s.X f.xa) (parcelTarget s.thr.pc f.imm32), flow := .set }) s

/-- The ring that a thread's LAUNCH goes to: the first ring of its partition (R330; log 46). -/
def State.launchRing (s : State) : Option RingCfg :=
  s.rings.findSome? fun x => x.2.cfg.bind fun c => if c.part = s.thr.part then some c else none

/-- LAUNCH (R330): the packet is treated as one of that ring, in its function and its space (R306). -/
def execLaunch (f : FB) (s : State) : Host.Outcome State Fault Refusal :=
  issue (.b 0x40 9 f) (fun s => do
    let (s, nm) ← s.schedOperand false (s.X f.xa) 64
    s.waitFor (s.thr.released = true)
    let bytes := s.getBytes nm.locs
    let (s, seq) := match s.launchRing with
      | some c => s.acceptPacket (c.ring.setWidth 8) s.thr.part c.vf c.root s.deviceId bytes
      | none => s.acceptPacket 0 s.thr.part s.thr.vf s.thr.root s.deviceId bytes
    let v := (seq.getD (Config.noSeq s.stepNo)).setWidth 64
    pure { st := s.setX f.xd v }) s

/-! ### Groups (R318-R322, R331) -/

/-- Where a group's record lies. -/
def State.recordLoc (s : State) (g : Group) : Option Loc :=
  match s.agentLocs none g.root g.vf false [g.record] with
  | .ok (_, ls) => ls.head?.map (·.1)
  | .error _ => none

/-- The live group whose record lies at the first of these locations (R318). -/
def State.groupAt (s : State) (locs : List (Loc × Nat)) : Option Group :=
  s.groups.find? fun g => (s.recordLoc g).isSome && s.recordLoc g == locs.head?.map (·.1)

/-- The lowest free group number, from 1 to 65,535 (log 45). -/
def State.freeGid (s : State) : Nat := ((List.range 4097).find? fun k => (s.group (k + 1)).isNone).getD 4096 + 1

/-- The thread that acts joins a group with a rank; the group becomes current (R319). -/
def Thread.enterGroup (t : Thread) (gid : Nat) (rank : BitVec 12) : Thread := { t with groups := ⟨gid, rank⟩ :: t.groups }

/-- The group becomes the current one (R319). -/
def Thread.makeCurrent (t : Thread) (gid : Nat) : Thread :=
  { t with groups := (t.groups.filter fun m => m.gid = gid) ++ t.groups.filter fun m => m.gid ≠ gid }

/-- The group that GNEW creates (R331). -/
def State.newGroup (s : State) (f : FB) : Group :=
  { gid := s.freeGid, record := s.X f.xa, root := s.thr.root, vf := s.thr.vf, part := s.thr.part, cap := f.imm16.toNat
    next := 1, live := 1, phase := 0, arrived := 0, xbase := fld f.imm32 0 8, xrows := fld f.imm32 8 8, broken := false
    members := [⟨0, s.thr.src.uid, false⟩] }

/-- GNEW (R331). -/
def execGnew (f : FB) (s : State) : Host.Outcome State Fault Refusal :=
  issue (.b 0x40 3 f) (fun s => do
    let (s, nm) ← s.schedOperand true (s.X f.xa) 64
    s.waitFor (s.thr.released = true)
    let gid := leNat ((s.getBytes nm.locs).take 2)
    need (gid = 0 ∧ (s.groupAt nm.locs).isNone = true) cGROUP 0 2
    let g := s.newGroup f
    need (g.xbase + 2 * g.xrows ≤ s.thr.plotD) cPLOT_BOUND
    need (s.thr.groups.length < 15) cGROUP 0 5
    need (s.groups.length < 4096) cGROUP 0 7
    let s := ({ s with groups := s.groups ++ [g] }.writeRecord g)
    let s := s.withThr (s.thr.enterGroup g.gid 0)
    pure { st := s.setX f.xd (BitVec.ofNat 64 g.gid) }) s

/-- A group with one more member (R331). -/
def Group.joined (g : Group) (uid : Nat) : Group :=
  { g with next := g.next + 1, live := g.live + 1, members := g.members ++ [⟨BitVec.ofNat 12 g.next, uid, false⟩] }

/-- JOIN (R331); its rank is recorded (23 R445). -/
def execJoinGroup (f : FB) (s : State) : Host.Outcome State Fault Refusal :=
  issue (.b 0x40 4 f) (fun s => do
    let a := s.X f.xa
    let (s, nm) ← s.schedOperand true a 64
    s.waitFor (s.thr.released = true)
    match s.groupAt nm.locs with
    | none => .error (.wait s)
    | some g =>
      match s.thr.groups.find? fun m => m.gid == g.gid with
      | some m =>
        let v := m.rank.setWidth 64
        let s := (s.withThr (s.thr.makeCurrent g.gid)).record v
        pure { st := s.setX f.xd v }
      | none => do
        need (g.broken = false) cGROUP 0 4
        need (g.next ≠ g.cap) cGROUP 0 3
        need (g.xbase + 2 * g.xrows ≤ s.thr.plotD) cPLOT_BOUND
        need (s.thr.groups.length < 15) cGROUP 0 5
        let v : Word := BitVec.ofNat 64 g.next
        let s := s.putGroup (g.joined s.thr.src.uid)
        let s := (s.withThr (s.thr.enterGroup g.gid (BitVec.ofNat 12 g.next))).record v
        pure { st := s.setX f.xd v }) s

/-- A member leaves a group (R321, R331). -/
def State.leaveOne (s : State) (gid : Nat) : State :=
  let s := s.leaveGroup s.thr.src.uid gid false
  s.withThr { s.thr with groups := s.thr.groups.filter fun m => m.gid ≠ gid
                         arrived := s.thr.arrived.filter fun x => x.1 ≠ gid }

/-- LEAVE (R331). -/
def execLeaveGroup (f : FB) (s : State) : Host.Outcome State Fault Refusal :=
  issue (.b 0x40 5 f) (fun s => do
    if f.xa = 0 then
      match s.thr.groups.head? with
      | none => raise cGROUP 0 1
      | some m => do
        s.waitFor (s.thr.released = true)
        pure { st := s.leaveOne m.gid }
    else do
      let a := s.X f.xa
      let (s, nm) ← s.schedOperand true a 64
      s.waitFor (s.thr.released = true)
      match s.groupAt nm.locs with
      | none => raise cGROUP 0 2
      | some g => do
        need (s.thr.groups.any (·.gid = g.gid) = true) cGROUP 0 6
        pure { st := s.leaveOne g.gid }) s

/-- A member arrives at the barrier of a group. -/
def Group.arrive (g : Group) (uid : Nat) : Group :=
  { g with arrived := g.arrived + 1, members := g.members.map fun m => if m.uid = uid then { m with arrived := true } else m }

/-- The thread departs from a barrier (R320, R321): X[XD] is the first row of the new read bank. -/
def State.depart (s : State) (g : Group) (xd : BitVec 6) : State :=
  let s := (s.withThr { s.thr with arrived := none }).emitItem 0x30 g.phase.toNat
  s.setX xd (BitVec.ofNat 64 (g.xbase + g.phase.toNat % 2 * g.xrows))

/-- GBAR (R321, R331): it arrives once, and waits until the phase has risen. -/
def execGbar (f : FB) (s : State) : Host.Outcome State Fault Refusal :=
  issue (.b 0x40 6 f) (fun s =>
    match s.curGroup with
    | none => raise cGROUP 0 1
    | some g =>
      match s.thr.arrived.filter fun x => x.1 = g.gid with
      | none => do
        need (g.broken = false) cGROUP 0 4
        s.waitFor (s.thr.released = true)
        let h := (g.arrive s.thr.src.uid).barrier
        if h.phase = g.phase then
          .error (.wait ((s.setGroup h).withThr { s.thr with arrived := some (g.gid, g.phase) }))
        else pure { st := (s.putGroup h).depart h f.xd }
      | some x => do
        if g.phase ≠ x.2 then pure { st := s.depart g f.xd }
        else do
          need (g.broken = false) cGROUP 0 4
          .error (.wait s)) s

/-- GRANK (R331); recorded (23 R445). -/
def execGrank (f : FB) (s : State) : Host.Outcome State Fault Refusal :=
  issue (.b 0x40 7 f) (fun s =>
    match s.thr.groups.head? with
    | none => raise cGROUP 0 1
    | some m =>
      let v := m.rank.setWidth 64
      .ok { st := (s.record v).setX f.xd v }) s

/-- GSIZE (R331). -/
def execGsize (f : FB) (s : State) : Host.Outcome State Fault Refusal :=
  issue (.b 0x40 8 f) (fun s =>
    match s.curGroup with
    | none => raise cGROUP 0 1
    | some g => .ok { st := s.setX f.xd (BitVec.ofNat 64 g.next) }) s

end Sys2Proof.Machine
end

