-- ==== Sys2Proof/Machine/Sys.lean ====
section
/-!
DEFINITION. The system registers as they read and take writes (09 R205-R207; 07 R165; 04 R95, R96; 20 R385-R389, R397;
14 R294; 19 R371; 22 R413, R418, R419; 23 R428, R439). Which numbers exist and who may reach them is `sysAccess`.
-/
namespace Sys2Proof.Machine

/-- Entry `n` of the operand log, oldest first (20 R389). -/
def Thread.logEntry (t : Thread) (n : Nat) : Option Out := (t.outs.filter (·.logged))[n]?

/-- The entries that OPLDROP and DROPLOG drop (20 R389, 23 R438): bit n names entry n. -/
def Thread.dropLog (t : Thread) (mask : Word) : Thread :=
  let log := t.outs.filter (·.logged)
  let dropped := (log.zip (List.range 8)).filterMap fun x => if mask.getLsbD x.2 then some x.1.no else none
  { t with outs := t.outs.filter fun o => !dropped.contains o.no }

/-- OPLAn (20 R389). -/
def Thread.opla (t : Thread) (n : Nat) : Word := ((t.logEntry n).map (·.ea)).getD 0
/-- OPLPn (20 R389): V, F and the PC. -/
def Thread.oplp (t : Thread) (n : Nat) : Word :=
  match t.logEntry n with
  | none => 0
  | some o => BitVec.ofNat 64 (2 ^ 63 + o.faulted.isSome.toNat * 2 ^ 62 + o.pc.toNat % 2 ^ 48)
/-- OPLCn (20 R389): XD, OPC, FN and the cause of a faulted entry. -/
def Thread.oplc (t : Thread) (n : Nat) : Word :=
  match t.logEntry n with
  | none => 0
  | some o =>
    let cause := match o.faulted with
      | some tr => tr.cause.toNat
      | none => 0
    BitVec.ofNat 64 (o.dest.toNat * 2 ^ 32 + o.opc.toNat * 2 ^ 24 + o.fn.toNat * 2 ^ 16 + cause)

/-- GROUPS (09 R206). -/
def Thread.groupsWord (t : Thread) : Word :=
  match t.groups with
  | [] => 0
  | m :: r => BitVec.ofNat 64 ((r.length + 1) % 16 * 2 ^ 28 + m.rank.toNat * 2 ^ 16 + m.gid % 65536)

/-- LATECNT (14 R294). -/
def Thread.lateWord (t : Thread) : Word :=
  BitVec.ofNat 64 (t.ltrap.toNat * 2 ^ 63 + t.maxlate.toNat * 2 ^ 32 + t.latecnt.toNat)

/-- OWSTATE (19 R371). -/
def Walker.stateWord (o : Walker) : Word :=
  BitVec.ofNat 64 (o.act.toNat * 2 ^ 63 + o.pending.length % 128 * 2 ^ 56 + o.decls.length % 8 * 2 ^ 53
    + o.wmask.toNat * 2 ^ 32 + o.iter.toNat)
/-- OWLENw (19 R371). -/
def OwWin.lenWord (o : OwWin) : Word := BitVec.ofNat 64 (o.bitoff.toNat * 2 ^ 40 + o.gran.toNat * 2 ^ 36 + o.len.toNat)
/-- OWCOUNT (19 R371). -/
def Walker.countWord (o : Walker) : Word := o.supp ++ o.skip

/-- CLCTL bit for bit (22 R408). -/
def Cluster.clctl (k : Cluster) : Word :=
  BitVec.ofNat 64 (k.cap.toNat * 2 ^ 40 + k.refill.toNat * 2 ^ 24 + k.point.toNat * 32 + k.rail.toNat * 2 + k.on.toNat)

/-- The scroll that stands between its steps: its PC and what EINFO shows (08 R194). R194 speaks of one scroll; of several that do not
conflict the model shows the oldest unfinished one (DESIGN CHOICE, log 23). -/
def Thread.scrollInfo (t : Thread) : Option (Word × Word) :=
  t.ops.findSome? fun o => match o.work with
    | .scroll sc =>
      if sc.dy = 0 ∧ sc.dx = 0 then none
      else some (o.pc, BitVec.ofNat 64 (2 ^ 32 + wrapBits 16 sc.dx * 2 ^ 16 + wrapBits 16 sc.dy))
    | _ => none

/-- The scroll that a stop holds between its steps (08 R194; log 23). -/
def State.stoppedScroll (s : State) : Option (Word × Word) := if s.curDbg.stopped then s.thr.scrollInfo else none

/-- A member of a family of registers numbered from `base`. -/
def regN {α : Type} (v : Vector α k) (d : α) (n base : Nat) : α := v.toArray.getD (n - base) d

/-- A system register of the thread that acts, as it reads. -/
def State.sysRead (s : State) (n : Nat) : Word :=
  let t := s.thr
  let k := s.cluster s.cl
  if n = 0x000 then t.item.setWidth 64
  else if n = 0x001 then t.nitems.setWidth 64
  else if n = 0x002 then BitVec.ofNat 64 (t.ring.toNat * 2 ^ 32 + t.seq.toNat)
  else if n = 0x003 then s.cur.setWidth 64
  else if n = 0x004 then BitVec.ofNat 64 (dieOf s.cl * 256 + s.cl)
  else if n = 0x005 then BitVec.ofNat 64 (t.sbase.toNat * 2 ^ 16 + t.col.toNat * 2 ^ 8 + t.row.toNat)
  else if n = 0x006 then BitVec.ofNat 64 (t.plotD * 2 ^ 18 + t.plotW * 2 ^ 9 + t.plotH)
  else if n = 0x007 then t.groupsWord
  else if n = 0x100 then t.stkbase.setWidth 64
  else if n = 0x101 then t.stklim.setWidth 64
  else if n = 0x102 then t.fewait.setWidth 64
  else if n = 0x103 then t.deadline.setWidth 64
  else if n = 0x200 then t.tvec.setWidth 64
  else if n = 0x201 then match s.stoppedScroll with
    | some x => x.1
    | none => t.epc.setWidth 64
  else if n = 0x202 then t.ecause.setWidth 64
  else if n = 0x203 then t.estat.setWidth 64
  else if n = 0x204 then t.eaddr
  else if n = 0x205 then match s.stoppedScroll with
    | some x => x.2
    | none => t.einfo
  else if 0x210 ≤ n ∧ n ≤ 0x217 then t.opla (n - 0x210)
  else if 0x218 ≤ n ∧ n ≤ 0x21F then t.oplp (n - 0x218)
  else if 0x220 ≤ n ∧ n ≤ 0x227 then t.oplc (n - 0x220)
  else if n = 0x229 then t.drainbud.setWidth 64
  else if 0x230 ≤ n ∧ n ≤ 0x237 then t.x.toArray.getD (n - 0x230 + 56) 0
  else if n = 0x240 then BitVec.ofNat 64 (t.root.toNat * 2 ^ 12 + t.vf.toNat * 2 ^ 6)
  else if n = 0x300 then t.cyc
  else if n = 0x301 then s.dieTime.toArray.getD (dieOf s.cl) 0
  else if n = 0x302 then k.balance.signExtend 64
  else if n = 0x303 then BitVec.ofNat 64 (t.energy / unitsPerNJ)
  else if n = 0x304 then t.lateWord
  else if n = 0x305 then k.sample
  else if n = 0x400 then t.ow.stateWord
  else if n = 0x401 then t.ow.countWord
  else if n = 0x402 then t.ow.perf.setWidth 64
  else if 0x408 ≤ n ∧ n ≤ 0x40F then (regN t.ow.wins {} n 0x408).base.setWidth 64
  else if 0x410 ≤ n ∧ n ≤ 0x417 then (regN t.ow.wins {} n 0x410).lenWord
  else if 0x510 ≤ n ∧ n ≤ 0x513 then regN t.watchA 0 n 0x510
  else if 0x518 ≤ n ∧ n ≤ 0x51B then watchcRead (regN t.watchC 0 n 0x518)
  else if 0x520 ≤ n ∧ n ≤ 0x523 then (regN t.bp 0 n 0x520).setWidth 64
  else if n = 0x600 then k.clctl
  else 0

/-- Does a TLBINV of this tag name a page (04 R96)? -/
def invNames (all : Bool) (va base level : Nat) : Bool :=
  all || (base / 65536 ≤ va / 65536 && va / 65536 < (base + levelSpan level) / 65536)

/-- Is an access translated by an entry that a TLBINV drops still outstanding: a queued store, or a region of a call that
has not ended on its engine (04 R96; 05 R112)? -/
def State.invOutstanding (s : State) (root : BitVec 44) (vf : BitVec 6) (all : Bool) (va : Nat) : Bool :=
  (s.liveSlots.any fun k =>
    let t := s.thread k
    t.vf == vf && t.sq.any fun e => e.leaves.any fun l => l.1 == root && invNames all va l.2.1 l.2.2)
  || s.calls.any fun c => c.root == root && c.vf == vf && c.parts.any fun p =>
    c.left.contains p.engine && p.regions.any fun r => r.len ≠ 0 && invNames all va r.leafBase r.leafLevel

/-- A write to TLBINV (04 R96): it releases the thread's earlier stores, then drops the entries. -/
def State.writeTlbinv (s : State) (v : Word) : Res State := do
  let all := v.getLsbD 63
  let dev := v.getLsbD 62
  let va := fld v 16 32 * 65536
  s.waitFor s.thr.released
  s.waitFor (dev = false ∨ s.invOutstanding s.thr.root s.thr.vf all va = false)
  pure (s.tlbInv s.cl s.thr.root s.thr.vf all dev va)

/-- The thread with PTBASE's ROOT written; VF is ignored (04 R95). -/
def Thread.setPtbase (t : Thread) (v : Word) : Thread := { t with root := v.extractLsb' 12 44 }
/-- The thread with LATECNT written (14 R294). -/
def Thread.setLatecnt (t : Thread) (v : Word) : Thread := { t with ltrap := v.getLsbD 63, maxlate := 0, latecnt := 0 }
/-- WATCHC's writable bits (23 R439). -/
def watchcMask (v : Word) : Word := v &&& 0xE00000000000000F
/-- BP's writable bits (23 R439). -/
def bpMask (v : Word) : BitVec 48 := v.setWidth 48 &&& 0xFFFFFFFFFFFD

/-- A system register without a wait or an effect beyond its own bits, written; other numbers change nothing. -/
def Thread.sysSet (t : Thread) (n : Nat) (v : Word) : Thread :=
  if n = 0x100 then { t with stkbase := v.setWidth 48 }
  else if n = 0x101 then { t with stklim := v.setWidth 48 }
  else if n = 0x102 then { t with fewait := v.setWidth 32 }
  else if n = 0x103 then { t with deadline := v.setWidth 16 }
  else if n = 0x200 then { t with tvec := v.setWidth 48 &&& 0xFFFFFFFFFFFC }
  else if n = 0x201 then { t with epc := v.setWidth 48 }
  else if n = 0x228 then t.dropLog v
  else if n = 0x229 then { t with drainbud := v.setWidth 32 }
  else if 0x230 ≤ n ∧ n ≤ 0x237 then { t with x := t.x.setIfInBounds (n - 0x230 + 56) v }
  else if n = 0x304 then t.setLatecnt v
  else if 0x510 ≤ n ∧ n ≤ 0x513 then { t with watchA := t.watchA.setIfInBounds (n - 0x510) v }
  else if 0x518 ≤ n ∧ n ≤ 0x51B then { t with watchC := t.watchC.setIfInBounds (n - 0x518) (watchcMask v) }
  else if 0x520 ≤ n ∧ n ≤ 0x523 then { t with bp := t.bp.setIfInBounds (n - 0x520) (bpMask v) }
  else t

/-- A system register written (09 R205). PTBASE is the root of later accesses alone: those issued before keep theirs (04 R95). -/
def State.sysWrite (s : State) (n : Nat) (v : Word) : Res State :=
  if n = 0x241 then s.writeTlbinv v
  else if n = 0x240 then .ok (s.withThr (s.thr.setPtbase v))
  else .ok (s.withThr (s.thr.sysSet n v))

/-- Registers whose values depend on timing or placement and are recorded (23 R445). -/
def recorded (n : Nat) : Bool :=
  n = 0x300 || n = 0x301 || n = 0x302 || n = 0x303 || n = 0x304 || n = 0x305 || n = 0x003 || n = 0x004 || n = 0x005

/-- A value recorded when its register is one of those (23 R445). -/
def State.recordReg (s : State) (n : Nat) (v : Word) : State := if recorded n then s.record v else s

end Sys2Proof.Machine
end

