-- ==== Sys2Proof/Machine/Arrive.lean ====
section
/-!
DEFINITION. What reaches a thread or memory of its own accord: accesses and stores as they are performed, walks, packets,
expired waits, register writes as events, undecodable parcels (02 R37, R43; 04 R89-R96; 14 R294, R295; 16 R337; 17 R363;
20 R388), and what agents outside the threads do to memory and links (04 R78, R90; 14 R303, R305; 16 R334, R344, R345;
20 R404).
-/
namespace Sys2Proof.Machine

/-! ### Accesses of a thread performed -/

/-- A long access has met a trap: it stays logged with it, and in a thread that has ended, which takes no trap any more, it is given up (20
R388, R392). -/
def State.meetsTrap (s : State) (o : Out) (t : Trap) : State :=
  match s.thr.phase with
  | .ended _ => s.dropOut o.no
  | _ => s.failOut o t

/-- A save is asked for (20 R397). -/
def Thread.saveAsked (t : Thread) : Bool := match t.preempt with
  | .save _ => true
  | _ => false

/-- LOAD_COMPLETE (02 R37; 20 R388): the oldest open access of the slot is performed, or faults and stays logged, or joins the queue
of its word (17 R362); that of an item which has failed waits for nothing (20 R392). A stopped slot's are performed once it is resumed,
or for a SAVE (17 R363; 20 R398; 23 R442). -/
def execLoadComplete (s : State) : Host.Outcome State Fault Refusal :=
  slotEvent (fun s => do
    let o ← s.thr.openOuts.head?
    if s.curDbg.stopped && !s.thr.saveAsked then none
    else match s.performOpen o with
      | .ok s => some (s.dropOut o.no)
      | .error (.trap t) => some (s.meetsTrap o t)
      | .error (.wait s') =>
        if s.thr.phase == .ended .failed && (s'.feq ≠ s.feq || s.outHeld o) then some (s.dropOut o.no)
        else if s'.feq = s.feq then none else some s'
      | .error (.stop _) => none) s

/-- May a store of a thread that is saved go before the open accesses that stand before it: the oldest leaves its queue and is re-issued
after the restore, and none of them is an RMW or names a byte of the store (16 R336, R338; 17 R363; 20 R398; log 69)? -/
def State.savedPast (s : State) (e : SqEntry) : Bool :=
  s.thr.saveAsked && s.thr.openOuts.head?.any s.outHeld
    && s.thr.openOuts.all fun o => e.no < o.no
      || !(o.opc = 0x31#8 || s.outMeets o (bytesOf e.ea e.bytes.length) ((e.bytes.map (·.loc)).filter (· ≠ .void)) e.fps)

/-- A queued store to a peer that cannot be reached, or gives no answer, ends the item (14 R304; 20 R392). -/
def State.failStore (s : State) (e : SqEntry) : State :=
  { s with thr := { s.thr with sq := s.thr.sq.filter fun u => u.no ≠ e.no } }.failNow
    { cause := cNOTMAPPED, pc := e.pc, addr := e.ea, info := 4 }

/-- STORE_LEAVES_QUEUE (16 R337): the oldest store, unless it is held back, is performed after every access issued before it; one
of which a peer cannot be reached ends the item (04 R91; 14 R304; 20 R392). -/
def execStoreLeavesQueue (s : State) : Host.Outcome State Fault Refusal :=
  slotEvent (fun s => do
    let e ← s.thr.sq.head?
    if s.thr.sqStuck e || (s.thr.openOuts.any (fun o => o.no < e.no) && !s.savedPast e) then none
    else if e.peers.any fun p => !s.peerUp p then some (s.failStore e)
    else some ((s.withThr { s.thr with sq := s.thr.sq.filter fun u => u.no ≠ e.no }).putBytes e.bytes)) s

/-- PAGE_WALK (04 R89, R92, R93): a walk for cluster `unit` finishes and the caches take its leaf. `value` holds the ROOT
(bits 43-0), the VF (49-44), the VA (97-50) and whether it is for a store (98). A failed walk faults the requests that ask again. -/
def execPageWalk (s : State) : Host.Outcome State Fault Refusal :=
  event (fun s =>
    let v := s.input.value
    let root : BitVec 44 := v.extractLsb' 0 44
    let vf : BitVec 6 := v.extractLsb' 44 6
    let va := fld v 50 48
    let store := v.getLsbD 98
    let cl := s.input.unit % 256
    match s.lookup (some cl) root vf va store with
    | .ok x => some (s.commitLeaf (some cl) root vf store x)
    | .error _ => none) s

/-! ### Boundaries -/

/-- Does the slot stand at an instruction boundary where a trap of its own can be taken? -/
def State.atBoundary (s : State) : Bool :=
  s.thr.phase == .running && s.thr.term.isNone && !s.curDbg.stopped && !s.thr.reissuing && !s.thr.edgeDue && s.thr.granted.isNone
    && s.thr.trapDue.isNone && s.thr.unlogged.isNone

/-- LOGGED_FAULT_TRAP (20 R388). -/
def execLoggedFaultTrap (s : State) : Host.Outcome State Fault Refusal :=
  slotEvent (fun s => if s.atBoundary then s.loggedTrap else none) s

/-- LATE_TRAP (14 R294), once every open access has completed or faulted (20 R384). -/
def execLateTrap (s : State) : Host.Outcome State Fault Refusal :=
  slotEvent (fun s => if s.atBoundary && s.thr.loggedFault.isNone && s.thr.openOuts.isEmpty then s.lateTrap else none) s

/-- The word that a form which waits at issue waits on: a tagged form's, or the group record of a JOIN (17 R363, 15 R331). -/
def State.awaited (s : State) : Option Word :=
  match s.fetch with
  | .instr i =>
    match i.form with
    | .m 0x30 _ f => if s.feq.any fun w => w.slot = s.cur.toNat && w.out = 0 then some (s.ea f) else none
    | .b 0x40 4 f => if s.thr.waiting then some (s.X f.xa) else none
    | _ => none
  | _ => none

/-- The long access of the slot that waits in the queue of a word. -/
def State.waitingOut (s : State) : Option Out :=
  s.thr.outs.find? fun o => s.feq.any fun w => w.slot = s.cur.toNat && w.out = o.no

/-- FE_TIMEOUT (17 R363, 15 R331): the wait has lasted the limit of FEWAIT. A long access that waits faults, in a re-issue with the trap
taken at once (20 R390); a form that waits at issue traps, unless a trap is due already. -/
def execFeTimeout (s : State) : Host.Outcome State Fault Refusal :=
  slotEvent (fun s =>
    if s.thr.fewait = 0 || s.thr.phase == .idle then none
    else match s.waitingOut with
      | some o =>
        let t : Trap := ⟨cFE_TIMEOUT, o.ea, 0⟩
        let s := { s with feq := s.feq.filter fun w => w.slot ≠ s.cur.toNat || w.out ≠ o.no }
        some (if s.thr.reissuing then (s.failOut o t).takeTrap t else s.meetsTrap o t)
      | none =>
        if s.thr.granted.isSome || s.thr.phase != .running || s.thr.trapDue.isSome then none
        else s.awaited.map fun a => s.takeTrap ⟨cFE_TIMEOUT, a, 0⟩) s

/-- ILLEGAL_ENCODING (02 R35, R43): what a LEN of 0b11, an unassigned OPC or an unassigned FN traps. -/
def execIllegalEncoding (s : State) : Host.Outcome State Fault Refusal :=
  .next (s.takeTrap (match s.parcelAt s.thr.pc with
    | none => ⟨cFETCH_BOUND, s.thr.pc, 0⟩
    | some p => if p.extractLsb' 0 2 = 3 then ⟨cILLEGAL_FORMAT, 0, 0⟩ else ⟨cILLEGAL_OP, 0, 0⟩))

/-! ### Packets (14 R293-R295) -/

/-- NOW16, in units of 1,024 network cycles (14 R293). -/
def State.now16 (s : State) : BitVec 16 := BitVec.ofNat 16 (s.netCycles / 1024)

/-- A late packet counted by the thread it charges (14 R294). -/
def Thread.late (t : Thread) (by' : BitVec 16) : Thread :=
  { t with latecnt := satInc t.latecnt, maxlate := if t.maxlate < by' then by' else t.maxlate
           lateItem := t.lateItem + 1, latePending := t.latePending || t.ltrap }

/-- The partition that a packet's destination belongs to, if it belongs to one (14 R295). -/
def State.destPart (s : State) (d : PacketDest) : Option (BitVec 4) :=
  match d with
  | .cluster c => (s.parts.find? fun p => p.2.cfg.any fun g => g.clusters.contains c).map fun p => BitVec.ofNat 4 p.1
  | .engine e => (s.engine e).part
  | .port n => s.portPart.find n.toNat

/-- The number of a network. -/
def networkNo : Network → Nat
  | .req => 0 | .rsp => 1 | .pln => 2 | .sum => 3 | .cmd => 4 | .trc => 5

/-- A packet sent from a place with a deadline (14 R293). -/
def State.send (s : State) (p : Packet) (src : PacketDest) (uid : Nat) (part : BitVec 4) (dl : BitVec 16) : State :=
  { s with flightNo := s.flightNo + 1, flights := s.flights ++ [⟨s.flightNo + 1, p, src, uid, part, dl⟩] }

/-- A packet that is late at its last router is counted by its thread (14 R294). -/
def State.landed (s : State) (f : Flight) : State :=
  let late := s.now16 - f.deadline
  if f.deadline ≠ 0 ∧ late ≠ 0 ∧ late.toNat < 32768 then
    match s.slotOfUid f.uid with
    | some k => (s.setThread k ((s.thread k).late late)).emitSlot k 0x13 late.toNat
    | none => { s with parked := s.parked.map fun p => if p.thr.src.uid = f.uid then { p with thr := p.thr.late late } else p }
  else s

/-- Is an older packet from the same place to the same one on its way on the network: packets arrive in the order sent (14 R295)? -/
def State.behind (s : State) (f : Flight) : Bool :=
  s.flights.any fun g => g.no < f.no && g.packet.network == f.packet.network && g.src == f.src && g.packet.dest == f.packet.dest

/-- PACKET_ARRIVAL (14 R293-R295). With a packet and `unit` 0, the thread of the packet's slot sends it, with DEADLINE's DL. With the
number of a packet on its way that no older one stands before, that packet reaches its last router: it is dropped and counted when its destination belongs to another
partition, else it arrives, and a packet of the payload is the response, with the request's DL. -/
def execPacketArrival (s : State) : Host.Outcome State Fault Refusal :=
  event (fun s =>
    let n := s.input.unit
    match s.input.payload, s.flights.find? fun f => f.no = n with
    | .packet p, none =>
      let t := s.thread p.slot
      if n ≠ 0 || t.phase = .idle then none else some (s.send p (.cluster (BitVec.ofNat 8 (slotCluster p.slot))) t.src.uid t.part t.deadline)
    | pay, some f =>
      if s.behind f then none
      else
      let s := { s with flights := s.flights.filter fun g => g.no ≠ n }
      if (s.destPart f.packet.dest).any (· ≠ f.part) then
        let k := networkNo f.packet.network * 256 + f.packet.router.toNat
        some { s with isolation := NMap.put 0 s.isolation k (NMap.get 0 s.isolation k + 1) }
      else
        let s := s.landed f
        match pay with
        | .packet p => some (s.send { p with slot := f.packet.slot } f.packet.dest f.uid f.part f.deadline)
        | _ => some s
    | _, none => none) s

/-! ### Register writes as events -/

/-- The value of an event as a register takes it. -/
def Input.word (i : Input) : Word := i.value.setWidth 64

/-- A result that has not to wait. -/
def Res.toOption {α : Type} : Res α → Option α
  | .ok v => some v
  | .error _ => none

/-- TLBINV_VA (04 R96): a write of TLBINV without ALL. -/
def execTlbinvVa (s : State) : Host.Outcome State Fault Refusal :=
  slotEvent (fun s => Res.toOption (s.writeTlbinv (Input.word s.input &&& ~~~(1#64 <<< 63)))) s

/-- TLBINV_ALL (04 R96): a write of TLBINV with ALL. -/
def execTlbinvAll (s : State) : Host.Outcome State Fault Refusal :=
  slotEvent (fun s => Res.toOption (s.writeTlbinv (Input.word s.input ||| 1#64 <<< 63))) s

/-- PTBASE_WRITE (04 R95): what SYSW does. -/
def execPtbaseWrite (s : State) : Host.Outcome State Fault Refusal :=
  slotEvent (fun s => Res.toOption (s.sysWrite 0x240 (Input.word s.input))) s

/-- LATECNT_WRITE (14 R294). -/
def execLatecntWrite (s : State) : Host.Outcome State Fault Refusal :=
  slotEvent (fun s => some (s.withThr (s.thr.setLatecnt (Input.word s.input)))) s

/-- OPLDROP (20 R389). -/
def execOpldrop (s : State) : Host.Outcome State Fault Refusal :=
  slotEvent (fun s => some (s.withThr (s.thr.dropLog (Input.word s.input)))) s

/-- REGISTER_WRITE (09 R205): register `unit` of the slot takes a value, when it is one that can be written. -/
def execRegisterWrite (s : State) : Host.Outcome State Fault Refusal :=
  slotEvent (fun s =>
    match sysAccess s.input.unit with
    | some a => if a.write then Res.toOption (s.sysWrite s.input.unit (Input.word s.input)) else none
    | none => none) s

/-! ### Memory and links from outside -/

/-- KEY_SLOT_LOAD (04 R90): slot `unit` is loaded by the system cores. -/
def execKeySlotLoad (s : State) : Host.Outcome State Fault Refusal :=
  event (fun s => if 64 ≤ s.input.unit then none
    else some { s with keySlots := NMap.set s.keySlots s.input.unit (.loaded s.input.value) }) s

/-- What a scrub finds in one sector (04 R78): a corrected error is counted and emitted, an uncorrectable one poisons. -/
def State.scrub (s : State) (stack : Nat) (f : EccFinding) : State :=
  let perStack := 64 * chanBytes / 32
  if perStack ≤ f.sector then s
  else if f.correctable then
    let s := { s with eccCorr := NMap.put 0 s.eccCorr stack (NMap.get 0 s.eccCorr stack + 1) }
    s.emitDev 0x40 (0xD00 + stack) (f.sector % (chanBytes / 32))
  else { s with poison := setAdd (stack * perStack + f.sector) s.poison }

/-- An error in a cell's store (07 R163): a corrected one is written back, counted and emitted, an uncorrectable one poisons its row.
A void cell stores nothing. -/
def State.cellEcc (s : State) (f : CellEcc) : State :=
  let c := f.cell.toNat
  let cl := clusterOf c
  if s.isVoid c then s
  else if f.correctable then
    (s.setCluster cl { s.cluster cl with eccCorr := (s.cluster cl).eccCorr + 1 }).emitDev 0x40 (0xC00 + cl) f.row.toNat
  else s.setRow c f.row.toNat { s.row c f.row.toNat with poison := true }

/-- An error in a sector of an engine's activation buffer (05 R109): one that cannot be corrected poisons it. -/
def State.bufEcc (s : State) (f : BufEcc) : State :=
  if 768 ≤ f.engine.toNat || f.correctable then s
  else
    let g := s.engine f.engine
    s.setEngine f.engine { g with bufPoison := setAdd f.sector.toNat g.bufPoison }

/-- ECC_SCRUB (04 R78) of stack `unit`, or an error found in a cell's store (07 R163) or an engine's buffer (05 R109). -/
def execEccScrub (s : State) : Host.Outcome State Fault Refusal :=
  event (fun s => match s.input.payload with
    | .ecc found => if 12 ≤ s.input.unit then none else some (found.foldl (fun s f => s.scrub s.input.unit f) s)
    | .cellEcc found => some (s.cellEcc found)
    | .bufEcc found => some (s.bufEcc found)
    | _ => none) s

/-- The kind, the source and the items of a configuration memory (20 R404; log 47): an item's slot, none for a parked item, and its
thread. -/
def State.parityOf (s : State) (u : ParityUnit) : Nat × Nat × (Option SlotNo → Thread → Bool) :=
  match u with
  | .descriptorFile k => (0, 0xC00 + slotCluster k, fun x _ => x == some k)
  | .plotTable p =>
    let first := match (NMap.get {} s.parts p.toNat).cfg with
      | some c => (c.clusters.head?.map (·.toNat)).getD 0
      | none => 0
    (1, 0xC00 + first, fun _ t => t.part == p)
  | .routerTable r => (2, 0xC00 + r.toNat, fun _ t => t.plot.clusters.contains r.toNat)
  | .matrixPlane c => (3, 0xC00 + clusterOf c.toNat, fun _ t => (s.munit c.toNat).owner == some t.src.uid)

/-- Every item with a slot or a plot that uses a unit meets CONFIG_PARITY (20 R404). -/
def State.failUsers (s : State) (uses : Option SlotNo → Thread → Bool) : State :=
  let f (t : Thread) : FaultRec := { cause := cCONFIG_PARITY, pc := t.pc, time := s.time }
  let s := (s.liveSlots.filter fun k => uses (some k) (s.thread k)).foldl (fun (s : State) (k : SlotNo) =>
    s.setThread k ((s.thread k).fail (f (s.thread k)))) s
  { s with parked := s.parked.map fun p => if uses none p.thr then { p with thr := p.thr.fail (f p.thr) } else p }

/-- PARITY_ERROR (20 R404): the unit reloads and replays, which only takes time; with `flag` it is the second error and every item
that uses the unit ends with CONFIG_PARITY. -/
def execParityError (s : State) : Host.Outcome State Fault Refusal :=
  event (fun s => match s.input.payload with
    | .parity u =>
      let (kind, src, uses) := s.parityOf u
      let s := s.emitDev 0x41 src kind
      some (if s.input.flag then s.failUsers uses else s)
    | _ => none) s

/-- The locations of `n` bytes that an outside agent names: of main memory under a key slot that holds a key, of host memory
(04 R79), or of the memory at another device's home; none where there is no such target. -/
def State.outsideLocs (s : State) (r : OutsideReq) (n : Nat) : Option (List (Loc × Nat)) :=
  let pas := (List.range n).map fun i => r.pa.toNat + i
  if 3 ≤ r.layout.toNat then none
  else if pas.all isMain then
    if r.device = 0 then
      if (s.keySlots.find r.key.toNat).isNone then none
      else some (pas.map fun a => (.mem (storageOf r.layout.toNat a), r.key.toNat))
    else some (pas.map fun a => (.ext r.device (storageOf r.layout.toNat a), r.key.toNat))
  else if pas.all isHost && r.layout = 0 then
    some (pas.map fun a => (.ext (if r.device = 0 then 256 else r.device) a, 0))
  else none

/-- Bytes that an access of an agent outside the threads returns. -/
def State.answer (s : State) (bs : List Byte) : State := { s with reports := s.reports ++ [Report.value bs] }

/-- Bytes written by an agent outside the threads. -/
def State.outsideWrite (s : State) (r : OutsideReq) (bs : List Byte) : Option State :=
  (s.outsideLocs r bs.length).map fun ls => s.putBytes ((ls.zip bs).map fun x => ⟨x.1.1, x.2, x.1.2⟩)

/-- A read-modify-write of `n` bytes from outside, by a member of the ATOM family; it returns the old value (17 R352-R355). A poisoned
word is not changed. -/
def State.outsideRmw (s : State) (r : OutsideReq) (fn n : Nat) (b e : Word) : Option State :=
  if r.pa.toNat % n ≠ 0 || 10 < fn || (fn = 10 && n = 8) || (isHost r.pa.toNat && !(fn = 0 || fn = 8 || fn = 9)) then none
  else do
    let ls ← s.outsideLocs r n
    if ls.any fun l => s.isPoisoned l.1 then none
    else
      let (s, old) := s.rmw fn n ⟨ls, [], [], []⟩ (b.toNat % 2 ^ (8 * n)) (e.toNat % 2 ^ (8 * n))
      some (s.answer (leBytes n old))

/-- A queue pair. -/
def State.qp (s : State) (n : Nat) : QueuePair := NMap.get {} s.qps n

/-- A queue pair completes a message (14 R305). -/
def State.qpDone (s : State) (n : Nat) (imm : Option (BitVec 32)) (len : Nat) : State :=
  { s with qps := NMap.put {} s.qps n { s.qp n with done := (s.qp n).done ++ [(imm, len)] } }

/-- A SEND fills the oldest buffer posted to its queue pair, and completes there (14 R305). -/
def State.qpSend (s : State) (n : Nat) (bs : List Byte) : Option State :=
  match (s.qp n).recvs with
  | [] => none
  | b :: r =>
    if b.len < bs.length then none
    else do
      let s := { s with qps := NMap.put {} s.qps n { s.qp n with recvs := r } }
      let s ← s.outsideWrite { pa := b.pa, layout := b.layout, key := b.key, op := .write bs } bs
      some (s.qpDone n none bs.length)

/-- An operation of an agent outside the threads (16 R334, R344, R345; 14 R305). -/
def State.outside (s : State) (r : OutsideReq) : Option State :=
  match r.op with
  | .read n => do
    let ls ← s.outsideLocs r n
    if ls.any fun l => s.isPoisoned l.1 then none else some (s.answer (s.getBytes ls))
  | .write bs => s.outsideWrite r bs
  | .fetchAdd v => s.outsideRmw r 0 8 v 0
  | .swap v => s.outsideRmw r 8 8 v 0
  | .compareSwap e v => s.outsideRmw r 9 8 v e
  | .atom fn wide b e => s.outsideRmw r fn.toNat (if wide then 8 else 4) b e
  | .send qp bs => s.qpSend qp.toNat bs
  | .writeImm qp imm bs => (s.outsideWrite r bs).map fun s => s.qpDone qp.toNat (some imm) bs.length

/-- Is an operation one of an Ethernet port's queue pairs? -/
def isQpOp : OutsideOp → Bool
  | .send .. | .writeImm .. => true
  | _ => false

/-- A device writes its own memory, which this one reaches over a link (16 R334; log 7). -/
def State.atHome (s : State) (r : OutsideReq) : Option State :=
  match r.op with
  | .write bs => s.outsideWrite r bs
  | _ => none

/-- PEER_ACCESS (16 R344): another device's access, which this one performs; or a peer writes its own memory. -/
def execPeerAccess (s : State) : Host.Outcome State Fault Refusal :=
  event (fun s => match s.input.payload with
    | .outside r =>
      if isQpOp r.op || r.device = 256 then none else if r.device = 0 then s.outside r else s.atHome r
    | _ => none) s

/-- HOST_ACCESS (16 R345), over a trained host link; or the host writes its own memory. -/
def execHostAccess (s : State) : Host.Outcome State Fault Refusal :=
  event (fun s => match s.input.payload with
    | .outside r =>
      if isQpOp r.op then none
      else if r.device = 256 then s.atHome r
      else if r.device = 0 && s.boot.hostLink.isSome then s.outside r else none
    | _ => none) s

/-- Does an Ethernet port carry traffic: it is not retired (24 R453)? -/
def State.portUp (s : State) (n : Nat) : Bool := n < 32 && !s.portsRetired.contains n

/-- RDMA_TRANSFER (14 R305), at Ethernet port `unit`: READ, WRITE with and without immediate, SEND, and of the atomics compare-and-swap
and fetch-and-add; or a PTP message that the port stamps with T, in the message itself or for the one that follows it. -/
def execRdmaTransfer (s : State) : Host.Outcome State Fault Refusal :=
  event (fun s => if !s.portUp s.input.unit then none else match s.input.payload with
    | .outside r => if r.device ≠ 0 then none else match r.op with
      | .swap _ | .atom .. => none
      | _ => s.outside r
    | .timestamp oneStep => some { s with reports := s.reports ++ [Report.stamped s.input.unit oneStep s.time] }
    | _ => none) s

/-- A link changed. -/
def State.mapLink (s : State) (n : Nat) (f : Link → Link) : State :=
  { s with links := NMap.put {} s.links n (f (NMap.get {} s.links n)) }

/-- What a recalibration finds enters the record (24 R452). -/
def State.recalibrate (s : State) : State :=
  match s.input.payload with
  | .calibration c => { s with boot := { s.boot with calibration := some c } }
  | _ => s

/-- LINK_RETRAIN (14 R303): link `unit` has lost lanes and trains on four; a retired one is recalibrated, with the record that this leaves,
and with `flag` trains on all eight (24 R452). -/
def execLinkRetrain (s : State) : Host.Outcome State Fault Refusal :=
  event (fun s =>
    if 16 ≤ s.input.unit then none
    else
      let retired := (NMap.get ({} : Link) s.links s.input.unit).retired
      let s := if retired then s.recalibrate else s
      some (s.mapLink s.input.unit fun l => { l with lanes := if retired && s.input.flag then 8 else 4 })) s

/-- FLIT_CRC_REPLAY (14 R303): a flit of link `unit` is replayed, which programs never see. -/
def execFlitCrcReplay (s : State) : Host.Outcome State Fault Refusal :=
  event (fun s => if 16 ≤ s.input.unit then none
    else some (s.mapLink s.input.unit fun l => { l with replays := l.replays + 1 })) s

/-- LINK_RETIREMENT (24 R453): Bolaezer link `unit`, or with `flag` Ethernet port `unit`, is retired. -/
def execLinkRetirement (s : State) : Host.Outcome State Fault Refusal :=
  event (fun s =>
    if s.input.flag then
      if 32 ≤ s.input.unit then none else some { s with portsRetired := setAdd s.input.unit s.portsRetired }
    else if 16 ≤ s.input.unit then none
    else some (s.mapLink s.input.unit fun l => { l with retired := true })) s

end Sys2Proof.Machine
end

