-- ==== Sys2Proof/Machine/Bank.lean ====
section
/-!
DEFINITION. The BANK family of a thread and the bank commands as engines perform them (05 R112, R125-R138): sets, queues,
calls, sends, reports.
-/
namespace Sys2Proof.Machine

/-! ### Engine sets (R127) -/

/-- The engines of a range set, by ordinal. -/
def rangeSet (v : Word) : Option (List Nat) :=
  let first := fld v 0 10
  let count := fld v 10 10
  let stride := fld v 20 10
  if fld v 30 34 ≠ 0 ∨ count = 0 ∨ stride = 0 ∨ 768 < count ∨ 767 < first + (count - 1) * stride then none
  else some ((List.range count).map fun i => first + i * stride)

/-- The engines of a mask, ascending. -/
def maskSet (m : Nat) : List Nat := (List.range 768).filter fun e => m / 2 ^ e % 2 = 1

/-- A thread may name engines of its own partition alone (R108). -/
def State.mayName (s : State) (e : Nat) : Bool :=
  e ≤ 767 && (s.engine (BitVec.ofNat 10 e)).part == some s.thr.part

/-- Bytes that a BANK instruction reads as a load of its thread, with a load's waits (R129, R136; 16 R338). -/
def State.bankLoad (s : State) (align : Nat) (a : Word) (n : Nat) : Res (State × List Byte) := do
  s.loadWaits
  let (s, nm) ← s.resolve { align := align, watch := false } a n
  s.claim nm.fps true
  pure (s, s.drained.getBytes nm.locs)

/-- The engines that XB names. -/
def State.bankSet (s : State) (f : FQ) : Res (State × List Nat) := do
  let (s, es) ← if f.flg.getLsbD 0 then do
      let (s, bs) ← s.bankLoad 32 (s.X f.xb) 96
      pure (s, some (maskSet (leNat bs)))
    else pure (s, rangeSet (s.X f.xb))
  match es with
  | none => raise cSPACE
  | some es => do
    need (es.all s.mayName = true) cSPACE
    pure (s, es)

/-! ### Command queues (R135) -/

/-- The stacks that a set reaches. -/
def stacksOf (es : List Nat) : List Nat := (es.map (· / 64)).eraseDups

/-- Has every queue of a set a place? -/
def State.queueRoom (s : State) (es : List Nat) : Bool := (stacksOf es).all fun k => (NMap.get [] s.cmdq k).length < 256

/-- A command enters the queue of every stack of its set. -/
def State.pushCmd (s : State) (kind : CmdKind) (es : List Nat) : State :=
  let no := s.opNo + 1
  let uid := s.thr.src.uid
  let put (m : NMap (List Cmd)) (k : Nat) : NMap (List Cmd) :=
    NMap.put [] m k (NMap.get [] m k ++ [{ uid := uid, no := no, kind := kind, left := es.filter (· / 64 = k) }])
  { s with opNo := no, cmdq := (stacksOf es).foldl put s.cmdq }

/-! ### BKLOAD and BKACT (R130, R131) -/

/-- Four-byte words of a list of bytes. -/
def wordsOf (bs : List Byte) (n : Nat) : List (BitVec 32) :=
  (List.range n).map fun k => BitVec.ofNat 32 (leNat ((bs.drop (4 * k)).take 4))

/-- BKLOAD (R130). -/
def execBkload (f : FQ) (s : State) : Host.Outcome State Fault Refusal :=
  issue (.q 0xB0 0 f) (fun s => do
    let h := s.X f.xa
    let va := fld h 0 48
    let n := fld h 48 16
    let woff := f.imm32.toNat
    need (woff ≤ 1023) cILLEGAL_FIELD
    need (va % 4 = 0) cMISALIGN (BitVec.ofNat 64 va)
    need (n ≠ 0 ∧ woff + n ≤ 1024) cSPACE
    s.waitFor s.thr.openOuts.isEmpty
    let (s, es) ← s.bankSet f
    let (s, bs) ← s.bankLoad 0 (BitVec.ofNat 64 va) (4 * n)
    s.waitFor (s.queueRoom es = true)
    pure { st := s.pushCmd (.program woff (wordsOf bs n)) es }) s

/-- Does a space-1 range lie within one cell's plot rows (R131)? -/
def Plot.inCell (p : Plot) (a : Word) (n : Nat) : Bool :=
  spaceOf a ≠ 1 || (bits (offsetOf a) 21 8 < p.h && bits (offsetOf a) 13 8 < p.w && bits (offsetOf a) 0 13 + n ≤ p.d * 32)

/-- BKACT (R131). A MISALIGN that the length or boff causes, and the PLOT_BOUND of an own-plot source, give the source pointer as EADDR,
for which the rule names none (DESIGN CHOICE, log 66). -/
def execBkact (f : FQ) (s : State) : Host.Outcome State Fault Refusal :=
  issue (.q 0xB0 1 f) (fun s => do
    let src := s.X f.xa
    let n := (s.X f.xc).toNat
    let boff := f.imm32.toNat
    need (spaceOf src ≤ 1) cSPACE src
    need (src.toNat % 32 = 0 ∧ n % 32 = 0 ∧ boff % 32 = 0) cMISALIGN src
    need (boff + n ≤ 65536) cSPACE
    need (s.thr.plot.inCell src n = true) cPLOT_BOUND src
    s.waitFor s.thr.openOuts.isEmpty
    let (s, es) ← s.bankSet f
    let (s, bs) ← s.bankLoad 0 src n
    s.waitFor (s.queueRoom es = true)
    pure { st := s.pushCmd (.activations boff bs) es }) s

/-! ### BKCALL (R112, R113, R132) -/

/-- A region for one engine of the set: `d` is its 128-bit description, `ord` the engine's ordinal. Its bits 62-48 and the block's
bytes 120-127, which the manual lists as 0, are not looked at (R113; log 66). The region keeps the leaf's KEY, so its sectors are
read and written under what the slot then holds (04 R90). -/
def State.checkRegion (s : State) (e ord d : Nat) : Except Trap (State × Region) :=
  let len := bits d 64 32
  if len = 0 then .ok (s, {})
  else
    let va := (bits d 0 48 + ord * bits d 96 32) % 2 ^ 48
    let last := (va + len - 1) % 2 ^ 48
    let w := bits d 63 1 = 1
    let find (a : Nat) := s.lookup (some s.cl) s.thr.root s.thr.vf a w
    let at' := BitVec.ofNat 64 va
    if va % 128 ≠ 0 then .error ⟨cMISALIGN, at', 0⟩
    else match find va, find last with
      | .error i, _ => .error ⟨cNOTMAPPED, at', BitVec.ofNat 64 i⟩
      | _, .error i => .error ⟨cNOTMAPPED, BitVec.ofNat 64 last, BitVec.ofNat 64 i⟩
      | .ok x, .ok y =>
        let own := x.peer = 0 ∨ x.peer = s.deviceId.toNat
        if ¬ (x.base = y.base ∧ x.level = y.level ∧ va ≤ last ∧ own ∧ x.layout = 2 ∧ isMain x.pa ∧ x.paOf va / chanBytes = e)
        then .error ⟨cSPACE, at', 0⟩
        else if w ∧ x.entry.getLsbD 4 then .error ⟨cCOW, at', 0⟩
        else if w ∧ !x.entry.getLsbD 1 then .error ⟨cPERM, at', 0⟩
        else
          .ok (s.commitLeaf (some s.cl) s.thr.root s.thr.vf w x,
            { off := x.paOf va % chanBytes, len := len, key := x.keySlot, w := w
              leafBase := x.base, leafLevel := x.level })

/-- The regions of one engine, in order (log 28). -/
def State.checkEngine (s : State) (blk e ord : Nat) : Except Trap (State × CallPart) := do
  let (s, rs) ← (List.range 4).foldlM (fun (x : State × List Region) k => do
    let (s, r) ← x.1.checkRegion e ord (bits blk (128 * k) 128)
    pure (s, x.2 ++ [r])) (s, [])
  pure (s, ⟨e, ord, rs⟩)

/-- Every region of every engine of the set (R112). -/
def State.checkParts (s : State) (blk : Nat) (es : List Nat) : Res (State × List CallPart) :=
  let r := (es.zip (List.range es.length)).foldlM (fun (x : State × List CallPart) e => do
    let (s, p) ← x.1.checkEngine blk e.1 e.2
    pure (s, x.2 ++ [p])) (s, [])
  match r with
  | .ok x => .ok x
  | .error t => .error (.trap t)

/-- Formats of a send tensor (R132). -/
def sendFmt (c : Nat) : Bool := c = 8 || c = 9 || c = 10 || c = 11 || c = 12 || c = 4 || c = 16

/-- The checks of a send tensor (R132). -/
def State.checkSend (s : State) (t : Ten) : Res Unit := do
  need ((t.kind = 1 || t.kind = 2) && sendFmt t.fmt = true) cSPACE
  need (t.inPlot s.thr.plot = true) cPLOT_BOUND
  need (s.touchesOff t = false) cPLANE_OFF

/-- A call enters the queues (R132): the token, the footprint, the record. An empty set completes at once (R127). -/
def State.startCall (s : State) (f : FQ) (blk : Nat) (es : List Nat) (parts : List CallPart) (fps : List Fp) : State :=
  let token := s.thr.callNo + 1
  let no := s.opNo + 1
  let send : SendTensor := ⟨s.T f.td, s.thr.row.toNat, s.thr.col.toNat, s.thr.sbase.toNat⟩
  let c : Call :=
    { id := no, uid := s.thr.src.uid, root := s.thr.root, vf := s.thr.vf, no := no, pc := s.thr.pc, token := token
      parts := parts, left := es, send := if f.td = 0 then none else some send, sat := f.flg.getLsbD 1
      entry := f.imm32.setWidth 10, args := (List.range 14).map fun i => BitVec.ofNat 32 (bits blk (512 + 32 * i) 32)
      fps := fps, fault := none, count := 0 }
  let s := (s.withThr { s.thr with callNo := token }).emitItem 0x22 token.toNat
  if es.isEmpty then s.emitItem 0x23 token.toNat else { s.pushCmd (.call no) es with calls := s.calls ++ [c] }

/-- Calls that a thread has outstanding. -/
def State.callsOf (s : State) (uid : Nat) : List Call := s.calls.filter (·.uid = uid)

/-- BKCALL (R132, R136). -/
def execBkcall (f : FQ) (s : State) : Host.Outcome State Fault Refusal :=
  issue (.q 0xB0 2 f) (fun s => do
    let p := s.X f.xa
    need (f.imm32.toNat ≤ 1023) cILLEGAL_FIELD
    need (spaceOf p = 0) cSPACE p
    need (p.toNat % 128 = 0) cMISALIGN p
    s.waitFor (s.thr.released = true)
    let (s, es) ← s.bankSet f
    let (s, bs) ← s.bankLoad 0 p 128
    let blk := leNat bs
    let (s, parts) ← s.checkParts blk es
    let td := Ten.of (s.T f.td)
    if f.td ≠ 0 then s.checkSend td
    let fps := if f.td = 0 then [] else td.fp true
    s.waitFor ((s.callsOf s.thr.src.uid).length < 16)
    s.waitFor (s.entryFree = true)
    s.claim fps
    s.waitFor (s.queueRoom es = true)
    let s := s.startCall f blk es parts fps
    pure { st := s.setX f.xc (s.thr.callNo.setWidth 64) }) s

/-! ### BKWAIT and BKSTAT (R133, R134) -/

/-- Does BKWAIT wait for a call: every one, or those with a token up to the one named? -/
def waitsCall (all : Bool) (last t token : BitVec 16) : Bool :=
  all || 32768 ≤ (last - t).toNat || (last - t).toNat ≤ (last - token).toNat

/-- BKWAIT (R133). -/
def execBkwait (f : FQ) (s : State) : Host.Outcome State Fault Refusal :=
  issue (.q 0xB0 3 f) (fun s => do
    let t := (s.X f.xa).setWidth 16
    s.waitFor ((s.callsOf s.thr.src.uid).all (fun c => !waitsCall (f.flg.getLsbD 0) s.thr.callNo t c.token) = true)
    pure { st := s }) s

/-- BKSTAT (R134; recorded by 23 R445). -/
def execBkstat (f : FQ) (s : State) : Host.Outcome State Fault Refusal :=
  issue (.q 0xB0 4 f) (fun s => do
    let e := (s.X f.xa).toNat
    need (s.mayName e = true) cSPACE
    let v := (s.engine (BitVec.ofNat 10 e)).status (s.queueDepth e)
    pure { st := (s.record v).setX f.xc v }) s

/-! ### Commands performed (R135) -/

/-- A command of a queue replaced, or dropped once no engine of the stack has still to perform it. -/
def State.mapCmd (s : State) (stack no : Nat) (f : Cmd → Cmd) : State :=
  let l := (NMap.get [] s.cmdq stack).map fun c => if c.no = no then f c else c
  { s with cmdq := NMap.put [] s.cmdq stack (l.filter fun c => !c.left.isEmpty) }

/-- An engine has performed a command. -/
def State.finishCmd (s : State) (e no : Nat) : State :=
  s.mapCmd (e / 64) no fun c => { c with left := c.left.filter (· ≠ e) }

/-- An engine begins a command: no stack discards it from then on. -/
def State.beginCmd (s : State) (no : Nat) : State :=
  let mark (c : Cmd) : Cmd := if c.no = no then { c with begun := true } else c
  { s with cmdq := s.cmdq.map fun q => (q.1, q.2.map mark) }

/-- The command that engine `e` would begin next: the engine is free, and no call of the command's item has faulted
unless the command has begun (R125, R135). -/
def State.nextCmd (s : State) (e : Nat) : Option Cmd := do
  let g := s.engine (BitVec.ofNat 10 e)
  let c ← (NMap.get [] s.cmdq (e / 64)).find? fun c => c.left.contains e
  let faulted := (s.callsOf c.uid).any fun k => k.fault.isSome
  if g.busy || (faulted && !c.begun) then none else some c

/-- ENGINE_PROGRAM_WRITE (R130). -/
def execEngineProgramWrite (s : State) : Host.Outcome State Fault Refusal :=
  event (fun s => do
    let e := s.input.unit
    let c ← s.nextCmd e
    match c.kind with
    | .program first ws =>
      let g := s.engine (BitVec.ofNat 10 e)
      let prog := (ws.zip (List.range ws.length)).foldl (fun m x => NMap.put 0 m (first + x.2) x.1) g.prog
      some (((s.beginCmd c.no).setEngine (BitVec.ofNat 10 e) { g with prog := prog }).finishCmd e c.no)
    | _ => none) s

/-- ENGINE_ACT_WRITE (R131). -/
def execEngineActWrite (s : State) : Host.Outcome State Fault Refusal :=
  event (fun s => do
    let e := s.input.unit
    let c ← s.nextCmd e
    match c.kind with
    | .activations first bs =>
      let ls := (bs.zip (List.range bs.length)).map fun x => (⟨.buf e (first + x.2), x.1, 0⟩ : SqByte)
      some (((s.beginCmd c.no).putBytes ls).finishCmd e c.no)
    | _ => none) s

/-- The state of an engine when a call starts on it (R114). -/
def Engine.started (g : Engine) (c : Call) (p : CallPart) : Engine :=
  { g with b := Vector.ofFn fun i => if i = 0 then 0 else if i = 15 then BitVec.ofNat 32 p.ordinal else c.args.getD (i.val - 1) 0
           acc := Vector.replicate 8 0, wfmt := 0, afmt := 0, cblo := 2, cbhi := 6, ws := Vector.replicate 8 127, as' := 127
           regions := Vector.ofFn fun i => p.regions.getD i.val {}
           pc := c.entry, token := c.token, fault := 0, scaleNan := false, faulted := false, waiting := false, busy := true
           renorm := 0, call := some c.id }

/-- ENGINE_CALL_START (R114). -/
def execEngineCallStart (s : State) : Host.Outcome State Fault Refusal :=
  event (fun s => do
    let e := s.input.unit
    let c ← s.nextCmd e
    match c.kind with
    | .call id =>
      let k ← s.calls.find? (·.id == id)
      let p ← k.parts.find? (·.engine == e)
      some ((s.beginCmd c.no).setEngine (BitVec.ofNat 10 e) ((s.engine (BitVec.ofNat 10 e)).started k p))
    | _ => none) s

/-- An engine that has ended its call is free once its sends have reached the plot (R135). -/
def State.settle (s : State) (e : Nat) : State :=
  let g := s.engine (BitVec.ofNat 10 e)
  if g.call.isSome || !g.busy || s.sends.any (·.engine = e) then s
  else
    let s := s.setEngine (BitVec.ofNat 10 e) { g with busy := false }
    match (NMap.get [] s.cmdq (e / 64)).find? fun c => c.left.contains e with
    | some c => s.finishCmd e c.no
    | none => s

/-- A call changed. -/
def State.mapCall (s : State) (id : Nat) (f : Call → Call) : State :=
  { s with calls := s.calls.map fun c => if c.id = id then f c else c }

/-- Cells of the plane that a send writes. -/
def Send.clusters (x : Send) : List Nat :=
  x.bytes.filterMap fun b => match b.1 with
    | .cell c _ _ => some (clusterOf c)
    | _ => none

/-- BSEND_DELIVERY (R122): a send lands; packets from one router to another keep their order (14 R295), and what lies in
a void cell is discarded. -/
def execBsendDelivery (s : State) : Host.Outcome State Fault Refusal :=
  event (fun s => do
    let x ← s.sends.find? (·.id == s.input.unit)
    let older := s.sends.takeWhile fun y => y.id ≠ x.id
    if older.any fun y => y.engine = x.engine && y.clusters.any x.clusters.contains then none
    else
      let live := x.bytes.filter fun b => match b.1 with
        | .cell c _ _ => !s.isVoid c
        | _ => false
      let s := s.putBytes (live.map fun b => ⟨b.1, b.2, 0⟩)
      let s := { s with sends := s.sends.filter fun y => y.id ≠ x.id }
      some ((s.mapCall x.call fun c => { c with count := c.count + 1 }).settle x.engine)) s

/-- A call whose engines have all ended it and whose sends have landed (R125). -/
def State.endedCall (s : State) (id : Nat) : Option Call := do
  let c ← s.calls.find? (·.id == id)
  if !c.gone && c.left.isEmpty && s.sends.all fun x => x.call ≠ id then some c else none

/-- A call without its record. -/
def State.dropCall (s : State) (id : Nat) : State := { s with calls := s.calls.filter fun c => c.id ≠ id }

/-- CALL_COMPLETE (R125). -/
def execCallComplete (s : State) : Host.Outcome State Fault Refusal :=
  event (fun s => do
    let c ← s.endedCall s.input.unit
    if c.fault.isSome then none
    else
      let s := match s.slotOfUid c.uid with
        | some k => s.emitSlot k 0x23 c.token.toNat
        | none => s
      some (s.dropCall c.id)) s

/-- What the report of a faulted call says (20 R393). -/
def Call.report (c : Call) (x : CallFault) : FaultRec :=
  { cause := cBANK, pc := x.pc.setWidth 64, addr := x.addr.setWidth 64, count := BitVec.ofNat 64 c.count
    ordinal := c.token.setWidth 32, detail := BitVec.ofNat 32 (x.engine * 65536 + x.code.toNat * 256), time := x.time }

/-- CALL_FAULT_REPORT (R125; 20 R392-R394): the item's thread stops and it is terminated, once its report has a place; a call that
faults after its item has failed has a report of its own. -/
def execCallFaultReport (s : State) : Host.Outcome State Fault Refusal :=
  event (fun s => do
    let c ← s.endedCall s.input.unit
    let x ← c.fault
    let k ← s.slotOfUid c.uid
    let s := s.atSlot k
    if s.thr.term.isSome then
      let s ← s.pushReport k s.thr (c.report x)
      some (s.dropCall c.id)
    else
      let s := s.withThr (s.thr.fail (c.report x))
      some ((s.terminate.getD s).dropCall c.id)) s

end Sys2Proof.Machine
end

