-- ==== Sys2Proof/Machine/BankOps.lean ====
section
/-!
DEFINITION. The instructions of a bank engine (05 R111, R115-R126), performed by the engine that acts.
-/
namespace Sys2Proof.Machine

/-! ### Fault codes (R124) -/
abbrev bILLEGAL : BitVec 8 := 1
abbrev bBOUND : BitVec 8 := 2
abbrev bALIGN : BitVec 8 := 3
abbrev bPERM : BitVec 8 := 4
abbrev bECC : BitVec 8 := 5
abbrev bPC : BitVec 8 := 6
abbrev bTIMEOUT : BitVec 8 := 7

/-- How an engine word ends. -/
inductive EngEnd where
  /-- it moves on by so many words -/
  | go (s : State) (by' : Int)
  | fault (code : BitVec 8) (addr : BitVec 32)
  /-- it waits at its word -/
  | hold (s : State)
  | halt

/-- The outcome of a part of an engine word: a value or a fault with its engine address. -/
abbrev EngRes := Except (BitVec 8 × BitVec 32)

/-- A fault unless the condition holds. -/
def engNeed (c : Prop) [Decidable c] (code : BitVec 8) (addr : BitVec 32 := 0) : EngRes Unit :=
  if c then .ok () else .error (code, addr)

/-- The call that the engine which acts runs. -/
def State.engCall (s : State) : Option Call := s.eng.call.bind fun id => s.calls.find? (·.id == id)

/-- The call ends on the engine that acts (R125). -/
def State.engEnd (s : State) (g : Engine) : State :=
  let e := s.curE.toNat
  let s := { s with eng := { g with call := none, waiting := false } }
  let s := match g.call with
    | some id => s.mapCall id fun c => { c with left := c.left.filter (· ≠ e) }
    | none => s
  s.settle e

/-- The first fault of a call is the one it reports. -/
def Call.faultAt (c : Call) (f : CallFault) : Call := if c.fault.isSome then c else { c with fault := some f }

/-- An engine fault (R124, R125): the engine ends the call at the faulting word, and the item's commands that have not
begun are discarded. -/
def State.engFault (s : State) (code : BitVec 8) (addr : BitVec 32) : State :=
  let g := { s.eng with faulted := true, fault := code }
  let s' := match s.engCall with
    | some c => (s.mapCall c.id fun c => c.faultAt ⟨s.curE.toNat, code, g.pc, addr, s.time⟩).dropBank c.uid
    | none => s
  s'.engEnd g

/-- The engine goes on by a number of words; outside its store it faults at the word that led there (R115). -/
def State.engGo (s : State) (n : Int) : State :=
  let p := (s.eng.pc.toNat : Int) + n
  if 0 ≤ p ∧ p ≤ 1023 then { s with eng := { s.eng with pc := BitVec.ofInt 10 p, waiting := false } }
  else s.engFault bPC 0

/-- One engine word. -/
def engStep (body : State → EngEnd) (s : State) : Host.Outcome State Fault Refusal :=
  match body s with
  | .go s' n => .next (s'.engGo n)
  | .fault c a => .next (s.engFault c a)
  | .hold s' => .next s'
  | .halt => .next (s.engEnd s.eng)

/-- A word that goes on or faults. -/
def engOp (body : State → EngRes State) (s : State) : Host.Outcome State Fault Refusal :=
  engStep (fun s => match body s with
    | .ok s' => .go s' 1
    | .error (c, a) => .fault c a) s

/-! ### Registers -/

/-- Register `n`; b0 reads zero (R109). -/
def Engine.B (g : Engine) (n : BitVec 4) : BitVec 32 := if n = 0 then 0 else g.b.toArray.getD n.toNat 0
/-- A write of a register; b0 discards it. -/
def Engine.setB (g : Engine) (n : BitVec 4) (v : BitVec 32) : Engine :=
  if n = 0 then g else { g with b := g.b.setIfInBounds n.toNat v }
/-- Register `n` of the engine that acts. -/
def State.B (s : State) (n : BitVec 4) : BitVec 32 := s.eng.B n
/-- A register of the engine that acts written. -/
def State.setB (s : State) (n : BitVec 4) (v : BitVec 32) : State := { s with eng := s.eng.setB n v }
/-- The immediate as a 32-bit number. -/
def immB (f : FBk) : BitVec 32 := f.imm14.signExtend 32

/-! ### Scalar and control (R116) -/

/-- BNOP. -/
def execBnop (s : State) : Host.Outcome State Fault Refusal := engOp (fun s => .ok s) s
/-- BHALT. -/
def execBhalt (s : State) : Host.Outcome State Fault Refusal := engStep (fun _ => .halt) s
/-- BLI. -/
def execBli (f : FBk) (s : State) : Host.Outcome State Fault Refusal := engOp (fun s => .ok (s.setB f.rd (immB f))) s
/-- BADDI. -/
def execBaddi (f : FBk) (s : State) : Host.Outcome State Fault Refusal :=
  engOp (fun s => .ok (s.setB f.rd (s.B f.rs + immB f))) s
/-- BADD. -/
def execBadd (f : FBk) (s : State) : Host.Outcome State Fault Refusal :=
  engOp (fun s => .ok (s.setB f.rd (s.B f.rs + s.B f.rt))) s
/-- BSUB. -/
def execBsub (f : FBk) (s : State) : Host.Outcome State Fault Refusal :=
  engOp (fun s => .ok (s.setB f.rd (s.B f.rs - s.B f.rt))) s
/-- BMUL. -/
def execBmul (f : FBk) (s : State) : Host.Outcome State Fault Refusal :=
  engOp (fun s => .ok (s.setB f.rd (s.B f.rs * s.B f.rt))) s
/-- A branch of the engine. -/
def engBranch (f : FBk) (take : Bool) (s : State) : EngEnd := .go s (if take then f.imm14.toInt else 1)
/-- BBZ. -/
def execBbz (f : FBk) (s : State) : Host.Outcome State Fault Refusal := engStep (fun s => engBranch f (s.B f.rs = 0) s) s
/-- BBNZ. -/
def execBbnz (f : FBk) (s : State) : Host.Outcome State Fault Refusal := engStep (fun s => engBranch f (s.B f.rs ≠ 0) s) s
/-- BLOOP: it tests the decremented value, not what b0 reads back. -/
def execBloop (f : FBk) (s : State) : Host.Outcome State Fault Refusal :=
  engStep (fun s => let v := s.B f.rd - 1; engBranch f (v ≠ 0) (s.setB f.rd v)) s

/-! ### Engine addresses (R111) -/

/-- What an engine address names. -/
inductive ETarget where
  | buf (off : Nat)
  | region (r : Region) (off : Nat)

/-- The target of an address; none where it has none. -/
def Engine.target (g : Engine) (a : BitVec 32) : Option ETarget :=
  let sel := fld a 28 4
  let off := fld a 0 28
  if sel = 0 then (if off < 65536 then some (.buf off) else none)
  else if sel ≤ 4 then
    let r := g.regions.toArray.getD (sel - 1) {}
    if off < r.len then some (.region r off) else none
  else none

/-- Does an access of `n` bytes end inside the region or the buffer? -/
def ETarget.fits (t : ETarget) (n : Nat) : Bool := match t with
  | .buf off => off + n ≤ 65536
  | .region r off => off + n ≤ r.len

/-- The locations of `n` bytes of a target, each with the key slot of its region (R112). -/
def ETarget.locs (t : ETarget) (e n : Nat) : List (Loc × Nat) := match t with
  | .buf off => (List.range n).map fun i => (.buf e (off + i), 0)
  | .region r off => (List.range n).map fun i => (.mem (e * chanBytes + r.off + off + i), r.key)

/-- A target that the address names, checked for its alignment and then its end (R119, R123). Of the faults of BSCL, BRD, BWR, BSIG and
BWAIT the manual names no order: the model takes the kind of the target, its alignment, its end, then a region without W, then poison
(DESIGN CHOICE, log 66). -/
def State.engTarget (s : State) (a : BitVec 32) (align n : Nat) : EngRes ETarget := do
  match s.eng.target a with
  | none => .error (bBOUND, a)
  | some t => do
    engNeed (a.toNat % align = 0) bALIGN a
    engNeed (t.fits n = true) bBOUND a
    pure t

/-- Bytes of a target read; a poisoned sector faults (R123). -/
def State.engRead (s : State) (a : BitVec 32) (t : ETarget) (n : Nat) : EngRes (List Byte) := do
  let ls := t.locs s.curE.toNat n
  engNeed ((ls.any fun l => s.isPoisoned l.1) = false) bECC a
  pure (s.getBytes ls)

/-- Energy of bytes that the engine reads: 1.5 pJ each, of the item that made the call (22 R419). -/
def State.bankEnergy (s : State) (n : Nat) : State :=
  match s.engCall.bind fun c => s.slotOfUid c.uid with
  | some k => s.addEnergy k (n * 3 * (unitsPerNJ / 2000))
  | none => s

/-- A word written or a send performed, counted in the call (20 R393). -/
def State.countCall (s : State) : State := match s.eng.call with
  | some id => s.mapCall id fun c => { c with count := c.count + 1 }
  | none => s

/-! ### Formats and scales (R117, R118) -/

/-- BFMT. -/
def execBfmt (f : FBk) (s : State) : Host.Outcome State Fault Refusal :=
  engOp (fun s => do
    let v := f.imm14
    engNeed (fld v 12 2 = 0 ∧ fld v 2 2 ≠ 3) bILLEGAL
    pure { s with eng := { s.eng with wfmt := v.extractLsb' 0 2, afmt := v.extractLsb' 2 2
                                      cblo := v.extractLsb' 4 4, cbhi := v.extractLsb' 8 4 } }) s

/-- The region that an address names; a buffer address faults. -/
def State.engRegion (s : State) (a : BitVec 32) : EngRes Unit :=
  match s.eng.target a with
  | some (.region ..) => .ok ()
  | _ => .error (bBOUND, a)

/-- The buffer place that an address names; a region address faults. -/
def State.engBuffer (s : State) (a : BitVec 32) : EngRes Unit :=
  match s.eng.target a with
  | some (.buf _) => .ok ()
  | _ => .error (bBOUND, a)

/-- BSCL. -/
def execBscl (f : FBk) (s : State) : Host.Outcome State Fault Refusal :=
  engOp (fun s => do
    let a := s.B f.rs + immB f
    s.engRegion a
    let t ← s.engTarget a 8 8
    let bs ← s.engRead a t 8
    let g := { s.eng with ws := Vector.ofFn fun i => bs.getD i.val 0, as' := (s.B f.rt).setWidth 8 }
    pure ({ s with eng := g }.bankEnergy 8)) s

/-! ### BMAC (R119, R120) -/

/-- Weights of a line's segment (R119). -/
def kLine (wfmt : BitVec 2) : Nat := match wfmt.toNat with
  | 0 => 64
  | 3 => 8
  | _ => 16

/-- Bytes of an activation. -/
def actBytes (afmt : BitVec 2) : Nat := if afmt = 2 then 2 else 1

/-- The FMT code of AFMT. -/
def actFmt (afmt : BitVec 2) : Nat := match afmt.toNat with
  | 0 => 11
  | 1 => 12
  | _ => 9

/-- Weight k of a segment of 16 bytes. -/
def Engine.weight (g : Engine) (seg : List Byte) (k : Nat) : Val :=
  match g.wfmt.toNat with
  | 0 =>
    let q := leNat ((seg.drop (2 * (k / 8))).take 2)
    valOf ((cb2 q g.cblo.toNat g.cbhi.toNat).getD (k % 8) 0) (-2) false
  | 1 => elemValue 11 (seg.getD k 0).toNat
  | 2 => elemValue 12 (seg.getD k 0).toNat
  | _ => elemValue 9 (leNat ((seg.drop (2 * k)).take 2))

/-- The dot product of a segment: its exact sum over the finite products, and the status bits it sets. -/
def dotLine (ws xs : List Val) : Dyadic × Nat :=
  (ws.zip xs).foldl (fun (a : Dyadic × Nat) y =>
    match y.1.mul y.2 with
    | .nan => (a.1, a.2 ||| 1)
    | .inf neg => (a.1, a.2 ||| (if neg then 4 else 2))
    | .fin neg m e => (Dyadic.add a.1 (if neg then -(m : Int) else m, e), a.2)) ((0, 0), 0)

/-- The accumulator after a line (R120), whether its exponent rose, and whether a scale was NaN. -/
def Engine.macLine (g : Engine) (line : List Byte) (acts : List Val) (acc : Acc) : Acc × Bool × Bool :=
  let n := kLine g.wfmt
  let dots := (List.range 8).map fun j =>
    let seg := (line.drop (16 * j)).take 16
    dotLine ((List.range n).map (g.weight seg)) acts
  let nan (j : Nat) : Bool := g.ws.toArray.getD j 0 = 255 || g.as' = 255
  let xs := (dots.zip (List.range 8)).map fun y =>
    if nan y.2 then ((0, 0) : Dyadic)
    else (y.1.1.1, y.1.1.2 + ((g.ws.toArray.getD y.2 0).toNat : Int) - 127 + (g.as'.toNat : Int) - 127)
  let r := acc.update xs
  let stat := (dots.zip (List.range 8)).map fun y => acc.stat.getD y.2 0 ||| y.1.2
  ({ r.1 with stat := stat }, r.2.1, (List.range 8).any nan)

/-- The engine after a BMAC has made its sums. -/
def Engine.mac (g : Engine) (f : FBk) (line : List Byte) (acts : List Val) : Engine :=
  let acc := Acc.ofImage (g.acc.toArray.getD f.rd.toNat 0)
  let (acc', rose, nan) := g.macLine line acts acc
  let g' := { g with acc := g.acc.setIfInBounds f.rd.toNat acc'.image, renorm := g.renorm + (if rose then 1 else 0)
                     scaleNan := g.scaleNan || nan }
  if f.imm14 = 1 then
    (g'.setB f.rs (g.B f.rs + 128)).setB f.rt (g.B f.rt + BitVec.ofNat 32 (kLine g.wfmt * actBytes g.afmt))
  else g'

/-- BMAC. Of several faults, the one that is reported is the model's: the kinds of both targets, then their alignments, then each one's
end, then poison (log 66). -/
def execBmac (f : FBk) (s : State) : Host.Outcome State Fault Refusal :=
  engOp (fun s => do
    engNeed (f.imm14.toNat ≤ 1 ∧ ¬ (f.imm14 = 1 ∧ f.rs = f.rt)) bILLEGAL
    let wa := s.B f.rs
    let xa := s.B f.rt
    let n := kLine s.eng.wfmt
    let sz := actBytes s.eng.afmt
    s.engRegion wa
    s.engBuffer xa
    engNeed (wa.toNat % 128 = 0) bALIGN wa
    engNeed (xa.toNat % sz = 0) bALIGN xa
    let tw ← s.engTarget wa 128 128
    let tx ← s.engTarget xa sz (n * sz)
    let line ← s.engRead wa tw 128
    let bs ← s.engRead xa tx (n * sz)
    let acts := (List.range n).map fun k => elemValue (actFmt s.eng.afmt) (leNat ((bs.drop (k * sz)).take sz))
    pure ({ s with eng := s.eng.mac f line acts }.bankEnergy (128 + n * sz))) s

/-! ### BZA and BRDA (R121) -/

/-- BZA. -/
def execBza (f : FBk) (s : State) : Host.Outcome State Fault Refusal :=
  engOp (fun s => do
    let e := f.imm14.toInt
    engNeed ((f.rt = 0 ∧ -2048 ≤ e ∧ e ≤ 2047) ∨ (f.rt = 1 ∧ f.imm14 = 0)) bILLEGAL
    let a := Acc.cleared e (f.rt = 1)
    pure { s with eng := { s.eng with acc := s.eng.acc.setIfInBounds f.rd.toNat a.image } }) s

/-- What BRDA reads of an element. -/
def Acc.read32 (a : Acc) (j : Nat) : Nat :=
  let st := a.stat.getD j 0
  if st % 2 = 1 ∨ st / 2 % 4 = 3 then 0x7FC00000
  else if st / 2 % 2 = 1 then 0x7F800000
  else if st / 4 % 2 = 1 then 0xFF800000
  else if a.flags / 2 % 2 = 1 then wrapBits 32 (sati 32 true (a.m.getD j 0))
  else fp32.result .rne false (valOf (a.m.getD j 0) a.e false)

/-- BRDA. -/
def execBrda (f : FBk) (s : State) : Host.Outcome State Fault Refusal :=
  engOp (fun s => do
    engNeed (f.imm14.toNat ≤ 7) bILLEGAL
    let a := Acc.ofImage (s.eng.acc.toArray.getD f.rs.toNat 0)
    pure (s.setB f.rd (BitVec.ofNat 32 (a.read32 f.imm14.toNat)))) s

/-! ### BSEND (R122) -/

/-- An element of an accumulator as it is sent: INT32 clamps whatever SAT says. -/
def Acc.sendBits (a : Acc) (j fmt : Nat) (sat : Bool) : Nat :=
  let v := a.elem j
  if fmt = 4 then (match v with
    | .nan => 2 ^ 31
    | v => toIntFmt 32 true .rne true v)
  else convertTo fmt .rne sat false v

/-- The byte of the plane that a byte of element (0, i, j) of a send tensor lies in: `b` counts from the element's first. -/
def SendTensor.loc (x : SendTensor) (i j b : Nat) : Loc :=
  let t := Ten.of x.desc
  let (cell, k, bit) := t.at 0 i j
  let o := bit / 8 + b
  .cell (cellOf (x.row + cell.1) (x.col + cell.2)) (x.sbase + t.layer + k + o / 32) (o % 32)

/-- The byte `b` of the ACC48 block that element (0, i, j) of a send tensor belongs to (07 R172). -/
def SendTensor.blockLoc (x : SendTensor) (i j b : Nat) : Loc :=
  let t := Ten.of x.desc
  let cell := (t.at 0 i j).1
  let o := 64 * ((i % t.ebr * t.ebc + j % t.ebc) / 8) + b
  .cell (cellOf (x.row + cell.1) (x.col + cell.2)) (x.sbase + t.layer + o / 32) (o % 32)

/-- The bytes that a send writes: each element, or the image as one block. -/
def SendTensor.bytes (x : SendTensor) (image : BitVec 512) (n0 : Nat) (sat : Bool) : List (Loc × Byte) :=
  let t := Ten.of x.desc
  let a := Acc.ofImage image
  if t.fmt = 16 then
    ((leBytes 64 image.toNat).zip (List.range 64)).map fun y => (x.blockLoc (n0 / t.cols) (n0 % t.cols) y.2, y.1)
  else
    (List.range 8).flatMap fun k =>
      let n := n0 + k
      let bs := leBytes (fmtBits t.fmt / 8) (a.sendBits k t.fmt sat)
      (bs.zip (List.range bs.length)).map fun y => (x.loc (n / t.cols) (n % t.cols) y.2, y.1)

/-- BSEND: up to 16 sends of an engine are in flight (R126). An n0 that is out of bounds and no multiple of 8 for ACC48 faults
BANK_BOUND, where R122 names no order (DESIGN CHOICE, log 66). -/
def execBsend (f : FBk) (s : State) : Host.Outcome State Fault Refusal :=
  engStep (fun s =>
    let n0 := (s.B f.rt + immB f).toNat
    match s.engCall with
    | none => .fault bBOUND 0
    | some c =>
      match c.send with
      | none => .fault bBOUND 0
      | some x =>
        let t := Ten.of x.desc
        if t.rows * t.cols ≤ n0 + 7 then .fault bBOUND 0
        else if t.fmt = 16 ∧ n0 % 8 ≠ 0 then .fault bALIGN 0
        else if 16 ≤ (s.sends.filter (·.engine = s.curE.toNat)).length then .hold s
        else
          let bs := x.bytes (s.eng.acc.toArray.getD f.rs.toNat 0) n0 c.sat
          .go { s with opNo := s.opNo + 1, sends := s.sends ++ [⟨s.opNo + 1, c.id, s.curE.toNat, bs⟩] } 1) s

/-! ### Word ops (R123) -/

/-- BRD. -/
def execBrd (f : FBk) (s : State) : Host.Outcome State Fault Refusal :=
  engOp (fun s => do
    let a := s.B f.rs + immB f
    let t ← s.engTarget a 4 4
    let bs ← s.engRead a t 4
    pure ((s.setB f.rd (BitVec.ofNat 32 (leNat bs))).bankEnergy 4)) s

/-- The target of a word write. -/
def State.writeTarget (s : State) (a : BitVec 32) : EngRes ETarget := do
  let t ← s.engTarget a 4 4
  match t with
  | .region r _ => engNeed (r.w = true) bPERM a
  | .buf _ => pure ()
  pure t

/-- A word written. -/
def State.engWrite (s : State) (t : ETarget) (v : BitVec 32) : State :=
  (s.putBytes (((t.locs s.curE.toNat 4).zip (leBytes 4 v.toNat)).map fun x => ⟨x.1.1, x.2, x.1.2⟩)).countCall

/-- BWR. -/
def execBwr (f : FBk) (s : State) : Host.Outcome State Fault Refusal :=
  engOp (fun s => do
    let t ← s.writeTarget (s.B f.rs + immB f)
    pure (s.engWrite t (s.B f.rt))) s

/-- BSIG: a word written once the engine's earlier sends have landed. -/
def execBsig (f : FBk) (s : State) : Host.Outcome State Fault Refusal :=
  engStep (fun s =>
    match s.writeTarget (s.B f.rs + immB f) with
    | .error (c, a) => .fault c a
    | .ok t => if s.sends.any (·.engine = s.curE.toNat) then .hold s else .go (s.engWrite t (s.B f.rt)) 1) s

/-- The buffer word that BWAIT reads. -/
def State.waitWord (s : State) (a : BitVec 32) : EngRes (BitVec 32) := do
  s.engBuffer a
  let t ← s.engTarget a 4 4
  let bs ← s.engRead a t 4
  pure (BitVec.ofNat 32 (leNat bs))

/-- BWAIT. -/
def execBwait (f : FBk) (s : State) : Host.Outcome State Fault Refusal :=
  engStep (fun s =>
    match s.waitWord (s.B f.rs + immB f) with
    | .error (c, a) => .fault c a
    | .ok v => if v = s.B f.rt then .go (s.bankEnergy 4) 1 else .hold { s with eng := { s.eng with waiting := true } }) s

/-- BANK_TIMEOUT (R123): a BWAIT has lasted 2^24 engine cycles. That is no address fault, so its report names no engine address
(R125; log 51). -/
def execBankTimeout (s : State) : Host.Outcome State Fault Refusal :=
  event (fun s =>
    let s := s.atEngine (BitVec.ofNat 10 s.input.unit)
    if s.eng.busy && s.eng.waiting then some (s.engFault bTIMEOUT 0) else none) s

/-- BANK_ILLEGAL (R124): a word that names no op, an accumulator above a7, or a nonzero unused field. -/
def execBankIllegal (s : State) : Host.Outcome State Fault Refusal := engStep (fun _ => .fault bILLEGAL 0) s

end Sys2Proof.Machine
end

