-- ==== Sys2Proof/Machine/Branch.lean ====
section
/-!
DEFINITION. The BRANCH family (09 R217-R222): branches, jump tables and hardware loops.
-/
namespace Sys2Proof.Machine

/-- The link value: the address after a branch of three parcels (09 R217). -/
def State.link (s : State) : Word := s.thr.pc + 12

/-- BR (09 R218). -/
def execBr (f : FB) (s : State) : Host.Outcome State Fault Refusal :=
  issue (.b 0x01 0 f) (fun s => .ok { st := s, flow := .jump (parcelTarget s.thr.pc f.imm32) }) s

/-- BRL (09 R218). -/
def execBrl (f : FB) (s : State) : Host.Outcome State Fault Refusal :=
  issue (.b 0x01 1 f)
    (fun s => .ok { st := s.setX f.xd s.link, flow := .jump (parcelTarget s.thr.pc f.imm32) }) s

/-- RET (09 R218; 02 R20 for a target that is no multiple of 4, which the walker's table goes before, 19 R372). -/
def execRet (f : FB) (s : State) : Host.Outcome State Fault Refusal :=
  issue (.b 0x01 2 f) (fun s => do
    let t := s.X f.xa
    need ((s.thr.walking && s.thr.outsideBody t) = false) cOW_ENGINE 0 (s.owInfo 2)
    need (t.toNat % 4 = 0) cILLEGAL_FORMAT
    pure { st := s, flow := .jump t }) s

/-- The target of a jump table (09 R218): the entry is read with the permission a fetch needs. The state has the table
page's A bit. -/
def State.tableTarget (s : State) (f : FB) : Res (State × Word) := do
  let i := s.X f.xa
  need (i.toNat < f.imm16.toNat) cJT_RANGE 0 i
  let tbl := parcelTarget s.thr.pc f.imm32
  let a := tbl + (i <<< 2)
  match s.parcelAt a with
  | none => raise cFETCH_BOUND a
  | some e => pure (s.touchCode a, parcelTarget tbl e)

/-- JT (09 R218). -/
def execJt (f : FB) (s : State) : Host.Outcome State Fault Refusal :=
  issue (.b 0x01 3 f) (fun s => do
    let (s, t) ← s.tableTarget f
    pure { st := s, flow := .jump t }) s

/-- JTL (09 R218). -/
def execJtl (f : FB) (s : State) : Host.Outcome State Fault Refusal :=
  issue (.b 0x01 4 f) (fun s => do
    let (s, t) ← s.tableTarget f
    pure { st := s.setX f.xd s.link, flow := .jump t }) s

/-- Entering a hardware loop of `n` iterations (09 R219, R220). -/
def State.enterLoop (s : State) (n : BitVec 32) (stop : Word) (index : BitVec 6) (step : BitVec 16) (indexed : Bool) :
    Res Done := do
  if n = 0 then pure { st := s, flow := .skip stop }
  else
    need (s.thr.loopStack.length < 4) cLOOP_DEPTH
    pure { st := s.withThr (s.thr.setLoops
             (⟨s.thr.pc + 12, stop, n, index, step, indexed, false⟩ :: s.thr.loopStack)) }

/-- LOOP (09 R220): a false guard acts as a count of 0. -/
def execLoop (f : FB) (s : State) : Host.Outcome State Fault Refusal :=
  issueWith (.b 0x01 5 f) (fun s => { st := s, flow := .skip (parcelTarget s.thr.pc f.imm32) })
    (fun s => s.enterLoop ((s.X f.xa).setWidth 32) (parcelTarget s.thr.pc f.imm32) 0 0 false) s

/-- LOOPX (09 R220). -/
def execLoopx (f : FB) (s : State) : Host.Outcome State Fault Refusal :=
  issueWith (.b 0x01 6 f) (fun s => { st := s, flow := .skip (parcelTarget s.thr.pc f.imm32) })
    (fun s => s.enterLoop ((s.X f.xa).setWidth 32) (parcelTarget s.thr.pc f.imm32) f.xd f.imm16 true) s

/-- LBRK (09 R222): the innermost loop alone is left (log 33). In a walker body it leaves neither the walker's own loop nor the
body (19 R372). -/
def execLbrk (f : FB) (s : State) : Host.Outcome State Fault Refusal :=
  issue (.b 0x01 7 f) (fun s =>
    match s.thr.loopStack with
    | [] => raise cLOOP_DEPTH
    | l :: r =>
      if s.thr.walking && (l.walker || s.thr.outsideBody l.stop) then raise cOW_ENGINE 0 (s.owInfo 2)
      else .ok { st := s.withThr { (s.thr.setLoops r) with pc := l.stop }, flow := .set }) s

end Sys2Proof.Machine
end

