-- ==== Sys2Proof/Machine/Pmove.lean ====
section
/-!
DEFINITION. The PMOVE family: scrolls with their unit steps (08 R190-R199), PLCOPY (R200) and PLFILL (R201).
-/
namespace Sys2Proof.Machine

/-- A signed step toward zero: what remains of a shift after one unit step. -/
def towardZero (v : Int) : Int := if 0 < v then v - 1 else if v < 0 then v + 1 else 0

/-- The lines of a frame in the direction of motion, each from its trailing to its leading edge (08 R191). -/
def Ten.lines (t : Ten) (vertical : Bool) (positive : Bool) : List (List (Nat × Nat)) :=
  let l := if vertical then
      (List.range t.w).map fun c => (List.range t.h).map fun r => (t.row0 + r, t.col0 + c)
    else (List.range t.h).map fun r => (List.range t.w).map fun c => (t.row0 + r, t.col0 + c)
  if positive then l else l.map List.reverse

/-- The cell `k` cells beyond a cell along the motion, inside the plot (08 R191). -/
def Plot.beyond (p : Plot) (vertical positive : Bool) (k : Nat) (x : Nat × Nat) : Option (Nat × Nat) :=
  let d : Int := if positive then k else -(k : Int)
  let r : Int := x.1 + if vertical then d else 0
  let c : Int := x.2 + if vertical then 0 else d
  if 0 ≤ r ∧ r < p.h ∧ 0 ≤ c ∧ c < p.w then some (r.toNat, c.toNat) else none

/-- The moved rows of a cell; a void cell reads as zero (08 R191). -/
def State.contents (s : State) (t : Ten) (x : Nat × Nat) : List Row :=
  let c := s.thr.plot.cell x.1 x.2
  (List.range t.depth).map fun k => if s.isVoid c then {} else s.row c (s.thr.plot.sbase + t.layer + k)

/-- The moved rows of a cell replaced; its full/empty bits stay, and a void cell discards them (08 R190, R191). -/
def State.setContents (s : State) (t : Ten) (x : Nat × Nat) (rows : List Row) : State :=
  let c := s.thr.plot.cell x.1 x.2
  if s.isVoid c then s
  else (rows.zip (List.range rows.length)).foldl (fun s y =>
    let r := s.thr.plot.sbase + t.layer + y.2
    s.setRow c r { s.row c r with data := y.1.data, poison := y.1.poison }) s

/-- The vacant contents: TD's FILL pattern in the fill mode, zero otherwise (08 R191). -/
def Ten.vacant (t : Ten) (mode : BitVec 2) : List Row :=
  let w := if mode = 3 then (List.range 8).foldl (fun n i => n + t.fill * 2 ^ (32 * i)) 0 else 0
  List.replicate t.depth { data := BitVec.ofNat 256 w }

/-- One line of a unit step (08 R191): the new contents of its cells and what SPILL puts beyond the frame. -/
def State.stepLine (s : State) (td : Ten) (mode : BitVec 2) (carry vertical positive : Bool) (k : Nat) (line : List (Nat × Nat)) :
    List ((Nat × Nat) × List Row) × Bool :=
  let q := if carry then line.filter fun x => !s.isVoid (s.thr.plot.cell x.1 x.2) else line
  let old := q.map (s.contents td)
  match old.getLast? with
  | none => ([], false)
  | some last =>
    let first := if mode = 1 then last else td.vacant mode
    let spill := if mode = 2 then
        ((line.getLast?.bind (s.thr.plot.beyond vertical positive k)).map fun c => (c, last)).toList
      else []
    (q.zip (first :: old.dropLast) ++ spill, old.any fun rs => rs.any (·.poison))

/-- One unit step of a scroll (08 R191, R195): vertical steps first; the second result says whether a moved row was poisoned.
-/
def State.scrollStep (s : State) (sc : Scroll) : State × Scroll × Bool :=
  let td := Ten.of sc.td
  let fr := Ten.of sc.frame
  let vertical := sc.dy ≠ 0
  let v := if vertical then sc.dy else sc.dx
  let rs := (fr.lines vertical (0 < v)).map (s.stepLine td sc.mode sc.carry vertical (0 < v) v.natAbs)
  let s' := (rs.flatMap (·.1)).foldl (fun t x => t.setContents td x.1 x.2) s
  (s', if vertical then { sc with dy := towardZero sc.dy } else { sc with dx := towardZero sc.dx }, rs.any (·.2))

/-- The rectangle that SPILL writes: of the frame and of the frame moved, clipped to the plot (08 R192). -/
def Ten.swept (t : Ten) (p : Plot) (dy dx : Int) : Ten :=
  let r0 := max 0 (min (t.row0 : Int) (t.row0 + dy))
  let r1 := min (p.h : Int) (max (t.row0 + t.h : Int) (t.row0 + t.h + dy))
  let c0 := max 0 (min (t.col0 : Int) (t.col0 + dx))
  let c1 := min (p.w : Int) (max (t.col0 + t.w : Int) (t.col0 + t.w + dx))
  { t with row0 := r0.toNat, h := (r1 - r0).toNat, col0 := c0.toNat, w := (c1 - c0).toNat }

/-- A scroll's issue (08 R190, R192, R196): its steps follow as events. -/
def scrollForm (fn : Nat) (args : State → Ten → Int × Int × BitVec 2 × Bool) (f : FT) (s : State) :
    Host.Outcome State Fault Refusal :=
  issue (.t 0x70 fn f) (fun s => do
    let td := Ten.of (s.T f.td)
    need (td.own = true) cSPACE
    need (f.ta = 0 ∨ (Ten.of (s.T f.ta)).own = true) cSPACE
    let fd := if f.ta = 0 then s.T f.td else s.T f.ta
    let r := Ten.of fd
    let frame : Ten := { td with row0 := r.row0, col0 := r.col0, h := r.h, w := r.w }
    let (dy, dx, mode, carry) := args s td
    let all := if mode = 2 then frame.swept s.thr.plot dy dx else frame
    s.powered [frame, all]
    let fps := frame.fp true ++ if mode = 2 then all.fp true else []
    let s ← s.begin' fps [td, frame] 6 ((dy.natAbs + dx.natAbs) * td.depth)
    pure { st := s.hold fps false (.scroll ⟨s.T f.td, fd, mode, carry, dy, dx⟩) }) s

/-- SCROLL (08 R199): the immediate shift with TD's mode and holes. -/
def execScroll (f : FT) (s : State) : Host.Outcome State Fault Refusal :=
  scrollForm 0 (fun _ td => (sfld f.imm18 0 9, sfld f.imm18 9 9, BitVec.ofNat 2 td.edge, td.hole = 1)) f s

/-- SCROLLX (08 R199): the shift from X[XS], mode and holes from the instruction. -/
def execScrollx (f : FT) (s : State) : Host.Outcome State Fault Refusal :=
  scrollForm 1 (fun s _ => (sfld (s.X f.xs) 0 16, sfld (s.X f.xs) 16 16, f.imm18.extractLsb' 0 2, f.imm18.getLsbD 2)) f s

/-- An accumulator seen as the double words of its blocks; another tensor as it is. -/
def Ten.words (t : Ten) : Ten := if t.fmt = 16 then { t with fmt := 6, kind := 1 } else t

/-- Double word `q` of an ACC48 image as every write of an image leaves it: EXP sign-extended, reserved bits 0 (10 R246). -/
def canonWord (q v : Nat) : Nat := fld (Acc.ofImage (BitVec.ofNat 512 (v % 2 ^ 64 * 2 ^ (64 * q)))).image (64 * q) 64

/-- An element as a copy writes it: of an accumulator, double word `j mod 8` of its block in the cell (07 R172, 10 R246). -/
def Ten.copied (t : Ten) (i j v : Nat) : Nat := if t.fmt = 16 then canonWord ((i % t.ebr * t.ebc + j % t.ebc) % 8) v else v

/-- PLCOPY (08 R200): blocks of an accumulator are copied whole. -/
def execPlcopy (f : FT) (s : State) : Host.Outcome State Fault Refusal :=
  issue (.t 0x70 2 f) (fun s =>
    let td := Ten.of (s.T f.td)
    let ta := Ten.of (s.T f.ta)
    s.vrun f.edg
      { td := td.words, srcs := [(ta.words, f.wa)], weight := 6, busy := td.depth
        ok := td.own && ta.own && td.fmt = ta.fmt && td.lbr = ta.lbr && td.lbc = ta.lbc && td.h = ta.h && td.w = ta.w
          && td.depth = ta.depth && !(td.fmt = 16 && td.cutsBlock (s.E f.edg))
        val := fun s _ xs d i j =>
          let (bs, bad) := s.srcsAt xs d i j
          (td.copied i j (b0 bs), bad) }) s

/-- PLFILL (08 R201). -/
def execPlfill (f : FT) (s : State) : Host.Outcome State Fault Refusal :=
  issue (.t 0x70 3 f) (fun s =>
    let td := Ten.of (s.T f.td)
    let v := (s.X f.xs).toNat
    s.vrun f.edg { td := td, weight := 6, busy := td.depth, ok := td.kind = 1 || td.kind = 3
                   val := fun _ _ _ _ _ _ => (v, false) }) s

/-- Does a scroll stand still: its slot is stopped by a debugger, or its item is to be saved outside a handler (08 R194; log 23)? -/
def State.scrollStands (s : State) : Bool :=
  s.curDbg.stopped || (s.thr.phase == .running && !s.thr.priv && s.thr.term.isNone && match s.thr.preempt with
    | .save _ => true
    | _ => false)

/-- SCROLL_UNIT_STEP (08 R191). -/
def execScrollUnitStep (s : State) : Host.Outcome State Fault Refusal :=
  slotEvent (fun s => do
    let o ← s.opNamed s.input.unit
    match o.work with
    | .scroll sc =>
      if (sc.dy = 0 ∧ sc.dx = 0) ∨ s.scrollStands then none
      else
        let (s', sc', bad) := s.scrollStep sc
        some (s'.setOp { o with work := .scroll sc', poison := o.poison || bad })
    | _ => none) s

end Sys2Proof.Machine
end

