-- ==== Sys2Proof/Machine/Power.lean ====
section
/-!
DEFINITION. The POWER family (22 R422-R424) and the expiry of a hint.
-/
namespace Sys2Proof.Machine

/-- Clock of an operating point in MHz (22 R409). -/
def pointMHz (p : Nat) : Nat := 1750 - 250 * p

/-- Vmin of an operating point in 5 mV units (22 R409). -/
def pointVmin (p : Nat) : Nat :=
  match p with
  | 0 => 160
  | 1 => 148
  | 2 => 136
  | 3 => 124
  | 4 => 116
  | _ => 110

/-- Ticks of device time in a µs (23 R427). -/
def ticksPerUs : Nat := 16000

/-- A thread's hint set or cleared (22 R423). -/
def Thread.setHint (t : Thread) (kind : BitVec 3) (til : Option Word) (no : Nat) : Thread :=
  { t with hint := kind, hintUntil := til, hintNo := no }

/-- PWRHINT (22 R423). -/
def execPwrhint (f : FE) (s : State) : Host.Outcome State Fault Refusal :=
  pureOp (.e 0xD0 0 f) (fun s =>
    let u := min (fld (s.X f.xa) 0 32) (2 ^ 20)
    let now := s.dieTime.toArray.getD (dieOf s.cl) 0
    s.withThr (s.thr.setHint (f.sysn.extractLsb' 0 3) (if u = 0 then none else some (now + BitVec.ofNat 64 (u * ticksPerUs)))
      s.stepNo)) s

/-- The debits of a cluster's cycle in progress: those of the charged instructions that have begun (22 R411). -/
def Cluster.debits (k : Cluster) : Int := ((k.charges.filter (·.begun)).map (·.cost)).sum

/-- What CHGRD reads (22 R424): the balance after the debits of instructions already begun (log 64). -/
def State.chargeRead (s : State) (sel : Nat) : Word :=
  match sel with
  | 0 => BitVec.ofInt 64 ((s.cluster s.cl).balance.toInt - (s.cluster s.cl).debits)
  | 1 => s.thr.heldCycles.setWidth 64
  | _ => BitVec.ofNat 64 s.thr.lastCost

/-- CHGRD (22 R424; recorded by 23 R445). -/
def execChgrd (f : FE) (s : State) : Host.Outcome State Fault Refusal :=
  pureOp (.e 0xD0 1 f) (fun s =>
    let v := s.chargeRead (fld f.sysn 0 2)
    (s.record v).setX f.xd v) s

/-- HINT_EXPIRY (22 R423). -/
def execHintExpiry (s : State) : Host.Outcome State Fault Refusal :=
  slotEvent (fun s =>
    match s.thr.hintUntil with
    | some t => if t ≤ s.dieTime.toArray.getD (dieOf s.cl) 0 then some (s.withThr (s.thr.setHint 0 none 0)) else none
    | none => none) s

end Sys2Proof.Machine
end

