-- ==== Sys2Proof/Machine/Save.lean ====
section
/-!
DEFINITION. Pre-emption (20 R397-R402): the choice of DRAIN, FLUSH or SAVE, the save area, the save, the restore and the
flush.
-/
namespace Sys2Proof.Machine

/-! ### The save area (20 R399; log 13) -/

/-- Words, lowest byte first. -/
def wordBytes (l : List Word) : List Byte := l.flatMap fun v => leBytes 8 v.toNat

/-- The four 32-byte entries of the loop stack, outermost first. -/
def loopWords (l : List Loop) : List Word :=
  let r := l.reverse
  (List.range 4).flatMap fun i => match r[i]? with
    | none => [0, 0, 0, 0]
    | some x => [x.start, x.stop, x.remaining.setWidth 64, BitVec.ofNat 64 (x.step.toNat * 2 ^ 16 + x.index.toNat)]

/-- The operand log as OPLA, OPLP and OPLC of each entry. -/
def Thread.logWords (t : Thread) : List Word := (List.range 8).flatMap fun n => [t.opla n, t.oplp n, t.oplc n]

/-- ESTAT as it stands, and the other trap registers; EPC names a scroll that the save stops between its steps (08 R194). -/
def Thread.trapWords (t : Thread) : List Word :=
  [t.tvec.setWidth 64, (t.scrollInfo.map (·.1)).getD (t.epc.setWidth 64), t.ecause.setWidth 64, t.estat.setWidth 64, t.eaddr, t.einfo
   , t.drainbud.setWidth 64, 0]

/-- The thread-control registers, LATECNT and the scroll's EINFO. -/
def Thread.controlWords (t : Thread) : List Word :=
  [t.stkbase.setWidth 64, t.stklim.setWidth 64, t.fewait.setWidth 64, t.deadline.setWidth 64, t.lateWord
   , (t.scrollInfo.map (·.2)).getD 0, 0, 0]

/-- The walker's registers. -/
def Walker.words (o : Walker) : List Word :=
  [o.stateWord, o.countWord, o.perf.setWidth 64, 0] ++ o.wins.toList.map (fun w => w.base.setWidth 64)
    ++ o.wins.toList.map (·.lenWord)

/-- The pending set, 64 entries of four bytes. -/
def Walker.pendingBytes (o : Walker) : List Byte :=
  (List.range 64).flatMap fun i => match o.pending[i]? with
    | none => List.replicate 4 0xFF
    | some x => leBytes 4 (x.1 * 2 ^ 29 + x.2)

/-- WP, DONE, the next batch number and the next call token. -/
def Thread.copyBytes (t : Thread) : List Byte :=
  t.chans.toList.flatMap (fun h => leBytes 4 h.wp.toNat) ++ t.chans.toList.flatMap (fun h => leBytes 2 h.done.toNat)
    ++ leBytes 2 (t.batchNo + 1).toNat ++ leBytes 2 (t.callNo + 1).toNat ++ List.replicate 4 0

/-- The groups, the current one first and marked, and their count. -/
def State.groupWords (s : State) (t : Thread) : List Word :=
  ((List.range 15).map fun i => match t.groups[i]? with
    | none => 0
    | some m =>
      let va := ((s.group m.gid).map (·.record)).getD 0
      BitVec.ofNat 64 ((if i = 0 then 2 ^ 63 else 0) + m.rank.toNat * 2 ^ 48 + va.toNat % 2 ^ 48))
    ++ [BitVec.ofNat 64 t.groups.length]

/-- The plot's extents, PLOTORG and the check value of its void positions. -/
def Thread.plotBytes (t : Thread) (voids : List Nat) : List Byte :=
  leBytes 4 (t.plotH / 4 + t.plotW / 4 * 2 ^ 8 + t.plotD * 2 ^ 16)
    ++ leBytes 8 (t.sbase.toNat * 2 ^ 16 + t.col.toNat * 2 ^ 8 + t.row.toNat)
    ++ leBytes 4 (Config.voidCheck voids).toNat

/-- The save area up to the plot image. -/
def State.headBytes (s : State) (t : Thread) (voids : List Nat) : List Byte :=
  wordBytes ((0 : Word) :: t.x.toList.drop 1 ++ t.xp.toList ++ [t.pc &&& 0xFFFFFFFFFFFF, t.p.setWidth 64 &&& 0x7F]
      ++ (0xFFFF0000FFFF0000 :: t.e.toList.drop 1) ++ loopWords t.loops ++ t.logWords ++ t.trapWords ++ t.controlWords
      ++ t.ow.words)
    ++ t.ow.pendingBytes ++ t.copyBytes ++ wordBytes (s.groupWords t) ++ t.plotBytes voids ++ (List.range 352).map (Config.areaGap s.stepNo)
    ++ (List.replicate 32 0 ++ (t.t.toList.drop 1).flatMap fun d => leBytes 32 d.toNat)

/-- Rows of a plot in the image's order: per plot row, then per cell in row-major order. -/
def Plot.imageRows (p : Plot) : List (Nat × Nat × Nat) :=
  (List.range p.d).flatMap fun k => (List.range p.h).flatMap fun r => (List.range p.w).map fun c => (k, r, c)

/-- A row as a save shows it: a void cell's is zero and full. -/
def State.imageRow (s : State) (p : Plot) (x : Nat × Nat × Nat) : Row :=
  let c := p.cell x.2.1 x.2.2
  if s.isVoid c then { full := 0xFF } else s.row c (p.sbase + x.1)

/-- Bits packed into bytes, the first in bit 0. -/
def packBits (l : List Bool) : Nat → List Byte
  | 0 => []
  | n + 1 => BitVec.ofNat 8 (((l.take 8).zip (List.range 8)).map fun x => x.1.toNat * 2 ^ x.2).sum :: packBits (l.drop 8) n

/-- The 80 bytes of a weight plane: its weights, its format (0xFF for empty), its scales, CBLO, CBHI, its poison bit, and zeros; their
order is the model's (13 R271; 20 R399; log 13). -/
def WPlane.bytes (w : WPlane) : List Byte :=
  leBytes 64 w.data.toNat ++ [(w.fmt.map fun f => f.setWidth 8).getD 0xFF] ++ leBytes 8 w.scales.toNat
    ++ [w.cblo.setWidth 8, w.cbhi.setWidth 8, BitVec.ofNat 8 w.poison.toNat] ++ List.replicate 4 0

/-- A weight plane from its 80 bytes. -/
def planeOf (bs : List Byte) : WPlane :=
  { data := BitVec.ofNat 512 (leNat (bs.take 64))
    fmt := if bs.getD 64 0 = 0xFF then none else some ((bs.getD 64 0).setWidth 5)
    scales := BitVec.ofNat 64 (leNat ((bs.drop 65).take 8)), cblo := (bs.getD 73 0).setWidth 4, cbhi := (bs.getD 74 0).setWidth 4
    poison := (bs.getD 75 0).getLsbD 0 }

/-- The matrix units that an item claims, by plot-relative cell. -/
def State.claimed (s : State) (uid : Nat) (p : Plot) : NMap MUnit :=
  s.units.filterMap fun u =>
    if u.2.owner = some uid then some ((cellRow u.1 - p.row) * 256 + (cellCol u.1 - p.col), u.2) else none

/-- The plot image, with the planes of its matrix units when one is claimed. -/
def State.imageBytes (s : State) (t : Thread) : List Byte :=
  let rows := t.plot.imageRows.map (s.imageRow t.plot)
  let claimed := s.claimed t.src.uid t.plot
  let cells := (List.range t.plotH).flatMap fun r => (List.range t.plotW).map fun c => r * 256 + c
  rows.flatMap (fun r => leBytes 32 r.data.toNat) ++ rows.map (·.full)
    ++ packBits (rows.map (·.poison)) ((rows.length + 7) / 8)
    ++ (if claimed.isEmpty then [] else cells.flatMap fun x =>
        (NMap.get {} claimed x).active.bytes ++ (NMap.get {} claimed x).shadow.bytes)

/-! ### Pre-emption asked for (20 R397) -/

/-- The cycles that an item still expects to run; none where it expects nothing (20 R397). -/
def Thread.leftCycles (t : Thread) : Option Nat := if t.src.cycles = 0 then none else some (t.src.cycles.toNat - t.cyc.toNat)

/-- FLUSH for an idempotent item, else SAVE. -/
def Thread.flushOrSave (t : Thread) (area : Word) : Preempt := if t.src.pf.getLsbD 8 then .flush else .save area

/-- What the hardware chooses for an item: DRAIN where the cycles left take no longer than its budget at the clock of its cluster's
point (20 R397). -/
def State.choose (s : State) (k : SlotNo) (t : Thread) (area : Word) : Preempt :=
  match t.leftCycles with
  | some n => if n * 1000 ≤ t.drainbud.toNat * pointMHz (s.cluster (slotCluster k)).point.toNat then .drain area else t.flushOrSave area
  | none => t.flushOrSave area

/-- The group records of an item's groups, written at its save (15 R318). -/
def State.writeGroups (s : State) (t : Thread) : State :=
  t.groups.foldl (fun s m => match s.group m.gid with
    | some g => s.writeRecord g
    | none => s) s

/-- A thread as its save keeps it: what it waited in is left, hints and debug registers are not kept, and what it has outstanding
is logged. -/
def Thread.atSave (t : Thread) : Thread :=
  { t with waiting := false, granted := none, growing := none, yieldTo := [], preempt := .none, hint := 0, hintUntil := none
           hintNo := 0, heldCycles := 0, lastCost := 0, saves := t.saves + 1
           outs := t.outs.map fun o => { o with logged := true }
           watchA := Vector.replicate 4 0, watchC := Vector.replicate 4 0, bp := Vector.replicate 4 0 }

/-- Is an op a scroll? -/
def PlaneOp.isScroll (o : PlaneOp) : Bool := match o.work with
  | .scroll _ => true
  | _ => false

/-- What a slot's scrolls have still to be debited is taken out of its cluster: they run there no longer (22 R410). -/
def State.dropCharges (s : State) (k : SlotNo) (t : Thread) : State :=
  let c := slotCluster k
  let mine (x : Charge) : Bool := t.ops.any fun o => o.no = x.op && o.isScroll
  s.setCluster c { s.cluster c with charges := (s.cluster c).charges.filter fun x => !mine x }

/-- The save area written and the plot and the matrix claim released; the item waits at the head of its queue and is
reported saved (20 R398 steps 3, 4; R400). None where the area cannot be written. -/
def State.saveThread (s : State) (k : SlotNo) (t : Thread) (area : Word) (park : Option ParkRec) (halted : Bool) :
    Option State := do
  let voids := s.listedVoids t.plot
  let units := s.claimed t.src.uid t.plot
  let s := s.writeGroups t
  let s ← s.agentWrite t.root t.vf area.toNat (s.headBytes t.atSave voids)
  let s ← s.agentWrite t.root t.vf (area.toNat + 0x1000) (s.imageBytes t)
  let s := ((if t.tracedItem then s.emit 0x04 k.toNat t.vf.toNat 0 else s).freeUnits t.src.uid).dropWaiters t.plot
  let s := s.dropCharges k t
  let s := { s with saved := s.saved ++ [(⟨t.atSave, area, units, voids, park, halted⟩ : Saved)]
                    reports := s.reports ++ [Report.saved t.src.uid] }
  some (s.mapQueue t.src.queue.toNat fun q => q.hold (QEntry.saved t.src.uid :: q.entries))

/-- Queue entries of an item dropped. -/
def State.dropEntry (s : State) (q : Nat) (e : QEntry) : State :=
  s.mapQueue q fun x => x.hold (x.entries.filter fun y => y ≠ e)

/-- A parked item is always saved (20 R397; log 29), once nothing is on its way into its plot and no event of it is held (23 R434). -/
def State.saveParked (s : State) (p : Parked) (area : Word) : Option State := do
  if !s.quiet p.thr.src.uid p.thr.plot || s.heldEvents p.slot p.thr then none
  let s := { s with parked := s.parked.filter fun x => x.thr.src.uid ≠ p.thr.src.uid }
  let s := s.dropEntry p.thr.src.queue.toNat (.parked p.thr.src.uid)
  s.saveThread p.slot p.thr area (some ⟨p.wait, p.frame, p.resume, p.eligible⟩) false

/-- An item asked to stop. -/
def State.setPreempt (s : State) (k : SlotNo) (p : Preempt) : State :=
  let s := s.setThread k { s.thread k with preempt := p }
  match p with
  | .drain _ => s.emitSlot k 0x07 0
  | _ => s

/-- PREEMPT_REQUEST (20 R397) for one item: `unit` is the item, `value` the save area. -/
def execPreemptRequest (s : State) : Host.Outcome State Fault Refusal :=
  event (fun s =>
    let uid := s.input.unit
    let area : Word := s.input.value.setWidth 64
    match s.slotOfUid uid with
    | some k =>
      let t := s.thread k
      if t.phase ≠ .running ∨ t.term.isSome ∨ t.preempt ≠ .none then none
      else if (NMap.get {} s.dbg k.toNat).stopped then some (s.setPreempt k (.save area))
      else some (s.setPreempt k (s.choose k t area))
    | none => do
      let p ← s.parked.find? fun p => p.thr.src.uid == uid
      s.saveParked p area) s

/-- DRAIN_EXPIRY (20 R397): the item of the slot is pre-empted again, by SAVE alone where a debugger has it stopped (23 R441). -/
def execDrainExpiry (s : State) : Host.Outcome State Fault Refusal :=
  slotEvent (fun s =>
    match s.thr.preempt with
    | .drain area =>
      if s.thr.phase != .running || s.thr.term.isSome then none
      else some (s.setPreempt s.cur (if s.curDbg.stopped then .save area else s.thr.flushOrSave area))
    | _ => none) s

/-! ### The save (20 R398) -/

/-- Are the outstanding accesses complete but for those behind one that waits for what may never come, which leaves its queue and is
re-issued (17 R363, 20 R398, R401)? -/
def State.outsDone (s : State) : Bool := s.thr.openOuts.head?.all s.outHeld

/-- Plane ops that a save may leave unfinished: a scroll that has steps left, and the cover map that a loop holds. -/
def PlaneOp.saveable (o : PlaneOp) : Bool :=
  o.untilLoopEnds || match o.work with
  | .scroll sc => !(sc.dy = 0 ∧ sc.dx = 0)
  | _ => false

/-- Has the work that a save waits for completed (20 R398 steps 1 to 3)? -/
def State.saveReady (s : State) : Bool :=
  s.thr.sq.isEmpty && s.thr.ops.all (·.saveable) && s.thr.copies.isEmpty && s.outsDone
    && !s.bankBusy s.thr.src.uid && s.plotQuiet

/-- The thread at the boundary at which it is taken: it leaves what it waits in, and a prefix before its instruction is issued again. -/
def State.stand (s : State) : State :=
  let s := s.leaveEvery
  s.withThr { s.thr with pc := s.thr.here, ord := none }

/-- SAVE (20 R398-R400). -/
def execSaveItem (s : State) : Host.Outcome State Fault Refusal :=
  slotEvent (fun s =>
    match s.thr.preempt with
    | .save area =>
      let s := s.rewound
      if s.takable && !s.traceWaits && s.saveReady then do
        let halted := s.curDbg.stopped
        let s := s.stand
        let s' ← s.saveThread s.cur s.thr area none halted
        some s'.vacate
      else none
    | _ => none) s

/-! ### The flush (20 R398) -/

/-- A FLUSH discards a scroll with its item, and the cluster is debited for it no longer (08 R194; 22 R410). -/
def State.dropScrolls (s : State) : State :=
  let s := s.dropCharges s.cur s.thr
  s.withThr { s.thr with ops := s.thr.ops.filter fun o => !o.isScroll }

/-- What the next execution of a flushed item remembers of this one (23 R437). -/
def Thread.pastOf (t : Thread) : Past :=
  let p := t.src.past
  { traps := p.traps + t.traps, saves := p.saves + t.saves, flushes := p.flushes + 1, late := t.lateItem
    energy := p.energy + t.energy, occupied := p.occupied + t.occupied, started := t.started }

/-- The item gives up its plot and waits at the head of its queue as its original record (20 R398, R401). -/
def State.flushThread (s : State) : State :=
  let t := s.thr
  let s := t.groups.foldl (fun s m => s.leaveGroup t.src.uid m.gid false) s
  let s := (((s.forgetCalls t.src.uid).freeUnits t.src.uid).dropWaiters t.plot).emitItem 0x06 t.item.toNat
  let s := s.mapQueue t.src.queue.toNat fun q => q.hold (QEntry.item { t.src with past := t.pastOf, place := none } :: q.entries)
  { s with reports := s.reports ++ [Report.flushed t.src.uid] }.vacate

/-- Has the work that a flush waits for completed: what was running, while what waits for what may never come is given up? -/
def State.flushReady (s : State) : Bool :=
  s.thr.sq.isEmpty && s.thr.opsDone && s.thr.copies.isEmpty && s.outsDone && !s.bankBusy s.thr.src.uid && s.plotQuiet

/-- FLUSH (20 R398): unstarted work is discarded at once, and once the rest has completed the item goes back to its queue. A slot that a
debugger has stopped is not flushed (23 R441). -/
def execFlushItem (s : State) : Host.Outcome State Fault Refusal :=
  slotEvent (fun s =>
    match s.thr.preempt with
    | .flush =>
      let s := s.rewound
      if s.flushable && !s.traceWaits && !s.curDbg.stopped then
        let s := s.stand.dropBank s.thr.src.uid
        let s := (s.withThr s.thr.dropCopies).dropScrolls
        some (if s.flushReady then s.flushThread else s)
      else none
    | _ => none) s

/-! ### The restore (20 R400) -/

/-- A word of a save area. -/
def areaWord (bs : List Byte) (off : Nat) : Word := BitVec.ofNat 64 (leNat ((bs.drop off).take 8))

/-- A bit field of an area. -/
def areaNat (bs : List Byte) (off n : Nat) : Nat := leNat ((bs.drop off).take n)

/-- Entry `i` of the loop stack of an area, outermost first: none where it is empty. Whether it is the walker's own is not in the
area. The PC is a multiple of 4 (02 R20). -/
def areaLoop (bs : List Byte) (was : List Loop) (i : Nat) : Option Loop :=
  let w (k : Nat) : Word := areaWord bs (0x290 + 32 * i + 8 * k)
  let idx : BitVec 6 := (w 3).setWidth 6
  if w 0 = 0 ∧ w 1 = 0 ∧ w 2 = 0 ∧ w 3 = 0 then none
  else some { start := w 0 &&& ~~~3, stop := w 1 &&& ~~~3, remaining := (w 2).setWidth 32, index := idx, step := (w 3).extractLsb' 16 16
              indexed := idx ≠ 0, walker := was.reverse[i]?.any (·.walker) }

/-- The general registers, predicates, edge registers, descriptors and loops of an area. -/
def Thread.fromArea (t : Thread) (bs : List Byte) : Thread :=
  let t := { t with x := Vector.ofFn fun i => areaWord bs (8 * i.val), xp := Vector.ofFn fun i => areaWord bs (0x200 + 8 * i.val) }
  let t := { t with pc := areaWord bs 0x240 &&& 0xFFFFFFFFFFFC, p := (areaWord bs 0x248).setWidth 8 &&& 0x7F }
  let t := { t with e := Vector.ofFn fun i => areaWord bs (0x250 + 8 * i.val) }
  let t := { t with t := Vector.ofFn fun i => BitVec.ofNat 256 (areaNat bs (0x800 + 32 * i.val) 32) }
  { t with loops := ((List.range 4).filterMap (areaLoop bs t.loops)).reverse }

/-- Entry `n` of the log of an area: its operands, which no register shows, are kept beside the area. -/
def areaOut (bs : List Byte) (was : List Out) (n : Nat) : Option Out :=
  let w (k : Nat) : Word := areaWord bs (0x310 + 24 * n + 8 * k)
  let trap (o : Out) : Trap := { o.faulted.getD ⟨0, w 0, 0⟩ with cause := (w 2).setWidth 16 }
  match was[n]? with
  | none => none
  | some o =>
    if !(w 1).getLsbD 63 then none
    else some { o with ea := w 0, pc := (w 1).setWidth 48 |>.setWidth 64, dest := (w 2).extractLsb' 32 6, opc := (w 2).extractLsb' 24 8
                       fn := (w 2).extractLsb' 16 8, faulted := if (w 1).getLsbD 62 then some (trap o) else none }

/-- The trap and control registers and the operand log of an area, with what remains of a stopped scroll (08 R194). -/
def Thread.controlFrom (t : Thread) (bs : List Byte) : Thread :=
  let w (i : Nat) : Word := areaWord bs (0x3D0 + 8 * i)
  let c (i : Nat) : Word := areaWord bs (0x410 + 8 * i)
  let t := { t with tvec := (w 0).setWidth 48 &&& 0xFFFFFFFFFFFC, epc := (w 1).setWidth 48, ecause := (w 2).setWidth 16 }
  let t := { t with estat := (w 3).setWidth 16, eaddr := w 4, einfo := w 5, drainbud := (w 6).setWidth 32 }
  let t := { t with stkbase := (c 0).setWidth 48, stklim := (c 1).setWidth 48, fewait := (c 2).setWidth 32, deadline := (c 3).setWidth 16 }
  let t := { t with ltrap := (c 4).getLsbD 63, maxlate := (c 4).extractLsb' 32 16, latecnt := (c 4).setWidth 32 }
  let left (sc : Scroll) : Scroll := { sc with dy := (fld (c 5) 0 16 : Int) - (if (c 5).getLsbD 15 then 65536 else 0)
                                               dx := (fld (c 5) 16 16 : Int) - (if (c 5).getLsbD 31 then 65536 else 0) }
  let first := t.ops.findIdx fun o => match o.work with
    | .scroll sc => !(sc.dy = 0 ∧ sc.dx = 0)
    | _ => false
  let ops := (t.ops.zip (List.range t.ops.length)).map fun x => match x.1.work with
    | .scroll sc => if x.2 = first && (c 5).getLsbD 32 then { x.1 with work := .scroll (left sc) } else x.1
    | _ => x.1
  { t with outs := (List.range 8).filterMap (areaOut bs t.outs), ops := ops }

/-- The walker's registers and pending set of an area, with as many declarations as it counts; these, the cover map and the index register
are kept beside it. -/
def Walker.fromArea (o : Walker) (bs : List Byte) : Walker :=
  let w (i : Nat) : Word := areaWord bs (0x450 + 8 * i)
  let win (i : Nat) : OwWin := { base := (w (4 + i)).setWidth 48, len := (w (12 + i)).setWidth 32, gran := (w (12 + i)).extractLsb' 36 4
                                 bitoff := (w (12 + i)).extractLsb' 40 24 }
  let pend (i : Nat) : Option (Nat × Nat) :=
    let v := areaNat bs (0x4F0 + 4 * i) 4
    if v = 0xFFFFFFFF then none else some (v / 2 ^ 29, v % 2 ^ 29)
  { o with act := (w 0).getLsbD 63, wmask := (w 0).extractLsb' 32 8, iter := (w 0).setWidth 32, supp := (w 1).extractLsb' 32 32
           skip := (w 1).setWidth 32, perf := (w 2).setWidth 32, wins := Vector.ofFn fun i => win i.val
           decls := o.decls.take (fld (w 0) 53 3)
           pending := (List.range 64).filterMap pend }

/-- WP, DONE and the batch and call numbers of an area. -/
def Thread.countsFrom (t : Thread) (bs : List Byte) : Thread :=
  { t with chans := t.chans.mapFinIdx fun i c _ => { c with wp := BitVec.ofNat 32 (areaNat bs (0x5F0 + 4 * i) 4)
                                                            done := BitVec.ofNat 16 (areaNat bs (0x600 + 2 * i) 2) }
           batchNo := BitVec.ofNat 16 (areaNat bs 0x608 2) - 1, callNo := BitVec.ofNat 16 (areaNat bs 0x60A 2) - 1
           ow := t.ow.fromArea bs }

/-- The groups of an area: the live groups whose records it names, the marked one first. -/
def State.groupsFrom (s : State) (t : Thread) (bs : List Byte) : List Membership :=
  let l := (List.range (areaNat bs 0x688 1 % 16)).filterMap fun i =>
    let v := areaNat bs (0x610 + 8 * i) 8
    (s.groups.find? fun g => g.root == t.root && g.vf == t.vf && g.record.toNat == bits v 0 48).map fun g =>
      (bits v 63 1 == 1, (⟨g.gid, BitVec.ofNat 12 (bits v 48 12)⟩ : Membership))
  ((l.filter fun x => x.1) ++ l.filter fun x => !x.1).map (·.2)

/-- The plot rows of an image of `n` rows at a new place. -/
def State.loadImage (s : State) (p : Plot) (bs : List Byte) : State :=
  let rows := p.imageRows
  let n := rows.length
  (rows.zip (List.range n)).foldl (fun s x =>
    let c := p.cell x.1.2.1 x.1.2.2
    if s.isVoid c then s
    else
      let poison := (bs.getD (33 * n + x.2 / 8) 0).getLsbD (x.2 % 8)
      s.setRow c (p.sbase + x.1.1)
        ⟨BitVec.ofNat 256 (leNat ((bs.drop (32 * x.2)).take 32)), bs.getD (32 * n + x.2) 0, poison⟩) s

/-- The matrix units of a saved item at a new place, from the planes behind its image. -/
def State.loadUnits (s : State) (uid : Nat) (p : Plot) (cells : List Nat) (bs : List Byte) : State :=
  cells.foldl (fun s x =>
    let l := bs.drop (160 * (x / 256 * p.w + x % 256))
    s.setUnit (p.cell (x / 256) (x % 256)) ⟨some uid, planeOf (l.take 80), planeOf ((l.drop 80).take 80)⟩) s

/-- A saved item's plot and planes reloaded at a place (20 R400 step 1), with its thread as the area holds it. None where the
area cannot be read. -/
def State.reload (s : State) (v : Saved) (p : Plot) : Option (State × Thread) := do
  let n := p.imageRows.length
  let body := 33 * n + (n + 7) / 8
  let (s, hb) ← s.agentRead v.thr.root v.thr.vf v.area.toNat 0x1000
  let (s, ib) ← s.agentRead v.thr.root v.thr.vf (v.area.toNat + 0x1000) (body + if v.units.isEmpty then 0 else 160 * (p.h * p.w))
  let s := ((s.clearRows p none).loadImage p ib).loadUnits v.thr.src.uid p (v.units.map (·.1)) (ib.drop body)
  let s := { s with saved := s.saved.filter fun x => x.thr.src.uid ≠ v.thr.src.uid }
  let t := ((v.thr.fromArea hb).controlFrom hb).countsFrom hb
  some (s, { t with groups := s.groupsFrom t hb }.placed p)

/-- The charges of the steps that remain to the scrolls of a slot's thread: each is debited in the busy cycles of its own steps (22
R410). -/
def State.scrollCharges (s : State) (k : SlotNo) : List Charge :=
  let u := s.atSlot k
  u.thr.ops.filterMap fun o => match o.work with
    | .scroll sc =>
      let td := Ten.of sc.td
      let fr := Ten.of sc.frame
      let c := 6 * u.widest [td, { td with row0 := fr.row0, col0 := fr.col0, h := fr.h, w := fr.w }]
      let n := (sc.dy.natAbs + sc.dx.natAbs) * td.depth
      if c = 0 ∨ n = 0 then none else some ⟨k.toNat, c, n, true, o.no, u.thr.src.uid⟩
    | _ => none

/-- The scrolls of a slot's thread charged for their remaining steps. -/
def State.rechargeScrolls (s : State) (k : SlotNo) : State :=
  let c := slotCluster k
  let l := s.scrollCharges k
  if l.isEmpty then s else s.setCluster c { s.cluster c with charges := (s.cluster c).charges ++ l }

/-- A saved item restored on a slot (20 R400). -/
def State.restore (s : State) (v : Saved) (p : Plot) (k : SlotNo) : Option State := do
  let (s, t) ← s.reload v p
  match v.park with
  | some r =>
    let x : Parked := { thr := t, wait := r.wait, frame := r.frame, resume := r.resume, eligible := false, slot := k }
    let s := { s with parked := s.parked ++ [x] }
    some (if r.eligible then s.wake x else s)
  | none =>
    let s := (s.seat k t).rechargeScrolls k
    let d : Dbg := NMap.get {} s.dbg k.toNat
    let s := if v.halted then { s with dbg := NMap.put {} s.dbg k.toNat { d with haltReq := true } } else s
    some (s.emitStart k 0x05)

end Sys2Proof.Machine
end

