-- ==== Sys2Proof/Machine/Items.lean ====
section
/-!
DEFINITION. The launch engine and the scheduler on their own (15 R307, R311-R313, R317, R323-R325; 20 R400), what the system
cores set up, and the reset of a partition (14 R295; 05 R109, R138; 06 R151; 15 R316, R321, R325).
-/
namespace Sys2Proof.Machine

/-! ### Rings (R307) -/

/-- A ring halts: it is counted and reported, and reads nothing more (R307). -/
def State.haltRing (s : State) (r : Nat) : State :=
  let s := s.ringBad r
  { s with rings := NMap.put {} s.rings r { NMap.get {} s.rings r with halted := true } }

/-- A packet read whole: HEAD advances, then the packet is validated (R307, R308). -/
def State.takePacket (s : State) (c : RingCfg) (b : RingBlk) (bytes : List Byte) : Option State := do
  let s ← s.agentWrite c.root c.vf (c.block.toNat + 16) (leBytes 4 ((b.head + 64) % b.size))
  some (s.acceptPacket (c.ring.setWidth 8) c.part c.vf c.root s.deviceId bytes).1

/-- LAUNCH_RING_READ (R307): the launch engine acquires TAIL and reads the packet at HEAD, or the ring halts. -/
def execLaunchRingRead (s : State) : Host.Outcome State Fault Refusal :=
  event (fun s => do
    let r := s.input.unit
    let c ← s.ringCfg r
    if (NMap.get {} s.rings r).halted || !s.boot.marked then none
    else
      let writable := match s.agentLocs none c.root c.vf true (vaRange c.block.toNat 64) with
        | .ok _ => true
        | .error _ => false
      match s.ringBlk c.root c.vf c.block.toNat with
      | none => some (s.haltRing r)
      | some (s, b) =>
        if !writable || b.tail % 64 ≠ 0 || b.size ≤ b.tail then some (s.haltRing r)
        else if b.tail = b.head then some s
        else match s.agentRead c.root c.vf (b.base + b.head) 64 with
          | none => some (s.haltRing r)
          | some (s, bytes) => s.takePacket c b bytes) s

/-- RING_RESET (R307): reading resumes at the HEAD that the system cores set. -/
def execRingReset (s : State) : Host.Outcome State Fault Refusal :=
  event (fun s => do
    let r := s.input.unit
    let c ← s.ringCfg r
    let s := (s.agentWrite c.root c.vf (c.block.toNat + 16) (leBytes 4 (s.input.value.toNat % 2 ^ 32))).getD s
    some { s with rings := NMap.put {} s.rings r { NMap.get {} s.rings r with halted := false } }) s

/-! ### Queues (R311, R312) -/

/-- Shares of a partition's queues, without one queue. -/
def State.sharesBut (s : State) (part : BitVec 4) (q : Nat) : Nat :=
  (s.queues.map fun x => if x.1 ≠ q ∧ x.2.part = part ∧ x.2.enabled then x.2.share else 0).sum

/-- A queue configured; refused when a partition's shares would pass 1,024 (R311). Records in it stay where they stand. -/
def State.setQueue (s : State) (c : QueueCfg) : State :=
  if 1024 < c.share + s.sharesBut c.part c.q.toNat then s
  else
    let q : Queue := NMap.get {} s.queues c.q.toNat
    { s with queues := NMap.put {} s.queues c.q.toNat { q with part := c.part, enabled := true, capacity := c.capacity, share := c.share
                                                               area := c.area } }

/-- QUEUE_CONFIG (R311). -/
def execQueueConfig (s : State) : Host.Outcome State Fault Refusal :=
  event (fun s => match s.input.payload with
    | .queue c => some (s.setQueue c)
    | _ => none) s

/-- PRIORITY_AGING (R312): the head of a queue has waited another 2^21 network cycles. -/
def execPriorityAging (s : State) : Host.Outcome State Fault Refusal :=
  event (fun s =>
    let q := NMap.get ({} : Queue) s.queues s.input.unit
    if q.entries.isEmpty then none else some (s.mapQueue s.input.unit fun q => { q with boost := q.boost + 1 })) s

/-! ### Dispatch (R312-R314, R317; 20 R400) -/

/-- The item that a launch entry yields next (R309). -/
def Launch.itemRec (l : Launch) : ItemRec :=
  { code := l.code, frame := l.arg, join := 0, rodsH := l.rodsH, rodsW := l.rodsW, depth := l.depth
    pf := BitVec.ofNat 16 (fld l.prio 0 3 + fld l.flags 0 1 * 2 ^ 8 + fld l.flags 2 1 * 2 ^ 9 + fld l.flags 3 1 * 2 ^ 10)
    dl := l.dl, item := l.next, nitems := l.items, launch := l.id, ring := l.ring, seq := l.seq, part := l.part, vf := l.vf
    root := l.root, queue := l.queue.setWidth 6, cycles := l.cycles, age := l.age }

/-- A parked item. -/
def State.parkedOf (s : State) (uid : Nat) : Option Parked := s.parked.find? fun p => p.thr.src.uid == uid
/-- A saved item. -/
def State.savedOf (s : State) (uid : Nat) : Option Saved := s.saved.find? fun v => v.thr.src.uid == uid

/-- A candidate of a dispatch decision: its queue, the entry with a launch entry replaced by the item it yields, and the
item's record. -/
structure Cand where
  q : Nat
  entry : QEntry
  src : ItemRec
  boost : Nat
  credit : Int

/-- The head of a queue as a candidate; none while a replicated launch lacks an acceptance or the launch engine waits for
trace (R324; 23 R434). -/
def State.headOf (s : State) (q : Nat) (x : Queue) : Option Cand := do
  let e ← x.entries.head?
  match e with
  | .launch id => do
    let l ← s.launches.find? (·.id == id)
    if !l.lacks.isEmpty || s.launchHeld l then none
    else some ⟨q, .item l.itemRec, l.itemRec, x.boost, x.credit⟩
  | .item r => some ⟨q, .item (s.recordNow r), s.recordNow r, x.boost, x.credit⟩
  | .parked uid => (s.parkedOf uid).map fun p => ⟨q, e, p.thr.src, x.boost, x.credit⟩
  | .saved uid => (s.savedOf uid).map fun v => ⟨q, e, v.thr.src, x.boost, x.credit⟩

/-- The extents of an entry's plot, and the saved item that it is. -/
def State.wants (s : State) (e : QEntry) (r : ItemRec) : Nat × Nat × Nat × Option Saved :=
  match e with
  | .saved uid => match s.savedOf uid with
    | some v => (v.thr.plotH, v.thr.plotW, v.thr.plotD, some v)
    | none => (4 * r.rodsH, 4 * r.rodsW, r.depth, none)
  | _ => (4 * r.rodsH, 4 * r.rodsW, r.depth, none)

/-- What the allocator does with a candidate: a place now, a place held back for it, or neither. -/
inductive Verdict where
  | place (p : Plot)
  | hold (p : Plot)
  | no

/-- The allocator's answer (R313). A parked item keeps its plot and needs an idle slot of its cluster (R317). -/
def State.judge (s : State) (part : Nat) (c : Cand) : Verdict :=
  match c.entry with
  | .parked uid => match s.parkedOf uid with
    | some p => if (s.idleSlot p.thr.plot.home).isSome then .place p.thr.plot else .no
    | none => .no
  | e =>
    let (h, w, d, v) := s.wants e c.src
    match findPlace (s.grants part v) h w d with
    | some p => .place p
    | none => match findPlace (s.wouldGrant part v) h w d with
      | some p => .hold p
      | none => .no

/-- The effective priority (R312). -/
def Cand.prio (c : Cand) : Nat := min 7 (fld c.src.pf 0 3 + c.boost)

/-- Does a candidate go before another: priority, then the earlier DL with 0 last (14 R293), then the older one, then the lower
queue (R312)? -/
def Cand.before (a b : Cand) : Bool :=
  if a.prio ≠ b.prio then b.prio < a.prio
  else if a.src.dl ≠ b.src.dl then
    a.src.dl ≠ 0 && (b.src.dl = 0 || 32768 ≤ (a.src.dl - b.src.dl).toNat)
  else a.src.age < b.src.age || (a.src.age = b.src.age && a.q < b.q)

/-- The first of a list under an order. -/
def bestBy {α : Type} (lt : α → α → Bool) : List α → Option α
  | [] => none
  | x :: r => some (r.foldl (fun m y => if lt y m then y else m) x)

/-- The pick and whether it was owed (R312). -/
def pickOf (l : List (Cand × Verdict)) : Option ((Cand × Verdict) × Bool) :=
  let owed := l.filter fun x => 1024 ≤ x.1.credit
  match bestBy (fun a b => b.1.credit < a.1.credit) owed with
  | some x => some (x, true)
  | none => (bestBy (fun a b => a.1.before b.1) l).map fun x => (x, false)

/-- The head of a queue leaves it: a launch entry stays until it has yielded its last item (R309). -/
def State.popHead (s : State) (q : Nat) : State :=
  match (NMap.get ({} : Queue) s.queues q).entries with
  | [] => s
  | .launch id :: r =>
    let s := s.mapLaunch id fun l => { l with next := l.next + 1 }
    match s.launches.find? (·.id == id) with
    | some l => if l.next.toNat < l.items.toNat then s else s.mapQueue q fun x => x.hold r
    | none => s.mapQueue q fun x => x.hold r
  | _ :: r => s.mapQueue q fun x => x.hold r

/-- Credits after a dispatch (R312). -/
def State.giveCredits (s : State) (part : BitVec 4) (q : Nat) (owed : Bool) : State :=
  let f (k : Nat) (x : Queue) : Queue :=
    let gain := if x.part = part ∧ x.enabled ∧ !x.entries.isEmpty then (x.share : Int) else 0
    { x with credit := x.credit + gain - (if owed ∧ k = q then 1024 else 0) }
  { s with queues := s.queues.map fun x => (x.1, f x.1 x.2) }

/-- A parked item starts at its resume address on an idle slot (R317): its plot, planes, groups and counts are kept. -/
def State.resume (s : State) (p : Parked) (k : SlotNo) : State :=
  let o := p.thr
  let t := (newThread o.src p.resume p.frame).placed o.plot
  let t := { t with groups := o.groups, started := o.started, lateItem := o.lateItem, cyc := o.cyc, energy := o.energy, term := o.term }
  let t := { t with traps := o.traps, saves := o.saves, flushes := o.flushes, occupied := o.occupied }
  let t := match (NMap.get {} s.parts o.part.toNat).cfg with
    | some c => t.configured c k
    | none => t
  let s := { s with parked := s.parked.filter fun x => x.thr.src.uid ≠ o.src.uid }
  (s.seat k t).emitStart k 0x01

/-- An entry starts in a place (R313, R314, R317; 20 R400). -/
def State.startEntry (s : State) (e : QEntry) (p : Plot) : Option State := do
  let k ← s.idleSlot p.home
  match e with
  | .item r => some (s.startItem r p k)
  | .parked uid => (s.parkedOf uid).map fun x => s.resume x k
  | .saved uid => do
    let v ← s.savedOf uid
    s.restore v p k
  | .launch _ => none

/-- The reservations of a partition replaced. -/
def State.setReserves (s : State) (part : Nat) (l : List Reserve) : State :=
  { s with parts := NMap.put {} s.parts part { NMap.get {} s.parts part with reserves := l } }

/-- A reservation whose occupants have ended, with the rest (R313). -/
def State.readyReserve (s : State) (part : Nat) : Option (Reserve × List Reserve) :=
  let l := (NMap.get {} s.parts part).reserves
  l.findSome? fun r =>
    let rest := l.filter fun x => x ≠ r
    let s' := s.setReserves part rest
    if s'.grants part (s.wants r.entry {}).2.2.2 r.plot then some (r, rest) else none

/-- One dispatch decision of a partition (R312). -/
def State.pickEntry (s : State) (part : Nat) : Option State := do
  let heads := s.queues.filterMap fun x =>
    if x.2.enabled && x.2.part.toNat = part then s.headOf x.1 x.2 else none
  let judged := (heads.map fun c => (c, s.judge part c)).filter fun x => match x.2 with
    | .no => false
    | _ => true
  let ((c, v), owed) ← pickOf judged
  let s := (s.popHead c.q).giveCredits (BitVec.ofNat 4 part) c.q owed
  match v with
  | .place p => s.startEntry c.entry p
  | .hold p =>
    let r : Reserve := ⟨c.q, c.entry, p.row, p.col, p.sbase, p.h, p.w, p.d⟩
    some (s.setReserves part ((NMap.get {} s.parts part).reserves ++ [r]))
  | .no => none

/-- DISPATCH (R312, R313): a reserved record whose place has come free starts first. -/
def execDispatchItem (s : State) : Host.Outcome State Fault Refusal :=
  event (fun s =>
    let part := s.input.unit
    match s.readyReserve part with
    | some (r, rest) => (s.setReserves part rest).startEntry r.entry r.plot
    | none => s.pickEntry part) s

/-! ### Replicated launches (R323, R324) -/

/-- REPLICA_ACCEPT (R324): `unit` is the origin, `aux` the device that accepts, `value` the generation. -/
def execReplicaAccept (s : State) : Host.Outcome State Fault Refusal :=
  event (fun s =>
    let origin := BitVec.ofNat 8 s.input.unit
    let dev := BitVec.ofNat 8 s.input.aux
    let gen := s.input.value.setWidth 32
    match s.launches.find? fun l => l.replicated && l.origin == origin && l.gen == gen with
    | some l =>
      if l.lacks.contains dev then
        let l' := { l with lacks := l.lacks.filter (· ≠ dev) }
        some ((s.mapLaunch l.id fun _ => l').passBarrier l')
      else none
    | none => some { s with early := s.early ++ [(origin, gen, dev)] }) s

/-- START_TIMEOUT (R324): `unit` is the launch; its record waits while an event of it is held (23 R434). -/
def execStartTimeout (s : State) : Host.Outcome State Fault Refusal :=
  event (fun s => do
    let l ← s.launches.find? (·.id == s.input.unit)
    if l.lacks.isEmpty || s.launchHeld l then none
    else some ((s.dropEntry l.queue.toNat (.launch l.id)).finishLaunch l 3)) s

/-- REPLICATED_PACKET (R323): a packet of the ring `unit` of device `aux`. -/
def execReplicatedPacket (s : State) : Host.Outcome State Fault Refusal :=
  event (fun s => do
    let c ← s.ringCfg s.input.unit
    match s.input.payload with
    | .bytes bs =>
      if bits (leNat bs) 209 1 = 0 ∨ s.input.aux = s.deviceId.toNat then none
      else some (s.acceptPacket (c.ring.setWidth 8) c.part c.vf c.root (BitVec.ofNat 8 s.input.aux) bs).1
    | _ => none) s

/-! ### Faults from outside -/

/-- FAULT_RING_SPACE (20 R393): the consumer of a partition's fault ring moves HEAD on by the reports it has read. -/
def execFaultRingSpace (s : State) : Host.Outcome State Fault Refusal :=
  event (fun s => do
    let c ← (NMap.get {} s.parts s.input.unit).cfg
    let (s, b) ← s.ringBlk c.root c.vf c.faultBlock.toNat
    if b.head = b.tail ∨ b.size = 0 then none
    else s.agentWrite c.root c.vf (c.faultBlock.toNat + 16) (leBytes 4 ((b.head + 64) % b.size))) s

/-- The leaf of a byte of space 0 that lies in a page of another device: its level, where it has one (04 R91, R94). -/
def State.peerLeaf (s : State) (a : Word) : Option Nat :=
  if spaceOf a ≠ 0 then none
  else match s.lookup (some s.cl) s.thr.root s.thr.vf (offsetOf a) false with
    | .ok x => if x.peer ≠ 0 && x.peer ≠ s.deviceId.toNat then some (whyInfo x.level 4) else none
    | .error w => if w % 16 = 4 then some w else none

/-- PEER_TIMEOUT (14 R304): the oldest open access of the slot, or with `flag` its oldest queued store, has had no answer from a peer for
2^18 network cycles. A load or an atomic faults, at its first byte of a peer; a store ends the item (20 R392). -/
def execPeerTimeout (s : State) : Host.Outcome State Fault Refusal :=
  slotEvent (fun s =>
    if s.input.flag then do
      let e ← s.thr.sq.head?
      if e.peers.isEmpty || s.thr.sqStuck e then none else some (s.failStore e)
    else do
      let o ← s.thr.openOuts.head?
      let u := s.withRoot o.root
      let a ← (s.outBytes o).1.find? fun a => (u.peerLeaf a).isSome
      some (s.meetsTrap o ⟨cNOTMAPPED, a, BitVec.ofNat 64 ((u.peerLeaf a).getD 0)⟩)) s

/-! ### Partition reset -/

/-- J decremented for an item that a reset ends (15 R316). Where it cannot be, nothing is written, and an item that had not failed
yields its report with that cause; none while the report has no place (20 R393), but with `force` it is then given up. -/
def State.resetJoin (s : State) (force : Bool) (k : SlotNo) (t : Thread) : Option State :=
  if t.src.join = 0 then some s
  else
    let u := (s.atSlot k).withThr t
    let back (u : State) : State := u.withThr (s.atSlot k).thr
    match u.joinAdd t.src.join (BitVec.allOnes 64) with
    | .ok u => some (back (u.wakeOn t t.src.join))
    | .error (.trap tr) =>
      if t.term.isSome then some s
      else
        let told := (u.pushReport k t { cause := tr.cause, pc := t.lastPc, addr := t.src.join, time := s.time }).map back
        if force then some (told.getD s) else told
    | .error _ => some s

/-- An item that a reset ends counted in its launch. -/
def State.resetCount (s : State) (t : Thread) : State := s.mapLaunch t.src.launch fun l => l.count t true

/-- The end of an item that a reset ends, in the trace (23 R430, R437): its END event, and its stamp record. -/
def State.resetEnd (s : State) (k : SlotNo) (t : Thread) : State :=
  let u := ((s.atSlot k).withThr t).emitEnd 3 true
  u.withThr (s.atSlot k).thr

/-- The slot of a partition's item given up, with what it held and what its instructions have still to be debited. -/
def State.resetSlot (s : State) (k : SlotNo) : State :=
  let s := ((s.atSlot k).leaveEvery.dropWaiters (s.atSlot k).thr.plot).vacate
  s.setCluster s.cl { s.cluster s.cl with charges := (s.cluster s.cl).charges.filter fun x => x.slot ≠ k.toNat }

/-- The bank side of a reset (05 R109, R138): its engines cleared, the calls, sends and commands of its items gone. -/
def State.resetEngines (s : State) (part : BitVec 4) (uids : List Nat) : State :=
  let gone := (s.calls.filter fun c => uids.contains c.uid).map (·.id)
  let clear (s : State) (e : Nat) : State :=
    if (s.engine (BitVec.ofNat 10 e)).part = some part then s.setEngine (BitVec.ofNat 10 e) { part := some part } else s
  let s := (List.range 768).foldl clear s
  { s with calls := s.calls.filter fun c => !uids.contains c.uid
           sends := s.sends.filter fun x => !gone.contains x.call
           cmdq := s.cmdq.filterMap fun q =>
             let l := q.2.filter fun c => !uids.contains c.uid
             if l.isEmpty then none else some (q.1, l) }

/-- The groups of a partition dissolved, their records zeroed (15 R321, R322). -/
def State.resetGroups (s : State) (part : BitVec 4) : State :=
  let mine := s.groups.filter fun g => g.part = part
  let s := { s with groups := s.groups.filter fun g => g.part ≠ part }
  mine.foldl (fun s g => (s.agentWrite g.root g.vf g.record.toNat (List.replicate 64 0)).getD s) s

/-- Queues and reservations of a partition emptied. -/
def State.resetQueues (s : State) (part : BitVec 4) : State :=
  let f (x : Queue) : Queue := if x.part = part then { x with entries := [], boost := 0 } else x
  ({ s with queues := s.queues.map fun (x : Nat × Queue) => (x.1, f x.2) }).setReserves part.toNat []

/-- The launches of a partition end CANCELLED, what was not dispatched counted as failed (15 R325). -/
def State.cancelLaunches (s : State) (part : BitVec 4) : State :=
  (s.launches.filter fun l => l.part = part).foldl (fun s l =>
    s.finishLaunch { l with cancelled := true, failed := BitVec.ofNat 32 (l.expected - l.ok.toNat) } 5) s

/-- Held trace events of the partition's functions discarded (23 R434). -/
def State.resetTrace (s : State) (part : BitVec 4) : State :=
  let vfs := s.rings.filterMap fun x => x.2.cfg.bind fun c => if c.part = part then some c.vf.toNat else none
  let held (v : Nat) : Bool := vfs.contains v && (NMap.get {} s.traces v).halted
  { s with events := s.events.filter fun e => !held e.vf.toNat
           traces := s.traces.map fun x => if vfs.contains x.1 then (x.1, { x.2 with halted := false }) else x }

/-- The report of an item that has failed and whose report had no place yet (20 R393); none while it has none, but with `force` it is
given up. -/
def State.resetReport (s : State) (force : Bool) (k : SlotNo) (t : Thread) : Option State :=
  match t.term with
  | some f => if t.reported then some s else if force then some ((s.pushReport k t f).getD s) else s.pushReport k t f
  | none => some s

/-- An item that a reset ends, once its groups are dissolved: its report, J, its END event with the stamp record, and its count (15 R316,
23 R437). -/
def State.resetItem (s : State) (force : Bool) (x : Option SlotNo × Thread) : Option State := do
  let s ← s.resetReport force (x.1.getD 0) x.2
  let s ← s.resetJoin force (x.1.getD 0) x.2
  let s := match x.1 with
    | some k => s.resetEnd k x.2
    | none => s
  some (s.resetCount x.2)

/-- A partition is reset: nothing of its items goes on, its engines are cleared, its groups dissolve and its launches end
CANCELLED; flits that carry its number are dropped (14 R295; log 62). None while a report of it has no place; with `force` it does
not wait for one. -/
def State.resetPartition (s : State) (part : BitVec 4) (force : Bool := false) : Option State := do
  let slots := (s.liveSlots.filter fun k => (s.thread k).part = part).map fun k => (some k, s.thread k)
  let parked := (s.parked.filter fun p => p.thr.part = part).map fun p => (some p.slot, p.thr)
  let saved := (s.saved.filter fun v => v.thr.part = part).map fun v => ((none : Option SlotNo), v.thr)
  let all := slots ++ parked ++ saved
  let uids := all.map fun x => x.2.src.uid
  let s := (slots.filterMap (·.1)).foldl State.resetSlot s
  let s := { s with parked := s.parked.filter fun p => p.thr.part ≠ part, saved := s.saved.filter fun v => v.thr.part ≠ part
                    flights := s.flights.filter fun f => f.part ≠ part }
  let s := (s.resetEngines part uids).resetGroups part
  let s := { s with units := s.units.filter fun u => !uids.any fun uid => u.2.owner = some uid }
  let s ← all.foldlM (fun s x => s.resetItem force x) s
  some (((s.resetQueues part).cancelLaunches part).resetTrace part)

/-- PARTITION_RESET (14 R295): `unit` is the partition. -/
def execPartitionReset (s : State) : Host.Outcome State Fault Refusal :=
  event (fun s => s.resetPartition (BitVec.ofNat 4 s.input.unit)) s

/-- ENGINE_PARTITION_ASSIGN (05 R108): engine `unit` goes to partition `aux`, or with `flag` to none. An engine with commands
is not moved. -/
def execEnginePartitionAssign (s : State) : Host.Outcome State Fault Refusal :=
  event (fun s =>
    let e := s.input.unit
    if 768 ≤ e then none
    else
      let g := s.engine (BitVec.ofNat 10 e)
      if g.busy || 0 < s.queueDepth e then none
      else some (s.setEngine (BitVec.ofNat 10 e)
        { g with part := if s.input.flag then none else some (BitVec.ofNat 4 s.input.aux) })) s

end Sys2Proof.Machine
end

