-- ==== Sys2Proof/Machine/PowerCtl.lean ====
section
/-!
DEFINITION. The power control block and what clusters do each cycle (22 R408-R421): rails, operating points, charge, droop,
samples, energy and temperature.
-/
namespace Sys2Proof.Machine

/-! ### Rails and clusters (R408, R409) -/

/-- Rail `r`. -/
def State.rail (s : State) (r : Nat) : Rail := s.power.rails.toArray.getD r {}
/-- The state with a rail replaced. -/
def State.setRail (s : State) (r : Nat) (v : Rail) : State :=
  { s with power := { s.power with rails := s.power.rails.setIfInBounds r v } }

/-- The ON clusters of a rail. -/
def State.railClusters (s : State) (r : Nat) : List Cluster :=
  ((List.range 256).map s.cluster).filter fun k => k.on && k.rail.toNat = r

/-- The voltage that a cluster needs: that of its point, and of the faster point that it is about to hop to (R409, R416). -/
def State.needs (s : State) (c : Nat) : Nat :=
  let d := s.power.dvfs
  let v := pointVmin (s.cluster c).point.toNat
  if d.stage = some .hop ∧ d.target.toNat = c then max v (pointVmin d.point.toNat) else v

/-- VNOW of a rail as its ON clusters and its floor set it (R409). -/
def State.voltage (s : State) (r : Nat) : Nat :=
  ((List.range 256).filter fun c => (s.cluster c).on && (s.cluster c).rail.toNat = r).foldl (fun v c => max v (s.needs c))
    (s.rail r).vfloor.toNat

/-- A rail brought to its voltage. -/
def State.revolt (s : State) (r : Nat) : State := s.setRail r { s.rail r with vnow := BitVec.ofNat 8 (s.voltage r) }

/-- A refused write: PCERR names its offset and why (R408). -/
def State.refuse (s : State) (offset why : Nat) : State :=
  { s with power := { s.power with errOffset := BitVec.ofNat 16 offset, errWhy := BitVec.ofNat 8 why } }

/-- A request in progress for a cluster (R417). -/
def State.dvfsBusy (s : State) (c : Nat) : Bool := s.power.dvfs.stage.isSome && s.power.dvfs.target.toNat = c

/-- Why a RAILCTL write is refused; 0 where it is not (R408). -/
def State.railWhy (s : State) (r : Nat) (v : Word) : Nat :=
  if !v.getLsbD 0 && (s.railClusters r).length ≠ 0 then 4
  else if fld v 8 8 < 110 || 160 < fld v 8 8 then 5
  else 0

/-- A write of RAILCTL `r` (R408). -/
def State.writeRail (s : State) (r : Nat) (v : Word) : State :=
  let why := s.railWhy r v
  if why ≠ 0 then s.refuse (8 * r) why
  else (s.setRail r { s.rail r with ilim := v.extractLsb' 32 16, vfloor := v.extractLsb' 8 8, en := v.getLsbD 0 }).revolt r

/-- RAILCTL_WRITE (R408): rail `unit`. -/
def execRailctlWrite (s : State) : Host.Outcome State Fault Refusal :=
  event (fun s => if 4 ≤ s.input.unit then none else some (s.writeRail s.input.unit (s.input.value.setWidth 64))) s

/-- Why a CLCTL write is refused; 0 where it is not (R408): first a request in progress for the cluster (R417). -/
def State.clWhy (s : State) (c : Nat) (v : Word) : Nat :=
  let k := s.cluster c
  if s.dvfsBusy c then 6
  else if k.on && v.getLsbD 0 && fld v 1 2 ≠ k.rail.toNat then 1
  else if fld v 24 16 = 0 || fld v 40 24 < fld v 24 16 then 2
  else if v.getLsbD 0 && !(s.rail (fld v 1 2)).en then 3
  else 0

/-- CLCTL written: a balance of CAP when the domain is switched on (R408). -/
def Cluster.written (k : Cluster) (v : Word) : Cluster :=
  let on := v.getLsbD 0
  let cap : BitVec 24 := v.extractLsb' 40 24
  { k with cap := cap, refill := v.extractLsb' 24 16, rail := v.extractLsb' 1 2, on := on
           balance := if on && !k.on then cap.setWidth 40 else k.balance }

/-- Has a virtual function a live item or an enabled ring (R420)? -/
def State.vfLive (s : State) (v : Nat) : Bool :=
  (s.liveSlots.any fun k => (s.thread k).vf.toNat = v) || (s.parked.any fun p => p.thr.vf.toNat = v)
    || s.rings.any fun r => !r.2.halted && r.2.cfg.any fun c => c.vf.toNat = v

/-- A write of VFENERGY `v` (R420). -/
def State.writeVfenergy (s : State) (v : Nat) (w : Word) : State :=
  if s.vfLive v then s.refuse (0x1100 + 8 * v) 7
  else { s with power := { s.power with vfenergy := NMap.put 0 s.power.vfenergy v w, vfpart := NMap.put 0 s.power.vfpart v 0 } }

/-- VFENERGY_WRITE (R420): function `unit`. -/
def execVfenergyWrite (s : State) : Host.Outcome State Fault Refusal :=
  event (fun s => if 64 ≤ s.input.unit then none else some (s.writeVfenergy s.input.unit (s.input.value.setWidth 64))) s

/-! ### Operating points (R415-R417, R421) -/

/-- A DVFS event (23 R430): the cluster and the STATUS of a request that has been denied or has ended. -/
def State.emitDvfs (s : State) (cluster status : Nat) : State := s.emitDev 0x43 0xE42 (cluster * 256 + status)

/-- Does the current of a rail exceed its limit, with cluster `c` at a point (R415 check 5)? Σ REFILL · MHz · V in units of 5 mV
against ILIM · 512·10^6. -/
def State.exceeds (s : State) (c p : Nat) : Bool :=
  let s := s.setCluster c { s.cluster c with point := BitVec.ofNat 3 p }
  let r := (s.cluster c).rail.toNat
  let sum := ((s.railClusters r).map fun k => k.refill.toNat * pointMHz k.point.toNat).sum
  (s.rail r).ilim.toNat * 512000000 < sum * s.voltage r

/-- The STATUS of the first check that a request fails; 0 where it passes (R415). -/
def State.dvfsCheck (s : State) (c p : Nat) : Nat :=
  let k := s.cluster c
  if s.power.dvfs.stage.isSome then 5
  else if 6 ≤ p || !k.on then 6
  else if pointVmin p < (s.rail k.rail.toNat).vfloor.toNat then 3
  else if p < (k.thermalCap.map (·.toNat)).getD 0 then 7
  else if s.exceeds c p then 4
  else 0

/-- The fields of a request in progress. -/
def State.setDvfs (s : State) (d : Dvfs) : State := { s with power := { s.power with dvfs := d } }

/-- A change of a cluster's point begins: a faster one with the rail, a slower one with the hop (R416). -/
def State.beginHop (s : State) (c p : Nat) (thermal : Bool) : State :=
  let stage := if p < (s.cluster c).point.toNat then DvfsStage.rampUp else DvfsStage.hop
  s.setDvfs { s.power.dvfs with stage := some stage, target := BitVec.ofNat 8 c, point := BitVec.ofNat 3 p, thermal := thermal }

/-- With no change in progress, the lowest cluster that runs faster than its thermal cap is slowed to it (R421). -/
def State.capNext (s : State) : State :=
  if s.power.dvfs.stage.isSome then s
  else
    let hot (c : Nat) : Bool :=
      let k := s.cluster c
      k.on && k.point.toNat < (k.thermalCap.map (·.toNat)).getD 0
    match (List.range 256).find? hot with
    | some c => s.beginHop c (((s.cluster c).thermalCap.map (·.toNat)).getD 0) true
    | none => s

/-- A change of point has ended (R416). A thermal cap's is not DVFSSTAT's. -/
def State.endHop (s : State) : State :=
  let d := s.power.dvfs
  let s := s.setDvfs { d with stage := none, thermal := false, status := if d.thermal then d.status else 2 }
  let s := if d.thermal then s else s.emitDvfs d.target.toNat 2
  s.capNext

/-- A write of DVFSREQ, checked at once (R415). -/
def State.writeDvfsreq (s : State) (v : Word) : State :=
  let c := fld v 8 8
  let p := fld v 0 3
  let why := s.dvfsCheck c p
  let d := { s.power.dvfs with seq := s.power.dvfs.seq + 1, cluster := BitVec.ofNat 8 c, status := BitVec.ofNat 4 why }
  if why ≠ 0 then (s.setDvfs d).emitDvfs c why
  else if p = (s.cluster c).point.toNat then (s.setDvfs { d with status := 2 }).emitDvfs c 2
  else (s.setDvfs { d with status := 1 }).beginHop c p false

/-- DVFS_REQUEST (R415). -/
def execDvfsRequest (s : State) : Host.Outcome State Fault Refusal :=
  event (fun s => some (s.writeDvfsreq (s.input.value.setWidth 64))) s

/-- The cells of a cluster by number (01 R12). -/
def cellsOfCluster (c : Nat) : List Nat :=
  (List.range 16).flatMap fun i => (List.range 16).map fun j => cellOf (c / 16 * 16 + i) (c % 16 * 16 + j)

/-- A cluster's cells when its domain goes off: void cells hold no data (01 R13). Their rows read zero with their words empty, and
their matrix planes empty, when the domain comes on again: no rule says what they hold then (DESIGN CHOICE, log 70). -/
def State.loseCells (s : State) (c : Nat) : State :=
  { s with rows := s.rows.filter fun x => clusterOf (x.1 / 256) ≠ c
           units := (cellsOfCluster c).foldl (fun u x => NMap.put {} u x { owner := (NMap.get ({} : MUnit) u x).owner }) s.units }

/-- PTP time as a cluster reads it: its die's copy (23 R427). -/
def State.clusterTime (s : State) (c : Nat) : Word := s.dieTime.toArray.getD (dieOf c) 0

/-- The window of 10,000 ns that a cluster's time lies in. -/
def State.windowNo (s : State) (c : Nat) : Nat := (s.clusterTime c).toNat / (10 * ticksPerUs)

/-- A write of CLCTL `c` (R408): a domain that goes off loses what its cells hold, and a hot cluster that comes on is
capped (R421) and closes its first sample at the next multiple of 10,000 ns (R418). -/
def State.writeClctl (s : State) (c : Nat) (v : Word) : State :=
  let why := s.clWhy c v
  if why ≠ 0 then s.refuse (0x100 + 8 * c) why
  else
    let old := s.cluster c
    let k := old.written v
    let s := s.setCluster c (if k.on && !old.on then { k with window := s.windowNo c } else k)
    let s := if old.on && !v.getLsbD 0 then s.loseCells c else s
    ((s.revolt old.rail.toNat).revolt (fld v 1 2)).capNext

/-- CLCTL_WRITE (R408): cluster `unit`. A domain that is switched off loses its cells' contents: `State.loseCells`. -/
def execClctlWrite (s : State) : Host.Outcome State Fault Refusal :=
  event (fun s => if 256 ≤ s.input.unit then none else some (s.writeClctl s.input.unit (s.input.value.setWidth 64))) s

/-! ### The block as its words (R408) -/

/-- RAILCTL bit for bit. -/
def Rail.word (r : Rail) : Word :=
  BitVec.ofNat 64 (r.ilim.toNat * 2 ^ 32 + r.vnow.toNat * 2 ^ 16 + r.vfloor.toNat * 2 ^ 8 + r.en.toNat)

/-- A read at an offset of the power control block: other offsets read as zero. -/
def State.powerWord (s : State) (off : Nat) : Word :=
  if off % 8 ≠ 0 then 0
  else if off < 0x20 then (s.rail (off / 8)).word
  else if 0x100 ≤ off ∧ off < 0x900 then (s.cluster ((off - 0x100) / 8)).clctl
  else if 0x900 ≤ off ∧ off < 0x1100 then (s.cluster ((off - 0x900) / 8)).sample
  else if 0x1100 ≤ off ∧ off < 0x1300 then NMap.get 0 s.power.vfenergy ((off - 0x1100) / 8)
  else if off = 0x1308 then
    BitVec.ofNat 64 (s.power.dvfs.seq.toNat * 2 ^ 16 + s.power.dvfs.cluster.toNat * 2 ^ 8 + s.power.dvfs.status.toNat)
  else if off = 0x1310 then BitVec.ofNat 64 (s.power.errOffset.toNat * 2 ^ 16 + s.power.errWhy.toNat)
  else 0

/-- A write at an offset of the block: read-only registers and other offsets ignore it. -/
def State.powerSet (s : State) (off : Nat) (v : Word) : State :=
  if off % 8 ≠ 0 then s
  else if off < 0x20 then s.writeRail (off / 8) v
  else if 0x100 ≤ off ∧ off < 0x900 then s.writeClctl ((off - 0x100) / 8) v
  else if 0x1100 ≤ off ∧ off < 0x1300 then s.writeVfenergy ((off - 0x1100) / 8) v
  else if off = 0x1300 then s.writeDvfsreq v
  else s

/-- RAIL_RAMP_DONE (R416): the rail has its new voltage and has settled. -/
def execRailRampDone (s : State) : Host.Outcome State Fault Refusal :=
  event (fun s =>
    let d := s.power.dvfs
    let c := d.target.toNat
    let r := (s.cluster c).rail.toNat
    match d.stage with
    | some .rampUp =>
      let t := s.setCluster c { s.cluster c with point := d.point }
      let s := s.setRail r { s.rail r with vnow := BitVec.ofNat 8 (t.voltage r) }
      some (s.setDvfs { d with stage := some .hop })
    | some .rampDown => some (s.revolt r).endHop
    | _ => none) s

/-- CLOCK_HOP (R416): the cluster changes its clock, once no stretch is in progress (R417). -/
def execClockHop (s : State) : Host.Outcome State Fault Refusal :=
  event (fun s =>
    let d := s.power.dvfs
    let c := d.target.toNat
    let k := s.cluster c
    match d.stage with
    | some .hop =>
      if k.stretch.isSome then none
      else
        let slower := k.point.toNat < d.point.toNat
        let s := s.setCluster c { k with point := d.point }
        some (if slower then s.setDvfs { d with stage := some .rampDown } else s.endHop)
    | _ => none) s

/-! ### Droop (R414) -/

/-- DROOP_DETECT (R414): the clock of cluster `unit` is stretched. -/
def execDroopDetect (s : State) : Host.Outcome State Fault Refusal :=
  event (fun s =>
    let c := s.input.unit
    let k := s.cluster c
    if 256 ≤ c || !k.on || k.stretch.isSome then none
    else some (s.setCluster c { k with stretch := some 0, droops := k.droops + 1 })) s

/-- DROOP_END (R414): at least 256 cycles of the stretch have passed. -/
def execDroopEnd (s : State) : Host.Outcome State Fault Refusal :=
  event (fun s => do
    let c := s.input.unit
    let k := s.cluster c
    let n ← k.stretch
    if n < 256 then none else some ((s.setCluster c { k with stretch := none }).emitDev 0x42 (0xC00 + c) n)) s

/-! ### One cluster cycle (R411, R418, R419) -/

/-- The occupied slots of a cluster. -/
def State.occupied (s : State) (c : Nat) : List SlotNo := (slotsOf c).filter fun k => (s.thread k).phase != .idle

/-- The balance after a cycle (R411; halved refill by R421). -/
def Cluster.nextBalance (k : Cluster) : BitVec 40 :=
  let refill := if k.halved then k.refill.toNat / 2 else k.refill.toNat
  BitVec.ofInt 40 (min (k.cap.toNat : Int) (k.balance.toInt - k.debits + refill))

/-- Charged work after a cycle: one busy cycle less each. -/
def Cluster.nextCharges (k : Cluster) : List Charge :=
  (k.charges.map fun x => if x.begun then { x with cycles := x.cycles - 1 } else x).filter fun x => !x.begun || 0 < x.cycles

/-- Energy of one debit of `c` units at a voltage (R419): 0.25 pJ · (V / 0.800 V)² each. -/
def debitEnergy (c v : Nat) : Nat := c * v * v * (105 * 840)

/-- Energy of one cycle of one of `n` occupied slots (R419): 1.50 W · (V / 0.800 V)² over the cycle, shared. A stretched cycle, of whose
edges every second one is skipped, is twice as long (R414). -/
def slotEnergy (v mhz n : Nat) (stretched : Bool) : Nat :=
  6000000 * 105 / mhz * (840 / n) * v * v * if stretched then 2 else 1

/-- Is a slot held by charge (R412)? -/
def State.heldByCharge (s : State) (k : SlotNo) : Bool :=
  (s.cluster (slotCluster k)).charges.any fun x => !x.begun && x.slot = k.toNat

/-- Does an instruction wait until the accesses before it are performed: memory, atomics, fences, the stack, the SCHED members that
release, BANK commands, ERET and the writes of system registers? -/
def awaitsAccesses (f : Form) : Bool :=
  (0x30 ≤ f.opc && f.opc ≤ 0x33) || f.opc = 0xB0 || (f.opc = 0x40 && f.fn ≤ 9) || (f.opc = 0x00 && (f.fn = 4 || f.fn = 6 || f.fn = 7))

/-- The store-queue entries that an instruction needs. -/
def storeEntries : Form → Nat
  | .m 0x30 2 _ | .t 0x50 3 _ => 1
  | .a 0x33 0 _ => 2
  | .a 0x33 2 f => ((List.range 16).filter fun k => f.imm.getLsbD k).length
  | _ => 0

/-- Does an instruction of the thread wait for an open load or atomic: its result, an acquire, the order after an atomic, or because it
waits for every access before it? -/
def Thread.awaitsLoad (t : Thread) (f : Form) : Bool :=
  let opens := t.openOuts
  (f.namesX ++ f.implicitX).any (fun n => n ≠ 0 && opens.any fun o => o.opc ≠ 0x63#8 && (o.dest = n || (o.pair && o.dest + 1 = n)))
    || (0x30 ≤ f.opc && opens.any fun o => acquires o.ord) || (0x33 ≤ f.opc && opens.any fun o => o.opc = 0x31#8)
    || (awaitsAccesses f && !opens.isEmpty)

/-- Does an occupied slot wait as MEM counts (R418): for a load, an atomic, a tagged word, a full store queue, a copy channel or WAITB,
BKWAIT or QFENCE? One held by charge does not, nor one at a barrier. -/
def State.memWait (s : State) (k : SlotNo) : Bool :=
  let t := s.thread k
  t.waiting && !s.heldByCharge k && ((s.feq.any fun w => w.slot = k.toNat) || (t.trapDue.isSome && !t.openOuts.isEmpty) ||
    match (s.atSlot k).fetch with
    | .instr i =>
      let f := i.form
      t.awaitsLoad f || (0 < storeEntries f && 16 < t.sq.length + storeEntries f)
        || f.opc = 0xA0 || (f.opc = 0xB0 && f.fn = 3) || (f.opc = 0x32 && f.fn = 2)
    | _ => false)

/-- The sample counts of a cluster after a cycle (R418). -/
def State.counted (s : State) (c : Nat) (k : Cluster) : Cluster :=
  let occ := s.occupied c
  let busy := !occ.isEmpty
  let mem := busy && !k.issued && occ.any s.memWait
  let chg := busy && !k.issued && !mem && k.charges.any fun x => !x.begun
  { k with cycles := k.cycles + 1, issue := k.issue + (busy && k.issued).toNat, mem := k.mem + mem.toNat
           chg := k.chg + chg.toNat, issued := false, stretch := k.stretch.map (· + 1) }

/-- The cycle counts of an occupied slot's thread; cycles held by charge saturate (R424). -/
def Thread.cycled (t : Thread) (held : Bool) : Thread :=
  { t with cyc := t.cyc + 1, occupied := t.occupied + 1, heldCycles := if held then satInc t.heldCycles else t.heldCycles }

/-- A slot's share of a cycle: its counts and its energy. -/
def State.cycleSlot (s : State) (k : SlotNo) (held : Bool) (energy : Nat) : State :=
  (s.setThread k ((s.thread k).cycled held)).addEnergy k energy

/-- Is a charge one of a scroll that stands between its steps: it is not busy then (08 R194; R410)? -/
def State.chargeStands (s : State) (x : Charge) : Bool :=
  let u := s.atSlot (BitVec.ofNat 11 x.slot)
  u.scrollStands && u.thr.ops.any fun o => o.no = x.op && o.isScroll

/-- The energy of a debit goes to the item whose instruction it is (R419). -/
def State.debitItem (s : State) (x : Charge) (v : Nat) : State :=
  match s.slotOfUid x.uid with
  | some k => s.addEnergy k (debitEnergy x.cost v)
  | none => s

/-- CHARGE_CYCLE (R411): one cycle of cluster `unit`. A parked item's CYCLE counts with its cluster (23 R428). -/
def execChargeCycle (s : State) : Host.Outcome State Fault Refusal :=
  event (fun s =>
    let c := s.input.unit
    let k := s.cluster c
    if 256 ≤ c || !k.on then none
    else
      let v := (s.rail k.rail.toNat).vnow.toNat
      let occ := s.occupied c
      let share := slotEnergy v (pointMHz k.point.toNat) occ.length k.stretch.isSome
      let held := occ.filter s.heldByCharge
      let stands := k.charges.filter s.chargeStands
      let busy := { k with charges := k.charges.filter fun x => !s.chargeStands x }
      let k' := { s.counted c k with balance := busy.nextBalance, charges := stands ++ busy.nextCharges }
      let s := s.setCluster c k'
      let s := occ.foldl (fun (s : State) (x : SlotNo) => s.cycleSlot x (held.contains x) share) s
      let s := (busy.charges.filter (·.begun)).foldl (fun (s : State) (x : Charge) => s.debitItem x v) s
      let older (p : Parked) : Parked :=
        if slotCluster p.slot = c then { p with thr := { p.thr with cyc := p.thr.cyc + 1 } } else p
      some { s with parked := s.parked.map older }) s

/-! ### Samples (R418) and temperature (R421) -/

/-- The newest unexpired hint of a cluster's slots. -/
def State.newestHint (s : State) (c : Nat) : Nat :=
  let hinted := (s.occupied c).map s.thread |>.filter fun t => t.hint ≠ 0 && t.hintUntil.all fun u => s.clusterTime c < u
  match bestBy (fun a b : Thread => b.hintNo < a.hintNo) hinted with
  | some t => t.hint.toNat
  | none => 0

/-- The sample that a cluster closes. -/
def State.sampleOf (s : State) (c : Nat) (k : Cluster) : Word :=
  let ratio (n : Nat) : Nat := if k.cycles = 0 then 0 else n * 1024 / k.cycles
  BitVec.ofNat 64 ((fld k.sample 48 16 + 1) % 65536 * 2 ^ 48 + k.maxTemp.toNat * 2 ^ 39 + s.newestHint c * 2 ^ 36
    + ratio k.issue * 2 ^ 24 + ratio k.mem * 2 ^ 12 + ratio k.chg)

/-- CLUSTER_SAMPLE (R418): cluster `unit` closes its sample once its time has reached another multiple of 10,000 ns. -/
def execClusterSample (s : State) : Host.Outcome State Fault Refusal :=
  event (fun s =>
    let c := s.input.unit
    let k := s.cluster c
    if 256 ≤ c || !k.on || s.windowNo c = k.window then none
    else
      let v := s.sampleOf c k
      let k := { k with sample := v, window := s.windowNo c, cycles := 0, issue := 0, mem := 0, chg := 0, maxTemp := k.temp }
      some ((s.setCluster c k).emitDev 0x45 (0xC00 + c) (fld v 48 16))) s

/-- A cluster's caps by its junction temperature (R421): each holds until its own lower threshold. -/
def Cluster.heated (k : Cluster) (t : BitVec 9) : Cluster :=
  let n := t.toNat
  let hot5 := 110 ≤ n || (k.halved && 100 ≤ n)
  let hot2 := 100 ≤ n || (k.thermalCap.isSome && 95 ≤ n)
  { k with temp := t, maxTemp := if k.maxTemp < t then t else k.maxTemp, halved := hot5
           thermalCap := if hot5 then some 5 else if hot2 then some 2 else none }

/-- Every partition reset and the rails turned off (R421, at 120 °C): no cell holds data any more. -/
def State.meltdown (s : State) : State :=
  let s := (List.range 16).foldl (fun (s : State) (p : Nat) => (s.resetPartition (BitVec.ofNat 4 p) true).getD s) s
  let s := (List.range 256).foldl (fun (s : State) (c : Nat) => s.setCluster c { s.cluster c with on := false }) s
  let s := (List.range 4).foldl (fun (s : State) (r : Nat) => (s.setRail r { s.rail r with en := false }).revolt r) s
  { s with rows := [], units := [], boot := { s.boot with alerts := s.boot.alerts + 1 } }

/-- THERMAL_THRESHOLD (R421): cluster `unit` reaches `value` °C. -/
def execThermalThreshold (s : State) : Host.Outcome State Fault Refusal :=
  event (fun s =>
    let c := s.input.unit
    let t : BitVec 9 := s.input.value.setWidth 9
    if 256 ≤ c then none
    else
      let k := s.cluster c
      let k' := k.heated t
      let s := s.setCluster c k'
      let s := if k'.thermalCap = k.thermalCap then s
        else s.emitDev 0x44 (0xC00 + c) (c * 256 + (k'.thermalCap.map (·.toNat)).getD 0)
      some (if 120 ≤ t.toNat then s.meltdown else s.capNext)) s

end Sys2Proof.Machine
end

