-- ==== Sys2Proof/Machine/Tdesc.lean ====
section
/-!
DEFINITION. The TDESC family (07 R184-R186): descriptors and edge registers read and written.
-/
namespace Sys2Proof.Machine

/-- Descriptor `n` written; t0 stays null (07 R175). -/
def State.setT (s : State) (n : BitVec 6) (v : BitVec 256) : State :=
  if n = 0 then s else s.withThr { s.thr with t := s.thr.t.setIfInBounds n.toNat v }

/-- Edge register `n` written; e0 is fixed (07 R176). -/
def State.setE (s : State) (n : BitVec 3) (v : Word) : State :=
  if n = 0 then s else s.withThr { s.thr with e := s.thr.e.setIfInBounds n.toNat v }

/-- A descriptor validated and written (07 R185). -/
def State.writeT (s : State) (n : BitVec 6) (d : BitVec 256) : Res Done := do
  s.validate d
  pure { st := s.setT n d }

/-- TDSET (07 R185). -/
def execTdset (f : FT) (s : State) : Host.Outcome State Fault Refusal :=
  issue (.t 0x50 0 f) (fun s =>
    s.writeT f.td (s.X (f.xs + 3) ++ s.X (f.xs + 2) ++ s.X (f.xs + 1) ++ s.X f.xs)) s

/-- Word `k` of a descriptor (07 R185). -/
def tword (d : BitVec 256) (k : Nat) : Word := d.extractLsb' (64 * k) 64

/-- TDGET (07 R185). -/
def execTdget (f : FT) (s : State) : Host.Outcome State Fault Refusal :=
  pureOp (.t 0x50 1 f) (fun s =>
    let d := s.T f.ta
    (((s.setX f.xs (tword d 0)).setX (f.xs + 1) (tword d 1)).setX (f.xs + 2) (tword d 2)).setX (f.xs + 3) (tword d 3)) s

/-- The checks of a 32-byte descriptor access: R100, then its space and alignment (07 R185), then watchpoints. -/
def State.descAccess (s : State) (w : Want) (a : Word) : Res (State × Named) := do
  let _ ← s.resolve { w with watch := false } a 32
  need (spaceOf a = 0 ∨ spaceOf a = 1) cSPACE a
  need (a.toNat % 32 = 0) cMISALIGN a
  s.resolve w a 32

/-- TDLD (07 R185, R186). -/
def execTdld (f : FT) (s : State) : Host.Outcome State Fault Refusal :=
  issue (.t 0x50 2 f) (fun s => do
    s.loadWaits
    let a := s.X f.xs + f.imm18.signExtend 64
    let (s, nm) ← s.descAccess {} a
    s.claim nm.fps true
    s.writeT f.td (BitVec.ofNat 256 (leNat (s.drained.getBytes nm.locs)))) s

/-- TDST (07 R185, R186). -/
def execTdst (f : FT) (s : State) : Host.Outcome State Fault Refusal :=
  issue (.t 0x50 3 f) (fun s => do
    let a := s.X f.xs + f.imm18.signExtend 64
    let (s, nm) ← s.descAccess (storeWant 0) a
    s.storeClaims nm 1
    pure { st := s.pushStore a nm (leBytes 32 (s.T f.ta).toNat) }) s

/-- Is a coordinate one that its 8-bit field holds? -/
def inField (v : Int) : Bool := 0 ≤ v && v ≤ 255

/-- A descriptor with its origin and its layer replaced. -/
def moveTo (d : BitVec 256) (r c l : Int) : BitVec 256 :=
  setFld (setFld (setFld d 9 8 r.toNat) 17 8 c.toNat) 43 8 l.toNat

/-- TDMOVE (07 R185). -/
def execTdmove (f : FT) (s : State) : Host.Outcome State Fault Refusal :=
  issue (.t 0x50 4 f) (fun s => do
    let d := s.T f.ta
    let t := Ten.of d
    let x := s.X f.xs
    let r := (t.row0 : Int) + sfld x 0 16
    let c := (t.col0 : Int) + sfld x 16 16
    let l := (t.layer : Int) + sfld x 32 16
    need (inField r = true ∧ inField c = true ∧ inField l = true) cPLOT_BOUND
    s.writeT f.td (moveTo d r c l)) s

/-- An extent of TDSUB: 0 asks for all that remains (07 R185). -/
def subExtent (asked whole off : Nat) : Int := if asked = 0 then (whole : Int) - off else asked

/-- TDSUB (07 R185). -/
def execTdsub (f : FT) (s : State) : Host.Outcome State Fault Refusal :=
  issue (.t 0x50 5 f) (fun s => do
    let d := s.T f.ta
    let t := Ten.of d
    let x := s.X f.xs
    let r := fld x 0 16
    let c := fld x 16 16
    let l := fld f.imm18 0 9
    let h := subExtent (fld x 32 16) t.h r
    let w := subExtent (fld x 48 16) t.w c
    let dp := subExtent (fld f.imm18 9 9) t.depth l
    need (r + h ≤ t.h ∧ c + w ≤ t.w ∧ l + dp ≤ t.depth ∧ 0 < h ∧ 0 < w ∧ 0 < dp) cPLOT_BOUND
    need (t.row0 + r ≤ 255 ∧ t.col0 + c ≤ 255 ∧ t.layer + l ≤ 255) cPLOT_BOUND
    let d := moveTo d (t.row0 + r : Nat) (t.col0 + c : Nat) (t.layer + l : Nat)
    s.writeT f.td (setFld (setFld (setFld d 25 9 h.toNat) 34 9 w.toNat) 51 9 dp.toNat)) s

/-- EDSET (07 R185). -/
def execEdset (f : FT) (s : State) : Host.Outcome State Fault Refusal :=
  pureOp (.t 0x50 6 f) (fun s => s.setE f.edg (s.X f.xs)) s

/-- EDGET (07 R185). -/
def execEdget (f : FT) (s : State) : Host.Outcome State Fault Refusal :=
  pureOp (.t 0x50 7 f) (fun s => s.setX f.xs (s.E f.edg)) s

end Sys2Proof.Machine
end

