-- ==== Sys2Proof/Machine/Trace.lean ====
section
/-!
DEFINITION. Device time (23 R427), the merge of events into rings (R429, R432-R434, R443), and the debug block (R438-R443).
-/
namespace Sys2Proof.Machine

/-! ### Device time (R427) -/

/-- Ticks in a millisecond. -/
def ticksPerMs : Int := 16000000

/-- Each die's copy brought to T; it never goes back. -/
def State.resync (s : State) : State := { s with dieTime := s.dieTime.map fun t => if t ≤ s.time then s.time else t }

/-- T is found to lie behind the grandmaster by an offset (R427): a large forward one is one step, which the dies' copies take with T; a
large backward one is removed at half rate; a small one by slewing. T that is unlocked runs free. -/
def State.discipline (s : State) (d : Int) : Option State :=
  if s.lockState = 0 then none
  else if ticksPerMs ≤ d then
    some ({ s with time := s.time + BitVec.ofInt 64 d, timeOffset := 0, halfRate := false } : State).resync
  else some { s with timeOffset := d, halfRate := decide (d ≤ -ticksPerMs) }

/-- PTP_ADJUST (R427): an offset found over IEEE 1588 through the Ethernet port that the system cores have chosen. -/
def execPtpAdjust (s : State) : Host.Outcome State Fault Refusal :=
  event (fun s => match s.input.payload with
    | .offset d => if s.ptpPort.any fun p => s.portUp p.toNat then s.discipline d else none
    | _ => none) s

/-- TIME_RESYNC (R427). -/
def execTimeResync (s : State) : Host.Outcome State Fault Refusal := event (fun s => some s.resync) s

/-- PTP_LOCK_CHANGE (R427): the lock state becomes `value`, and LOCK is emitted. T that is unlocked runs free, so nothing is removed of an
offset any more. -/
def execPtpLockChange (s : State) : Host.Outcome State Fault Refusal :=
  event (fun s =>
    let v : BitVec 2 := s.input.value.setWidth 2
    if v = s.lockState then none
    else
      let s := if v = 0 then { s with timeOffset := 0, halfRate := false } else s
      some ({ s with lockState := v }.emitDev 0x61 0xE41 v.toNat)) s

/-! ### Samples of the PC (R443) -/

/-- PC_SAMPLE (R443): for each multiple of PERIOD that T has passed, the slot's item emits PCSAMPLE; `flag`: it waits on instruction
fetch. -/
def execPcSample (s : State) : Host.Outcome State Fault Refusal :=
  slotEvent (fun s =>
    let period := (s.trace s.thr.vf.toNat).period.toNat * ticksPerUs
    let next := (s.thr.pcSampled.toNat / period + 1) * period
    if period = 0 || s.thr.phase == .idle || (s.slotTime s.cur).toNat < next then none
    else
      let s := s.emitItem 0x46 (s.input.flag.toNat * 2 ^ 31 + s.thr.priv.toNat * 2 ^ 30 + fld s.thr.pc 2 30)
      some (s.withThr { s.thr with pcSampled := BitVec.ofNat 64 next })) s

/-! ### Merge (R429, R432-R434) -/

/-- A trace control block (R433). -/
structure TraceBlk where
  base : Nat
  size : Nat
  tail : Nat
  head : Nat
  ctl : Nat
  lost : Nat
  period : Nat
  mask : Nat

/-- A trace control block read in the space of its function, with the state after the read. -/
def State.traceBlk (s : State) (c : TraceCfg) : Option (State × TraceBlk) :=
  (s.agentRead c.root (c.vf.setWidth 6) c.block.toNat 128).map fun x =>
    let v := leNat x.2
    (x.1, ⟨bits v 0 64, bits v 64 32, bits v 96 32, bits v 128 32, bits v 160 32, bits v 192 32, bits v 224 32, bits v 512 256⟩)

/-- The 16 bytes of an event (R429). -/
def Ev.bytes (e : Ev) : List Byte :=
  leBytes 16 (e.time.toNat + e.kind.toNat * 2 ^ 64 + e.source.toNat * 2 ^ 72 + e.vf.toNat * 2 ^ 84 + e.payload.toNat * 2 ^ 96)

/-- An event of the merge unit. -/
def mergeEv (time : Word) (kind vf payload : Nat) : Ev :=
  { time := time, kind := BitVec.ofNat 8 kind, source := 0xE40, vf := BitVec.ofNat 12 vf, payload := BitVec.ofNat 32 payload }

/-- The 16-byte records that an event takes at a ring offset: a LOSS after a loss, PAD before a stamp record, then the event
and what a stamp record adds (R433, R434). -/
def ringRecords (tail : Nat) (lost : BitVec 32) (e : Ev) : List (List Byte) :=
  let loss := if lost = 0 then [] else [(mergeEv e.time 0x60 e.vf.toNat lost.toNat).bytes]
  match e.stamp with
  | none => loss ++ [e.bytes]
  | some v =>
    let pads := (4 - (tail / 16 + loss.length) % 4) % 4
    let body := leBytes 48 v.toNat
    loss ++ List.replicate pads (mergeEv e.time 0 e.vf.toNat 0).bytes
      ++ [e.bytes, body.take 16, (body.drop 16).take 16, body.drop 32]

/-- Records written at TAIL; none where the ring does not translate. -/
def State.writeRecords (s : State) (c : TraceCfg) (b : TraceBlk) : List (List Byte) → Nat → Option (State × Nat)
  | [], tail => some (s, tail)
  | r :: l, tail => do
    let s ← s.agentWrite c.root (c.vf.setWidth 6) (b.base + tail) r
    s.writeRecords c b l ((tail + 16) % b.size)

/-- Is an event written: its trace has EN and its MASK bit, or it is a LOSS (R433)? -/
def State.written' (s : State) (e : Ev) : Bool :=
  (s.trace e.vf.toNat).ctl.getLsbD 0 && (e.kind = 0x60 || (s.trace e.vf.toNat).mask.getLsbD e.kind.toNat)

/-- What one event did at its ring. -/
inductive Merged where
  | written (s : State)
  | full (s : State)
  | broken

/-- One event at the ring of its function (R433). -/
def State.mergeOne (s : State) (e : Ev) : Merged :=
  match (s.trace e.vf.toNat).cfg.bind fun c => (s.traceBlk c).map fun x => (c, x) with
  | none => .broken
  | some (c, s, b) =>
    let recs := ringRecords b.tail (s.trace e.vf.toNat).lost e
    let free := (b.size - 16 - (b.tail + b.size - b.head) % b.size) / 16
    if free < recs.length then .full s
    else match (s.writeRecords c b recs b.tail).bind fun x =>
        x.1.agentWrite c.root (c.vf.setWidth 6) (c.block.toNat + 12) (leBytes 4 x.2) with
      | none => .broken
      | some s => .written (s.mapTrace e.vf.toNat fun t => { t with lost := 0 })

/-- A count that saturates. -/
def satWord (v : Word) (n : Nat) : Word := if 2 ^ 64 ≤ v.toNat + n then BitVec.allOnes 64 else v + BitVec.ofNat 64 n

/-- The key of EVTS and WAITNS: die and function (R432). -/
def mergeKey (e : Ev) : Nat := sourceDie e.source.toNat * 4096 + e.vf.toNat

/-- A block or ring of a function that does not translate (R433): EN is cleared, in the block too where that can be written, and a LOSS
event with the events that it lost goes to the device ring, if that is on. -/
def State.breakTrace (s : State) (vf lost : Nat) : State :=
  let t := s.trace vf
  let s := match t.cfg with
    | some c => (s.agentWrite c.root (c.vf.setWidth 6) (c.block.toNat + 20) (leBytes 4 (t.ctl.toNat / 2 * 2))).getD s
    | none => s
  let s := s.mapTrace vf fun t => { t with ctl := t.ctl &&& ~~~1, halted := false }
  if vf = 0xFFF || !(s.trace 0xFFF).ctl.getLsbD 0 then s
  else { s with events := s.events ++ [mergeEv s.time 0x60 0xFFF (t.lost.toNat + lost)] }

/-- CTL, PERIOD and MASK of a trace as its block holds them now (R433: a change takes effect within 2 µs). -/
def State.refresh (s : State) (vf : Nat) : State :=
  match (s.trace vf).cfg with
  | none => s
  | some c => match s.traceBlk c with
    | some (s, b) =>
      s.mapTrace vf fun t => { t with ctl := BitVec.ofNat 32 b.ctl, period := BitVec.ofNat 32 b.period, mask := BitVec.ofNat 256 b.mask }
    | none => if (s.trace vf).ctl.getLsbD 0 then s.breakTrace vf 0 else s

/-- The block's LOST brought up to date (R433, R434). -/
def State.countLost (s : State) (vf : Nat) : State :=
  let t := s.trace vf
  if t.uncounted = 0 then s
  else match t.cfg.bind fun c => (s.traceBlk c).bind fun x =>
      x.1.agentWrite c.root (c.vf.setWidth 6) (c.block.toNat + 24) (leBytes 4 (x.2.lost + t.uncounted.toNat)) with
    | some s => s.mapTrace vf fun t => { t with uncounted := 0 }
    | none => s

/-- An event stays where it is: its trace waits, and its source holds it (R434). -/
def State.holdEvent (s : State) (e : Ev) : State :=
  let s := s.mapTrace e.vf.toNat fun t => { t with halted := true }
  { s with events := s.events ++ [{ e with held := true }] }

/-- What becomes of an event of a full ring (R434): a device source queues it, a lossless source holds it, another loses it. -/
def State.noRoom (s : State) (e : Ev) : State :=
  if e.vf = 0xFFF then { s with events := s.events ++ [e] }
  else if (s.trace e.vf.toNat).ctl.getLsbD 1 then s.holdEvent e
  else s.mapTrace e.vf.toNat TraceV.lose

/-- Events in the order of the merge, each written, held, lost or, when its trace no longer takes it, dropped; an event behind one that
is held is held too. -/
def State.mergeAll (s : State) : List Ev → State
  | [] => s
  | e :: l =>
    if !s.written' e then s.mergeAll l
    else if (s.trace e.vf.toNat).halted then (s.holdEvent e).mergeAll l
    else match s.mergeOne e with
      | .written s =>
        ({ s with evts := NMap.put 0 s.evts (mergeKey e) (satWord (NMap.get 0 s.evts (mergeKey e)) 1) }).mergeAll l
      | .broken => (s.breakTrace e.vf.toNat 1).mergeAll l
      | .full s => (s.noRoom e).mergeAll l

/-- Does an event come before another in a ring: by TIME, then SOURCE (R432)? -/
def Ev.earlier (a b : Ev) : Bool := a.time.toNat < b.time.toNat || (a.time = b.time && a.source.toNat < b.source.toNat)

/-- An event put into its place, behind those that do not come after it. -/
def insertEv (e : Ev) : List Ev → List Ev
  | [] => [e]
  | x :: r => if e.earlier x then e :: x :: r else x :: insertEv e r

/-- No source emits an event before this time any more: the least of their times. -/
def State.sourceMin (s : State) : Nat := s.dieTime.toList.foldl (fun m t => min m t.toNat) s.time.toNat

/-- WAITNS counts the nanoseconds up to now in which a source held an event (R432). -/
def State.countWaits (s : State) : State :=
  let ns := (s.time.toNat - s.waitMark.toNat) / 16
  let keys := ((s.events.filter (·.held)).map mergeKey).eraseDups
  { s with waitMark := s.waitMark + BitVec.ofNat 64 (16 * ns)
           waitns := keys.foldl (fun w k => NMap.put 0 w k (satWord (NMap.get 0 w k) ns)) s.waitns }

/-- Every trace, once the blocks have been read again: none waits until it finds its ring full. -/
def State.refreshAll (s : State) : State :=
  let s := (s.traces.map (·.1)).foldl State.refresh s
  { s with traces := s.traces.map fun x => (x.1, { x.2 with halted := false }) }

/-- WATERMARK (R432): the blocks are read again, and the events whose TIME is at or below the watermark `value`, which no source's later
event precedes, are merged into their rings. -/
def execWatermarkStep (s : State) : Host.Outcome State Fault Refusal :=
  event (fun s =>
    let s := s.countWaits.refreshAll
    let isDue (e : Ev) : Bool := e.time.toNat ≤ s.input.value.toNat && e.time.toNat < s.sourceMin
    let ordered := (s.events.filter isDue).foldl (fun l e => insertEv e l) []
    let s := ({ s with events := s.events.filter fun e => !isDue e } : State).mergeAll ordered
    some ((s.traces.map (·.1)).foldl State.countLost s)) s

/-- MERGE_COUNTER_READ (R432): EVTS of die `unit` and function `aux`, or with `flag` its WAITNS, is read and cleared. -/
def execMergeCounterRead (s : State) : Host.Outcome State Fault Refusal :=
  event (fun s =>
    let k := s.input.unit * 4096 + s.input.aux
    some (if s.input.flag then
      { s with reports := s.reports ++ [Report.counts 0 (NMap.get 0 s.waitns k)], waitns := NMap.put 0 s.waitns k 0 }
    else { s with reports := s.reports ++ [Report.counts (NMap.get 0 s.evts k) 0], evts := NMap.put 0 s.evts k 0 })) s

/-! ### The debug block (R438-R443) -/

/-- The debug registers of the slot that acts replaced. -/
def State.setDbg (s : State) (d : Dbg) : State := { s with dbg := NMap.put {} s.dbg s.cur.toNat d }

/-- Does the slot hold an item that a debugger can stop? -/
def State.debuggable (s : State) : Bool := s.thr.phase == .running

/-- A debugger register (R438): none where there is none of the number, or it cannot be read. -/
def State.debugRead (s : State) (n : Nat) : Option Word :=
  let t := s.thr
  if n < 0x1000 then
    match sysAccess n with
    | some a => if a.read then some (s.sysRead n) else none
    | none => none
  else if n = 0x1000 then some 0
  else if n ≤ 0x103F then some (t.x.toArray.getD (n - 0x1000) 0)
  else if n ≤ 0x1047 then some (t.xp.toArray.getD (n - 0x1040) 0)
  else if n = 0x1048 then some ((t.p &&& 0x7F).setWidth 64)
  else if n = 0x1049 then some t.pc
  else if 0x1050 ≤ n ∧ n ≤ 0x1057 then some (s.E (BitVec.ofNat 3 (n - 0x1050)))
  else if 0x1100 ≤ n ∧ n ≤ 0x11FF then
    some ((s.T (BitVec.ofNat 6 ((n - 0x1100) / 4))).extractLsb' (64 * ((n - 0x1100) % 4)) 64)
  else none

/-- A descriptor with one of its words replaced. -/
def descWord (t : BitVec 256) (k : Nat) (v : Word) : BitVec 256 := setFld t (64 * k) 64 v.toNat

/-- What a WRITE of a debugger does: it is made, refused with RESULT 2, or waits. -/
inductive DbgWrote where
  | done (s : State)
  | refused
  | waits

/-- A debugger register written (R438, R442): one that waits for what the thread has outstanding, TLBINV, waits here too. -/
def State.debugWrite (s : State) (n : Nat) (v : Word) : DbgWrote :=
  let t := s.thr
  let put (t : Thread) : DbgWrote := .done (s.withThr t)
  if n < 0x1000 then
    match sysAccess n with
    | some a => if a.write then (match s.sysWrite n v with
        | .ok s => .done s
        | .error _ => .waits) else .refused
    | none => .refused
  else if n = 0x1000 then .done s
  else if n ≤ 0x103F then put { t with x := t.x.setIfInBounds (n - 0x1000) v }
  else if n ≤ 0x1047 then put { t with xp := t.xp.setIfInBounds (n - 0x1040) v }
  else if n = 0x1048 then put { t with p := v.setWidth 8 &&& 0x7F }
  else if n = 0x1049 then if v.toNat % 4 = 0 then put { t with pc := v } else .refused
  else if n = 0x1050 then .done s
  else if 0x1051 ≤ n ∧ n ≤ 0x1057 then put { t with e := t.e.setIfInBounds (n - 0x1050) v }
  else if 0x1104 ≤ n ∧ n ≤ 0x11FF then
    let k := (n - 0x1100) / 4
    let d := descWord (t.t.toArray.getD k 0) ((n - 0x1100) % 4) v
    match s.validate d with
    | .ok _ => put { t with t := t.t.setIfInBounds k d }
    | .error _ => .refused
  else .refused

/-- DBGSTAT as SAMPLE gives it (R443; `aux` 1: the slot waits on instruction fetch): of an item that has exited the EXIT's PC, of a slot that
has dispatched none, or whose item ended or left it otherwise, REASON 15 (log 61); of one that runs the next instruction, which stands past
fillers (02 R19). A stopped slot keeps that of its stop. -/
def State.sampled (s : State) : Word :=
  let t := s.thr
  let next := match t.ord with
    | some o => o.pc
    | none => s.skipFiller allParcels t.pc
  if s.curDbg.stopped then s.curDbg.stat
  else if t.exited then BitVec.ofNat 64 (t.lastPc.toNat % 2 ^ 48 * 2 ^ 16 + 2 ^ 11)
  else if t.phase == .idle then 15
  else
    BitVec.ofNat 64 (next.toNat % 2 ^ 48 * 2 ^ 16 + min 8 (t.outs.filter (·.logged)).length * 2 ^ 12
      + s.input.aux % 2 * 2 ^ 10 + t.priv.toNat * 2 ^ 8)

/-- Log entries dropped, with the places in queues that they stand in (R438). -/
def State.dropLogged (s : State) (mask : Word) : State :=
  let t := s.thr.dropLog mask
  { s.withThr t with feq := s.feq.filter fun w => w.slot ≠ s.cur.toNat || w.out = 0 || t.outs.any fun o => o.no = w.out }

/-- What a command does, by its number; the block holds NUM and DATA (R441-R443). None while its write has to wait. -/
def State.debugCmd (s : State) (cmd : Nat) : Option State :=
  let d : Dbg := { s.curDbg with cmd := 0, result := 0 }
  -- resumed where it stopped, it issues without matching again (log 35)
  let go : Dbg := { d with stopped := false, pass := if fld d.stat 16 48 = s.thr.pc.toNat then some s.thr.pc else none, stat := 0 }
  let busy : Dbg := { d with result := 1 }
  let bad : Dbg := { d with result := 2 }
  match cmd with
  | 1 => some (s.setDbg (if s.debuggable && !d.stopped then { d with cmd := 1, haltReq := true } else d))
  | 2 => some (s.setDbg (if d.stopped then go else d))
  | 3 => some (s.setDbg (if d.stopped then { go with stepReq := true, cmd := 3 } else busy))
  | 4 =>
    if !d.stopped then some (s.setDbg busy)
    else match s.debugRead d.num.toNat with
      | some v => some (s.setDbg { d with data := v })
      | none => some (s.setDbg bad)
  | 5 =>
    if !d.stopped then some (s.setDbg busy)
    else match s.debugWrite d.num.toNat d.data with
      | .done s => some (s.setDbg d)
      | .refused => some (s.setDbg bad)
      | .waits => none
  | 6 => some (s.setDbg { d with stat := s.sampled })
  | 7 => some ((s.dropLogged d.data).setDbg d)
  | _ => some s

/-- A command event: ATTACH is `flag`, and with NUM or DATA written before it. -/
def commandEvent (cmd : Nat) (num : Option (BitVec 16)) (data : Option Word) (s : State) : Option State :=
  let d := s.curDbg
  (s.setDbg { d with attach := s.input.flag, num := num.getD d.num, data := data.getD d.data }).debugCmd cmd

/-- HALT (R441): the slot stops at its next boundary. -/
def execHaltSlot (s : State) : Host.Outcome State Fault Refusal := slotEvent (commandEvent 1 none none) s

/-- RESUME (R441): the slot continues. -/
def execResumeSlot (s : State) : Host.Outcome State Fault Refusal := slotEvent (commandEvent 2 none none) s

/-- STEP (R441): a stopped slot runs one instruction. -/
def execStepSlot (s : State) : Host.Outcome State Fault Refusal := slotEvent (commandEvent 3 none none) s

/-- DBG_READ (R442): register `unit` into DBGDATA. -/
def execDbgRead (s : State) : Host.Outcome State Fault Refusal :=
  slotEvent (fun s => commandEvent 4 (some (BitVec.ofNat 16 s.input.unit)) none s) s

/-- DBG_WRITE (R442): DBGDATA, which is `value`, into register `unit`. -/
def execDbgWrite (s : State) : Host.Outcome State Fault Refusal :=
  slotEvent (fun s => commandEvent 5 (some (BitVec.ofNat 16 s.input.unit)) (some (s.input.value.setWidth 64)) s) s

/-- DBG_SAMPLE (R443). -/
def execDbgSample (s : State) : Host.Outcome State Fault Refusal := slotEvent (commandEvent 6 none none) s

/-- DROPLOG (R438): bit n of `value`, which is DBGDATA, drops log entry n. -/
def execDroplog (s : State) : Host.Outcome State Fault Refusal :=
  slotEvent (fun s => commandEvent 7 none (some (s.input.value.setWidth 64)) s) s

/-! ### The debug block as its words (R438) -/

/-- The slot and the register that an offset of the debug block names: DBGCTL, DBGREG, DBGDATA and DBGSTAT from 0. -/
def debugPlace (off : Nat) : Option (SlotNo × Nat) :=
  let r := off % 0x40
  if r % 8 = 0 ∧ r < 0x20 ∧ off / 0x40 < 2048 then some (BitVec.ofNat 11 (off / 0x40), r / 8) else none

/-- Does an agent reach a slot's registers: the hypervisor every slot's, the runtime of a partition those of its own clusters? -/
def State.reaches (s : State) (by' : Option (BitVec 4)) (k : SlotNo) : Bool :=
  match by' with
  | none => true
  | some p => (NMap.get {} s.parts p.toNat).cfg.any fun c => c.clusters.any fun x => x.toNat = slotCluster k

/-- A register of the block. -/
def Dbg.word (d : Dbg) (r : Nat) : Word :=
  match r with
  | 0 => BitVec.ofNat 64 (d.result.toNat * 256 + d.cmd.toNat * 16 + d.attach.toNat)
  | 1 => d.num.setWidth 64
  | 2 => d.data
  | _ => d.stat

/-- A register of the debug block of the slot that acts written: DBGSTAT is read-only, and a DBGCTL with no command sets ATTACH. -/
def State.debugSet (s : State) (r : Nat) (v : Word) : Option State :=
  let d := s.curDbg
  match r with
  | 0 => (s.setDbg { d with attach := v.getLsbD 0 }).debugCmd (fld v 4 4)
  | 1 => some (s.setDbg { d with num := v.setWidth 16 })
  | 2 => some (s.setDbg { d with data := v })
  | _ => some s

end Sys2Proof.Machine
end

