-- ==== Sys2Proof/Machine/Control.lean ====
section
/-!
DEFINITION. What the system cores, the hypervisor and the runtime do to the device's own blocks and tables: the power control block
(22 R408), trace control blocks (23 R433), the debug block (23 R438), ports and queue pairs (14 R295, R305), and items that come from
another device (20 R403).
-/
namespace Sys2Proof.Machine

/-! ### Items from another device (20 R403) -/

/-- A logged access as its item brings it, with the item's root; the rest of its entry is in the save area. -/
def logOut (x : LogOperand) (root : BitVec 44) (no : Nat) (walked : Bool) : Out :=
  { no := no, pc := 0, opc := 0, fn := 0, ea := 0, opB := x.opB, opE := x.opE, desc := x.desc, edge := x.edge, dest := 0
    pair := fld x.desc 0 3 = 4, ord := x.order.map fun o => ⟨o.1, o.2, 0⟩, fps := [], logged := true, faulted := none
    walked := walked, root := root }

/-- A half-done scroll as its item brings it; what remains of it is in the save area. -/
def scrollOp (x : ScrollOperand) (no : Nat) (p : Plot) : PlaneOp :=
  let td := Ten.of x.td
  let f := Ten.of x.frame
  let frame : Ten := { td with row0 := f.row0, col0 := f.col0, h := f.h, w := f.w }
  let all : Ten := if x.mode = 2 then { frame with row0 := 0, col0 := 0, h := p.h, w := p.w } else frame
  { no := no, pc := x.pc, fps := all.fp true, work := .scroll ⟨x.td, x.frame, x.mode, x.carry, 0, 1⟩, poison := false }

/-- The record of an adopted item. A code address is a multiple of 4 (02 R20). -/
def adoptedRecord (a : Adopted) (uid : Nat) (hb : List Byte) : ItemRec :=
  { uid := uid, code := a.code &&& ~~~3, frame := a.frame, join := a.join, rodsH := areaNat hb 0x690 1, rodsW := areaNat hb 0x691 1
    depth := areaNat hb 0x692 2, pf := a.pf, dl := a.dl, item := a.item, nitems := a.nitems, launch := a.launch, ring := a.ring
    seq := a.seq, part := a.part, vf := a.vf, root := a.root, queue := a.queue, cycles := a.cycles }

/-- The op that holds the cover map of an adopted item whose walker loop is active (19 R378, R382). -/
def coverOp (map : BitVec 256) (pc : Word) (no : Nat) : PlaneOp :=
  { no := no, pc := pc, fps := (Ten.of map).fp true, work := .held, poison := false, untilLoopEnds := true }

/-- A thread with what its item has counted on its former device (22 R419; 23 R428, R437). -/
def Thread.withCounts (t : Thread) (c : ItemCounts) : Thread :=
  { t with energy := c.energy, cyc := c.cyc, occupied := c.occupied, started := c.started, traps := c.traps, saves := c.saves
           flushes := c.flushes, lateItem := c.late }

/-- What the thread of an adopted item holds beside its area; its ops are numbered from `s.opNo + 1`: the logged accesses, the cover map's,
the scroll. -/
def adoptedThread (a : Adopted) (s : State) (uid : Nat) (hb : List Byte) : Thread :=
  let r := adoptedRecord a uid hb
  let walked := (areaWord hb 0x450).getLsbD 63
  let n := a.operands.length
  let t := (newThread r r.code a.frame).placed ⟨0, 0, 0, 4 * r.rodsH, 4 * r.rodsW, r.depth⟩
  let t := { t with outs := (a.operands.zip (List.range n)).map fun (x : LogOperand × Nat) => logOut x.1 a.root (s.opNo + 1 + x.2) walked }
  let t := { t with ops := (if walked then [coverOp a.walkerMap r.code (s.opNo + n + 1)] else [])
                             ++ (a.scroll.map fun x => scrollOp x (s.opNo + n + 2) t.plot).toList }
  let loop (i : Nat) : Loop :=
    { start := 0, stop := 0, remaining := 0, index := 0, step := 0, indexed := false, walker := a.walkerLoop = some i }
  { t.withCounts a.counts with
    loops := ((List.range 4).map loop).reverse
    ow := { map := a.walkerMap, index := a.walkerIndex, decls := a.walkerDecls, stored := a.walkerStored } }

/-- The group of a record: the live one, or as its record holds it when none of its members has come yet. None where another group has
its number. -/
def State.groupOfRecord (s : State) (a : Adopted) (va : Nat) : Option State :=
  if s.groups.any fun g => g.root == a.root && g.vf == a.vf && g.record.toNat == va then some s
  else do
    let (s, bs) ← s.agentRead a.root a.vf va 64
    let v := leNat bs
    let g : Group := { gid := bits v 0 16, record := BitVec.ofNat 64 va, root := a.root, vf := a.vf, part := a.part, cap := bits v 128 16
                       next := bits v 144 16, live := bits v 160 16, phase := BitVec.ofNat 32 (bits v 192 32), arrived := bits v 176 16
                       xbase := bits v 112 8, xrows := bits v 120 8, broken := bits v 96 1 = 1, members := [] }
    if g.gid = 0 || (s.group g.gid).isSome then none else some { s with groups := s.groups ++ [g] }

/-- An adopted item takes its place among the members of its groups, the one at `i = 0` with its arrival. -/
def State.joinRecords (s : State) (a : Adopted) (uid : Nat) (hb : List Byte) : Option State :=
  (List.range (areaNat hb 0x688 1 % 16)).foldlM (fun s i => do
    let v := areaNat hb (0x610 + 8 * i) 8
    let s ← s.groupOfRecord a (bits v 0 48)
    let m : Member := ⟨BitVec.ofNat 12 (bits v 48 12), uid, a.arrived && bits v 63 1 = 1⟩
    some { s with groups := s.groups.map fun g =>
      if g.root == a.root && g.vf == a.vf && g.record.toNat == bits v 0 48 then { g with members := g.members ++ [m] } else g }) s

/-- An item from another device (20 R403 step 3): it waits at the head of its queue as an item saved here does. None where its area or a
group record cannot be read. -/
def State.adopt (s : State) (a : Adopted) : Option State := do
  let uid := s.uid + 1
  let (s, hb) ← s.agentRead a.root a.vf a.area.toNat 0x1000
  let t := adoptedThread a s uid hb
  let s ← s.joinRecords a uid hb
  let gid := ((s.groupsFrom t hb).head?.map (·.gid)).filter fun _ => a.arrived
  let t := { t with arrived := gid.bind fun g => (s.group g).map fun x => (g, x.phase) }
  let v : Saved := { thr := t, area := a.area.setWidth 64, units := a.claimed.map fun c => (c, ({ owner := some uid } : MUnit))
                     voids := a.voids, park := a.parked.map fun p => ⟨p.wait, p.frame, p.resume &&& ~~~3, p.eligible⟩, halted := a.halted }
  let s := { s with uid := uid, opNo := s.opNo + a.operands.length + 2, saved := s.saved ++ [v] }
  some (s.mapQueue a.queue.toNat fun q => q.hold (QEntry.saved uid :: q.entries))

/-! ### The operations -/

/-- A register block's word given to the one who reads it. -/
def State.answerWord (s : State) (v : Word) : State := s.answer (leBytes 8 v.toNat)

/-- What a control operation does; none where it is not allowed. -/
def State.control (s : State) : Control → Option State
  | .powerRead off => some (s.answerWord (s.powerWord off.toNat))
  | .powerWrite off v => some (s.powerSet off.toNat v)
  | .traceBlock c => if c.vf.toNat < 64 || c.vf = 0xFFF then some (s.mapTrace c.vf.toNat fun t => { t with cfg := some c }) else none
  | .debugRead by' off => do
    let (k, r) ← debugPlace off.toNat
    if s.reaches by' k then some (s.answerWord ((NMap.get ({} : Dbg) s.dbg k.toNat).word r)) else none
  | .debugWrite by' off v => do
    let (k, r) ← debugPlace off.toNat
    if s.reaches by' k then (s.atSlot k).debugSet r v else none
  | .portPart n p =>
    if 48 ≤ n.toNat then none
    else some { s with portPart := match p with
      | some q => NMap.set s.portPart n.toNat q
      | none => NMap.drop s.portPart n.toNat }
  | .partition c =>
    if s.liveSlots.any fun k => (s.thread k).part = c.part then none
    else some { s with parts := NMap.put {} s.parts c.part.toNat { NMap.get {} s.parts c.part.toNat with cfg := some c } }
  | .ringName n w =>
    let r := NMap.get {} s.rings n.toNat
    r.cfg.map fun c => { s with rings := NMap.put {} s.rings n.toNat { r with cfg := some { c with name := w } } }
  | .receive qp pa layout key len =>
    some { s with qps := NMap.put {} s.qps qp.toNat { s.qp qp.toNat with recvs := (s.qp qp.toNat).recvs ++ [⟨pa, layout, key, len⟩] } }
  | .ptpPort p => some { s with ptpPort := p }
  | .timeWrite t => if s.ptpPort.isSome then none else s.discipline (BitVec.toInt (t - s.time))
  | .adopt a => s.adopt a

/-- SYSTEM_CORE_ACCESS (16 R334): an access of a system core to device memory as an agent of the memory model, or an operation on the
device's own blocks and tables. -/
def execSystemCoreAccess (s : State) : Host.Outcome State Fault Refusal :=
  event (fun s => match s.input.payload with
    | .outside r => if isQpOp r.op || r.device ≠ 0 then none else s.outside r
    | .control c => s.control c
    | _ => none) s

end Sys2Proof.Machine
end

