-- ==== Sys2Proof/Machine/Copy.lean ====
section
/-!
DEFINITION. The COPY family (06 R139-R160): channels, units in bursts, batches, and the engine steps that perform copies.
-/
namespace Sys2Proof.Machine

/-! ### Channels -/

/-- Channel `k` of the thread that acts. -/
def State.chan (s : State) (k : Nat) : Chan := s.thr.chans.toArray.getD k {}

/-- The payload of a burst in bits: 4 KiB (R142). -/
def burstBits : Nat := 32768

/-- A channel replaced. -/
def State.setChan (s : State) (k : Nat) (c : Chan) : State := s.withThr { s.thr with chans := s.thr.chans.setIfInBounds k c }

/-- What a channel becomes when a copy enters it. -/
def Chan.push (h : Chan) (c : Copy) : Chan := { h with queue := h.queue ++ [c], ordinal := h.ordinal + 1 }

/-- A copy of a kind with nothing captured yet. -/
def copyOf (kind : CopyKind) (total : Nat) : Copy :=
  { no := 0, pc := 0, ordinal := 0, kind := kind, td := 0, ta := 0, tb := 0, tc := 0, edge := 0, addend := 0, stride := 0
    src := 0, dst := 0, len := 0, units := 0, total := total, slack := 0, slack0 := 0, batch := none, written := 0
    buffer := [], buffered := false, gathers := [], sectors := [], sectorsAsked := false }

/-! ### CPIN and CPOUT (R153, R154) -/

/-- Bytes of an element that addresses are multiples of (R154 check 2). -/
def elemBytes (fmt : Nat) : Nat := if fmt = 16 then 64 else max 1 (fmtBits fmt / 8)

/-- May an accumulator move under this bound (R153)? -/
def Ten.blocksOk (t : Ten) (e : Word) : Bool := t.fmt ≠ 16 || (t.cols % 8 = 0 && !t.cutsBlock e)

/-- The tensor whose elements make the units of a CPIN, CPOUT or CPP. -/
def Copy.grid (c : Copy) : Ten := Ten.of (if c.kind = .cpout then c.ta else c.td)

/-- Elements of unit `i` inside a bound, as slice and column. -/
def Ten.unitElems (t : Ten) (e : Word) (i : Nat) : List (Nat × Nat) :=
  ((List.range t.slices).flatMap fun d => (List.range t.cols).map fun j => (d, j)).filter fun x => inBound e i x.2

/-- Is the next unit of a copy an element row that EDM masks whole (R141)? -/
def Copy.masked (c : Copy) : Bool := match c.kind with
  | .cpin | .cpout | .cpp => (c.grid.unitElems c.edge c.units).isEmpty
  | _ => false

/-- A unit delivered (R141). -/
def Copy.delivered (c : Copy) : Copy :=
  { c with units := c.units + 1, part := 0, ahead := c.ahead.filter fun x => c.units < x.2.1 }

/-- The oldest copy of a channel replaced, with the write pointer after the units it has delivered. -/
def State.setHead (s : State) (k : Nat) (c : Copy) : State :=
  let h := s.chan k
  match h.queue with
  | [] => s
  | o :: r => s.setChan k { h with queue := c :: r, wp := h.wp + BitVec.ofNat 32 (c.units - o.units) }

/-- A batch whose last copy has completed is finished (R148). -/
def State.finishBatch (s : State) (b : Option (BitVec 16)) : State :=
  match b with
  | none => s
  | some b =>
    if s.thr.copies.any (fun c => c.batch = some b) || !s.thr.batches.contains b then s
    else (s.withThr { s.thr with batches := s.thr.batches.filter (· ≠ b) }).emitItem 0x21 b.toNat

/-- A copy that has completed is counted in its channel (R159). -/
def State.copyDone (s : State) (k : Nat) (batch : Option (BitVec 16)) : State :=
  let h := s.chan k
  let s := s.setChan k { h with done := h.done + 1 }
  (s.emitItem 0x20 (k * 2 ^ 30 + (h.done + 1).toNat)).finishBatch batch

/-- The oldest copy of a channel completes (R148, R159). -/
def State.completeCopy (s : State) (k : Nat) (c : Copy) : State :=
  let h := s.chan k
  (s.setChan k { h with queue := h.queue.drop 1 }).copyDone k c.batch

/-- Is the item of the thread to stop its copies at their next unit boundary: it has failed, or the flush that it is asked for is taken
where it stands (R150, R151; 20 R390, R392, R396, R398)? -/
def State.stopsCopies (s : State) : Bool :=
  s.thr.term.isSome || (s.thr.preempt == .flush && s.rewound.flushable && !s.curDbg.stopped)

/-- Units at the head of a channel that are masked whole are delivered, and copies that have no other unit left complete, unless
lossless trace holds them or the item's copies are to stop (R141, R150, R151; 23 R434). -/
def State.passMasked (s : State) (k : Nat) : Nat → State
  | 0 => s
  | n + 1 =>
    match (s.chan k).queue.head? with
    | none => s
    | some c =>
      if s.traceWaits || c.sectorsAsked || s.stopsCopies then s
      else if c.total ≤ c.units then (s.completeCopy k c).passMasked k n
      else if c.masked then (s.setHead k c.delivered).passMasked k n
      else s

/-- Units and copies that a channel may have to pass. -/
def Chan.length (h : Chan) : Nat := (h.queue.map fun c => c.total + 1).sum

/-- What stands at the head of a channel passed where it needs no engine (R141). -/
def State.passHead (s : State) (k : Nat) : State := s.passMasked k (s.chan k).length

/-- A copy enters its channel: it waits for a place in the channel and for a scoreboard entry (R139, R145). -/
def State.pushCopy (s : State) (f : FQ) (c : Copy) : Res Done := do
  let k := f.ch.toNat
  s.waitFor ((s.chan k).queue.length < 8)
  s.waitFor (s.entryFree = true)
  let c := { c with no := s.opNo + 1, pc := s.thr.pc, ordinal := (s.chan k).ordinal + 1, gid := s.curGid
                    slack := f.slack, slack0 := f.slack, root := s.thr.root, priv := s.thr.priv }
  let s := s.setChan k ((s.chan k).push c)
  pure { st := { s with opNo := s.opNo + 1, thr := { s.thr with unsealed := s.thr.unsealed + 1 } }.passHead k }

/-- Issue of CPIN and CPOUT: `p` is the plane tensor and `m` the memory tensor. -/
def cpioForm (fn : Nat) (kind : CopyKind) (f : FQ) (s : State) : Host.Outcome State Fault Refusal :=
  issue (.q 0xA0 fn f) (fun s => do
    let p := Ten.of (s.T (if kind = .cpin then f.td else f.ta))
    let m := Ten.of (s.T (if kind = .cpin then f.ta else f.td))
    let e := s.E f.edm
    let step := f.imm32.signExtend 64
    let base := BitVec.ofNat 64 m.base + s.X f.xa
    need (p.own && m.kind = 4 && p.fmt = m.fmt && p.blocksOk e = true) cSPACE
    let b := elemBytes p.fmt
    need (base.toNat % b = 0 ∧ m.stride % b = 0 ∧ f.imm32.toNat % b = 0) cMISALIGN
    need (p.inPlot s.thr.plot = true) cPLOT_BOUND
    s.powered [p]
    s.pushCopy f { copyOf kind p.rows with td := s.T f.td, ta := s.T f.ta, edge := e, addend := s.X f.xa, stride := step }) s

/-- CPIN (06 R153). -/
def execCpin (f : FQ) (s : State) : Host.Outcome State Fault Refusal := cpioForm 0 .cpin f s
/-- CPOUT (06 R153). -/
def execCpout (f : FQ) (s : State) : Host.Outcome State Fault Refusal := cpioForm 1 .cpout f s

/-! ### CPG and CPS (R155) -/

/-- Checks of CPG and CPS: kinds, formats, shapes and DEPTH (R155, 07 R177). -/
def gatherOk (d b : Ten) (c : Option Ten) : Bool :=
  d.kind = 1 && d.depth = 1 && b.kind = 1 && b.fmt = 6 && b.lbr = 0 && b.lbc = 1 && b.h = d.h && b.w = d.w
    && c.all fun t => t.kind = 3 && t.h = d.h && t.w = d.w && t.lbr = d.lbr && t.lbc = d.lbc

/-- Issue of CPG and CPS. -/
def gatherForm (fn : Nat) (kind : CopyKind) (f : FQ) (s : State) : Host.Outcome State Fault Refusal :=
  issue (.q 0xA0 fn f) (fun s => do
    let d := Ten.of (s.T (if kind = .cpg then f.td else f.ta))
    let b := Ten.of (s.T f.tb)
    let c := s.optT f.tc
    need (gatherOk d b c = true) cSPACE
    need ((d :: b :: c.toList).all (·.inPlot s.thr.plot) = true) cPLOT_BOUND
    s.powered (d :: b :: c.toList)
    s.pushCopy f { copyOf kind 1 with td := s.T f.td, ta := s.T f.ta, tb := s.T f.tb, tc := s.T f.tc }) s

/-- CPG (06 R155). -/
def execCpg (f : FQ) (s : State) : Host.Outcome State Fault Refusal := gatherForm 2 .cpg f s
/-- CPS (06 R155). -/
def execCps (f : FQ) (s : State) : Host.Outcome State Fault Refusal := gatherForm 3 .cps f s

/-! ### CPP and CPM (R156, R157) -/

/-- The item whose plot an operand lies in. -/
def State.plotOwner (s : State) (t : Ten) : Option Nat :=
  if t.member then s.curGroup.bind fun g => (g.member t.rank).map (·.uid) else some s.thr.src.uid

/-- Row of the plot that row 0 of an operand's exchange bank stands for, at this moment (15 R320). -/
def State.bankRow (s : State) (t : Ten) : Nat :=
  if t.kind = 6 then match s.curGroup with
    | some g => g.xbase + (g.phase.toNat + 1) % 2 * g.xrows
    | none => 0
  else 0

/-- Do two operands of one plot overlap (R156 check 5)? -/
def State.cppOverlap (s : State) (d a : Ten) : Bool :=
  let ld := s.bankRow d + d.layer
  let la := s.bankRow a + a.layer
  s.plotOwner d == s.plotOwner a && d.row0 < a.row0 + a.h && a.row0 < d.row0 + d.h && d.col0 < a.col0 + a.w
    && a.col0 < d.col0 + d.w && ld < la + a.depth && la < ld + d.depth

/-- Kinds that CPP takes. -/
def Ten.cppKind (t : Ten) : Bool := t.own || t.member

/-- CPP (06 R156). -/
def execCpp (f : FQ) (s : State) : Host.Outcome State Fault Refusal :=
  issue (.q 0xA0 4 f) (fun s => do
    let d := Ten.of (s.T f.td)
    let a := Ten.of (s.T f.ta)
    let e := s.E f.edm
    need (d.cppKind && a.cppKind && d.fmt = a.fmt && d.rows = a.rows && d.cols = a.cols && d.slices = a.slices
      && (d.fmt ≠ 16 || (!d.cutsBlock e && !a.cutsBlock e)) = true) cSPACE
    let ms := [d, a].filter (·.member)
    need (ms = [] ∨ s.curGroup.isSome) cGROUP 0 1
    ms.forM fun t => need ((s.curGroup.bind fun g => if t.rank < g.next then g.member t.rank else none).isSome) cRANK
    need ([d, a].all (fun t => !t.own || t.inPlot s.thr.plot) = true) cPLOT_BOUND
    s.powered [d, a]
    need (s.cppOverlap d a = false) cSPACE
    s.pushCopy f { copyOf .cpp d.rows with td := s.T f.td, ta := s.T f.ta, edge := e }) s

/-- A pointer that CPM takes: in space 0 or 1, with its unused bits 0 (R157). -/
def cpmPtr (a : Word) : Bool := rankOf a = 0 && (spaceOf a = 0 || (spaceOf a = 1 && offsetOf a / 2 ^ 29 = 0))

/-- Does a range stay inside one cell's plot rows (R157)? -/
def Plot.holds (p : Plot) (a : Word) (n : Nat) : Bool :=
  spaceOf a ≠ 1 || (bits (offsetOf a) 21 8 < p.h && bits (offsetOf a) 13 8 < p.w && bits (offsetOf a) 0 13 + n ≤ p.d * 32)

/-- The cell that a space-1 pointer names. -/
def Plot.cellAt (p : Plot) (a : Word) : Nat := p.cell (bits (offsetOf a) 21 8) (bits (offsetOf a) 13 8)

/-- A CPM of no bytes completes at once, with no unit (R157). It is a copy instruction, so it waits for a place in its channel and for a
scoreboard entry (R139, R145). DESIGN CHOICE (log 41): it completes ahead of unfinished copies of its channel, which R139 orders, and
counts as a copy in the channel's ordinal, in DONE and in UNSEALED. -/
def State.copyNothing (s : State) (f : FQ) : Res Done := do
  let k := f.ch.toNat
  s.waitFor ((s.chan k).queue.length < 8)
  s.waitFor (s.entryFree = true)
  let s := s.setChan k { s.chan k with ordinal := (s.chan k).ordinal + 1 }
  pure { st := (s.withThr { s.thr with unsealed := s.thr.unsealed + 1 }).copyDone k none }

/-- CPM (06 R157). DESIGN CHOICE (log 41): a length of 0 still has its space-1 pointers checked: their cells lie in the plot and are not
powered off. -/
def execCpm (f : FQ) (s : State) : Host.Outcome State Fault Refusal :=
  issue (.q 0xA0 5 f) (fun s => do
    let src := s.X f.xa
    let dst := s.X f.xb
    let n := (s.X f.xc).toNat
    need (n < 2 ^ 40 ∧ cpmPtr src = true ∧ cpmPtr dst = true) cSPACE
    need (s.thr.plot.holds src n = true ∧ s.thr.plot.holds dst n = true) cPLOT_BOUND
    need ([src, dst].all (fun a => spaceOf a ≠ 1 || !s.isOff (s.thr.plot.cellAt a)) = true) cPLANE_OFF
    if n = 0 then s.copyNothing f
    else s.pushCopy f { copyOf .cpm ((n + 31) / 32) with src := src, dst := dst, len := n }) s

/-! ### SEAL, WAITB, WPTR, CPSTAT -/

/-- Copies marked with the batch that SEAL closes (R148). -/
def Chan.seal (h : Chan) (b : BitVec 16) : Chan :=
  { h with queue := h.queue.map fun c => if c.batch.isNone then { c with batch := some b } else c }

/-- SEAL (06 R148, R158). -/
def execSeal (f : FQ) (s : State) : Host.Outcome State Fault Refusal :=
  issue (.q 0xA0 6 f) (fun s => do
    let unfinished := s.thr.copies.any (·.batch.isNone)
    s.waitFor (unfinished = false ∨ s.thr.batches.length < 16)
    let b := s.thr.batchNo + 1
    let s := s.withThr { s.thr with batchNo := b, unsealed := 0, chans := s.thr.chans.map (·.seal b)
                                    batches := if unfinished then s.thr.batches ++ [b] else s.thr.batches }
    let s := if unfinished then s else s.emitItem 0x21 b.toNat
    pure { st := s.setX f.xc (b.setWidth 64) }) s

/-- WAITB (06 R148). -/
def execWaitb (f : FQ) (s : State) : Host.Outcome State Fault Refusal :=
  issue (.q 0xA0 7 f) (fun s => do
    s.waitFor (s.thr.batches.length ≤ f.imm32.toNat)
    pure { st := s }) s

/-- What WPTR reads (R159). -/
def Chan.wptr (h : Chan) : Word := BitVec.ofNat 64 (h.done.toNat * 2 ^ 32 + h.wp.toNat)

/-- What CPSTAT reads (R160). -/
def State.cpstat (s : State) (k : Nat) : Word :=
  let q := (s.chan k).queue
  let slack := match q.head? with
    | some c => c.slack.toNat
    | none => 0
  BitVec.ofNat 64 (slack * 2 ^ 52 + s.thr.unsealed.toNat * 2 ^ 32 + s.thr.batches.length % 65536 * 2 ^ 16 + q.length % 16)

/-- WPTR (06 R159). -/
def execWptr (f : FQ) (s : State) : Host.Outcome State Fault Refusal :=
  pureOp (.q 0xA0 8 f) (fun s =>
    let v := (s.chan f.ch.toNat).wptr
    (s.record v).setX f.xc v) s

/-- CPSTAT (06 R160). -/
def execCpstat (f : FQ) (s : State) : Host.Outcome State Fault Refusal :=
  pureOp (.q 0xA0 9 f) (fun s =>
    let v := s.cpstat f.ch.toNat
    (s.record v).setX f.xc v) s

/-! ### Bursts (R140-R147, R150) -/

/-- A row of a tensor from a plot-relative cell row, as the footprint of one unit (R146). -/
def Ten.fpUnit (t : Ten) (write : Bool) (u : Nat) : List Fp :=
  if t.own then [⟨t.row0 + u / t.ebr, t.row0 + u / t.ebr + 1, t.col0, t.col0 + t.w, t.layer, t.layer + t.depth, write⟩] else []

/-- Elements of the units from the next one on that are not moved yet. -/
def Copy.rest (c : Copy) : List (Nat × Nat × Nat) :=
  ((List.range c.total).drop c.units).flatMap fun i =>
    ((c.grid.unitElems c.edge i).map fun x => (x.1, i, x.2)).filter fun x => !c.ahead.contains x

/-- Those of the next unit. -/
def Copy.todo (c : Copy) : List (Nat × Nat × Nat) := c.rest.filter fun x => x.2.1 = c.units

/-- The byte address and the bit in it of element (d, i, j) (R153), modulo 2^64. -/
def Copy.addr (c : Copy) (m : Ten) (w d i j : Nat) : Word × Nat :=
  (BitVec.ofNat 64 m.base + c.addend + BitVec.ofNat 64 d * c.stride + BitVec.ofNat 64 (i * m.stride + j * w / 8), j * w % 8)

/-- The aligned 4-byte unit in which an element of a copy is written (R147, 07 R183). -/
def Copy.word (c : Copy) (x : Nat × Nat × Nat) : Nat × Nat × Nat :=
  let t := c.grid.words
  if c.kind = .cpout then (0, 0, (c.addr (Ten.of c.td) (fmtBits t.fmt) x.1 x.2.1 x.2.2).1.toNat / 4)
  else
    let (cell, k, bit) := t.at x.1 x.2.1 x.2.2
    (cell.1, cell.2, k * 8 + bit / 32)

/-- The elements that are written with an element `x` that is not moved yet: all of its 4-byte unit, for a copy writes an aligned 4-byte
unit that it writes whole at once, whichever of its rows the bytes come from (R147, 16 R347). -/
def Copy.with4 (c : Copy) (x : Nat × Nat × Nat) : List (Nat × Nat × Nat) :=
  if 32 ≤ fmtBits c.grid.words.fmt then [x] else c.rest.filter fun y => c.word y = c.word x

/-- The rows of the grid that the next unit is written with: its own, and those that share a 4-byte unit with it. -/
def Copy.rowsDue (c : Copy) : List Nat := ((c.todo.flatMap fun x => (c.with4 x).map (·.2.1)) ++ [c.units]).eraseDups

/-- The footprint of a copy's next unit. -/
def Copy.unitFps (c : Copy) : List Fp :=
  match c.kind with
  | .cpin => c.rowsDue.flatMap ((Ten.of c.td).fpUnit true)
  | .cpout => c.rowsDue.flatMap ((Ten.of c.ta).fpUnit false)
  | .cpp => c.rowsDue.flatMap fun u => (Ten.of c.td).fpUnit true u ++ (Ten.of c.ta).fpUnit false u
  | _ => c.fps

/-- Footprints of the long accesses that have faulted, or stand behind one that has, in the mode of a copy: they are performed when they
are re-issued, before what comes later in program order (16 R336). -/
def Thread.loggedFps (t : Thread) (priv : Bool) : List (Nat × List Fp) :=
  (t.outs.filter fun o => o.priv == priv && (o.faulted.isSome || o.blocked)).map fun o => (o.no, o.fps)

/-- May the next unit of a copy be delivered: no earlier footprint of its thread overlaps it (R146; 16 R336), and the thread's
earlier stores have left its queue (R147; log 25)? -/
def State.unitFree (s : State) (c : Copy) : Bool :=
  !((s.workFps s.thr ++ s.thr.outFps ++ s.thr.loggedFps c.priv ++ s.thr.sqFps).any fun x => x.1 < c.no && fpsConflict c.unitFps x.2)
    && s.thr.sq.all fun e => c.no < e.no

/-- Is a copy, the oldest of its channel, ready (R142)? A gather that waits for its sectors needs no engine. -/
def State.copyReady (s : State) (c : Copy) : Bool := !c.sectorsAsked && !s.traceWaits && (c.masked || s.unitFree c)

/-- A bit field of memory to be written: an address, a mask of its byte and the bits. -/
structure MBits where
  va : Word
  mask : Nat
  val : Nat

/-- Bits of one element in memory (R153): at bit `o` of the byte at `a`. -/
def elemBits (a : Word) (o w v : Nat) : List MBits :=
  if w < 8 then [⟨a, (2 ^ w - 1) * 2 ^ o, v % 2 ^ w * 2 ^ o⟩]
  else (List.range (w / 8)).map fun k => ⟨a + BitVec.ofNat 64 k, 255, v / 256 ^ k % 256⟩

/-- A field put among those of the same byte: where two hold one bit, the later one stands. -/
def addBits (m : MBits) : List MBits → List MBits
  | [] => [m]
  | n :: r => if n.va = m.va then ⟨n.va, n.mask ||| m.mask, (n.val &&& (255 - m.mask)) ||| m.val⟩ :: r else n :: addBits m r

/-- The fields of each byte joined. -/
def joinBits (ms : List MBits) : List MBits := ms.foldl (fun l m => addBits m l) []

/-- Bytes read by a copy: translated and checked, and none poisoned (R150). -/
def State.copyRead (s : State) (vas : List Word) : Except Trap (State × List Byte) := do
  let (s, ls) ← s.agentLocs (some s.cl) s.thr.root s.thr.vf false vas
  match (vas.zip ls).find? fun x => s.isPoisoned x.2.1 with
  | some x => .error ⟨cECC, x.1, 0⟩
  | none => pure (s, s.getBytes ls)

/-- One bit field written where it lies. -/
def State.putBits (s : State) (m : MBits) (l : Loc × Nat) : State :=
  s.putBytes [⟨l.1, BitVec.ofNat 8 (((s.get l.1 l.2).toNat &&& (255 - m.mask)) ||| m.val), l.2⟩]

/-- Bit fields written by a copy, with the bytes written whole of sectors that are poisoned. -/
def State.copyWrite (s : State) (ms : List MBits) : Except Trap (State × List Loc) := do
  let ms := joinBits ms
  let (s, ls) ← s.agentLocs (some s.cl) s.thr.root s.thr.vf true (ms.map (·.va))
  let hit := (ms.zip ls).filterMap fun x => if x.1.mask = 255 && s.isPoisoned x.2.1 then some x.2.1 else none
  pure ((ms.zip ls).foldl (fun s x => s.putBits x.1 x.2) s, hit)

/-- A copy has written bytes of poisoned sectors: a sector that it has now written whole loses its poison (R149, 04 R78). -/
def Copy.covered (c : Copy) (s : State) (hit : List Loc) : State × Copy :=
  if hit.isEmpty then (s, c) else (s.clearPoison (c.cover ++ hit), { c with cover := c.cover ++ hit })

/-- The first element whose row is poisoned, as the pointer to that row (R150). -/
def State.poisonedRow (s : State) (p : Place) (t : Ten) (es : List (Nat × Nat × Nat)) : Option Word :=
  (es.find? fun x => s.elemPoison p 0 x.1 x.2.1 x.2.2).map t.rowPointer

/-- A tensor's accumulator seen as double words, where it lies. -/
def Place.words (p : Place) : Place := { p with t := p.t.words }

/-- Elements of a CPIN, CPOUT or CPP moved. An accumulator moves as the double words of its blocks, each with its
element: with EBC below 8 a block lies in several element rows, and so in several units, which the manual does not describe (log
41). -/
def State.moveElems (s : State) (c : Copy) (d a : Place) (xs : List (Nat × Nat × Nat)) : Except Trap (State × Copy) :=
  let w := fmtBits d.t.fmt
  let n := (w + 7) / 8
  let v (x : Nat × Nat × Nat) (n : Nat) : Nat := c.grid.copied x.2.1 x.2.2 n
  match c.kind with
  | .cpin => do
    let as := xs.map fun x => c.addr (Ten.of c.ta) w x.1 x.2.1 x.2.2
    let (s, bs) ← s.copyRead (as.flatMap fun x => (List.range n).map fun k => x.1 + BitVec.ofNat 64 k)
    let ws := (xs.zip as).zip (List.range xs.length) |>.map fun y =>
      (⟨y.1.1.1, y.1.1.2.1, y.1.1.2.2, v y.1.1 (leNat ((bs.drop (y.2 * n)).take n) / 2 ^ y.1.2.2), false⟩ : EWrite)
    pure (s.writeElems d ws, c)
  | .cpout =>
    match s.poisonedRow a a.t xs with
    | some p => .error ⟨cECC, p, 0⟩
    | none => do
      let (s, hit) ← s.copyWrite (xs.flatMap fun x =>
        let at' := c.addr (Ten.of c.td) w x.1 x.2.1 x.2.2
        elemBits at'.1 at'.2 w (v x (s.elem a 0 x.1 x.2.1 x.2.2)))
      let (s, c) := c.covered s hit
      pure (s, c)
  | _ =>
    match s.poisonedRow a a.t xs with
    | some p => .error ⟨cECC, p, 0⟩
    | none => .ok (s.writeElems d (xs.map fun x => ⟨x.1, x.2.1, x.2.2, v x (s.elem a 0 x.1 x.2.1 x.2.2), false⟩), c)

/-- Has a copy written element (d, i, j)? -/
def Copy.wrote (c : Copy) (x : Nat × Nat × Nat) : Bool := inBound c.edge x.2.1 x.2.2 && (x.2.1 < c.units || c.ahead.contains x)

/-- The elements of the store row of a cell in which an element lies. -/
def Ten.rowMates (t : Ten) (x : Nat × Nat × Nat) : List (Nat × Nat × Nat) :=
  let k := (x.2.1 % t.ebr * t.ebc + x.2.2 % t.ebc) / t.perRow * t.perRow
  (List.range t.perRow).map fun q => (x.1, x.2.1 / t.ebr * t.ebr + (k + q) / t.ebc, x.2.2 / t.ebc * t.ebc + (k + q) % t.ebc)

/-- Of the store rows in which elements were moved, those that the copy has now written whole lose their poison (07 R163). -/
def State.cleanRows (s : State) (c : Copy) (d : Place) (xs : List (Nat × Nat × Nat)) : State :=
  xs.foldl (fun s x =>
    let (cell, k, _) := d.t.at x.1 x.2.1 x.2.2
    let q := d.plot.cell cell.1 cell.2
    let r := d.storeRow k
    if (s.row q r).poison && !s.isVoid q && d.t.perRow * fmtBits d.t.fmt = 256 && (d.t.rowMates x).all c.wrote
    then s.setRow q r { s.row q r with poison := false } else s) s

/-- How a copy stands after a step of its burst. -/
inductive Served where
  /-- state, copy and the bits of the burst that are left -/
  | on (s : State) (c : Copy) (left : Nat)
  | held (s : State) (c : Copy)
  | fault (s : State) (c : Copy) (t : Trap)

/-- Does an element lie in its member's plot, or in the bank of the exchange region that is written (R156, 15 R320)? -/
def Group.reaches (g : Group) (q : Plot) (t : Ten) (x : Nat × Nat × Nat) : Bool :=
  let (cell, k, _) := t.at x.1 x.2.1 x.2.2
  cell.1 < q.h && cell.2 < q.w && t.layer + k < (if t.kind = 5 then q.d else g.xrows)

/-- The plot of a member operand of a copy, for the elements of one unit, in the group captured at issue: each fault names the row that
it is found at (R150, R156); no place while the member is saved (20 R401). -/
def State.memberPlace (s : State) (c : Copy) (t : Ten) (es : List (Nat × Nat × Nat)) : Except (Option Trap) Place :=
  let row (x : Nat × Nat × Nat) : Word := t.rowPointer x
  let first := (es.head?.map row).getD 0
  match c.gid.bind s.group with
  | none => .error (some ⟨cGROUP, first, 1⟩)
  | some g =>
    match if t.rank < g.next then g.member t.rank else none with
    | none => .error (some ⟨cRANK, first, 0⟩)
    | some m =>
      match s.plotOfUid m.uid with
      | none => .error none
      | some q =>
        let cold (x : Nat × Nat × Nat) : Bool := s.isOff (q.cell (t.at x.1 x.2.1 x.2.2).1.1 (t.at x.1 x.2.1 x.2.2).1.2)
        match es.find? (fun x => !g.reaches q t x), es.find? cold with
        | some x, _ => .error (some ⟨cPLOT_BOUND, row x, 0⟩)
        | none, some x => .error (some ⟨cPLANE_OFF, row x, 0⟩)
        | none, none => .ok ⟨t, q, if t.kind = 5 then 0 else g.xbase + (g.phase.toNat + 1) % 2 * g.xrows⟩

/-- The place of an operand of a copy for elements that are moved. -/
def State.copyPlace (s : State) (c : Copy) (t : Ten) (es : List (Nat × Nat × Nat)) : Except (Option Trap) Place :=
  if t.member then (s.memberPlace c t es).map Place.words else .ok (Place.words ⟨t, s.thr.plot, 0⟩)

/-- Of the elements of a list, with what each is written with, those that fit into `n`; the first that does not ends them. -/
def Copy.pick (c : Copy) (n : Nat) : List (Nat × Nat × Nat) → List (Nat × Nat × Nat) → List (Nat × Nat × Nat)
  | [], l => l
  | x :: r, l =>
    if l.contains x then c.pick n r l
    else if n < l.length + (c.with4 x).length then l
    else c.pick n r (l ++ c.with4 x)

/-- What a burst of `budget` bits moves of the next unit: whole 4-byte units, so that none is cut at its end (R142, R147). Where all that
is written with one element fills more than a burst (rows that overlap in memory), the elements of the unit alone. -/
def Copy.picked (c : Copy) (budget : Nat) : List (Nat × Nat × Nat) :=
  let n := budget / fmtBits c.grid.words.fmt
  let xs := c.pick n c.todo []
  if xs.isEmpty && burstBits ≤ budget then c.todo.take n else xs

/-- Elements moved, with the copy as it then stands: the bytes it has written are counted, but for those of void cells. -/
def State.moveGrid (s : State) (c : Copy) (xs : List (Nat × Nat × Nat)) : Except (Option Trap) (State × Copy) := do
  let dt := Ten.of c.td
  let at' := Ten.of c.ta
  let d ← s.copyPlace c (if c.kind = .cpout then at' else dt) xs
  let a ← s.copyPlace c (if c.kind = .cpin then dt else at') xs
  match s.moveElems c d a xs with
  | .error t => .error (some t)
  | .ok (s', c) =>
    let live := xs.filter fun x => c.kind == .cpout || !s.elemVoid d x.1 x.2.1 x.2.2
    let c : Copy := { c with ahead := c.ahead ++ xs, part := c.part + xs.length, written := c.written + (live.length * fmtBits d.t.fmt + 7) / 8 }
    .ok (if c.kind == .cpout then s' else s'.cleanRows c d xs, c)

/-- One part of the next unit of a CPIN, CPOUT or CPP, of at most `budget` bits. DESIGN CHOICE (log 41): of several checks that fail, the
destination's place is reported first, then the source's, then a poisoned row, then translation, and of several elements the first by
slice and column. Where elements of later units would fault, the unit is moved without them: no 4-byte unit of theirs is then written
whole. -/
def State.serveGrid (s : State) (c : Copy) (budget : Nat) : Served :=
  if c.todo.isEmpty then .on s c.delivered budget
  else
    let xs := c.picked budget
    let own := xs.filter fun x => x.2.1 = c.units
    let moved (s : State) (d : Copy) (n : Nat) : Served :=
      if d.todo.isEmpty then .on s d.delivered (budget - n * fmtBits c.grid.words.fmt) else .on s d 0
    if xs.isEmpty then .on s c 0
    else match s.moveGrid c xs with
      | .ok r => moved r.1 r.2 xs.length
      | .error _ => match s.moveGrid c own with
        | .ok r => moved r.1 r.2 own.length
        | .error (some t) => .fault s c t
        | .error none => .held s c

/-- Bytes of a CPM's source: pointers in space 0 or 1 (R157), with the row's first byte for a poisoned row (R150). -/
def State.cpmRead (s : State) (a : Word) (n : Nat) : Except Trap (State × List Byte) :=
  match s.resolveBytes { watch := false } a (bytesOf a n) with
  | .ok (s', nm) => .ok (s', s'.getBytes nm.locs)
  | .error (.trap t) =>
    .error (if t.cause = cECC ∧ spaceOf t.addr ≠ 0 then { t with addr := BitVec.ofNat 64 (t.addr.toNat / 32 * 32) } else t)
  | .error _ => .error ⟨cSPACE, a, 0⟩

/-- Bytes written by a CPM; a sector or row that the copy has now written whole loses its poison (04 R78, 07 R163). -/
def State.cpmWrite (s : State) (dst : Word) (done : Nat) (bs : List Byte) : Except Trap State :=
  let a := dst + BitVec.ofNat 64 done
  match s.resolveBytes { store := true, reads := false, data := false, watch := false } a (bytesOf a bs.length) with
  | .error (.trap t) => .error t
  | .error _ => .error ⟨cSPACE, a, 0⟩
  | .ok (s, nm) =>
    let s := s.putBytes ((nm.locs.zip bs).map fun x => ⟨x.1.1, x.2, x.1.2⟩)
    let first := a.toNat / 32 * 32
    if first < dst.toNat ∨ a.toNat + bs.length < first + 32 then .ok s
    else match s.resolveBytes { store := true, reads := false, data := false, watch := false } (BitVec.ofNat 64 first)
        (bytesOf (BitVec.ofNat 64 first) 32) with
      | .ok (_, nm) => .ok (s.clearPoison (nm.locs.map (·.1)))
      | .error _ => .ok s

/-- The source bytes of the units of a CPM whose ranges overlap, up to the first unit that faults: read before any is
written (R157). -/
def State.cpmBuffer (s : State) (src : Word) (n : Nat) : Nat → Nat → List Byte → State × List Byte
  | 0, _, l => (s, l)
  | k + 1, u, l =>
    match s.cpmRead (src + BitVec.ofNat 64 (32 * u)) (min 32 (n - 32 * u)) with
    | .ok (s, bs) => s.cpmBuffer src n k (u + 1) (l ++ bs)
    | .error _ => (s, l)

/-- Do a CPM's ranges overlap? -/
def Copy.overlaps (c : Copy) : Bool := c.src.toNat < c.dst.toNat + c.len && c.dst.toNat < c.src.toNat + c.len

/-- Bytes of a CPM from the `o`-th on: from what was read beforehand, or from its source. -/
def State.cpmBytes (s : State) (c : Copy) (o n : Nat) : Except Trap (State × List Byte) :=
  if c.buffered && o + n ≤ c.buffer.length then .ok (s, (c.buffer.drop o).take n) else s.cpmRead (c.src + BitVec.ofNat 64 o) n

/-- Bytes of a CPM moved. -/
def State.cpmMove (s : State) (c : Copy) (o n : Nat) : Except Trap State := do
  let (s, bs) ← s.cpmBytes c o n
  s.cpmWrite c.dst o bs

/-- How many bytes of the next unit of a CPM a burst of `budget` bits moves: what remains of the granule where the aligned 4-byte unit of
the destination at its end can follow in the same burst, and else whole 4-byte units (R142, R147). -/
def Copy.cpmTake (c : Copy) (budget : Nat) : Nat :=
  let o := 32 * c.units + c.part
  let n := min 32 (c.len - 32 * c.units) - c.part
  let past := (c.dst.toNat + o + n) % 4
  let more := if past = 0 then 0 else min (4 - past) (c.len - (o + n))
  if 8 * (n + more) ≤ budget then n else min n (budget / 8) - (c.dst.toNat + o + min n (budget / 8)) % 4

/-- One part of the next unit of a CPM (R157). -/
def State.serveCpm (s : State) (c : Copy) (budget : Nat) : Served :=
  let (s, c) := if c.overlaps && !c.buffered then
      let (s, b) := s.cpmBuffer c.src c.len c.total 0 []
      (s, { c with buffered := true, buffer := b })
    else (s, c)
  let o := 32 * c.units + c.part
  let n := c.cpmTake budget
  if n = 0 then .on s c 0
  else match s.cpmMove c o n with
    | .error t => .fault s c t
    | .ok s =>
      let d := { c with written := c.written + n, part := c.part + n }
      if c.part + n < min 32 (c.len - 32 * c.units) then .on s d 0 else .on s d.delivered (budget - 8 * n)

/-- The cells of a CPG or CPS with their pointers and counts: those whose predicate is 1 and that are not void (R155); the
error is the pointer to a poisoned row of TC or TB. -/
def State.gathersOf (s : State) (d b : Ten) (c : Option Ten) : Except Trap (List Gather) :=
  let p := s.thr.plot
  (d.cells.zip (b.cells.zip ((c.map Ten.cells).getD d.cells))).foldlM (fun l x => do
    if s.isVoid (p.cell x.1.1 x.1.2) then pure l
    else
      let pr := s.winRow ⟨c.getD d, p, 0⟩ 0 x.2.2.1 x.2.2.2 0
      let ptr (t : Ten) (y : Nat × Nat) : Word :=
        t.rowPointer (0, (y.1 - t.row0) * t.ebr, (y.2 - t.col0) * t.ebc)
      if c.isSome && pr.poison then .error ⟨cECC, ptr (c.getD d) x.2.2, 0⟩
      else if c.isSome && !pr.data.getLsbD 0 then pure l
      else
        let r := s.winRow ⟨b, p, 0⟩ 0 x.2.1.1 x.2.1.2 0
        if r.poison then .error ⟨cECC, ptr b x.2.1, 0⟩
        else pure (l ++ [⟨x.1.1, x.1.2, r.data.extractLsb' 0 64, min 32 (fld r.data 64 64)⟩])) []

/-- Bytes of a range that lie in one aligned block of `b` bytes, as offsets. -/
def Gather.inBlock (g : Gather) (b q : Nat) : List Nat :=
  (List.range g.n).filter fun k => (g.ptr + BitVec.ofNat 64 k).toNat / b = q

/-- The aligned blocks of `b` bytes that the cells of a gather or a scatter touch. -/
def blocksOf (b : Nat) (gs : List Gather) : List Nat :=
  gs.foldl (fun l g => (List.range g.n).foldl (fun l k => setAdd ((g.ptr + BitVec.ofNat 64 k).toNat / b) l) l) []

/-- The sectors that the cells of a gather touch (R155). -/
def sectorsOf (gs : List Gather) : List Nat := blocksOf 32 gs

/-- 4-byte units of a gather's row that hold bytes of its range; the others are zero (R155). -/
def Gather.words (g : Gather) : Nat := (g.n + 3) / 4

/-- A byte range of a per-cell pointer checked and read or written: spaces 0 to 3 alone (R150, R155), in the group captured at issue, as
for CPP (log 41). No trap while the member that it names is saved (20 R401). -/
def State.pointerLocs (s : State) (gid : Option Nat) (store : Bool) (vas : List Word) :
    Except (Option Trap) (State × List (Loc × Nat)) :=
  match vas.find? fun a => 3 < spaceOf a with
  | some a => .error (some ⟨cSPACE, a, 0⟩)
  | none =>
    let own := s.thr.groups
    let u := s.withThr { s.thr with groups := (gid.map fun g => (⟨g, 0⟩ : Membership)).toList }
    match u.resolveBytes { store := store, reads := !store, data := !store, watch := false } (vas.headD 0) vas with
    | .ok (u, nm) => .ok (u.withThr { u.thr with groups := own }, nm.locs)
    | .error (.trap t) =>
      .error (some (if t.cause = cECC ∧ spaceOf t.addr ≠ 0 then { t with addr := BitVec.ofNat 64 (t.addr.toNat / 32 * 32) } else t))
    | .error _ => .error none

/-- The row of a gather's cell in TD. -/
def State.gatherRow (s : State) (d : Ten) (g : Gather) : Nat × Nat :=
  (s.thr.plot.cell g.row g.col, s.thr.plot.sbase + d.layer)

/-- A store row of a gather's cell written, unless the cell has become void (07 R169). -/
def State.setGathered (s : State) (d : Ten) (g : Gather) (f : Row → Row) : State :=
  let k := s.gatherRow d g
  if s.isVoid k.1 then s else s.setRow k.1 k.2 (f (s.row k.1 k.2))

/-- The first step of a CPG: it reads its pointers, clears the 4-byte units beyond each count and asks for its sectors (R155). The bytes of
a unit that the count cuts are zeroed with its data, at once (16 R347). -/
def State.askSectors (s : State) (c : Copy) : Served :=
  let d := Ten.of c.td
  match s.gathersOf d (Ten.of c.tb) (if c.tc = 0 then none else some (Ten.of c.tc)) with
  | .error t => .fault s c t
  | .ok gs =>
    let s' := gs.foldl (fun s g => s.setGathered d g fun r => { r with data := r.data &&& BitVec.ofNat 256 (2 ^ (32 * g.words) - 1) }) s
    let c := { c with gathers := gs, sectors := sectorsOf gs, sectorsAsked := true, written := (gs.map fun g => 32 - 4 * g.words).sum }
    .on s' c 0

/-- What the cells of a CPS write into one aligned 4-byte unit, one cell after the other, so that the last one's bytes stand (R155), with
the bytes written whole of sectors that are poisoned. -/
def State.scatterWord (s : State) (a : Ten) (gid : Option Nat) (w : Nat) (hit : List Loc) :
    List Gather → Except (Option Trap) (State × List Loc)
  | [] => .ok (s, hit)
  | g :: r =>
    let ks := g.inBlock 4 w
    if ks.isEmpty then s.scatterWord a gid w hit r
    else
      let k := s.gatherRow a g
      let row := if s.isVoid k.1 then {} else s.row k.1 k.2
      if row.poison then .error (some ⟨cECC, a.rowPointer (0, (g.row - a.row0) * a.ebr, (g.col - a.col0) * a.ebc), 0⟩)
      else match s.pointerLocs gid true (ks.map fun i => g.ptr + BitVec.ofNat 64 i) with
        | .error t => .error t
        | .ok (s, ls) =>
          (s.putBytes ((ls.zip ks).map fun x => ⟨x.1.1, row.data.extractLsb' (8 * x.2) 8, x.1.2⟩)).scatterWord a gid w
            (hit ++ (ls.map (·.1)).filter s.isPoisoned) r

/-- The bytes that the cells of a CPS write in one aligned 4-byte unit. -/
def bytesIn (gs : List Gather) (w : Nat) : Nat :=
  ((gs.flatMap fun g => (g.inBlock 4 w).map fun i => (g.ptr + BitVec.ofNat 64 i).toNat).eraseDups).length

/-- The aligned 4-byte units of a CPS, each written at once while the payload of the burst lasts; what it wrote before a fault stays
(R142, R150, R155; 16 R347). DESIGN CHOICE (log 41): they are served by ascending address, so the first fault is that of the lowest. -/
def State.scatter (s : State) (a : Ten) (c : Copy) (budget : Nat) : List Nat → Served
  | [] => .on s c.delivered 0
  | w :: r =>
    let n := bytesIn c.gathers w
    if budget < 8 * n then .on s c 0
    else match s.scatterWord a c.gid w [] c.gathers with
      | .error (some t) => .fault s c t
      | .error none => .held s c
      | .ok (s, hit) =>
        let (s, c) := c.covered s hit
        s.scatter a { c with written := c.written + n, part := c.part + 1 } (budget - 8 * n) r

/-- One part of a CPS, whose pointers it reads in its first. -/
def State.serveCps (s : State) (c : Copy) (budget : Nat) : Served :=
  let a := Ten.of c.ta
  if c.buffered then s.scatter a c budget ((blocksOf 4 c.gathers).drop c.part)
  else match s.gathersOf a (Ten.of c.tb) (if c.tc = 0 then none else some (Ten.of c.tc)) with
    | .error t => .fault s c t
    | .ok gs => s.scatter a { c with gathers := gs, buffered := true } budget (blocksOf 4 gs)

/-- What a step of a burst has made of the state, changed. -/
def Served.map (r : Served) (f : State → State) : Served := match r with
  | .on s c left => .on (f s) c left
  | .held s c => .held (f s) c
  | .fault s c t => .fault (f s) c t

/-- One part of the next unit of a copy, of its kind. -/
def State.serveKind (s : State) (c : Copy) (budget : Nat) : Served :=
  match c.kind with
  | .cpin | .cpout | .cpp => s.serveGrid c budget
  | .cpm => s.serveCpm c budget
  | .cpg => s.askSectors c
  | .cps => s.serveCps c budget

/-- The same, translated under the root of the copy's issue (04 R95, 09 R205). -/
def State.serveUnit (s : State) (c : Copy) (budget : Nat) : Served :=
  ((s.withRoot c.root).serveKind c budget).map fun u => u.withRoot s.thr.root

/-- Energy of copied bytes: 6 pJ each (22 R419). -/
def copyEnergy (bytes : Nat) : Nat := bytes * 6 * (unitsPerNJ / 1000)

/-- The oldest copy of a channel leaves it. -/
def State.dropHead (s : State) (k : Nat) : State :=
  let h := s.chan k
  s.setChan k { h with queue := h.queue.drop 1 }

/-- The item of a copy that faults is terminated; the copy stops (R150). -/
def State.failCopy (s : State) (k : Nat) (c : Copy) (t : Trap) : State :=
  ((s.setHead k c).dropHead k).failNow { cause := t.cause, pc := c.pc, addr := t.addr, count := BitVec.ofNat 64 c.written
                                         ordinal := c.ordinal, detail := BitVec.ofNat 32 k }

/-- The last sector has arrived: every row of the gather was written whole (07 R163). -/
def State.gatherDone (s : State) (k : Nat) (c : Copy) : State :=
  let s := c.gathers.foldl (fun s g => s.setGathered (Ten.of c.td) g fun r => { r with poison := false }) s
  let c := { c with sectorsAsked := false }.delivered
  (s.setHead k c).completeCopy k c

/-- A burst of the oldest copy of channel `k`: parts of units while the payload and the scoreboard allow (R142). -/
def State.burst (s : State) (k : Nat) (left : Nat) : Nat → State
  | 0 => s
  | n + 1 =>
    match (s.chan k).queue.head? with
    | none => s
    | some c =>
      if c.sectorsAsked then s
      else if c.total ≤ c.units then s.completeCopy k c
      else if c.part = 0 && s.stopsCopies then s.dropHead k
      else if !c.masked && (left = 0 || !s.unitFree c) then s
      else match s.serveUnit c left with
        | .held s c => s.setHead k c
        | .fault s c t => s.failCopy k c t
        | .on s c' left =>
          let s := s.addEnergy s.cur (copyEnergy (c'.written - c.written))
          if c'.sectorsAsked && c'.sectors.isEmpty then s.gatherDone k c'
          else (s.setHead k c').burst k left n

/-- The slack of the oldest copy of a channel restored at the end of a burst (R142). -/
def State.restoreSlack (s : State) (k no : Nat) : State :=
  let h := s.chan k
  s.setChan k { h with queue := h.queue.map fun c => if c.no = no then { c with slack := c.slack0 } else c }

/-- The ready copies of a die with their slots and channels, least slack first, then earliest issued (R142). -/
def State.readyCopies (s : State) (die : Nat) : List (SlotNo × Nat × Copy) :=
  let all := (s.liveSlots.filter fun k => dieOf (slotCluster k) = die).flatMap fun k =>
    let t := s.atSlot k
    (List.range 4).filterMap fun n =>
      match (t.chan n).queue.head? with
      | some c => if t.copyReady c then some (k, n, c) else none
      | none => none
  all.foldl (fun l x => l.takeWhile (fun y => before y x) ++ x :: l.dropWhile (fun y => before y x)) []
where before (y x : SlotNo × Nat × Copy) : Bool :=
  y.2.2.slack < x.2.2.slack || (y.2.2.slack = x.2.2.slack && y.2.2.no < x.2.2.no)

/-- COPY_BURST (06 R142): an engine of the die serves the ready copy with the least slack; `aux` says how many of the other
fifteen engines serve copies ahead of it. -/
def execCopyBurst (s : State) : Host.Outcome State Fault Refusal :=
  event (fun s => do
    if 16 ≤ s.input.aux then none
    else
      let (k, n, c) ← (s.readyCopies s.input.unit)[s.input.aux]?
      some ((((s.atSlot k).burst n burstBits (c.total + 2)).passHead n).restoreSlack n c.no)) s

/-- COPY_SLACK_DECAY (06 R142): a ready copy has waited 4,096 network cycles. -/
def execCopySlackDecay (s : State) : Host.Outcome State Fault Refusal :=
  slotEvent (fun s => do
    let k := s.input.unit
    let c ← (s.chan k).queue.head?
    if s.copyReady c ∧ c.slack ≠ 0 then some (s.setHead k { c with slack := c.slack - 1 }) else none) s

/-- The 4-byte units of a cell's row that sector `q` completes: the sectors `open'` are still outstanding. -/
def Gather.filled (g : Gather) (q : Nat) (open' : List Nat) : List Nat :=
  let sector (k : Nat) : Nat := (g.ptr + BitVec.ofNat 64 k).toNat / 32
  (List.range g.words).filter fun w =>
    let ks := (List.range g.n).filter fun k => k / 4 = w
    (ks.any fun k => sector k = q) && ks.all fun k => !open'.contains (sector k)

/-- A sector fills its part of every cell that uses it (R155): each 4-byte unit of a row is written at once when the last of its bytes
has come (16 R347). -/
def State.fillSector (s : State) (d : Ten) (gid : Option Nat) (q : Nat) (open' : List Nat) : List Gather → Except (Option Trap) State
  | [] => .ok s
  | g :: r => do
    let ws := g.filled q open'
    let ks := (List.range g.n).filter fun k => ws.contains (k / 4)
    if ks.isEmpty then s.fillSector d gid q open' r
    else
      let (s, ls) ← s.pointerLocs gid false (ks.map fun k => g.ptr + BitVec.ofNat 64 k)
      let byte (k : Nat) : Byte := ((ks.zip (s.getBytes ls)).find? fun x => x.1 = k).elim 0 (·.2)
      (s.setGathered d g fun row =>
        { row with data := (ws.flatMap fun w => (List.range 4).map fun i => 4 * w + i).foldl (fun v k => rowSet v k (byte k)) row.data }).fillSector
          d gid q open' r

/-- CPG_SECTOR_ARRIVAL (06 R155): sectors return in any order; the copy completes when none is outstanding. -/
def execCpgSectorArrival (s : State) : Host.Outcome State Fault Refusal :=
  slotEvent (fun s => do
    let k := s.input.unit
    let c ← (s.chan k).queue.head?
    let q := s.input.aux
    let open' := setDel q c.sectors
    if c.sectorsAsked && c.sectors.contains q then
      match (s.withRoot c.root).fillSector (Ten.of c.td) c.gid q open' c.gathers with
      | .error (some t) => some (s.failCopy k c t)
      | .error none => none
      | .ok s' =>
        let s' := s'.withRoot s.thr.root
        let n := 4 * (c.gathers.map fun g => (g.filled q open').length).sum
        let c := { c with sectors := open', written := c.written + n }
        let s' := s'.addEnergy s'.cur (copyEnergy n)
        some (if c.sectors.isEmpty then (s'.gatherDone k c).passHead k else s'.setHead k c)
    else none) s

end Sys2Proof.Machine
end

