-- ==== Sys2Proof/Machine/Ctrl.lean ====
section
/-!
DEFINITION. The CTRL family (09 R227, R228; 20 R390; 23 R436).
-/
namespace Sys2Proof.Machine

/-- NOP (09 R228). -/
def execNop (f : FE) (s : State) : Host.Outcome State Fault Refusal := pureOp (.e 0x00 0 f) (fun s => s) s

/-- EXIT (09 R228): the thread ends; in a handler the item fails with the cause of the trap being handled (20 R391). -/
def execExitThread (f : FE) (s : State) : Host.Outcome State Fault Refusal :=
  issue (.e 0x00 1 f) (fun s =>
    let s := s.withThr { s.thr with exited := true }
    if s.thr.priv then
      .ok { st := s.failNow { cause := cTRAP_EXIT, cause2 := s.thr.ecause, pc := s.thr.pc }, flow := .set }
    else .ok { st := s.withThr { s.thr with phase := .ended .exit }, flow := .set }) s

/-- Is a slot ready: it runs an item, waits for nothing and is not stopped? -/
def State.ready (s : State) (k : SlotNo) : Bool :=
  let t := s.thread k
  t.phase == .running && !t.waiting && t.term.isNone && !(NMap.get {} s.dbg k.toNat).stopped

/-- The other ready slots of the cluster of the slot that acts (09 R228). -/
def State.readyMates (s : State) : List Nat :=
  (List.range 8).filterMap fun i =>
    let k : SlotNo := BitVec.ofNat 11 (s.cl * 8 + i)
    if k ≠ s.cur ∧ s.ready k then some k.toNat else none

/-- YIELD (09 R228): the slot waits until each of them has issued once. -/
def execYieldSlot (f : FE) (s : State) : Host.Outcome State Fault Refusal :=
  issue (.e 0x00 2 f) (fun s => .ok { st := s.withThr { s.thr with yieldTo := s.readyMates }, flow := .turn }) s

/-- TRAP (09 R228): it retires, then traps. -/
def execTrap (f : FE) (s : State) : Host.Outcome State Fault Refusal :=
  issue (.e 0x00 3 f) (fun s => .ok { st := s, flow := .trapNext ⟨BitVec.ofNat 16 (0x900 + fld f.sysn 0 8), 0, 0⟩ }) s

/-- ERET (20 R390); the re-issues of the log follow, one in each turn. -/
def execEret (f : FE) (s : State) : Host.Outcome State Fault Refusal :=
  issue (.e 0x00 4 f) (fun s => do
    s.waitFor s.thr.openOuts.isEmpty
    pure { st := (s.emitItem 0x11 0).leaveHandler, flow := .set }) s

/-- SYSR (09 R205, R228). -/
def execSysr (f : FE) (s : State) : Host.Outcome State Fault Refusal :=
  pureOp (.e 0x00 5 f) (fun s =>
    let v := s.sysRead f.sysn.toNat
    (s.recordReg f.sysn.toNat v).setX f.xd v) s

/-- SYSW (09 R205, R228). -/
def execSysw (f : FE) (s : State) : Host.Outcome State Fault Refusal :=
  issue (.e 0x00 6 f) (fun s => do
    let s ← s.sysWrite f.sysn.toNat (s.X f.xa)
    pure { st := s }) s

/-- SYSX (09 R205, R228): the old value is returned, as one exchange. -/
def execSysx (f : FE) (s : State) : Host.Outcome State Fault Refusal :=
  issue (.e 0x00 7 f) (fun s => do
    let old := s.sysRead f.sysn.toNat
    let s ← s.sysWrite f.sysn.toNat (s.X f.xa)
    pure { st := (s.recordReg f.sysn.toNat old).setX f.xd old }) s

/-- BRK (09 R228, 23 R440): it retires, then stops for an attached debugger or traps. -/
def execBrk (f : FE) (s : State) : Host.Outcome State Fault Refusal :=
  issue (.e 0x00 8 f) (fun s =>
    .ok { st := s, flow := if s.curDbg.attach then .stopNext 3 else .trapNext ⟨cBRK, 0, BitVec.ofNat 64 (fld f.sysn 0 8)⟩ }) s

/-- TSTAMP (09 R228, 23 R427): the die's copy of device time. -/
def execTstamp (f : FE) (s : State) : Host.Outcome State Fault Refusal :=
  pureOp (.e 0x00 9 f) (fun s =>
    let v := s.dieTime.toArray.getD (dieOf s.cl) 0
    (s.record v).setX f.xd v) s

/-- EVT (23 R436). -/
def execEvt (f : FE) (s : State) : Host.Outcome State Fault Refusal :=
  pureOp (.e 0x00 10 f) (fun s => s.emitItem (fld f.sysn 0 8) (fld (s.X f.xa) 0 32)) s

end Sys2Proof.Machine
end

