-- ==== Sys2Proof/Machine/Falu.lean ====
section
/-!
DEFINITION. The FALU family (09 R213-R215): FP64 and FP32 arithmetic rounded to nearest even, compares, conversion and
classification.
-/
namespace Sys2Proof.Machine

/-- The format of an FALU size code: FP64 or FP32 (02 R31). -/
def fsize (sz : BitVec 2) : FFmt := if sz = 0 then fp64 else fp32

/-- An operand: the low bits of its register (09 R213). -/
def State.F (s : State) (F : FFmt) (n : BitVec 6) : Val := F.value (uval F.width (s.X n))

/-- A rounded FALU form: `v` is the exact result (09 R213). -/
def falu (fn : Nat) (v : Val → Val → Val → Val) (f : FA) (s : State) : Host.Outcome State Fault Refusal :=
  pureOp (.a 0x20 fn f) (fun s =>
    let F := fsize f.sz
    s.setX f.xd (BitVec.ofNat 64 (F.result .rne false (v (s.F F f.xa) (s.F F f.xb) (s.F F f.xd))))) s

/-- FADD (09 R213). -/
def execFadd (f : FA) (s : State) : Host.Outcome State Fault Refusal := falu 0 (fun a b _ => Val.add .rne a b) f s

/-- FSUB (09 R213). -/
def execFsub (f : FA) (s : State) : Host.Outcome State Fault Refusal := falu 1 (fun a b _ => Val.add .rne a b.neg) f s

/-- FMUL (09 R213). -/
def execFmul (f : FA) (s : State) : Host.Outcome State Fault Refusal := falu 2 (fun a b _ => a.mul b) f s

/-- FMA (09 R213): XD is a third source, one rounding. -/
def execFma (f : FA) (s : State) : Host.Outcome State Fault Refusal :=
  falu 3 (fun a b c => Val.add .rne (a.mul b) c) f s

/-- FDIV (09 R213). -/
def execFdiv (f : FA) (s : State) : Host.Outcome State Fault Refusal := falu 4 (fun a b _ => a.div b) f s

/-- FSQRT (09 R213). -/
def execFsqrt (f : FA) (s : State) : Host.Outcome State Fault Refusal := falu 5 (fun a _ _ => a.sqrt) f s

/-- FRSQ (09 R213). -/
def execFrsq (f : FA) (s : State) : Host.Outcome State Fault Refusal := falu 6 (fun a _ _ => a.rsqrt) f s

/-- FMIN (09 R213). -/
def execFmin (f : FA) (s : State) : Host.Outcome State Fault Refusal := falu 7 (fun a b _ => Val.pick true a b) f s

/-- FMAX (09 R213). -/
def execFmax (f : FA) (s : State) : Host.Outcome State Fault Refusal := falu 8 (fun a b _ => Val.pick false a b) f s

/-- FABS (09 R213): the sign bit cleared, nothing else, NaNs included. -/
def execFabs (f : FA) (s : State) : Host.Outcome State Fault Refusal :=
  pureOp (.a 0x20 9 f) (fun s =>
    let F := fsize f.sz
    s.setX f.xd (BitVec.ofNat 64 (uval (F.width - 1) (s.X f.xa)))) s

/-- FNEG (09 R213): the sign bit inverted, nothing else, NaNs included. -/
def execFneg (f : FA) (s : State) : Host.Outcome State Fault Refusal :=
  pureOp (.a 0x20 10 f) (fun s =>
    let F := fsize f.sz
    s.setX f.xd (BitVec.ofNat 64 (uval F.width (s.X f.xa) ^^^ 2 ^ (F.width - 1)))) s

/-- A float compare into p[XD[2:0]] (09 R213). -/
def fcmp (fn : Nat) (t : Val → Val → Bool) (f : FA) (s : State) : Host.Outcome State Fault Refusal :=
  pureOp (.a 0x20 fn f) (fun s =>
    let F := fsize f.sz
    s.setP (f.xd.setWidth 3) (t (s.F F f.xa) (s.F F f.xb))) s

/-- FCEQ (09 R213). -/
def execFceq (f : FA) (s : State) : Host.Outcome State Fault Refusal := fcmp 11 flagFeq f s

/-- FCLT (09 R213). -/
def execFclt (f : FA) (s : State) : Host.Outcome State Fault Refusal := fcmp 12 flagFlt f s

/-- FCLE (09 R213). -/
def execFcle (f : FA) (s : State) : Host.Outcome State Fault Refusal := fcmp 13 flagFle f s

/-- The register image of a converted scalar: INT32 sign-extended, the others zero-extended (09 R214). -/
def cvtImage (dst v : Nat) : Word := if dst = 4 then sext64 32 v else BitVec.ofNat 64 v

/-- FCVT (09 R214): one rounding of the exact source value. -/
def execFcvt (f : FA) (s : State) : Host.Outcome State Fault Refusal :=
  pureOp (.a 0x20 14 f) (fun s =>
    let src := fld f.imm 0 5
    let dst := fld f.imm 5 5
    let mode := Mode.ofCode (fld f.imm 10 3)
    let sat := f.imm.getLsbD 13
    let v := elemValue src (s.X f.xa).toNat
    s.setX f.xd (cvtImage dst (convertTo dst mode sat (intFmt src).isSome v))) s

/-- FCLASS (09 R215). -/
def execFclass (f : FA) (s : State) : Host.Outcome State Fault Refusal :=
  pureOp (.a 0x20 15 f) (fun s =>
    let F := fsize f.sz
    s.setX f.xd (BitVec.ofNat 64 (classMask F (uval F.width (s.X f.xa))))) s

end Sys2Proof.Machine
end

