-- ==== Sys2Proof/Machine/Icmp.lean ====
section
/-!
DEFINITION. The ICMP family (09 R211): compares and predicate logic.
-/
namespace Sys2Proof.Machine

/-- A compare (09 R211): `t` is the result from the width and the two operands. -/
def icmp (fn : Nat) (t : Nat → Word → Word → Bool) (f : FA) (s : State) : Host.Outcome State Fault Refusal :=
  pureOp (.a 0x11 fn f) (fun s => s.setP (f.xd.setWidth 3) (t (szBits f.sz) (s.X f.xa) (s.opB f))) s

/-- A predicate form (09 R211): XA[2:0] and XB[2:0] name its sources. -/
def plogic (fn : Nat) (t : Bool → Bool → Bool) (f : FA) (s : State) : Host.Outcome State Fault Refusal :=
  pureOp (.a 0x11 fn f)
    (fun s => s.setP (f.xd.setWidth 3) (t (s.P (f.xa.setWidth 3)) (s.P (f.xb.setWidth 3)))) s

/-- CEQ (09 R211). -/
def execCeq (f : FA) (s : State) : Host.Outcome State Fault Refusal := icmp 0 flagEq f s

/-- CNE (09 R211). -/
def execCne (f : FA) (s : State) : Host.Outcome State Fault Refusal := icmp 1 flagNe f s

/-- CLT (09 R211). -/
def execClt (f : FA) (s : State) : Host.Outcome State Fault Refusal := icmp 2 flagLt f s

/-- CLE (09 R211). -/
def execCle (f : FA) (s : State) : Host.Outcome State Fault Refusal := icmp 3 flagLe f s

/-- CLTU (09 R211). -/
def execCltu (f : FA) (s : State) : Host.Outcome State Fault Refusal := icmp 4 flagLtu f s

/-- CLEU (09 R211). -/
def execCleu (f : FA) (s : State) : Host.Outcome State Fault Refusal := icmp 5 flagLeu f s

/-- PAND (09 R211). -/
def execPand (f : FA) (s : State) : Host.Outcome State Fault Refusal := plogic 6 (fun a b => a && b) f s

/-- POR (09 R211). -/
def execPor (f : FA) (s : State) : Host.Outcome State Fault Refusal := plogic 7 (fun a b => a || b) f s

/-- PXOR (09 R211). -/
def execPxor (f : FA) (s : State) : Host.Outcome State Fault Refusal := plogic 8 (fun a b => a != b) f s

/-- PNOT (09 R211). -/
def execPnot (f : FA) (s : State) : Host.Outcome State Fault Refusal := plogic 9 (fun a _ => !a) f s

/-- PMOV (09 R211). -/
def execPmov (f : FA) (s : State) : Host.Outcome State Fault Refusal := plogic 10 (fun a _ => a) f s

/-- PGET (09 R211): bit (b mod 64) of XA. -/
def execPget (f : FA) (s : State) : Host.Outcome State Fault Refusal := icmp 11 (fun _ a b => flagBit a b) f s

end Sys2Proof.Machine
end

