-- ==== Sys2Proof/Machine/Imm.lean ====
section
/-!
DEFINITION. The IMM family: immediates (09 R212) and the pointer builders (04 R105-R107).
-/
namespace Sys2Proof.Machine

/-- MOVI (09 R212). -/
def execMovi (f : FB) (s : State) : Host.Outcome State Fault Refusal :=
  pureOp (.b 0x12 0 f) (fun s => s.setX f.xd (f.imm32.signExtend 64)) s

/-- MOVHI (09 R212). -/
def execMovhi (f : FB) (s : State) : Host.Outcome State Fault Refusal :=
  pureOp (.b 0x12 1 f) (fun s => s.setX f.xd (f.imm32 ++ (s.X f.xd).extractLsb' 0 32)) s

/-- ADDI (09 R212). -/
def execAddi (f : FB) (s : State) : Host.Outcome State Fault Refusal :=
  pureOp (.b 0x12 2 f) (fun s => s.setX f.xd (aluOut (szBits f.sz) ((s.X f.xa + f.imm32.signExtend 64).toNat))) s

/-- SPACE in the pattern of a pointer builder (04 R105). -/
def patSpace (f : FB) : BitVec 4 := f.imm16.extractLsb' 0 4
/-- RANK in the pattern of a pointer builder. -/
def patRank (f : FB) : BitVec 12 := f.imm16.extractLsb' 4 12

/-- A pointer of a space, a rank and an offset (04 R82). -/
def mkPtr (space : BitVec 4) (rank : BitVec 12) (off : BitVec 48) : Word := space ++ rank ++ off

/-- PTRMK (04 R106). -/
def execPtrmk (f : FB) (s : State) : Host.Outcome State Fault Refusal :=
  issue (.b 0x12 3 f) (fun s => do
    need (patSpace f ≤ 4 ∧ (patRank f = 0 ∨ patSpace f = 2 ∨ patSpace f = 3)) cSPACE
    pure { st := s.setX f.xd (mkPtr (patSpace f) (patRank f) ((s.X f.xa + f.imm32.signExtend 64).setWidth 48)) }) s

/-- PTRSP (04 R106). -/
def execPtrsp (f : FB) (s : State) : Host.Outcome State Fault Refusal :=
  issue (.b 0x12 4 f) (fun s => do
    need (patSpace f ≤ 4) cSPACE
    let a := s.X f.xa
    let r := if patSpace f = 2 ∨ patSpace f = 3 then a.extractLsb' 48 12 else 0
    pure { st := s.setX f.xd (mkPtr (patSpace f) r (a.setWidth 48)) }) s

/-- PTRRK (04 R106): IMM16B is signed, and k is exact (00 R6, 04 R101). -/
def execPtrrk (f : FB) (s : State) : Host.Outcome State Fault Refusal :=
  issue (.b 0x12 5 f) (fun s => do
    let a := s.X f.xa
    need (spaceOf a = 2 ∨ spaceOf a = 3) cSPACE
    let k : Int := (s.X f.xb).toNat + f.imm16.toInt
    need (0 ≤ k ∧ k ≤ 4095) cRANK
    pure { st := s.setX f.xd (mkPtr (a.extractLsb' 60 4) (BitVec.ofInt 12 k) (a.setWidth 48)) }) s

/-- PTROFF (04 R106): the carry out of OFFSET is discarded. -/
def execPtroff (f : FB) (s : State) : Host.Outcome State Fault Refusal :=
  pureOp (.b 0x12 6 f) (fun s =>
    let a := s.X f.xa
    s.setX f.xd (mkPtr (a.extractLsb' 60 4) (a.extractLsb' 48 12)
      (a.setWidth 48 + (s.X f.xb + f.imm32.signExtend 64).setWidth 48))) s

/-- PLADR (04 R106). -/
def execPladr (f : FB) (s : State) : Host.Outcome State Fault Refusal :=
  issue (.b 0x12 7 f) (fun s => do
    let sp := patSpace f
    need ((sp = 1 ∨ sp = 2 ∨ sp = 3) ∧ (patRank f = 0 ∨ sp ≠ 1)) cSPACE
    let row := (s.X f.xa).toNat
    let col := (s.X f.xb).toNat
    let b := f.imm32.toInt
    need (row ≤ 255 ∧ col ≤ 255 ∧ 0 ≤ b ∧ b ≤ 8191) cPLOT_BOUND
    pure { st := s.setX f.xd (mkPtr sp (patRank f) (BitVec.ofNat 48 (row * 2 ^ 21 + col * 2 ^ 13 + b.toNat))) }) s

end Sys2Proof.Machine
end

