-- ==== Sys2Proof/Machine/Matrix.lean ====
section
/-!
DEFINITION. The MATRIX family (13 R271-R290): weight planes, products on the plane in the manual's order of summation, and
accumulator blocks.
-/
namespace Sys2Proof.Machine

/-! ### Format pairs (13 R273) -/

/-- A weight format: log2 of the element rows and columns of a cell's stored block, k and n of the block, and whether it
takes scales. -/
def weightFmt (fmt : Nat) : Option (Nat × Nat × Nat × Nat × Bool) :=
  match fmt with
  | 7 => some (1, 0, 2, 1, false)
  | 8 => some (1, 1, 2, 2, false)
  | 9 | 10 => some (2, 2, 4, 4, false)
  | 11 | 12 => some (3, 3, 8, 8, true)
  | 0 => some (3, 3, 8, 8, false)
  | 13 => some (4, 3, 16, 8, true)
  | 14 => some (1, 3, 16, 8, true)
  | _ => none

/-- An FP8 format. -/
def fmtFP8 (c : Nat) : Bool := c = 11 || c = 12

/-- A format pair: K_cell, N_cell, the activations' LBR, the result's format and LBC, scales, and its charge weight. -/
structure Pair where
  kc : Nat
  nc : Nat
  alb : Nat
  dfmt : Nat
  dlbc : Nat
  scales : Bool
  weight : Nat

/-- The pair of a weight format and an activation format (13 R273; 22 R410). -/
def pairOf (w a : Nat) : Option Pair :=
  if w = 7 ∧ a = 7 then some ⟨2, 1, 1, 7, 0, false, 48⟩
  else if w = 8 ∧ a = 8 then some ⟨2, 2, 1, 8, 1, false, 48⟩
  else if (w = 9 ∨ w = 10) ∧ a = w then some ⟨4, 4, 2, 8, 2, false, 40⟩
  else if fmtFP8 w ∧ fmtFP8 a then some ⟨8, 8, 3, 16, 3, true, 64⟩
  else if w = 0 ∧ a = 0 then some ⟨8, 8, 3, 16, 3, false, 64⟩
  else if w = 13 ∧ a = 13 then some ⟨16, 8, 4, 16, 3, true, 96⟩
  else if w = 14 ∧ fmtFP8 a then some ⟨16, 8, 4, 16, 3, true, 96⟩
  else none

/-! ### Matrix units (13 R271, R272) -/

/-- Is a unit free for the item that acts? -/
def State.unitOk (s : State) (t : Ten) : Bool :=
  t.cells.all fun x =>
    let u := s.munit (s.thr.plot.cell x.1 x.2)
    u.owner.isNone || u.owner == some s.thr.src.uid

/-- The footprint of planes of a rectangle's units: row 256 active, 257 shadow (13 R281). -/
def Ten.fpUnits (t : Ten) (p0 n : Nat) (write : Bool) : Fp := ⟨t.row0, t.row0 + t.h, t.col0, t.col0 + t.w, p0, p0 + n, write⟩

/-- The live cells of an operand's rectangle as cells of the plane. -/
def State.liveOf (s : State) (t : Ten) : List (Nat × Nat) :=
  t.cells.filter fun x => !s.isVoid (s.thr.plot.cell x.1 x.2)

/-- The smallest rectangle that holds two. -/
def Ten.bound (a b : Ten) : Ten :=
  let r := min a.row0 b.row0
  let c := min a.col0 b.col0
  { a with kind := 1, row0 := r, col0 := c, h := max (a.row0 + a.h) (b.row0 + b.h) - r
           w := max (a.col0 + a.w) (b.col0 + b.w) - c }

/-- Check 3 of R283: the bounding rectangle of all operands. -/
def State.poweredAll (s : State) (t : Ten) (r : List Ten) : Res Unit := s.powered [r.foldl Ten.bound (Ten.bound t t)]

/-- A row of the own plot of a tensor's rectangle: zero at a void cell. -/
def State.ownRow (s : State) (t : Ten) (x : Nat × Nat) (k : Nat) : Row := s.winRow ⟨t, s.thr.plot, 0⟩ 0 x.1 x.2 k

/-! ### WLD and WSWAP (13 R284, R285) -/

/-- The eight scale bytes of a cell: TB's row in that cell, or 127 throughout (13 R284). -/
def State.wScales (s : State) (tb : Option Ten) (x : Nat × Nat) : BitVec 64 × Bool :=
  match tb with
  | none => (0x7F7F7F7F7F7F7F7F, false)
  | some t => let r := s.ownRow t x 0; (r.data.setWidth 64, r.poison)

/-- The plane that WLD loads into a cell. DESIGN CHOICE (log 66): of its 64 bytes of weights, those beyond a slice of 16 bytes are the rest of
the slice's store row, and those beyond one row are 0; no product reads them, and a save stores them (13 R271, 20 R399). -/
def State.loadPlane (s : State) (ta : Ten) (tb : Option Ten) (d : Nat) (x : Nat × Nat) : WPlane :=
  let rows := (List.range ta.sr).map fun k => s.ownRow ta x (d * ta.sr + k)
  let sc := s.wScales tb x
  { fmt := some (BitVec.ofNat 5 ta.fmt)
    data := ((rows.getD 1 {}).data ++ (rows.getD 0 {}).data : BitVec 512)
    scales := sc.1, cblo := BitVec.ofNat 4 ta.cblo, cbhi := BitVec.ofNat 4 ta.cbhi
    poison := sc.2 || rows.any (·.poison) }

/-- A cell's unit with a shadow plane loaded; the first load claims it and empties both planes (13 R272). -/
def State.loadUnit (s : State) (c : Nat) (w : WPlane) : State :=
  let u := s.munit c
  let u : MUnit := if u.owner.isNone then { owner := some s.thr.src.uid } else u
  s.setUnit c { u with shadow := w }

/-- Is TB the weight scales of TA (13 R284)? -/
def scalesFit (tb : Option Ten) (ta : Ten) (scaled : Bool) : Bool :=
  match tb with
  | none => true
  | some b => scaled && b.kind = 1 && b.fmt = 15 && b.row0 = ta.row0 && b.col0 = ta.col0 && b.h = ta.h && b.w = ta.w
      && b.lbr = 0 && b.lbc = 3 && b.slices = 1

/-- Is TA a weight tensor with a slice d, and TB its scales (13 R284)? -/
def wldOk (ta : Ten) (tb : Option Ten) (d : Nat) : Bool :=
  ta.kind = 1 && match weightFmt ta.fmt with
    | some (lbr, lbc, _, _, sc) => ta.lbr = lbr && ta.lbc = lbc && d < ta.slices && scalesFit tb ta sc
    | none => false

/-- WLD (13 R284). -/
def execWld (f : FQ) (s : State) : Host.Outcome State Fault Refusal :=
  issue (.q 0x90 0 f) (fun s => do
    let ta := Ten.of (s.T f.ta)
    let tb := s.optT f.tb
    let d := f.imm32.toNat
    need (wldOk ta tb d && s.unitOk ta = true) cSPACE
    s.poweredAll ta tb.toList
    let slice : Fp := ⟨ta.row0, ta.row0 + ta.h, ta.col0, ta.col0 + ta.w, ta.layer + d * ta.sr, ta.layer + (d + 1) * ta.sr, false⟩
    let fps := slice :: tb.toList.flatMap (·.fp false) ++ [ta.fpUnits 257 1 true]
    let s ← s.begin' fps (ta :: tb.toList) 8 ta.sr
    let ws := (s.liveOf ta).map fun x => (s.thr.plot.cell x.1 x.2, s.loadPlane ta tb d x)
    pure { st := (ws.foldl (fun s x => s.loadUnit x.1 x.2) s).hold fps false (whole := true) }) s

/-- WSWAP (13 R285). -/
def execWswap (f : FQ) (s : State) : Host.Outcome State Fault Refusal :=
  issue (.q 0x90 1 f) (fun s => do
    let ta := Ten.of (s.T f.ta)
    need (ta.own && s.unitOk ta = true) cSPACE
    s.poweredAll ta []
    let fps := [ta.fpUnits 256 2 true]
    let s ← s.begin' fps [ta] 8 1
    let s' := (s.liveOf ta).foldl (fun s x =>
      let c := s.thr.plot.cell x.1 x.2
      let u := s.munit c
      s.setUnit c { u with active := u.shadow, shadow := u.active }) s
    pure { st := s'.hold fps false (whole := true) }) s

/-! ### Products (13 R273-R280) -/

/-- The operands of an MSTREAM after its checks: the activations, the weight rectangle, the scales, the result, the bounds
and the chunk length. -/
structure Stream where
  ta : Ten
  tb : Ten
  tc : Option Ten
  td : Ten
  pair : Pair
  edm : Word
  edn : Word
  edk : Word
  chunk : Nat

/-- Is a result row inside EDM (13 R276)? -/
def Stream.mIn (x : Stream) (m : Nat) : Bool := fld x.edm 0 16 ≤ m && m < fld x.edm 16 16
/-- Is a result column inside EDN (13 R276)? -/
def Stream.nIn (x : Stream) (n : Nat) : Bool := fld x.edn 32 16 ≤ n && n < fld x.edn 48 16
/-- Is a k inside EDK (13 R276)? -/
def Stream.kIn (x : Stream) (k : Nat) : Bool := fld x.edk 0 16 ≤ k && k < fld x.edk 16 16
/-- Every k of the product inside EDK, ascending. -/
def Stream.ks (x : Stream) : List Nat := (List.range (x.tb.h * x.pair.kc)).filter x.kIn

/-- The plot-relative weight cell of (k, n) (13 R274). -/
def Stream.wCell (x : Stream) (k n : Nat) : Nat × Nat := (x.tb.row0 + k / x.pair.kc, x.tb.col0 + n / x.pair.nc)

/-- The active plane that holds (k, n); none at a void cell. -/
def State.wPlane (s : State) (x : Stream) (k n : Nat) : Option WPlane :=
  let c := s.thr.plot.cell (x.wCell k n).1 (x.wCell k n).2
  if s.isVoid c then none else some (s.munit c).active

/-- The value of a weight within its plane: row `k` and column `n` of the cell's block (13 R274, R242). -/
def WPlane.value (w : WPlane) (nc k n : Nat) : Val :=
  let fmt := (w.fmt.getD 0).toNat
  if fmt = 14 then
    let q := fld w.data (((k / 8) * 8 + n) * 16) 16
    valOf ((cb2 q w.cblo.toNat w.cbhi.toNat).getD (k % 8) 0) (-2) false
  else elemValue fmt (fld w.data ((k * nc + n) * fmtBits fmt) (fmtBits fmt))

/-- The activation (k, m). -/
def State.act (s : State) (x : Stream) (k m : Nat) : Val := elemValue x.ta.fmt (s.elem ⟨x.ta, s.thr.plot, 0⟩ 0 0 k m)

/-- The product of k for the result (m, n): none at a void weight cell, which passes sums through unchanged (07 R168). -/
def State.product (s : State) (x : Stream) (m n k : Nat) : Option Val :=
  (s.wPlane x k n).map fun w => (s.act x k m).mul (w.value x.pair.nc (k % x.pair.kc) (n % x.pair.nc))

/-- A value rounded to a format and read back. -/
def FFmt.round (F : FFmt) (v : Val) : Val := F.value (F.result .rne false v)

/-- The sum of an FP64 or FP32 pair: one rounding for each k ascending, from −0 (13 R277). -/
def State.fmaSum (s : State) (x : Stream) (F : FFmt) (m n : Nat) : Val :=
  (x.ks.filterMap (s.product x m n)).foldl (fun p y => F.round (Val.add .rne y p)) (.fin true 0 0)

/-- The sum of a BF16 or FP16 pair: one exact sum and one rounding for each weight cell row (13 R278). -/
def State.rowSum (s : State) (x : Stream) (m n : Nat) : Val :=
  (List.range x.tb.h).foldl (fun p i =>
    let ys := (x.ks.filter fun k => k / x.pair.kc = i).filterMap (s.product x m n)
    if ys.isEmpty then p else fp32.round (Val.add .rne p (xsum .rne ys))) (.fin true 0 0)

/-- The bits of a result of a wide pair (13 R277, R278). -/
def State.wideBits (s : State) (x : Stream) (m n : Nat) : Nat :=
  let F := if x.td.fmt = 7 then fp64 else fp32
  let p := if x.pair.kc = 4 then s.rowSum x m n else s.fmaSum x F m n
  F.result .rne false (Val.add .rne (F.value (s.elem ⟨x.td, s.thr.plot, 0⟩ 0 0 m n)) p)

/-- The scale byte of the activations for the cell row of k and column m (13 R279). -/
def State.aScale (s : State) (x : Stream) (k m : Nat) : Nat :=
  match x.tc with
  | none => 127
  | some t => s.elem ⟨t, s.thr.plot, 0⟩ 0 0 (k / x.pair.kc) m

/-- The weight scale of the cell of k and column n: 127 at a void cell and in an unscaled pair. -/
def State.wScale (s : State) (x : Stream) (k n : Nat) : Nat :=
  if x.pair.scales = false then 127
  else match s.wPlane x k n with
    | none => 127
    | some w => fld w.scales (8 * (n % x.pair.nc)) 8

/-- What the products of a narrow pair give: the sum, the element's status bits, and whether a scale was NaN. -/
structure Narrow where
  g : Dyadic := (0, 0)
  stat : Nat := 0
  scaleNan : Bool := false

/-- One product added to an exact sum, or to the status bits (13 R280). -/
def addProduct (v : Dyadic × Nat) (p : Val) (scale : Int) : Dyadic × Nat :=
  match p with
  | .nan => (v.1, v.2 ||| 1)
  | .inf neg => (v.1, v.2 ||| (if neg then 4 else 2))
  | .fin neg m e => (Dyadic.add v.1 (if neg then -(m : Int) else m, e + scale), v.2)

/-- One chunk (13 R279). -/
def State.chunkSum (s : State) (x : Stream) (m n : Nat) (a : Narrow) (ks : List Nat) : Narrow :=
  if ks.any fun k => s.aScale x k m = 255 ∨ s.wScale x k n = 255 then
    { a with g := round64 a.g, scaleNan := true }
  else
    let v := ks.foldl (fun v k => match s.product x m n k with
      | some y => addProduct v y ((s.aScale x k m : Int) - 127 + ((s.wScale x k n : Int) - 127))
      | none => v) ((0, 0), 0)
    { a with g := round64 (Dyadic.add a.g v.1), stat := a.stat ||| v.2 }

/-- The value G of a narrow pair for (m, n) (13 R279). -/
def State.narrow (s : State) (x : Stream) (m n : Nat) : Narrow :=
  (List.range ((x.tb.h * x.pair.kc + x.chunk - 1) / x.chunk)).foldl (fun a c =>
    s.chunkSum x m n a (x.ks.filter fun k => k / x.chunk = c)) {}

/-- Did a poisoned row or plane go into the result (m, n) (13 R282)? -/
def State.streamPoison (s : State) (x : Stream) (m n : Nat) : Bool :=
  s.elemPoison ⟨x.td, s.thr.plot, 0⟩ 0 0 m n || x.ks.any fun k =>
    s.elemPoison ⟨x.ta, s.thr.plot, 0⟩ 0 0 k m
      || (x.tc.any fun t => s.elemPoison ⟨t, s.thr.plot, 0⟩ 0 0 (k / x.pair.kc) m)
      || ((s.wPlane x k n).any (·.poison))

/-! ### Accumulator blocks -/

/-- A block of an accumulator: its plot-relative cell and its number in the cell. -/
abbrev BlockId := (Nat × Nat) × Nat

/-- Every block of a tensor's first slice. -/
def Ten.blocks (t : Ten) : List BlockId := t.cells.flatMap fun x => (List.range (t.n / 8)).map fun q => (x, q)

/-- Element `k` of a block (07 R172). -/
def Ten.blockElem (t : Ten) (b : BlockId) (k : Nat) : Nat × Nat :=
  let e := 8 * b.2 + k
  ((b.1.1 - t.row0) * t.ebr + e / t.ebc, (b.1.2 - t.col0) * t.ebc + e % t.ebc)

/-- The image of a block in slice `d`. -/
def State.blockImage (s : State) (t : Ten) (d : Nat) (b : BlockId) : BitVec 512 :=
  (s.ownRow t b.1 (d * t.sr + 2 * b.2 + 1)).data ++ (s.ownRow t b.1 (d * t.sr + 2 * b.2)).data

/-- A block written whole; a void cell discards it. -/
def State.putBlock (s : State) (t : Ten) (d : Nat) (b : BlockId) (a : Acc) (poison : Bool) : State :=
  let c := s.thr.plot.cell b.1.1 b.1.2
  if s.isVoid c then s
  else
    let r := s.thr.plot.sbase + t.layer + d * t.sr + 2 * b.2
    let img := a.image
    let s := s.setRow c r { s.row c r with data := img.setWidth 256, poison := poison }
    s.setRow c (r + 1) { s.row c (r + 1) with data := img.extractLsb' 256 256, poison := poison }

/-- Was a row of a block poisoned? -/
def State.blockPoison (s : State) (t : Ten) (d : Nat) (b : BlockId) : Bool :=
  (s.ownRow t b.1 (d * t.sr + 2 * b.2)).poison || (s.ownRow t b.1 (d * t.sr + 2 * b.2 + 1)).poison

/-- What one block takes from a narrow pair: the new block, its status word for XC, and whether it is poisoned. -/
structure BlockOut where
  id : BlockId
  acc : Acc
  word : Nat
  poison : Bool

/-- One block of a narrow product (13 R279, R280, R286). -/
def State.streamBlock (s : State) (x : Stream) (b : BlockId) : Option BlockOut :=
  let es := (List.range 8).map (x.td.blockElem b)
  let m := (es.headD (0, 0)).1
  if !x.mIn m || es.all (fun e => !x.nIn e.2) then none
  else
    let rs := es.map fun e => if x.nIn e.2 then s.narrow x m e.2 else {}
    let old := Acc.ofImage (s.blockImage x.td 0 b)
    let (new, _, clamped) := old.update (rs.map (·.g))
    let stat := (List.range 8).map fun j => new.stat.getD j 0 ||| (rs.getD j {}).stat
    let any (k : Nat) := rs.any fun r => r.stat / 2 ^ k % 2 = 1
    let word := (decide (old.e < new.e)).toNat * 16 + clamped.toNat * 8 + (any 1 || any 2).toNat * 4 + (any 0).toNat * 2
      + (rs.any (·.scaleNan)).toNat
    some ⟨b, { new with stat := stat }, word
          , s.blockPoison x.td 0 b || es.any fun e => x.nIn e.2 && s.streamPoison x m e.2⟩

/-- A wide product: every element inside EDM and EDN. -/
def State.streamWide (s : State) (x : Stream) : State × Bool :=
  let p : Place := ⟨x.td, s.thr.plot, 0⟩
  let ws := (x.td.grid.filter fun e => x.mIn e.2.1 && x.nIn e.2.2 && !s.elemVoid p e.1 e.2.1 e.2.2).map fun e =>
    (⟨0, e.2.1, e.2.2, s.wideBits x e.2.1 e.2.2, s.streamPoison x e.2.1 e.2.2⟩ : EWrite)
  (s.writeElems p ws, ws.any (·.poison))

/-- A product: its effect, the word for XC, and whether a poisoned row was read. -/
def State.stream (s : State) (x : Stream) : State × Nat × Bool :=
  if x.td.fmt = 16 then
    let outs := (x.td.blocks.filter fun b => !s.isVoid (s.thr.plot.cell b.1.1 b.1.2)).filterMap (s.streamBlock x)
    (outs.foldl (fun s o => s.putBlock x.td 0 o.id o.acc o.poison) s
      , outs.foldl (fun w o => w ||| o.word) 0, outs.any (·.poison))
  else
    let r := s.streamWide x
    (r.1, 0, r.2)

/-- The format that the active planes of a rectangle hold, when it is one and the same, loaded by this item (13 R286); void
cells hold none. -/
def State.weightsOf (s : State) (t : Ten) : Option Nat :=
  let us := (s.liveOf t).map fun x => s.munit (s.thr.plot.cell x.1 x.2)
  match us with
  | [] => none
  | u :: _ =>
    if us.all fun v => v.owner == some s.thr.src.uid && v.active.fmt == u.active.fmt then u.active.fmt.map (·.toNat)
    else none

/-- The shapes of R273, R274 and R286. -/
def streamOk (p : Pair) (ta tb td : Ten) (tc : Option Ten) : Bool :=
  ta.kind = 1 && ta.lbr = p.alb && ta.slices = 1 && ta.row0 = tb.row0 && ta.h = tb.h
    && td.kind = (if p.dfmt = 16 then 2 else 1) && td.fmt = p.dfmt && td.lbc = p.dlbc && td.slices = 1
    && td.col0 = tb.col0 && td.w = tb.w && td.rows = ta.cols
    && match tc with
      | none => true
      | some c => p.scales && c.kind = 1 && c.fmt = 15 && c.row0 = ta.row0 && c.col0 = ta.col0 && c.h = ta.h && c.w = ta.w
          && c.lbr = 0 && c.lbc = ta.lbc && c.slices = 1

/-- MSTREAM (13 R286). -/
def execMstream (f : FQ) (s : State) : Host.Outcome State Fault Refusal :=
  issue (.q 0x90 2 f) (fun s => do
    let ta := Ten.of (s.T f.ta)
    let tb := Ten.of (s.T f.tb)
    let td := Ten.of (s.T f.td)
    let tc := s.optT f.tc
    need (tb.kind = 1 ∧ s.unitOk tb = true) cSPACE
    match (s.weightsOf tb).bind fun w => pairOf w ta.fmt with
    | none => raise cSPACE
    | some p => do
      need (streamOk p ta tb td tc = true) cSPACE
      s.poweredAll td (ta :: tb :: tc.toList)
      let fps := td.fp true ++ ta.fp false ++ tc.toList.flatMap (·.fp false) ++ [tb.fpUnits 256 1 false]
      let s ← s.begin' fps [tb] p.weight ta.cols
      let x : Stream := ⟨ta, tb, tc, td, p, s.E f.edm, s.E f.edn, s.E f.edk, min (sblkOf f.sba.toNat) (sblkOf f.sbb.toNat)⟩
      let (s', w, bad) := s.stream x
      pure { st := s'.hold fps bad .held f.xc (BitVec.ofNat 64 w) true }) s

/-! ### Accumulator forms (13 R287-R289) -/

/-- Every block of every slice of a tensor changed. -/
def State.mapBlocks (s : State) (t : Ten) (g : Acc → Acc) (fresh : Bool) : State × Bool :=
  let ids := (List.range t.slices).flatMap fun d => (t.blocks.filter fun b => !s.isVoid (s.thr.plot.cell b.1.1 b.1.2)).map fun b => (d, b)
  let bad := !fresh && ids.any fun x => s.blockPoison t x.1 x.2
  (ids.foldl (fun s' x =>
      s'.putBlock t x.1 x.2 (g (Acc.ofImage (s.blockImage t x.1 x.2))) (!fresh && s.blockPoison t x.1 x.2)) s, bad)

/-- A form that changes the blocks of TD (13 R281, R290). -/
def accForm (fn : Nat) (fresh : Bool) (g : FQ → Acc → Acc) (f : FQ) (s : State) : Host.Outcome State Fault Refusal :=
  issue (.q 0x90 fn f) (fun s => do
    let td := Ten.of (s.T f.td)
    need (td.kind = 2) cSPACE
    s.poweredAll td []
    let s ← s.begin' (td.fp true) [td] 8 td.sr
    let (s', bad) := s.mapBlocks td (g f) fresh
    pure { st := s'.hold (td.fp true) bad (whole := true) }) s

/-- ACCZ (13 R287). -/
def execAccz (f : FQ) (s : State) : Host.Outcome State Fault Refusal :=
  accForm 3 true (fun f _ => Acc.cleared f.imm32.toInt (f.flg.getLsbD 0)) f s

/-- The largest s ≥ 0 with every |M_j|·2^s below 2^46; none where every M_j is 0 (13 R289). -/
def Acc.headroom (a : Acc) : Option Nat :=
  let l := a.m.foldl (fun l v => max l (bitLen v.natAbs)) 0
  if l = 0 then none else some (46 - l)

/-- A block with its exponent lowered as far as its floor and its mantissas allow (13 R289). -/
def Acc.lower (a : Acc) (floor : Int) : Acc :=
  if a.flags / 2 % 2 = 1 then a
  else
    let e := match a.headroom with
      | none => floor
      | some s => max floor (a.e - s)
    if e < a.e then { a with m := a.m.map fun v => v * 2 ^ (a.e - e).toNat, e := e } else a

/-- ACCNRM (13 R289). -/
def execAccnrm (f : FQ) (s : State) : Host.Outcome State Fault Refusal :=
  accForm 5 false (fun f a => a.lower f.imm32.toInt) f s

/-- ACCRD (13 R288). Out of the range of an integer TD with SAT = 0, an element of either mode gives the indefinite value: R240 does
not say that an integer-mode element converts from an integer (DESIGN CHOICE, log 66). -/
def execAccrd (f : FQ) (s : State) : Host.Outcome State Fault Refusal :=
  issue (.q 0x90 4 f) (fun s => do
    let td := Ten.of (s.T f.td)
    let ta := Ten.of (s.T f.ta)
    let tc := s.optT f.tc
    need (td.fmt ≠ 14 ∧ td.fmt ≠ 16) cILLEGAL_FIELD
    need ((td.kind = 1 || td.kind = 3) && ta.kind = 2 && td.rows = ta.rows && td.cols = ta.cols && td.slices = 1
      && (tc.all fun c => c.scaleFor td ta.slices) = true) cSPACE
    s.poweredAll td (ta :: tc.toList)
    let fps := td.fp true ++ ta.fp false ++ tc.toList.flatMap (·.fp false)
    let s ← s.begin' fps (td :: ta :: tc.toList) 8 ta.sr
    let rows := s.E f.edm
    let cols := s.E f.edn
    let p : Place := ⟨td, s.thr.plot, 0⟩
    let inside (i j : Nat) := fld rows 0 16 ≤ i && i < fld rows 16 16 && fld cols 32 16 ≤ j && j < fld cols 48 16
    let mode := Mode.ofCode (fld f.flg 0 3)
    let ws := (td.grid.filter fun x => inside x.2.1 x.2.2 && !s.elemVoid p 0 x.2.1 x.2.2).map fun x =>
      let i := x.2.1
      let j := x.2.2
      let e := i % ta.ebr * ta.ebc + j % ta.ebc
      let b : BlockId := ((ta.row0 + i / ta.ebr, ta.col0 + j / ta.ebc), e / 8)
      let v := scaled ((Acc.ofImage (s.blockImage ta 0 b)).elem (e % 8)) none (s.scaleAt tc td.sblk 0 i j)
      (⟨0, i, j, convertTo td.fmt mode (f.flg.getLsbD 3) false v
        , s.blockPoison ta 0 b || s.scalePoison tc td.sblk 0 i j⟩ : EWrite)
    pure { st := (s.writeElems p ws).hold fps (ws.any (·.poison)) (whole := true) }) s

end Sys2Proof.Machine
end

