-- ==== Sys2Proof/Machine/Vlane.lean ====
section
/-!
DEFINITION. The VLANE family (11 R262-R264): elements of one cell moved and combined. A masked source element reads as zero at
its own coordinates (R250).
-/
namespace Sys2Proof.Machine

/-- A lane source: the bits of in-cell element `k` of a cell, whether it lies inside the bound, and whether it was read from a
poisoned row. -/
def State.lane (s : State) (e : Word) (x : Src) (d r c k : Nat) : Nat × Bool × Bool :=
  let (i, j) := x.place.t.inCell r c k
  if inBound e i j then (s.src x d i j, true, s.srcPoison x d i j) else (0, false, false)

/-- All lane sources of a cell and slice. -/
def State.lanes (s : State) (e : Word) (x : Src) (d r c n : Nat) : List (Nat × Bool × Bool) :=
  (List.range n).map (s.lane e x d r c)

/-- The value that a moving form gives an element (11 R263): `k` picks the source element from TD's own index and TB's bits. -/
def moveForm (fn : Nat) (useTb : Bool) (ok : Ten → Ten → Ten → Bool) (k : State → FT → Ten → Nat → Nat → Nat) (f : FT)
    (s : State) : Host.Outcome State Fault Refusal :=
  issue (.t 0x62 fn f) (fun s =>
    let td := Ten.of (s.T f.td)
    let ta := Ten.of (s.T f.ta)
    let tb := Ten.of (s.T f.tb)
    let tc := s.optT f.tc
    let e := s.E f.edg
    s.vrun f.edg
      { td := td, srcs := (ta, f.wa) :: if useTb then [(tb, f.wb)] else [], tc := tc, weight := 8
        busy := if useTb then max td.busyBits tb.busyBits else td.busyBits
        ok := td.data fmtX && ta.data fmtX && ta.fmt = td.fmt && ta.conforms td && ta.winOk f.wa && ok td ta tb
          && optPred tc td
        val := fun s dst xs d i j =>
          let b := match xs[1]? with
            | some y => (s.src y d i j, s.srcPoison y d i j)
            | none => (0, false)
          let x := xs.headD ⟨dst, 0⟩
          let v := s.lane e x d (i / td.ebr) (j / td.ebc) (k s f td (td.idx i j) b.1)
          (v.1, v.2.2 || b.2) }) s

/-- VPERM (11 R263). -/
def execVperm (f : FT) (s : State) : Host.Outcome State Fault Refusal :=
  moveForm 0 true (fun td _ tb => tb.data fmtI && tb.conforms td && tb.winOk f.wb) (fun _ _ td _ b => b % td.n) f s

/-- VROT (11 R263). -/
def execVrot (f : FT) (s : State) : Host.Outcome State Fault Refusal :=
  moveForm 1 false (fun _ _ _ => true)
    (fun s f td e _ => (BitVec.ofNat 64 e + s.X f.xs + f.imm18.signExtend 64).toNat % td.n) f s

/-- VXCH (11 R262, R263): m ≥ n traps SPACE. -/
def execVxch (f : FT) (s : State) : Host.Outcome State Fault Refusal :=
  moveForm 2 false (fun td _ _ => f.imm18.toNat < td.n) (fun _ f _ e _ => e ^^^ f.imm18.toNat) f s

/-- VLUT (11 R263): slice 0 of TB in the same cell. -/
def execVlut (f : FT) (s : State) : Host.Outcome State Fault Refusal :=
  issue (.t 0x62 6 f) (fun s =>
    let td := Ten.of (s.T f.td)
    let ta := Ten.of (s.T f.ta)
    let tb := Ten.of (s.T f.tb)
    let tc := s.optT f.tc
    let e := s.E f.edg
    s.vrun f.edg
      { td := td, srcs := [(ta, f.wa), (tb, f.wb)], tc := tc, weight := 8, busy := max td.busyBits ta.busyBits
        ok := td.data fmtX && ta.data fmtI && tb.data fmtX && tb.fmt = td.fmt && td.conforms ta && tb.h = td.h && tb.w = td.w
          && ta.winOk f.wa && tb.winOk f.wb && optPred tc td
        val := fun s dst xs d i j =>
          let a := xs.headD ⟨dst, 0⟩
          let b := xs.getD 1 ⟨dst, 0⟩
          let v := s.lane e b 0 (i / td.ebr) (j / td.ebc) (s.src a d i j % tb.n)
          (v.1, v.2.2 || s.srcPoison a d i j) }) s

/-- The least or greatest of a list by FMIN and FMAX, or by the format's signedness; none where it is empty (11 R264). -/
def pickList (least : Bool) (fmt : Nat) (l : List Nat) : Option Nat :=
  match l with
  | [] => none
  | b :: r => some (r.foldl (fun x y => pickBits least fmt [x, y]) (pickBits least fmt [b, b]))

/-- The exact sum of a list of elements, rounded once (11 R264). -/
def sumBits (fmt : Nat) (mode : Mode) (sat : Bool) (l : List Nat) : Nat :=
  arith fmt mode sat (fun vs => xsum mode vs) (fun vs => vs.sum) l

/-- Does TD hold one element for each cell and slice of TA (11 R262)? -/
def Ten.onePerCell (td ta : Ten) : Bool := td.n = 1 && td.h = ta.h && td.w = ta.w && td.slices = ta.slices

/-- VREDC (11 R264). -/
def execVredc (f : FT) (s : State) : Host.Outcome State Fault Refusal :=
  issue (.t 0x62 3 f) (fun s =>
    let td := Ten.of (s.T f.td)
    let ta := Ten.of (s.T f.ta)
    let tc := s.optT f.tc
    let e := s.E f.edg
    let op := fld f.imm18 0 2
    s.vrun f.edg
      { td := td, srcs := [(ta, f.wa)], tc := tc, weight := arithWeight ta.fmt, busy := ta.busyArith false false
        ok := ta.data fmtFI && td.data fmtFI && td.fmt = ta.fmt && td.onePerCell ta && ta.winOk f.wa && optPred tc td
        val := fun s dst xs d i j =>
          let l := s.lanes e (xs.headD ⟨dst, 0⟩) d i j ta.n
          let in' := (l.filter (·.2.1)).map (·.1)
          (if op = 0 then sumBits ta.fmt (tMode f) (tSat f) (l.map (·.1)) else (pickList (op = 1) ta.fmt in').getD 0,
           l.any (·.2.2)) }) s

/-- What an exclusive MIN or MAX scan starts from: +Inf or −Inf, or the format's greatest or least value (11 R264). -/
def scanStart (least : Bool) (fmt : Nat) : Nat :=
  match ffmt fmt with
  | some F => F.infBits (!least)
  | none => match intFmt fmt with
    | some (w, sg) => wrapBits w (if least then intMax w sg else intMin w sg)
    | none => 0

/-- VSCANC (11 R264; log 21). -/
def execVscanc (f : FT) (s : State) : Host.Outcome State Fault Refusal :=
  issue (.t 0x62 4 f) (fun s =>
    let td := Ten.of (s.T f.td)
    let ta := Ten.of (s.T f.ta)
    let tc := s.optT f.tc
    let e := s.E f.edg
    let op := fld f.imm18 0 2
    let excl := f.imm18.getLsbD 2
    s.vrun f.edg
      { td := td, srcs := [(ta, f.wa)], tc := tc, weight := arithWeight ta.fmt, busy := ta.busyArith false false
        ok := ta.data fmtFI && td.data fmtFI && td.fmt = ta.fmt && td.conforms ta && ta.winOk f.wa && optPred tc td
        val := fun s dst xs d i j =>
          let k := td.idx i j
          let l := s.lanes e (xs.headD ⟨dst, 0⟩) d (i / td.ebr) (j / td.ebc) (if excl then k else k + 1)
          let in' := (l.filter (·.2.1)).map (·.1)
          (if op = 0 then (if l.isEmpty then 0 else sumBits ta.fmt (tMode f) (tSat f) (l.map (·.1)))
           else (pickList (op = 1) ta.fmt in').getD (scanStart (op = 1) ta.fmt),
           l.any (·.2.2)) }) s

/-- The dot product of two lists of elements with what it starts from, into a format (11 R264). -/
def dotBits (src dst : Nat) (mode : Mode) (sat : Bool) (a b : List Nat) (old : Option Nat) : Nat :=
  match ffmt src, ffmt dst with
  | some F, some G =>
    G.result mode sat (xsum mode ((a.zip b).map (fun x => (F.value x.1).mul (F.value x.2)) ++ (old.map G.value).toList))
  | _, _ =>
    match intFmt src, intFmt dst with
    | some (w, sg), some (w', sg') =>
      intResult w' sg' sat (((a.zip b).map fun x => intValue w sg x.1 * intValue w sg x.2).sum
        + (old.map (intValue w' sg')).getD 0)
    | _, _ => 0

/-- VDOTC (11 R264). -/
def execVdotc (f : FT) (s : State) : Host.Outcome State Fault Refusal :=
  issue (.t 0x62 5 f) (fun s =>
    let td := Ten.of (s.T f.td)
    let ta := Ten.of (s.T f.ta)
    let tb := Ten.of (s.T f.tb)
    let tc := s.optT f.tc
    let e := s.E f.edg
    let acc := f.imm18.getLsbD 0
    s.vrun f.edg
      { td := td, srcs := [(ta, f.wa), (tb, f.wb)], tc := tc, weight := arithWeight ta.fmt
        busy := max (ta.busyArith false true) (ta.busy (rateOf false true td.fmt))
        ok := ta.data fmtFI && tb.data fmtFI && tb.fmt = ta.fmt && tb.conforms ta
          && td.data (if fmtF ta.fmt then fmtF else fun c => c = 4 || c = 6) && td.onePerCell ta
          && ta.winOk f.wa && tb.winOk f.wb && optPred tc td
        val := fun s dst xs d i j =>
          let a := s.lanes e (xs.headD ⟨dst, 0⟩) d i j ta.n
          let b := s.lanes e (xs.getD 1 ⟨dst, 0⟩) d i j ta.n
          let old := if acc then some (s.src ⟨dst, 0⟩ d i j) else none
          (dotBits ta.fmt td.fmt (tMode f) (tSat f) (a.map (·.1)) (b.map (·.1)) old,
           a.any (·.2.2) || b.any (·.2.2) || (acc && s.srcPoison ⟨dst, 0⟩ d i j)) }) s

end Sys2Proof.Machine
end

