-- ==== Sys2Proof/Machine/Net.lean ====
section
/-!
DEFINITION. The NET family (14 R296-R302): exact sums on the SUM network, broadcasts, and DRED across devices, with the engine
steps that end them.
-/
namespace Sys2Proof.Machine

/-- Formats that the SUM network adds: FP32, BF16, FP16, INT32 (14 R298). -/
def netFmt (c : Nat) : Bool := c = 8 || c = 9 || c = 10 || c = 4

/-- Formats of a reduction's result (14 R298). -/
def netResult (src dst : Nat) : Bool := if src = 4 then dst = 4 || dst = 6 else dst = 8 || dst = 9

/-- An own-plot plane. -/
def Ten.plane (t : Ten) : Bool := t.kind = 1

/-- The result of one group of a reduction (14 R299): exact, rounded once. -/
def reduceBits (src dst op : Nat) (sat : Bool) (l : List Nat) : Nat :=
  match ffmt src, ffmt dst with
  | some F, some G =>
    let vs := l.map F.value
    G.result .rne sat (if op = 0 then xsum .rne vs else match vs with
      | [] => .fin false 0 0
      | v :: r => r.foldl (Val.pick (op = 1)) (Val.pick (op = 1) v v))
  | _, _ =>
    match intFmt dst with
    | some (w, sg) =>
      let vs := l.map (intValue 32 true)
      intResult w sg sat (if op = 0 then vs.sum else match vs with
        | [] => 0
        | v :: r => r.foldl (fun a b => if op = 1 then min a b else max a b) v)
    | none => 0

/-- The elements of TA that take part in a reduction (14 R299). -/
def State.taking (s : State) (ta : Place) (tc : Option Place) (e : Word) : List (Nat × Nat × Nat) :=
  ta.t.grid.filter (s.written ta tc e)

/-- The members of a reduction's group that the destination element (d, i, j) stands for. -/
def inGroup (fn d i j : Nat) (x : Nat × Nat × Nat) : Bool :=
  if fn = 0 then x.1 = d && x.2.1 = i else x.1 = d && x.2.2 = j

/-- The destination format of a reduction: TD's, or RFMT's (14 R297). -/
def redFmt (fn : Nat) (td ta : Ten) (imm : BitVec 18) : Nat :=
  if fn = 2 then (if ta.fmt = 4 then 6 else if fld imm 2 2 = 1 then 9 else 8) else td.fmt

/-- The effect of a reduction at its root (14 R296, R299). -/
def State.reduceNow (s : State) (o : PlaneOp) (fn : Nat) (td ta tc : BitVec 256) (edge : Word) (sat : Bool)
    (imm : BitVec 18) : State :=
  let p := s.thr.plot
  let d : Place := ⟨Ten.of td, p, 0⟩
  let a : Place := ⟨Ten.of ta, p, 0⟩
  let c : Option Place := if tc = 0 then none else some ⟨Ten.of tc, p, 0⟩
  let part := s.taking a c edge
  let dst := redFmt fn d.t a.t imm
  let bits (l : List (Nat × Nat × Nat)) := reduceBits a.t.fmt dst (fld imm 0 2) sat (l.map fun x => s.elem a 0 x.1 x.2.1 x.2.2)
  let bad (l : List (Nat × Nat × Nat)) := l.any fun x => s.elemPoison a 0 x.1 x.2.1 x.2.2
  let tcBad := (a.t.bounded edge).any fun x => s.predPoison c x.1 x.2.1 x.2.2
  let o := { o with poison := o.poison || tcBad || bad part, work := .held }
  if fn = 2 then (s.setOp o).deliver o (BitVec.ofNat 64 (bits part))
  else
    let ws := (d.t.grid.filter fun x => !s.elemVoid d x.1 x.2.1 x.2.2).map fun x =>
      let l := part.filter (inGroup fn x.1 x.2.1 x.2.2)
      (⟨x.1, x.2.1, x.2.2, bits l, bad l⟩ : EWrite)
    (s.writeElems d ws).setOp o

/-- Is the shape of a reduction's TD right (14 R298)? -/
def redShape (fn : Nat) (td ta : Ten) : Bool :=
  if fn = 0 then td.h = ta.h && td.lbr = ta.lbr && td.slices = ta.slices && td.w = 1 && td.lbc = 0
  else td.w = ta.w && td.lbc = ta.lbc && td.slices = ta.slices && td.h = 1 && td.lbr = 0

/-- NREDR, NREDC and NREDX (14 R297-R300): the result comes from the root as an engine step. -/
def reduceForm (fn : Nat) (f : FT) (s : State) : Host.Outcome State Fault Refusal :=
  issue (.t 0x80 fn f) (fun s => do
    let td := Ten.of (s.T f.td)
    let ta := Ten.of (s.T f.ta)
    let tc := s.optT f.tc
    need (ta.plane && netFmt ta.fmt && optPred tc ta
      && (if fn = 2 then !(ta.fmt = 4 && fld f.imm18 2 2 = 1) else td.plane && netResult ta.fmt td.fmt && redShape fn td ta) = true)
      cSPACE
    let ops := (if fn = 2 then [ta] else [td, ta]) ++ tc.toList
    s.powered ops
    let fps := (if fn = 2 then [] else td.fp true) ++ ta.fp false ++ tc.toList.flatMap (·.fp false)
    let s ← s.begin' fps ops 8 (ta.busy (8, 1))
    pure { st := s.hold fps false (.reduce fn (s.T f.td) (s.T f.ta) (s.T f.tc) (s.E f.edg) (f.sat = 1) f.imm18)
                   (if fn = 2 then f.xs else 0) (whole := true) }) s

/-- NREDR (14 R299). -/
def execNredr (f : FT) (s : State) : Host.Outcome State Fault Refusal := reduceForm 0 f s
/-- NREDC (14 R299). -/
def execNredc (f : FT) (s : State) : Host.Outcome State Fault Refusal := reduceForm 1 f s
/-- NREDX (14 R299). -/
def execNredx (f : FT) (s : State) : Host.Outcome State Fault Refusal := reduceForm 2 f s

/-- REDUCTION_ROOT (14 R296, R299): the root rounds the exact sum once and the result is written. -/
def execReductionRoot (s : State) : Host.Outcome State Fault Refusal :=
  slotEvent (fun s => do
    let o ← s.opNamed s.input.unit
    match o.work with
    | .reduce fn td ta tc e sat imm => some (s.reduceNow o fn td ta tc e sat imm)
    | _ => none) s

/-- NBCR and NBCC (14 R298, R299). -/
def bcastForm (fn : Nat) (f : FT) (s : State) : Host.Outcome State Fault Refusal :=
  issue (.t 0x80 fn f) (fun s =>
    let td := Ten.of (s.T f.td)
    let ta := Ten.of (s.T f.ta)
    let tc := s.optT f.tc
    let row := fn = 3
    s.vrun f.edg
      { td := td, srcs := [(ta, 0)], tc := tc, weight := 8, busy := td.busy (8, 1), whole := true
        ok := td.plane && ta.plane && td.fmt = ta.fmt && td.slices = ta.slices && optPred tc td
          && (if row then ta.w = 1 && ta.lbc = 0 && td.h = ta.h && td.lbr = ta.lbr
              else ta.h = 1 && ta.lbr = 0 && td.w = ta.w && td.lbc = ta.lbc)
        val := fun s _ xs d i j =>
          let (bs, bad) := s.srcsAt xs d (if row then i else 0) (if row then 0 else j)
          (b0 bs, bad) }) s

/-- NBCR (14 R299). -/
def execNbcr (f : FT) (s : State) : Host.Outcome State Fault Refusal := bcastForm 3 f s
/-- NBCC (14 R299). -/
def execNbcc (f : FT) (s : State) : Host.Outcome State Fault Refusal := bcastForm 4 f s

/-! ### DRED (14 R302) -/

/-- Formats that DRED takes. -/
def dredFmt (c : Nat) : Bool := c = 8 || c = 9 || c = 11 || c = 12

/-- DREDs a thread has outstanding. -/
def Thread.dreds (t : Thread) : Nat := (t.ops.filter fun o => match o.work with
  | .dred .. => true
  | _ => false).length

/-- DRED (14 R302): the contribution is read and sent; the switch answers as an engine step. -/
def execDred (f : FT) (s : State) : Host.Outcome State Fault Refusal :=
  issue (.t 0x80 5 f) (fun s => do
    let td := Ten.of (s.T f.td)
    let ta := Ten.of (s.T f.ta)
    let x := s.X f.xs
    need (td.plane && ta.plane && dredFmt td.fmt && dredFmt ta.fmt && ta.conforms td = true) cSPACE
    need (fld x 48 16 = 0 ∧ fld x 8 8 = 0 ∧ fld x 0 8 ≠ 0) cSPACE
    s.powered [td, ta]
    s.waitFor (s.thr.dreds < 4)
    let s ← s.begin' (td.fp true ++ ta.fp false) [td, ta] 8 (ta.busy (8, 1))
    let a : Place := ⟨ta, s.thr.plot, 0⟩
    let own := ta.grid.map fun y => BitVec.ofNat 32 (s.elem a 0 y.1 y.2.1 y.2.2)
    let bad := ta.grid.any fun y => s.elemPoison a 0 y.1 y.2.1 y.2.2
    pure { st := s.hold (td.fp true) bad (.dred (s.T f.td) (s.T f.ta) (f.sat = 1) x own) (whole := true) }) s

/-- The combination of one element: ports in ascending order, each addition rounded to FP32 (14 R302). -/
def dredSum (l : List (Nat × Nat)) : Val :=
  match l with
  | [] => .fin false 0 0
  | x :: r => r.foldl (fun a y => fp32.value (fp32.result .rne false (Val.add .rne a (elemValue y.1 y.2)))) (elemValue x.1 x.2)

/-- The result of an element in TD's format: rounded to nearest even, where SAT acts on the overflow of a finite sum alone (14 R302,
10 R239). -/
def dredBits (fmt : Nat) (sat : Bool) (v : Val) : Nat := match ffmt fmt with
  | some F => F.result .rne sat v
  | none => 0

/-- Contributions by ascending port. -/
def insertPort (c : Contribution) : List Contribution → List Contribution
  | [] => [c]
  | d :: r => if c.port ≤ d.port then c :: d :: r else d :: insertPort c r

/-- DRED_COMBINE (14 R302): the switch combines one contribution of each participant; participants that differ in element
count or format end the item. -/
def execDredCombine (s : State) : Host.Outcome State Fault Refusal :=
  slotEvent (fun s => do
    let o ← s.opNamed s.input.unit
    match o.work, s.input.payload with
    | .dred td ta sat ctx own, .contributions port others =>
      let all := (⟨port, BitVec.ofNat 5 (Ten.of ta).fmt, own⟩ :: others : List Contribution)
      if others.length ≠ fld ctx 0 8 ∨ (all.map (·.port)).eraseDups.length ≠ all.length then none
      else if others.any fun c => c.elems.length ≠ own.length || c.fmt.toNat ≠ (Ten.of ta).fmt then
        some ((s.failNow { cause := cSPACE, pc := o.pc }).setOp { o with work := .held })
      else
        let d : Place := ⟨Ten.of td, s.thr.plot, 0⟩
        let sorted := all.foldl (fun l c => insertPort c l) []
        let val (k : Nat) := dredSum (sorted.map fun c => (c.fmt.toNat, (c.elems.getD k 0).toNat))
        let ws := ((List.range own.length).zip d.t.grid).map fun x =>
          (⟨x.2.1, x.2.2.1, x.2.2.2, dredBits d.t.fmt sat (val x.1), o.poison⟩ : EWrite)
        some ((s.writeElems d ws).setOp { o with work := .held })
    | _, _ => none) s

/-- DRED_TIMEOUT (14 R302): the reduction did not complete in time; the item ends with EINFO WHY = 4 (04 R94). -/
def execDredTimeout (s : State) : Host.Outcome State Fault Refusal :=
  slotEvent (fun s => do
    let o ← s.opNamed s.input.unit
    match o.work with
    | .dred .. => some ((s.failNow { cause := cNOTMAPPED, pc := o.pc, info := 4 }).setOp { o with work := .held })
    | _ => none) s

/-! ### Completion of plane ops -/

/-- Has a plane op nothing left to do (07 R181; 08 R191)? -/
def PlaneOp.finished (o : PlaneOp) : Bool :=
  !o.untilLoopEnds && match o.work with
  | .held => true
  | .scroll sc => sc.dy = 0 && sc.dx = 0
  | _ => false

/-- Is an op still busy: its cycles of charge have not all passed (22 R410, R425)? An op in a cluster that is switched off has none
left. -/
def State.opBusy (s : State) (o : PlaneOp) : Bool := (s.cluster s.cl).on && (s.cluster s.cl).charges.any fun x => x.op = o.no

/-- PLANE_OP_COMPLETE (07 R181): once its busy cycles have passed, the footprint is released, a register the op writes is written, and
an op that read a poisoned row fails its item (07 R163). -/
def execPlaneOpComplete (s : State) : Host.Outcome State Fault Refusal :=
  slotEvent (fun s => do
    let o ← s.opNamed s.input.unit
    if o.finished && !s.opBusy o then
      let s := s.deliver o o.destVal
      let s := s.withThr { s.thr with ops := s.thr.ops.filter fun p => p.no ≠ o.no }
      some (if o.poison then s.failNow { cause := cECC, pc := o.pc } else s)
    else none) s

end Sys2Proof.Machine
end

