-- ==== Sys2Proof/Machine/Stack.lean ====
section
/-!
DEFINITION. The STACK family (09 R224-R226): every address is checked before any access, with 8-byte accesses that carry AT.
-/
namespace Sys2Proof.Machine

/-- Double words stored at rising addresses from `a`, as one queue entry each, in the order given (09 R226). -/
def State.pushDoubles (s : State) (nm : Named) (a : Word) (vs : List (Nat × Word)) : State :=
  vs.foldl (fun s v =>
    s.pushStore (a + BitVec.ofNat 64 (8 * v.1)) { nm with locs := (nm.locs.drop (8 * v.1)).take 8 } (leBytes 8 v.2.toNat)) s

/-- ENTER (09 R226). -/
def execEnter (f : FA) (s : State) : Host.Outcome State Fault Refusal :=
  issue (.a 0x33 0 f) (fun s => do
    let sp := s.X 63
    need (sp.toNat % 16 = 0) cMISALIGN sp
    need ((s.thr.stklim.toNat : Int) ≤ (sp.toNat : Int) - f.imm.toNat) cSTACK_LIMIT
    let (lr, fp) := (s.X 62, s.X 61)
    let (s, nm) ← s.resolve (storeWant 8) (sp - 16) 16
    s.storeClaims nm 2
    let s := s.pushDoubles nm (sp - 16) [(1, lr), (0, fp)]
    pure { st := (s.setX 61 sp).setX 63 (sp - f.imm.setWidth 64) }) s

/-- LEAVEF (09 R226). -/
def execLeavef (f : FA) (s : State) : Host.Outcome State Fault Refusal :=
  issue (.a 0x33 1 f) (fun s => do
    let fp := s.X 61
    need (fp.toNat % 16 = 0) cMISALIGN fp
    s.loadWaits
    let (s, v) ← s.loadValue { align := 8 } (fp - 16) 16
    pure { st := ((s.setX 63 fp).setX 62 (BitVec.ofNat 64 (v / 2 ^ 64))).setX 61 (BitVec.ofNat 64 v) }) s

/-- The checks of `n` accesses of 8 bytes at rising addresses from `a`, each as R100 gives (09 R226). -/
def State.resolveDoubles (s : State) (w : Want) (a : Word) : Nat → Res (State × List Named)
  | 0 => .ok (s, [])
  | n + 1 => do
    let (s, l) ← s.resolveDoubles w a n
    let (s, nm) ← s.resolve w (a + BitVec.ofNat 64 (8 * n)) 8
    pure (s, l ++ [nm])

/-- SPILL (09 R226): registers XD + k for every set mask bit k, at rising addresses. -/
def execSpill (f : FA) (s : State) : Host.Outcome State Fault Refusal :=
  issue (.a 0x33 2 f) (fun s => do
    let a := s.X f.xa
    need (a.toNat % 8 = 0) cMISALIGN a
    let ks := (List.range 16).filter fun k => f.imm.getLsbD k
    let vs := ks.map fun k => s.X (f.xd + BitVec.ofNat 6 k)
    let (s, nms) ← s.resolveDoubles (storeWant 8) a ks.length
    s.storeClaims ⟨[], nms.flatMap (·.fps), [], []⟩ ks.length
    pure { st := ((List.range ks.length).zip (nms.zip vs)).foldl (fun s x =>
             s.pushStore (a + BitVec.ofNat 64 (8 * x.1)) x.2.1 (leBytes 8 x.2.2.toNat)) s }) s

end Sys2Proof.Machine
end

