-- ==== Sys2Proof/Machine/Start.lean ====
section
/-!
DEFINITION. Starting the module and serving it (24 R447-R455).
-/
namespace Sys2Proof.Machine

/-! ### The boot record (R450, R451) -/

/-- FLAGS of the boot record. -/
def Boot.flags (b : Boot) : Nat := b.badA.toNat + b.badB.toNat * 2 + b.lastCold.toNat * 4 + b.recovery.toNat * 8

/-- The 64 bytes of the boot record. -/
def Boot.record (b : Boot) : List Byte :=
  leBytes 64 (0x48524F4254485848 + b.starts.toNat * 2 ^ 64 + b.activeB.toNat * 2 ^ 128 + b.flags * 2 ^ 136
    + b.cntA * 2 ^ 144 + b.cntB * 2 ^ 152 + b.imageA.version.toNat * 2 ^ 160 + b.imageB.version.toNat * 2 ^ 192
    + b.failStep.toNat * 2 ^ 224 + b.tgood.toNat * 2 ^ 256)

/-- The void map as it follows the record (R451): the count, then 32 entries, 0xFFFF past the last. -/
def State.voidMap (s : State) : List Byte :=
  leBytes 2 s.voids.length ++ (List.range 32).flatMap fun i => leBytes 2 (s.voids.getD i 0xFFFF)

/-- The mirror of the boot record and of the void map behind it, in main memory once step 5 has cleared it under slot 0's key (R447, R450,
R451; log 48). -/
def State.mirrorBoot (s : State) : State :=
  if (s.keySlots.find 0).isNone then s
  else
    let bs := s.boot.record ++ s.voidMap
    (bs.zip (List.range bs.length)).foldl (fun s x => s.put (.mem (storageOf 0 (s.boot.mirror + x.2))) 0 x.1) s

/-- The boot record changed, in flash and in its mirror. -/
def State.setBoot (s : State) (b : Boot) : State := { s with boot := b }.mirrorBoot

/-! ### Starts (R447-R449) -/

/-- The clusters after a start: the window of the samples begins (22 R418). -/
def State.freshClusters (s : State) : NMap Cluster :=
  (List.range 256).foldl (fun m c => NMap.put (Cluster.atReset c) m c { Cluster.atReset c with window := s.windowNo c }) []

/-- An image slot of which no update runs any more: what was half written is not good (R449, R453). -/
def ImageSlot.halted (i : ImageSlot) : ImageSlot := { i with writing := false }

/-- What a start and a loss of power leave of the boot record and flash. -/
def Boot.ended (b : Boot) : Boot :=
  { b with marked := false, hostLink := none, waits := false, due := false, imageA := b.imageA.halted, imageB := b.imageB.halted }

/-- What no start keeps: everything but the boot record, flash and fuses, device time, memory outside the module, and the model's own
counters (R448). -/
def State.wiped (s : State) : State :=
  { clusters := s.freshClusters, waitMark := s.time, flightNo := s.flightNo, turns := s.turns, input := s.input, stepNo := s.stepNo
    uid := s.uid, opNo := s.opNo, draws := s.draws, keySlots := [], time := s.time, dieTime := s.dieTime, voids := s.voids
    extMem := s.extMem, extKey := s.extKey, boot := s.boot.ended }

/-- The image that the active slot holds. -/
def Boot.active (b : Boot) : ImageSlot := if b.activeB then b.imageB else b.imageA

/-- One more failed attempt of the slot that was booted (R449): at three it is bad and the other one becomes active, and with both bad the
module is in recovery; otherwise a warm start follows. -/
def Boot.failed (b : Boot) (step : Nat) : Boot :=
  let b := { b with failStep := BitVec.ofNat 32 step, marked := false, waits := false }
  let b := if b.bootedB then { b with cntB := min 3 (b.cntB + 1), badB := b.badB || 2 ≤ b.cntB }
    else { b with cntA := min 3 (b.cntA + 1), badA := b.badA || 2 ≤ b.cntA }
  if b.badA && b.badB then { b with recovery := true, due := false }
  else { b with due := true, activeB := if (if b.bootedB then b.badB else b.badA) then !b.bootedB else b.activeB }

/-- Step 4: what calibration finds is the record (R452). -/
def State.calibrate (s : State) (c : StartCfg) : State := { s with boot := { s.boot with calibration := some c.calibration } }

/-- Step 5: a fresh key in slot 0, memory cleared under it, and the boot record mirrored there (R447, R450). -/
def State.clearMemory (s : State) : State :=
  let key := KeyVal.drawn s.draws
  { s with keySlots := [(0, key)], baseKey := key, draws := s.draws + 1 }.mirrorBoot

/-- The clusters of the runtime's retirement list are off (R453). -/
def State.retireClusters (s : State) (l : List (BitVec 8)) : State :=
  let s := l.foldl (fun (s : State) (c : BitVec 8) => s.setCluster c.toNat { s.cluster c.toNat with on := false }) s
  if l.isEmpty then s else (List.range 4).foldl State.revolt s

/-- The state with another boot record and knowledge of starts, not yet in its mirror. -/
def State.withBoot (s : State) (b : Boot) : State := { s with boot := b }

/-- Step 7: links, partitions, rings, queues and engines as the runtime sets them up, with its retirement list (R447, R453); then step 8
is awaited. -/
def State.configure (s : State) (c : StartCfg) : State :=
  let s := { s with deviceId := c.deviceId, domain := c.domain
                    portsRetired := c.retiredPorts.foldl (fun l p => setAdd p.toNat l) [] }
  let s := c.retiredLinks.foldl (fun (s : State) (n : BitVec 4) => s.mapLink n.toNat fun l => { l with retired := true }) s
  let s := c.links.foldl (fun (s : State) (x : BitVec 4 × Option (BitVec 2)) =>
    s.mapLink x.1.toNat fun l => { l with version := if x.2 = some 1 then some 1 else if x.2 = some 2 then some 2 else none }) s
  let s := c.keys.foldl (fun (s : State) (k : BitVec 6 × BitVec 512) =>
    { s with keySlots := NMap.set s.keySlots k.1.toNat (.loaded k.2) }) s
  let s := c.parts.foldl (fun (s : State) (p : PartCfg) =>
    { s with parts := NMap.put {} s.parts p.part.toNat { cfg := some p } }) s
  let s := c.rings.foldl (fun (s : State) (r : RingCfg) =>
    { s with rings := NMap.put {} s.rings r.ring.toNat { cfg := some r } }) s
  let s := c.queues.foldl (fun (s : State) (q : QueueCfg) => s.setQueue q) s
  let s := (c.engines.filter fun e => e.1.toNat < 768).foldl (fun (s : State) (e : BitVec 10 × BitVec 4) =>
    s.setEngine e.1 { part := some e.2 }) s
  let s := c.traces.foldl (fun (s : State) (t : TraceCfg) =>
    { s with traces := NMap.put {} s.traces t.vf.toNat { cfg := some t } }) s
  (s.retireClusters c.retiredClusters).withBoot { s.boot with hostLink := c.host, waits := true }

/-- Step 8 (R447, R449): the start is marked good and the count of its slot is cleared. -/
def Boot.good (b : Boot) (now : Word) : Boot :=
  let b := { b with marked := true, waits := false, tgood := now }
  if b.bootedB then { b with cntB := 0 } else { b with cntA := 0 }

/-- Does a start run a step: a warm one skips step 1, and step 4 with a valid calibration record of about this temperature (R448)? -/
def State.runsStep (s : State) (cold : Bool) (c : StartCfg) (n : Nat) : Bool :=
  cold || (n ≠ 1 && (n ≠ 4 || s.boot.calibration.isNone || !c.sensorsNear))

/-- The step at which a start stops, if it does: the outside's, or step 3 where the signature fails (R449). -/
def State.stopsAt (s : State) (cold : Bool) (c : StartCfg) : Option Nat :=
  match (c.fails.headD none).filter (s.runsStep cold c) with
  | some n => if !s.boot.active.good && 3 ≤ n then some 3 else some n
  | none => if s.boot.active.good then none else some 3

/-- The steps before step `n` of a start: calibration, memory, and what step 7 sets up (R447). -/
def State.stepsTo (s : State) (cold : Bool) (c : StartCfg) (n : Nat) : State :=
  let s := if 4 < n && s.runsStep cold c 4 then s.calibrate c else s
  let s := if 5 < n then s.clearMemory else s
  if 7 < n then s.configure c else s

/-- A start (R447-R449). One that stops at a step before 8 fails there, with what the steps before it have done; one that never reaches
step 8 waits for the watchdog. -/
def State.start (s : State) (cold : Bool) (c : StartCfg) : State :=
  let b := { s.boot with starts := s.boot.starts + 1, lastCold := cold, powered := true, bootedB := s.boot.activeB, mirror := c.mirror
                         cfg := some { c with fails := c.fails.drop 1 } }
  let s := (s.withBoot b).wiped
  match s.stopsAt cold c with
  | some n =>
    let s := s.stepsTo cold c n
    if n < 8 then s.setBoot (s.boot.failed n) else s
  | none =>
    let s := s.stepsTo cold c 8
    s.setBoot (s.boot.good s.time)

/-- The warm start that a failed start causes (R449): it comes by itself. -/
def State.startDue (s : State) : State :=
  if s.boot.due && s.boot.powered && !s.boot.recovery then
    match s.boot.cfg with
    | some c => s.start false c
    | none => s
  else s

/-- COLD_START (R447): the module input reaches 48 V. In recovery only the management endpoint runs (R449). -/
def execColdStart (s : State) : Host.Outcome State Fault Refusal :=
  event (fun s => match s.input.payload with
    | .start c => if s.boot.powered || s.boot.recovery then none else some (s.start true c)
    | _ => none) s

/-- WARM_START (R448): a module reset with the input held. -/
def execWarmStart (s : State) : Host.Outcome State Fault Refusal :=
  event (fun s => match s.input.payload with
    | .start c => if !s.boot.powered || s.boot.recovery then none else some (s.start false c)
    | _ => none) s

/-- START_WATCHDOG (R449): step 8 has not been reached 120 s after step 3 of a start that waits for it, which fails. -/
def execStartWatchdog (s : State) : Host.Outcome State Fault Refusal :=
  event (fun s => if s.boot.waits && s.boot.powered then some (s.setBoot (s.boot.failed 8)) else none) s

/-- INPUT_POWER_LOSS (R448): all work ends; the boot record and flash stay, with an image half written. -/
def execInputPowerLoss (s : State) : Host.Outcome State Fault Refusal :=
  event (fun s => some (s.wiped.withBoot { s.wiped.boot with powered := false })) s

/-! ### Service (R452, R453, R455) -/

/-- The inactive image slot replaced. -/
def Boot.setInactive (b : Boot) (i : ImageSlot) : Boot := if b.activeB then { b with imageA := i } else { b with imageB := i }

/-- The inactive slot holds a new image: its mark and count are of the old one (log 49). -/
def Boot.cleared (b : Boot) : Boot := if b.activeB then { b with badA := false, cntA := 0 } else { b with badB := false, cntB := 0 }

/-- One step of an image update (R449, R453): a second write while one is running is refused. -/
def Boot.update (b : Boot) (u : ImageStep) : Option Boot :=
  let i := if b.activeB then b.imageA else b.imageB
  match u with
  | .beginWrite => if i.writing then none else some (b.setInactive { i with writing := true, good := false })
  | .endWrite v ok => if i.writing then some (b.setInactive ⟨v, ok, false⟩).cleared else none
  | .setActive =>
    let b := { b with activeB := !b.activeB }
    some { b with recovery := b.recovery && (if b.activeB then b.badB else b.badA) }

/-- IMAGE_UPDATE (R453). -/
def execImageUpdate (s : State) : Host.Outcome State Fault Refusal :=
  event (fun s => match s.input.payload with
    | .image u => (s.boot.update u).map s.setBoot
    | _ => none) s

/-- HOST_ATTACH (R447, R454): a host that attaches after step 7 trains then. -/
def execHostAttach (s : State) : Host.Outcome State Fault Refusal :=
  event (fun s => match s.input.payload with
    | .host l => if (s.boot.marked || s.boot.waits) && s.boot.hostLink.isNone then some { s with boot := { s.boot with hostLink := some l } } else none
    | _ => none) s

/-- COOLANT_FLOW_LOW (R455): the flow is `unit` millilitres a minute; below 3.0 L/min the management endpoint reports an alert. -/
def execCoolantFlowLow (s : State) : Host.Outcome State Fault Refusal :=
  event (fun s => if 3000 ≤ s.input.unit then none else some { s with boot := { s.boot with alerts := s.boot.alerts + 1 } }) s

/-- CLUSTER_RECALIBRATION (R452) of cluster `unit`: refused while its ON is 1; otherwise its results enter the record. -/
def execClusterRecalibration (s : State) : Host.Outcome State Fault Refusal :=
  event (fun s => if 256 ≤ s.input.unit || (s.cluster s.input.unit).on then none else some s.recalibrate) s

end Sys2Proof.Machine
end

