-- ==== Sys2Proof/Machine/Vatom.lean ====
section
/-!
DEFINITION. The VATOM family (17 R356-R359): an RMW for each active element, performed location by location by the cluster's
atomic aggregator.
-/
namespace Sys2Proof.Machine

/-- The ATOM form that an element of a VATOM acts as (17 R356). -/
def vatomAs (fn fmt : Nat) : Nat :=
  match fn with
  | 0 => 0
  | 1 => if fmt = 5 then 3 else 1
  | 2 => if fmt = 5 then 4 else 2
  | 3 => 8
  | _ => 10

/-- The formats of TA (17 R356). -/
def vatomFmt (fn fmt : Nat) : Bool :=
  if fn = 4 then fmt = 8 else fmt = 4 || fmt = 5 || fmt = 6 || (fn = 3 && fmt = 8)

/-- The footprint of an op's space-1 targets: the bounding range of their cells and plot rows (17 R359). -/
def targetFp (n : Nat) (ps : List Word) : List Fp :=
  match ps.flatMap fun a => ptrFp a n true with
  | [] => []
  | f :: r => [r.foldl (fun a b => ⟨min a.r0 b.r0, max a.r1 b.r1, min a.c0 b.c0, max a.c1 b.c1, min a.p0 b.p0, max a.p1 b.p1, true⟩) f]

/-- A VATOM's issue (17 R357, R359): its operands are read here, and its RMWs follow as events; with no active element there is none. -/
def vatomForm (fn : Nat) (f : FT) (s : State) : Host.Outcome State Fault Refusal :=
  issue (.t 0x34 fn f) (fun s => do
    let td := s.optT f.td
    let ta := Ten.of (s.T f.ta)
    let tb := Ten.of (s.T f.tb)
    let tc := s.optT f.tc
    need (ta.kind = 1 && vatomFmt fn ta.fmt && tb.kind = 1 && tb.fmt = 6 && tb.conforms ta
      && td.all (fun t => (t.kind = 1 || t.member) && t.fmt = ta.fmt && t.conforms ta) && optPred tc ta = true) cSPACE
    let ds ← s.placesOf td.toList
    s.powered (ta :: tb :: td.toList ++ tc.toList)
    s.rmwWaits
    s.loadWaits
    -- R250 takes TD's cell; with t0 there is TA's alone
    let a : Place := ⟨ta, s.thr.plot, 0⟩
    let b : Place := ⟨tb, s.thr.plot, 0⟩
    let c : Option Place := tc.map fun t => ⟨t, s.thr.plot, 0⟩
    let e := s.E f.edg
    let all := ta.grid.zip (List.range ta.grid.length)
    let left := (all.filter fun x => s.written (ds.headD a) c e x.1).map fun x =>
      let (d, i, j) := x.1
      (⟨x.2, BitVec.ofNat 64 (s.elem b 0 d i j), BitVec.ofNat 64 (s.elem a 0 d i j)
        , s.elemPoison a 0 d i j || s.elemPoison b 0 d i j || s.predPoison c d i j⟩ : VElem)
    let bad := left.any (·.poison) || (ta.bounded e).any fun x => s.predPoison c x.1 x.2.1 x.2.2
    let n := fmtBits ta.fmt / 8
    let fps := td.toList.flatMap (·.fp true) ++ ta.fp false ++ tb.fp false ++ tc.toList.flatMap (·.fp false)
      ++ targetFp n (left.map (·.ptr))
    let s ← s.begin' fps (ta :: tb :: td.toList ++ tc.toList) 8 1
    pure { st := s.hold fps bad (if left.isEmpty then .held else .vatom (vatomAs fn ta.fmt) n (s.T f.td) s.curGid left 0) }) s

/-- VAADD (17 R356). -/
def execVaadd (f : FT) (s : State) : Host.Outcome State Fault Refusal := vatomForm 0 f s
/-- VAMIN (17 R356). -/
def execVamin (f : FT) (s : State) : Host.Outcome State Fault Refusal := vatomForm 1 f s
/-- VAMAX (17 R356). -/
def execVamax (f : FT) (s : State) : Host.Outcome State Fault Refusal := vatomForm 2 f s
/-- VAXCHG (17 R356). -/
def execVaxchg (f : FT) (s : State) : Host.Outcome State Fault Refusal := vatomForm 3 f s
/-- VAFADD (17 R356). -/
def execVafadd (f : FT) (s : State) : Host.Outcome State Fault Refusal := vatomForm 4 f s

/-- Elements of one location performed in prefix order, with the old value of each (17 R358). -/
def State.rmwAll (s : State) (fn n : Nat) (nm : Named) : List VElem → List (VElem × Nat) → State × List (VElem × Nat)
  | [], l => (s, l)
  | v :: r, l =>
    let x := s.rmw fn n nm (v.b.toNat % 2 ^ (8 * n)) 0
    x.1.rmwAll fn n nm r (l ++ [(v, x.2)])

/-- Old values written to TD (17 R357); t0 discards them. A member's place that is gone ends the item. -/
def State.writeOlds (s : State) (gid : Option Nat) (td : BitVec 256) (olds : List (VElem × Nat)) : Res State :=
  if td = 0 then .ok s
  else do
    let t := Ten.of td
    let p ← s.placeAs gid t
    pure (s.writeElems p (olds.map fun x =>
      let (d, i, j) := coverElem t x.1.idx
      ⟨d, i, j, x.2, x.1.poison⟩))

/-- The elements before the first one, in prefix order, that would fault (17 R357, R359: the op stops there). -/
def State.beforeFault (s : State) (fn n : Nat) (left : List VElem) : List VElem :=
  left.takeWhile fun u => match s.resolve (atomWant fn n false) u.ptr n with
    | .error (.trap _) => false
    | _ => true

/-- The RMW of one location: all the elements of `able` that name it, with their old values (17 R358), and the elements of `left`
that are not performed yet. -/
def State.aggregate (s : State) (fn n : Nat) (td : BitVec 256) (gid : Option Nat) (left able : List VElem) (v : VElem) :
    Res (State × List VElem × Nat) := do
  let (s, nm) ← s.resolve (atomWant fn n false) v.ptr n
  let same (u : VElem) : Bool := u.idx = v.idx || match s.resolve (atomWant fn n false) u.ptr n with
    | .ok (_, m) => m.locs = nm.locs
    | .error _ => false
  let mine := able.filter same
  let (s, olds) := s.rmwAll fn n nm mine []
  let s ← s.writeOlds gid td olds
  pure (s, left.filter (fun u => !mine.contains u), mine.length)

/-- AGGREGATOR_RMW (17 R358, R359): the location of the element chosen by `aux` is updated as one RMW. An element that faults
stops the op once every element before it in prefix order is performed, and ends the item. The elements are translated under the root of
the op's issue (04 R95, 09 R205). -/
def execAggregatorRmw (s : State) : Host.Outcome State Fault Refusal :=
  slotEvent (fun s => do
    let o ← s.opNamed s.input.unit
    match o.work with
    | .vatom fn n td gid left performed =>
      let u := s.withRoot o.root
      let able := u.beforeFault fn n left
      let first ← left.head?
      let v ← (if able.isEmpty then [first] else able).find? fun u => u.idx = s.input.aux
      match u.aggregate fn n td gid left able v with
      | .ok (s', rest, k) => some ((s'.withRoot s.thr.root).setOp { o with work := if rest.isEmpty then .held else .vatom fn n td gid rest (performed + k) })
      | .error (.trap t) =>
        some ((s.failNow { cause := t.cause, pc := o.pc, addr := t.addr, count := BitVec.ofNat 64 performed
                           ordinal := BitVec.ofNat 32 v.idx, info := t.info }).setOp { o with work := .held })
      | .error _ => none
    | _ => none) s

end Sys2Proof.Machine
end

