-- ==== Sys2Proof/Machine/Vscalar.lean ====
section
/-!
DEFINITION. The VSCALAR family (11 R260, R261): element-wise forms with a scalar from X[XS].
-/
namespace Sys2Proof.Machine

/-- The scalar of a float format at its exact value (11 R261). -/
def scalarVal (fmt : Nat) (x : Word) : Val := if fmt = 7 then fp64.value x.toNat else fp32.value (x.toNat % 2 ^ 32)

/-- An element-wise result with the scalar as its second operand; a third is TB's element (11 R256, R257, R261). -/
def arithScalar (fmt : Nat) (mode : Mode) (sat : Bool) (x : Word) (fop : List Val → Val) (iop : List Int → Int)
    (bs : List Nat) : Nat :=
  match ffmt fmt with
  | some F => F.result mode sat (fop (F.value (b0 bs) :: scalarVal fmt x :: (bs.drop 1).map F.value))
  | none =>
    match intFmt fmt with
    | some (w, sg) => intResult w sg sat (iop (intValue w sg (b0 bs) :: intValue w sg x.toNat :: (bs.drop 1).map (intValue w sg)))
    | none => 0

/-- A form of VSCALAR with TA and perhaps TB. -/
def scalarForm (fn : Nat) (two mul : Bool) (fop : Mode → List Val → Val) (iop : List Int → Int) (f : FT) (s : State) :
    Host.Outcome State Fault Refusal :=
  issue (.t 0x61 fn f) (fun s =>
    let td := Ten.of (s.T f.td)
    let ta := Ten.of (s.T f.ta)
    let tc := s.optT f.tc
    let x := s.X f.xs
    let srcs := (ta, f.wa) :: if two then [(Ten.of (s.T f.tb), f.wb)] else []
    s.vrun f.edg
      { td := td, srcs := srcs, tc := tc, weight := arithWeight td.fmt, busy := td.busyArith false mul
        ok := td.data fmtFI && (srcs.all fun y => y.1.data fmtFI && y.1.fmt = td.fmt && y.1.conforms td && y.1.winOk y.2)
          && optPred tc td
        val := fun s _ xs d i j =>
          let (bs, bad) := s.srcsAt xs d i j
          (arithScalar td.fmt (tMode f) (tSat f) x (fop (tMode f)) iop bs, bad) }) s

/-- VADDS (11 R260). -/
def execVadds (f : FT) (s : State) : Host.Outcome State Fault Refusal :=
  scalarForm 0 false false (fun m l => Val.add m (v0 l) (v1 l)) (fun l => i0 l + i1 l) f s
/-- VMULS (11 R260). -/
def execVmuls (f : FT) (s : State) : Host.Outcome State Fault Refusal :=
  scalarForm 1 false true (fun _ l => (v0 l).mul (v1 l)) (fun l => i0 l * i1 l) f s
/-- VFMAS (11 R260): a × s + b. -/
def execVfmas (f : FT) (s : State) : Host.Outcome State Fault Refusal :=
  scalarForm 2 true true (fun m l => Val.add m ((v0 l).mul (v1 l)) (v2 l)) (fun l => i0 l * i1 l + i2 l) f s
/-- VMINS (11 R260). -/
def execVmins (f : FT) (s : State) : Host.Outcome State Fault Refusal :=
  scalarForm 3 false false (fun _ l => Val.pick true (v0 l) (v1 l)) (fun l => min (i0 l) (i1 l)) f s
/-- VMAXS (11 R260). -/
def execVmaxs (f : FT) (s : State) : Host.Outcome State Fault Refusal :=
  scalarForm 4 false false (fun _ l => Val.pick false (v0 l) (v1 l)) (fun l => max (i0 l) (i1 l)) f s

/-- VBCAST (11 R260): the low bits of X[XS]. -/
def execVbcast (f : FT) (s : State) : Host.Outcome State Fault Refusal :=
  issue (.t 0x61 5 f) (fun s =>
    let td := Ten.of (s.T f.td)
    let tc := s.optT f.tc
    let x := s.X f.xs
    s.vrun f.edg { td := td, tc := tc, weight := 8, busy := td.busyBits, ok := td.data fmtX && optPred tc td
                   val := fun _ _ _ _ _ _ => (x.toNat, false) }) s

/-- VIOTA (11 R260, R261): s + step·(i·C + j), the same in every slice. -/
def execViota (f : FT) (s : State) : Host.Outcome State Fault Refusal :=
  issue (.t 0x61 6 f) (fun s =>
    let td := Ten.of (s.T f.td)
    let tc := s.optT f.tc
    let x := s.X f.xs
    s.vrun f.edg
      { td := td, tc := tc, weight := 8, busy := td.busyArith false false, ok := td.data fmtI && optPred tc td
        val := fun _ _ _ _ i j =>
          match intFmt td.fmt with
          | some (w, sg) => (intResult w sg (tSat f) (intValue w sg x.toNat + f.imm18.toInt * (i * td.cols + j : Nat)), false)
          | none => (0, false) }) s

end Sys2Proof.Machine
end

