-- ==== Sys2Proof/Machine/Walk.lean ====
section
/-!
DEFINITION. The WALK family (19 R377-R380). What the walker does to the instructions of its body stands in Ops (R372, R376)
and Mem (R374).
-/
namespace Sys2Proof.Machine

/-- Window `w` of the thread that acts. -/
def State.owWin (s : State) (w : Nat) : OwWin := s.thr.ow.wins.toArray.getD w {}

/-- Granules of a window. -/
def OwWin.count (o : OwWin) : Nat := o.len.toNat / 2 ^ o.gran.toNat

/-- Cover bits of a window. -/
def OwWin.bits (o : OwWin) : List Nat := (List.range o.count).map (· + o.bitoff.toNat)

/-- Do two windows overlap, in VA or in cover bits (19 R378)? -/
def OwWin.overlaps (a b : OwWin) : Bool :=
  (a.base.toNat < b.base.toNat + b.len.toNat && b.base.toNat < a.base.toNat + a.len.toNat)
    || (a.bitoff.toNat < b.bitoff.toNat + b.count && b.bitoff.toNat < a.bitoff.toNat + a.count)

/-- Windows that are enabled. -/
def State.enabledWins (s : State) : List Nat := (List.range 8).filter fun w => (s.owWin w).len ≠ 0

/-- Check 3 of R378. -/
def State.owloopOk (s : State) (f : FQ) : Bool :=
  let t := Ten.of (s.T f.td)
  let en := s.enabledWins
  t.kind = 3 && f.xc ≠ 0 && !(32 ≤ f.xc.toNat && f.xc.toNat ≤ 55) && f.xa ≠ f.xc && !en.isEmpty
    && (en.all fun w => (s.owWin w).bitoff.toNat + (s.owWin w).count ≤ t.slices * (t.rows * t.cols))
    && en.all fun v => en.all fun w => w ≤ v || !(s.owWin v).overlaps (s.owWin w)

/-- The walker that OWLOOP starts (19 R378). -/
def Walker.start (o : Walker) (mask : BitVec 8) (map : BitVec 256) (index : BitVec 6) (n : BitVec 32) : Walker :=
  { o with act := true, iter := n - 1, wmask := mask, supp := 0, skip := 0, perf := 0, pending := [], decls := []
           stored := false, map := map, index := index }

/-- WMASK of the windows now. -/
def State.owMask (s : State) : BitVec 8 := BitVec.ofNat 8 ((s.enabledWins.map (2 ^ ·)).sum)

/-- The loop that OWLOOP pushes; its cover map's footprint is held until the loop ends (19 R378). -/
def State.startWalker (s : State) (f : FQ) (n : BitVec 32) : State :=
  let t := Ten.of (s.T f.td)
  let bits := s.enabledWins.flatMap fun w => (s.owWin w).bits
  let s := s.hold (t.fp true) false
  let s := s.withThr { s.thr with ops := s.thr.ops.map fun o => if o.no = s.opNo then { o with untilLoopEnds := true } else o }
  let s := s.withThr { s.thr with ow := s.thr.ow.start s.owMask (s.T f.td) f.xc n }
  let s := s.setCover bits 0
  let s := (s.withThr s.thr.zeroScratch).setX f.xc ((n - 1).setWidth 64)
  let l : Loop := ⟨s.thr.pc + 16, parcelTarget s.thr.pc f.imm32, n, f.xc, 0, false, true⟩
  s.withThr (s.thr.setLoops (l :: s.thr.loopStack))

/-- OWLOOP (19 R378): a false guard acts as a count of 0. It zeroes x32-x55, so it waits for a load still pending on one (R373). -/
def execOwloop (f : FQ) (s : State) : Host.Outcome State Fault Refusal :=
  issueWith (.q 0xC0 0 f) (fun s => { st := s, flow := .skip (parcelTarget s.thr.pc f.imm32) }) (fun s => do
    let n : BitVec 32 := (s.X f.xa).setWidth 32
    let t := Ten.of (s.T f.td)
    need (s.thr.ow.act = false) cOW_ENGINE 0 (s.owInfo 1)
    need (s.thr.src.pf.getLsbD 10 = true) cPERM
    need (s.owloopOk f = true) cSPACE
    s.powered [t]
    need (n = 0 ∨ s.thr.loopStack.length < 4) cLOOP_DEPTH
    if n = 0 then pure { st := s, flow := .skip (parcelTarget s.thr.pc f.imm32) }
    else do
      s.claim (t.fp true)
      s.waitFor ((List.range 24).all (fun i => !s.thr.pendingX (BitVec.ofNat 6 (32 + i))) = true)
      pure { st := s.startWalker f n }) s

/-- Fields of OWWIN's IMM32 (19 R377): the window as it is set. -/
def owWinOf (base : Word) (len : Word) (imm : BitVec 32) : OwWin :=
  { base := base.setWidth 48, len := len.setWidth 32, gran := imm.extractLsb' 0 4, bitoff := imm.extractLsb' 8 24 }

/-- OWWIN (19 R379). -/
def execOwwin (f : FQ) (s : State) : Host.Outcome State Fault Refusal :=
  issue (.q 0xC0 1 f) (fun s => do
    let a := s.X f.xa
    let l := s.X f.xb
    let g := 2 ^ fld f.imm32 0 4
    need (s.thr.ow.act = false) cOW_ENGINE 0 (s.owInfo 1)
    need (l.toNat < 2 ^ 32) cSPACE
    need (l = 0 ∨ (a.toNat < 2 ^ 48 ∧ a.toNat + l.toNat ≤ 2 ^ 48)) cSPACE a
    need (l = 0 ∨ (a.toNat % g = 0 ∧ l.toNat % g = 0)) cMISALIGN a
    let o := s.thr.ow
    pure { st := s.withThr { s.thr with ow := { o with wins := o.wins.setIfInBounds (fld f.imm32 4 3) (owWinOf a l f.imm32) } } }) s

/-- The granules of a range as the first and how many; OW_PARTIAL when it does not lie in the window (19 R380). -/
def State.owRange (s : State) (a l : Word) (w : Nat) : Res (Nat × Nat) := do
  let o := s.owWin w
  need (o.len ≠ 0 ∧ o.base.toNat ≤ a.toNat ∧ a.toNat + l.toNat ≤ o.base.toNat + o.len.toNat) cOW_PARTIAL a (s.owInfo 1)
  let g (v : Nat) := (v - o.base.toNat) / 2 ^ o.gran.toNat
  pure (if l = 0 then (g a.toNat, 0) else (g a.toNat, g (a.toNat + l.toNat - 1) + 1 - g a.toNat))

/-- Is every granule of a range of a window covered? -/
def State.allCovered (s : State) (w first n : Nat) : Bool := (List.range n).all fun k => s.covered w (first + k)

/-- Loops of a stack from the walker's own on: those inside it are left. -/
def fromWalker (l : List Loop) : List Loop := l.dropWhile fun x => !x.walker

/-- The rest of the iteration is skipped: the back-edge is taken at once (19 R375). -/
def State.skipIteration (s : State) : State :=
  let o := s.thr.ow
  let s := s.withThr { (s.thr.setLoops (fromWalker s.thr.loopStack)) with ow := { o with skip := satInc o.skip } }
  match s.thr.loopStack with
  | [] => s
  | l :: _ => s.backEdge l.stop 5

/-- Does `.last` find every declared granule covered, and at least one declared (19 R375)? -/
def State.declaredCovered (s : State) : Bool :=
  s.thr.ow.decls.any (fun d => d.2.2 ≠ 0) && s.thr.ow.decls.all fun d => s.allCovered d.1 d.2.1 d.2.2

/-- OWDECL (19 R375, R380). -/
def execOwdecl (f : FQ) (s : State) : Host.Outcome State Fault Refusal :=
  issue (.q 0xC0 2 f) (fun s => do
    need (s.thr.walking = true) cOW_ENGINE 0 (s.owInfo 1)
    let a := s.X f.xa
    let w := f.imm32.toNat
    let (g, n) ← s.owRange a (s.X f.xb) w
    need (s.thr.ow.stored = false) cOW_PARTIAL a (s.owInfo 2)
    need (s.thr.ow.decls.length < 4) cOW_PENDING 0 (s.owInfo 2)
    let o := s.thr.ow
    let s := s.withThr { s.thr with ow := { o with decls := o.decls ++ [(w, g, n)] } }
    if f.flg.getLsbD 0 && s.declaredCovered then pure { st := s.skipIteration, flow := .set } else pure { st := s }) s

/-- OWCHK (19 R380): the map is read as an own-plot source when no loop holds it. -/
def execOwchk (f : FQ) (s : State) : Host.Outcome State Fault Refusal :=
  issue (.q 0xC0 3 f) (fun s => do
    let w := f.imm32.toNat
    let (g, n) ← s.owRange (s.X f.xa) (s.X f.xb) w
    if s.thr.ow.act then pure () else s.claim ((Ten.of s.thr.ow.map).fp false) true
    pure { st := s.setX f.xc (if s.allCovered w g n then 1 else 0) }) s

/-- OWSTAT (19 R380). -/
def execOwstat (f : FQ) (s : State) : Host.Outcome State Fault Refusal :=
  pureOp (.q 0xC0 4 f) (fun s =>
    s.setX f.xc (if f.imm32 = 0 then s.thr.ow.supp ++ s.thr.ow.skip else s.thr.ow.perf.setWidth 64)) s

end Sys2Proof.Machine
end

