-- ==== Sys2Proof/Machine/Dispatch.lean ====
section
/-!
DEFINITION. The meaning of every instruction: one arm per constructor, each one call of its meaning.
-/
namespace Sys2Proof.Machine

/-- One instruction, engine word or event. -/
def exec (i : Instr) (s : State) : Host.Outcome State Fault Refusal :=
  match i with
  | .nop f => Sys2Proof.Machine.execNop f s
  | .exitThread f => Sys2Proof.Machine.execExitThread f s
  | .yieldSlot f => Sys2Proof.Machine.execYieldSlot f s
  | .trap f => Sys2Proof.Machine.execTrap f s
  | .eret f => Sys2Proof.Machine.execEret f s
  | .sysr f => Sys2Proof.Machine.execSysr f s
  | .sysw f => Sys2Proof.Machine.execSysw f s
  | .sysx f => Sys2Proof.Machine.execSysx f s
  | .brk f => Sys2Proof.Machine.execBrk f s
  | .tstamp f => Sys2Proof.Machine.execTstamp f s
  | .evt f => Sys2Proof.Machine.execEvt f s
  | .br f => Sys2Proof.Machine.execBr f s
  | .brl f => Sys2Proof.Machine.execBrl f s
  | .ret f => Sys2Proof.Machine.execRet f s
  | .jt f => Sys2Proof.Machine.execJt f s
  | .jtl f => Sys2Proof.Machine.execJtl f s
  | .loop f => Sys2Proof.Machine.execLoop f s
  | .loopx f => Sys2Proof.Machine.execLoopx f s
  | .lbrk f => Sys2Proof.Machine.execLbrk f s
  | .add f => Sys2Proof.Machine.execAdd f s
  | .sub f => Sys2Proof.Machine.execSub f s
  | .mul f => Sys2Proof.Machine.execMul f s
  | .mulh f => Sys2Proof.Machine.execMulh f s
  | .mulhu f => Sys2Proof.Machine.execMulhu f s
  | .div f => Sys2Proof.Machine.execDiv f s
  | .divu f => Sys2Proof.Machine.execDivu f s
  | .rem f => Sys2Proof.Machine.execRem f s
  | .remu f => Sys2Proof.Machine.execRemu f s
  | .and f => Sys2Proof.Machine.execAnd f s
  | .or f => Sys2Proof.Machine.execOr f s
  | .xor f => Sys2Proof.Machine.execXor f s
  | .andn f => Sys2Proof.Machine.execAndn f s
  | .shl f => Sys2Proof.Machine.execShl f s
  | .shr f => Sys2Proof.Machine.execShr f s
  | .sar f => Sys2Proof.Machine.execSar f s
  | .min f => Sys2Proof.Machine.execMin f s
  | .minu f => Sys2Proof.Machine.execMinu f s
  | .max f => Sys2Proof.Machine.execMax f s
  | .maxu f => Sys2Proof.Machine.execMaxu f s
  | .clz f => Sys2Proof.Machine.execClz f s
  | .ctz f => Sys2Proof.Machine.execCtz f s
  | .popc f => Sys2Proof.Machine.execPopc f s
  | .brev f => Sys2Proof.Machine.execBrev f s
  | .exts f => Sys2Proof.Machine.execExts f s
  | .extz f => Sys2Proof.Machine.execExtz f s
  | .ins f => Sys2Proof.Machine.execIns f s
  | .sel f => Sys2Proof.Machine.execSel f s
  | .ceq f => Sys2Proof.Machine.execCeq f s
  | .cne f => Sys2Proof.Machine.execCne f s
  | .clt f => Sys2Proof.Machine.execClt f s
  | .cle f => Sys2Proof.Machine.execCle f s
  | .cltu f => Sys2Proof.Machine.execCltu f s
  | .cleu f => Sys2Proof.Machine.execCleu f s
  | .pand f => Sys2Proof.Machine.execPand f s
  | .por f => Sys2Proof.Machine.execPor f s
  | .pxor f => Sys2Proof.Machine.execPxor f s
  | .pnot f => Sys2Proof.Machine.execPnot f s
  | .pmov f => Sys2Proof.Machine.execPmov f s
  | .pget f => Sys2Proof.Machine.execPget f s
  | .movi f => Sys2Proof.Machine.execMovi f s
  | .movhi f => Sys2Proof.Machine.execMovhi f s
  | .addi f => Sys2Proof.Machine.execAddi f s
  | .ptrmk f => Sys2Proof.Machine.execPtrmk f s
  | .ptrsp f => Sys2Proof.Machine.execPtrsp f s
  | .ptrrk f => Sys2Proof.Machine.execPtrrk f s
  | .ptroff f => Sys2Proof.Machine.execPtroff f s
  | .pladr f => Sys2Proof.Machine.execPladr f s
  | .fadd f => Sys2Proof.Machine.execFadd f s
  | .fsub f => Sys2Proof.Machine.execFsub f s
  | .fmul f => Sys2Proof.Machine.execFmul f s
  | .fma f => Sys2Proof.Machine.execFma f s
  | .fdiv f => Sys2Proof.Machine.execFdiv f s
  | .fsqrt f => Sys2Proof.Machine.execFsqrt f s
  | .frsq f => Sys2Proof.Machine.execFrsq f s
  | .fmin f => Sys2Proof.Machine.execFmin f s
  | .fmax f => Sys2Proof.Machine.execFmax f s
  | .fabs f => Sys2Proof.Machine.execFabs f s
  | .fneg f => Sys2Proof.Machine.execFneg f s
  | .fceq f => Sys2Proof.Machine.execFceq f s
  | .fclt f => Sys2Proof.Machine.execFclt f s
  | .fcle f => Sys2Proof.Machine.execFcle f s
  | .fcvt f => Sys2Proof.Machine.execFcvt f s
  | .fclass f => Sys2Proof.Machine.execFclass f s
  | .ld f => Sys2Proof.Machine.execLd f s
  | .ldz f => Sys2Proof.Machine.execLdz f s
  | .st f => Sys2Proof.Machine.execSt f s
  | .pref f => Sys2Proof.Machine.execPref f s
  | .ldf f => Sys2Proof.Machine.execLdf f s
  | .ldfe f => Sys2Proof.Machine.execLdfe f s
  | .ste f => Sys2Proof.Machine.execSte f s
  | .stf f => Sys2Proof.Machine.execStf f s
  | .feq f => Sys2Proof.Machine.execFeq f s
  | .aadd f => Sys2Proof.Machine.execAadd f s
  | .amin f => Sys2Proof.Machine.execAmin f s
  | .amax f => Sys2Proof.Machine.execAmax f s
  | .aminu f => Sys2Proof.Machine.execAminu f s
  | .amaxu f => Sys2Proof.Machine.execAmaxu f s
  | .aand f => Sys2Proof.Machine.execAand f s
  | .aor f => Sys2Proof.Machine.execAor f s
  | .axor f => Sys2Proof.Machine.execAxor f s
  | .axchg f => Sys2Proof.Machine.execAxchg f s
  | .acas f => Sys2Proof.Machine.execAcas f s
  | .afadd f => Sys2Proof.Machine.execAfadd f s
  | .ord f => Sys2Proof.Machine.execOrd f s
  | .fence f => Sys2Proof.Machine.execFence f s
  | .qfence f => Sys2Proof.Machine.execQfence f s
  | .enter f => Sys2Proof.Machine.execEnter f s
  | .leavef f => Sys2Proof.Machine.execLeavef f s
  | .spill f => Sys2Proof.Machine.execSpill f s
  | .vaadd f => Sys2Proof.Machine.execVaadd f s
  | .vamin f => Sys2Proof.Machine.execVamin f s
  | .vamax f => Sys2Proof.Machine.execVamax f s
  | .vaxchg f => Sys2Proof.Machine.execVaxchg f s
  | .vafadd f => Sys2Proof.Machine.execVafadd f s
  | .spawn f => Sys2Proof.Machine.execSpawn f s
  | .cont f => Sys2Proof.Machine.execCont f s
  | .park f => Sys2Proof.Machine.execPark f s
  | .gnew f => Sys2Proof.Machine.execGnew f s
  | .joinGroup f => Sys2Proof.Machine.execJoinGroup f s
  | .leaveGroup f => Sys2Proof.Machine.execLeaveGroup f s
  | .gbar f => Sys2Proof.Machine.execGbar f s
  | .grank f => Sys2Proof.Machine.execGrank f s
  | .gsize f => Sys2Proof.Machine.execGsize f s
  | .launch f => Sys2Proof.Machine.execLaunch f s
  | .plotgrow f => Sys2Proof.Machine.execPlotgrow f s
  | .plotinfo f => Sys2Proof.Machine.execPlotinfo f s
  | .tdset f => Sys2Proof.Machine.execTdset f s
  | .tdget f => Sys2Proof.Machine.execTdget f s
  | .tdld f => Sys2Proof.Machine.execTdld f s
  | .tdst f => Sys2Proof.Machine.execTdst f s
  | .tdmove f => Sys2Proof.Machine.execTdmove f s
  | .tdsub f => Sys2Proof.Machine.execTdsub f s
  | .edset f => Sys2Proof.Machine.execEdset f s
  | .edget f => Sys2Proof.Machine.execEdget f s
  | .vadd f => Sys2Proof.Machine.execVadd f s
  | .vsub f => Sys2Proof.Machine.execVsub f s
  | .vmul f => Sys2Proof.Machine.execVmul f s
  | .vfma f => Sys2Proof.Machine.execVfma f s
  | .vmin f => Sys2Proof.Machine.execVmin f s
  | .vmax f => Sys2Proof.Machine.execVmax f s
  | .vabs f => Sys2Proof.Machine.execVabs f s
  | .vneg f => Sys2Proof.Machine.execVneg f s
  | .vdiv f => Sys2Proof.Machine.execVdiv f s
  | .vrcp f => Sys2Proof.Machine.execVrcp f s
  | .vsqrt f => Sys2Proof.Machine.execVsqrt f s
  | .vrsq f => Sys2Proof.Machine.execVrsq f s
  | .vexp2 f => Sys2Proof.Machine.execVexp2 f s
  | .vlog2 f => Sys2Proof.Machine.execVlog2 f s
  | .vand f => Sys2Proof.Machine.execVand f s
  | .vor f => Sys2Proof.Machine.execVor f s
  | .vxor f => Sys2Proof.Machine.execVxor f s
  | .vnot f => Sys2Proof.Machine.execVnot f s
  | .vshl f => Sys2Proof.Machine.execVshl f s
  | .vshr f => Sys2Proof.Machine.execVshr f s
  | .vsar f => Sys2Proof.Machine.execVsar f s
  | .vclz f => Sys2Proof.Machine.execVclz f s
  | .vpopc f => Sys2Proof.Machine.execVpopc f s
  | .vmov f => Sys2Proof.Machine.execVmov f s
  | .vcvt f => Sys2Proof.Machine.execVcvt f s
  | .vsel f => Sys2Proof.Machine.execVsel f s
  | .vceq f => Sys2Proof.Machine.execVceq f s
  | .vcne f => Sys2Proof.Machine.execVcne f s
  | .vclt f => Sys2Proof.Machine.execVclt f s
  | .vcle f => Sys2Proof.Machine.execVcle f s
  | .vadds f => Sys2Proof.Machine.execVadds f s
  | .vmuls f => Sys2Proof.Machine.execVmuls f s
  | .vfmas f => Sys2Proof.Machine.execVfmas f s
  | .vmins f => Sys2Proof.Machine.execVmins f s
  | .vmaxs f => Sys2Proof.Machine.execVmaxs f s
  | .vbcast f => Sys2Proof.Machine.execVbcast f s
  | .viota f => Sys2Proof.Machine.execViota f s
  | .vperm f => Sys2Proof.Machine.execVperm f s
  | .vrot f => Sys2Proof.Machine.execVrot f s
  | .vxch f => Sys2Proof.Machine.execVxch f s
  | .vredc f => Sys2Proof.Machine.execVredc f s
  | .vscanc f => Sys2Proof.Machine.execVscanc f s
  | .vdotc f => Sys2Proof.Machine.execVdotc f s
  | .vlut f => Sys2Proof.Machine.execVlut f s
  | .ppset f => Sys2Proof.Machine.execPpset f s
  | .ppand f => Sys2Proof.Machine.execPpand f s
  | .ppor f => Sys2Proof.Machine.execPpor f s
  | .ppnot f => Sys2Proof.Machine.execPpnot f s
  | .ppcnt f => Sys2Proof.Machine.execPpcnt f s
  | .ppany f => Sys2Proof.Machine.execPpany f s
  | .ppall f => Sys2Proof.Machine.execPpall f s
  | .feset f => Sys2Proof.Machine.execFeset f s
  | .feclr f => Sys2Proof.Machine.execFeclr f s
  | .scroll f => Sys2Proof.Machine.execScroll f s
  | .scrollx f => Sys2Proof.Machine.execScrollx f s
  | .plcopy f => Sys2Proof.Machine.execPlcopy f s
  | .plfill f => Sys2Proof.Machine.execPlfill f s
  | .nredr f => Sys2Proof.Machine.execNredr f s
  | .nredc f => Sys2Proof.Machine.execNredc f s
  | .nredx f => Sys2Proof.Machine.execNredx f s
  | .nbcr f => Sys2Proof.Machine.execNbcr f s
  | .nbcc f => Sys2Proof.Machine.execNbcc f s
  | .dred f => Sys2Proof.Machine.execDred f s
  | .wld f => Sys2Proof.Machine.execWld f s
  | .wswap f => Sys2Proof.Machine.execWswap f s
  | .mstream f => Sys2Proof.Machine.execMstream f s
  | .accz f => Sys2Proof.Machine.execAccz f s
  | .accrd f => Sys2Proof.Machine.execAccrd f s
  | .accnrm f => Sys2Proof.Machine.execAccnrm f s
  | .cpin f => Sys2Proof.Machine.execCpin f s
  | .cpout f => Sys2Proof.Machine.execCpout f s
  | .cpg f => Sys2Proof.Machine.execCpg f s
  | .cps f => Sys2Proof.Machine.execCps f s
  | .cpp f => Sys2Proof.Machine.execCpp f s
  | .cpm f => Sys2Proof.Machine.execCpm f s
  | .seal f => Sys2Proof.Machine.execSeal f s
  | .waitb f => Sys2Proof.Machine.execWaitb f s
  | .wptr f => Sys2Proof.Machine.execWptr f s
  | .cpstat f => Sys2Proof.Machine.execCpstat f s
  | .bkload f => Sys2Proof.Machine.execBkload f s
  | .bkact f => Sys2Proof.Machine.execBkact f s
  | .bkcall f => Sys2Proof.Machine.execBkcall f s
  | .bkwait f => Sys2Proof.Machine.execBkwait f s
  | .bkstat f => Sys2Proof.Machine.execBkstat f s
  | .owloop f => Sys2Proof.Machine.execOwloop f s
  | .owwin f => Sys2Proof.Machine.execOwwin f s
  | .owdecl f => Sys2Proof.Machine.execOwdecl f s
  | .owchk f => Sys2Proof.Machine.execOwchk f s
  | .owstat f => Sys2Proof.Machine.execOwstat f s
  | .pwrhint f => Sys2Proof.Machine.execPwrhint f s
  | .chgrd f => Sys2Proof.Machine.execChgrd f s
  | .bli f => Sys2Proof.Machine.execBli f s
  | .baddi f => Sys2Proof.Machine.execBaddi f s
  | .badd f => Sys2Proof.Machine.execBadd f s
  | .bsub f => Sys2Proof.Machine.execBsub f s
  | .bmul f => Sys2Proof.Machine.execBmul f s
  | .bbz f => Sys2Proof.Machine.execBbz f s
  | .bbnz f => Sys2Proof.Machine.execBbnz f s
  | .bloop f => Sys2Proof.Machine.execBloop f s
  | .bza f => Sys2Proof.Machine.execBza f s
  | .bmac f => Sys2Proof.Machine.execBmac f s
  | .bfmt f => Sys2Proof.Machine.execBfmt f s
  | .bscl f => Sys2Proof.Machine.execBscl f s
  | .brda f => Sys2Proof.Machine.execBrda f s
  | .bsend f => Sys2Proof.Machine.execBsend f s
  | .brd f => Sys2Proof.Machine.execBrd f s
  | .bwr f => Sys2Proof.Machine.execBwr f s
  | .bsig f => Sys2Proof.Machine.execBsig f s
  | .bwait f => Sys2Proof.Machine.execBwait f s
  | .bnop => Sys2Proof.Machine.execBnop s
  | .bhalt => Sys2Proof.Machine.execBhalt s
  | .feTimeout => Sys2Proof.Machine.execFeTimeout s
  | .aggregatorRmw => Sys2Proof.Machine.execAggregatorRmw s
  | .scrollUnitStep => Sys2Proof.Machine.execScrollUnitStep s
  | .planeOpComplete => Sys2Proof.Machine.execPlaneOpComplete s
  | .reductionRoot => Sys2Proof.Machine.execReductionRoot s
  | .dredCombine => Sys2Proof.Machine.execDredCombine s
  | .dredTimeout => Sys2Proof.Machine.execDredTimeout s
  | .copyBurst => Sys2Proof.Machine.execCopyBurst s
  | .copySlackDecay => Sys2Proof.Machine.execCopySlackDecay s
  | .cpgSectorArrival => Sys2Proof.Machine.execCpgSectorArrival s
  | .engineProgramWrite => Sys2Proof.Machine.execEngineProgramWrite s
  | .engineActWrite => Sys2Proof.Machine.execEngineActWrite s
  | .engineCallStart => Sys2Proof.Machine.execEngineCallStart s
  | .callComplete => Sys2Proof.Machine.execCallComplete s
  | .callFaultReport => Sys2Proof.Machine.execCallFaultReport s
  | .bsendDelivery => Sys2Proof.Machine.execBsendDelivery s
  | .bankTimeout => Sys2Proof.Machine.execBankTimeout s
  | .hintExpiry => Sys2Proof.Machine.execHintExpiry s
  | .loadComplete => Sys2Proof.Machine.execLoadComplete s
  | .storeLeavesQueue => Sys2Proof.Machine.execStoreLeavesQueue s
  | .pageWalk => Sys2Proof.Machine.execPageWalk s
  | .loggedFaultTrap => Sys2Proof.Machine.execLoggedFaultTrap s
  | .lateTrap => Sys2Proof.Machine.execLateTrap s
  | .packetArrival => Sys2Proof.Machine.execPacketArrival s
  | .itemTerminate => Sys2Proof.Machine.execItemTerminate s
  | .itemEnd => Sys2Proof.Machine.execItemEnd s
  | .launchRingRead => Sys2Proof.Machine.execLaunchRingRead s
  | .ringReset => Sys2Proof.Machine.execRingReset s
  | .queueConfig => Sys2Proof.Machine.execQueueConfig s
  | .dispatchItem => Sys2Proof.Machine.execDispatchItem s
  | .priorityAging => Sys2Proof.Machine.execPriorityAging s
  | .parkCheck => Sys2Proof.Machine.execParkCheck s
  | .replicaAccept => Sys2Proof.Machine.execReplicaAccept s
  | .startTimeout => Sys2Proof.Machine.execStartTimeout s
  | .peerTimeout => Sys2Proof.Machine.execPeerTimeout s
  | .partitionReset => Sys2Proof.Machine.execPartitionReset s
  | .preemptRequest => Sys2Proof.Machine.execPreemptRequest s
  | .drainExpiry => Sys2Proof.Machine.execDrainExpiry s
  | .saveItem => Sys2Proof.Machine.execSaveItem s
  | .flushItem => Sys2Proof.Machine.execFlushItem s
  | .tlbinvVa => Sys2Proof.Machine.execTlbinvVa s
  | .tlbinvAll => Sys2Proof.Machine.execTlbinvAll s
  | .ptbaseWrite => Sys2Proof.Machine.execPtbaseWrite s
  | .latecntWrite => Sys2Proof.Machine.execLatecntWrite s
  | .opldrop => Sys2Proof.Machine.execOpldrop s
  | .keySlotLoad => Sys2Proof.Machine.execKeySlotLoad s
  | .eccScrub => Sys2Proof.Machine.execEccScrub s
  | .parityError => Sys2Proof.Machine.execParityError s
  | .railctlWrite => Sys2Proof.Machine.execRailctlWrite s
  | .clctlWrite => Sys2Proof.Machine.execClctlWrite s
  | .vfenergyWrite => Sys2Proof.Machine.execVfenergyWrite s
  | .dvfsRequest => Sys2Proof.Machine.execDvfsRequest s
  | .railRampDone => Sys2Proof.Machine.execRailRampDone s
  | .clockHop => Sys2Proof.Machine.execClockHop s
  | .droopDetect => Sys2Proof.Machine.execDroopDetect s
  | .droopEnd => Sys2Proof.Machine.execDroopEnd s
  | .chargeCycle => Sys2Proof.Machine.execChargeCycle s
  | .clusterSample => Sys2Proof.Machine.execClusterSample s
  | .thermalThreshold => Sys2Proof.Machine.execThermalThreshold s
  | .ptpAdjust => Sys2Proof.Machine.execPtpAdjust s
  | .timeResync => Sys2Proof.Machine.execTimeResync s
  | .pcSample => Sys2Proof.Machine.execPcSample s
  | .watermarkStep => Sys2Proof.Machine.execWatermarkStep s
  | .haltSlot => Sys2Proof.Machine.execHaltSlot s
  | .resumeSlot => Sys2Proof.Machine.execResumeSlot s
  | .stepSlot => Sys2Proof.Machine.execStepSlot s
  | .dbgRead => Sys2Proof.Machine.execDbgRead s
  | .dbgWrite => Sys2Proof.Machine.execDbgWrite s
  | .dbgSample => Sys2Proof.Machine.execDbgSample s
  | .droplog => Sys2Proof.Machine.execDroplog s
  | .registerWrite => Sys2Proof.Machine.execRegisterWrite s
  | .linkRetrain => Sys2Proof.Machine.execLinkRetrain s
  | .coldStart => Sys2Proof.Machine.execColdStart s
  | .warmStart => Sys2Proof.Machine.execWarmStart s
  | .startWatchdog => Sys2Proof.Machine.execStartWatchdog s
  | .imageUpdate => Sys2Proof.Machine.execImageUpdate s
  | .illegalEncoding => Sys2Proof.Machine.execIllegalEncoding s
  | .bankIllegal => Sys2Proof.Machine.execBankIllegal s
  | .peerAccess => Sys2Proof.Machine.execPeerAccess s
  | .hostAccess => Sys2Proof.Machine.execHostAccess s
  | .rdmaTransfer => Sys2Proof.Machine.execRdmaTransfer s
  | .systemCoreAccess => Sys2Proof.Machine.execSystemCoreAccess s
  | .replicatedPacket => Sys2Proof.Machine.execReplicatedPacket s
  | .hostAttach => Sys2Proof.Machine.execHostAttach s
  | .ptpLockChange => Sys2Proof.Machine.execPtpLockChange s
  | .inputPowerLoss => Sys2Proof.Machine.execInputPowerLoss s
  | .coolantFlowLow => Sys2Proof.Machine.execCoolantFlowLow s
  | .flitCrcReplay => Sys2Proof.Machine.execFlitCrcReplay s
  | .mergeCounterRead => Sys2Proof.Machine.execMergeCounterRead s
  | .faultRingSpace => Sys2Proof.Machine.execFaultRingSpace s
  | .clusterRecalibration => Sys2Proof.Machine.execClusterRecalibration s
  | .linkRetirement => Sys2Proof.Machine.execLinkRetirement s
  | .enginePartitionAssign => Sys2Proof.Machine.execEnginePartitionAssign s

end Sys2Proof.Machine
end

