-- ==== Sys2Proof/Machine/Turn.lean ====
section
/-!
DEFINITION. One turn of an agent: a slot's next instruction (02 R18-R22, R35), an engine's next word (05 R115), an event; and
the turn that is taken when none is named (log 2).
-/
namespace Sys2Proof.Machine

/-! ### A slot's turn -/

/-- After a turn of slot `k`: a single step under the debugger stops (23 R441), and the cluster has issued unless the slot waits
(22 R418). -/
def State.afterTurn (s : State) (k : SlotNo) : State :=
  let s := s.afterStep k
  if (s.thread k).waiting then s
  else s.setCluster (slotCluster k) { s.cluster (slotCluster k) with issued := true }

/-- The outcome of an instruction with what its turn adds. -/
def finishTurn (k : SlotNo) : Host.Outcome State Fault Refusal → Host.Outcome State Fault Refusal
  | .next s => .next (s.afterTurn k)
  | o => o

/-- A breakpoint at the instruction that an ORD prefixes is matched at the ORD (23 R440), so its first parcel is fetched then (04 R89). -/
def State.touchPrefixed (s : State) (i : Instr) : State :=
  if i.form.opc = 0x32 ∧ i.form.fn = 0 ∧ s.thr.bp.toList.any (·.getLsbD 0) then
    s.touchRange (s.thr.pc + 8) (s.skipFiller allParcels (s.thr.pc + 8) + 4)
  else s

/-- The instruction at the PC of the slot that acts: its fetch, then its meaning. -/
def State.runInstr (s : State) : Host.Outcome State Fault Refusal :=
  let u := s.touchCode s.thr.pc
  match s.fetch with
  | .trap t => .next ((u.takeTrap t).afterTurn s.cur)
  | .filler a => .next (u.withThr { u.thr with pc := a })
  | .instr i => finishTurn s.cur (exec i (u.touchPrefixed i))

/-- A turn of slot `k`: nothing where it may not issue; else what happens at the boundary, or an instruction. -/
def State.slotTurn (s : State) (k : SlotNo) : Host.Outcome State Fault Refusal :=
  let s := s.atSlot k
  if !s.slotMay then .next s
  else match s.boundary with
    | some s' => .next (s'.afterTurn k)
    | none => s.runInstr

/-! ### An engine's turn -/

/-- Is the engine held by a lossless event of the item whose call it runs (23 R434)? -/
def State.engineHeld (s : State) (g : Engine) : Bool :=
  ((g.call.bind fun id => s.calls.find? (·.id == id)).bind fun c => s.slotOfUid c.uid).any fun k => s.heldEvents k (s.thread k)

/-- A turn of engine `e`: the next word of the call it runs. -/
def State.engineTurn (s : State) (e : BitVec 10) : Host.Outcome State Fault Refusal :=
  let s := s.atEngine e
  if !s.eng.busy || s.eng.call.isNone || s.engineHeld s.eng then .next s
  else exec (decodeBank (NMap.get 0 s.eng.prog s.eng.pc.toNat)) s

/-! ### Events -/

/-- Is this row an event or an engine step, one that no fetch decodes? -/
def isEvent (i : Instr) : Bool :=
  match i.form, i with
  | .none, .illegalEncoding => false
  | .none, .bankIllegal => false
  | .none, _ => true
  | _, _ => false

/-- Events that reach a module in which nothing runs: a host trains after step 7 (24 R447-R449, R453, R455). -/
def reachesOff : Instr → Bool
  | .coldStart | .warmStart | .startWatchdog | .imageUpdate | .inputPowerLoss | .coolantFlowLow | .hostAttach => true
  | _ => false

/-- Does nothing run: no input power, recovery, or a start that has not been marked good (24 R447-R449)? -/
def State.isDown (s : State) : Bool := !s.boot.powered || s.boot.recovery || !s.boot.marked

/-- An event with its input. -/
def State.eventTurn (s : State) (i : Instr) (inp : Input) : Host.Outcome State Fault Refusal :=
  if isEvent i then exec i { s with input := inp } else .next s

/-- Does a turn reach the module as it is: where nothing runs, only what starts, serves or watches it does? -/
def State.reachable (s : State) : Turn → Bool
  | .event i _ => !s.isDown || reachesOff i
  | _ => !s.isDown

/-- A named turn; where it does not reach the module, nothing happens but the warm start that a failed start causes (24 R449). -/
def State.take (s : State) (t : Turn) : Host.Outcome State Fault Refusal :=
  if !s.reachable t then .next s.startDue
  else match t with
    | .slot k => s.slotTurn k
    | .engine e => s.engineTurn e
    | .event i inp => s.eventTurn i inp

/-! ### The turn that is taken when none is named (log 2) -/

/-- Live slots from the one after the slot that acted last, round robin (15 R315). -/
def State.ring (s : State) : List SlotNo :=
  let l := s.liveSlots
  l.filter (fun k => s.cur.toNat < k.toNat) ++ l.filter fun k => k.toNat ≤ s.cur.toNat

/-- The first slot that may issue and does, or does not, wait. -/
def State.nextSlot (s : State) (waiting : Bool) : Option Turn :=
  (s.ring.find? fun k => (s.atSlot k).slotMay && (s.thread k).waiting == waiting).map Turn.slot

/-- An event of a slot. -/
def slotEv (i : Instr) (k : SlotNo) (unit aux : Nat := 0) : Turn := .event i { slot := k, unit := unit, aux := aux }

/-- An event of a numbered unit. -/
def unitEv (i : Instr) (n : Nat) : Turn := .event i { unit := n }

/-- What a plane op in progress can do next. -/
def PlaneOp.pending (o : PlaneOp) (k : SlotNo) : List Turn :=
  if o.finished then [slotEv .planeOpComplete k o.no]
  else match o.work with
    | .scroll _ => [slotEv .scrollUnitStep k o.no]
    | .reduce .. => [slotEv .reductionRoot k o.no]
    | .vatom _ _ _ _ left _ => left.map fun v => slotEv .aggregatorRmw k o.no v.idx
    | _ => []

/-- What the sectors of a slot's gathers can do next. -/
def Thread.sectorTurns (t : Thread) (k : SlotNo) : List Turn :=
  (t.chans.toList.zip (List.range 4)).flatMap fun x => match x.1.queue.head? with
    | some c => c.sectors.map fun q => slotEv .cpgSectorArrival k x.2 q
    | none => []

/-- What the work of a slot's thread can do next. -/
def State.slotPending (s : State) (k : SlotNo) : List Turn :=
  let t := s.thread k
  (if t.openOuts.isEmpty then [] else [slotEv .loadComplete k])
    ++ (if t.sq.isEmpty then [] else [slotEv .storeLeavesQueue k])
    ++ t.ops.flatMap (·.pending k) ++ t.sectorTurns k
    ++ [slotEv .itemTerminate k, slotEv .itemEnd k, slotEv .saveItem k, slotEv .flushItem k]

/-- What bank commands, calls and sends can do next. -/
def State.bankPending (s : State) : List Turn :=
  let first := s.cmdq.flatMap fun q => q.2.flatMap (·.left)
  first.flatMap (fun e => [unitEv .engineProgramWrite e, unitEv .engineActWrite e, unitEv .engineCallStart e])
    ++ s.sends.map (fun x => unitEv .bsendDelivery x.id)
    ++ s.calls.flatMap fun c => [unitEv .callComplete c.id, unitEv .callFaultReport c.id]

/-- Engines that run a call. -/
def State.enginePending (s : State) : List Turn :=
  let all := (s.curE, s.eng) :: s.engines.map fun x => (BitVec.ofNat 10 x.1, x.2)
  (all.filter fun x => x.2.busy && x.2.call.isSome).map fun x => .engine x.1

/-- What the launch engine, the scheduler and the merge unit can do next. -/
def State.devicePending (s : State) : List Turn :=
  s.rings.map (fun r => unitEv .launchRingRead r.1) ++ s.parts.map (fun p => unitEv .dispatchItem p.1)
    ++ s.parked.map (fun p => unitEv .parkCheck p.thr.src.uid)
    ++ (if s.events.isEmpty then [] else [.event .watermarkStep { value := BitVec.allOnes 512 }])

/-- Cluster cycles that charged work or time needs, and samples that are due. -/
def State.cyclePending (s : State) : List Turn :=
  (s.liveSlots.map slotCluster).eraseDups.flatMap fun c => [unitEv .chargeCycle c, unitEv .clusterSample c]

/-- Does a turn change the state? -/
def State.moves (s : State) (t : Turn) : Bool :=
  match t, s.take t with
  | .event _ inp, .next s' => s' ≠ { s with input := inp }
  | _, .next s' => s' ≠ s
  | _, _ => false

/-- The first pending turn that changes the state. -/
def State.nextPending (s : State) : Option Turn :=
  (s.liveSlots.flatMap s.slotPending ++ [unitEv .copyBurst 0, unitEv .copyBurst 1] ++ s.bankPending ++ s.enginePending
    ++ s.devicePending ++ s.cyclePending).find? s.moves

/-- The turn of a step that names none: in turn, slots that can issue, pending work, and slots that wait go first. -/
def State.nextTurn (s : State) : Option Turn :=
  let ready := s.nextSlot false
  let waits := s.nextSlot true
  match s.stepNo % 3 with
  | 0 => ready <|> s.nextPending <|> waits
  | 1 => s.nextPending <|> waits <|> ready
  | _ => waits <|> ready <|> s.nextPending

/-- The next turn taken: the one that `turns` names first, or one that can be taken; where there is none, nothing but the warm start
after a failed one (24 R449). -/
def State.move (s : State) : Host.Outcome State Fault Refusal :=
  match s.turns with
  | t :: r => { s with turns := r }.take t
  | [] => match s.nextTurn with
    | some t => s.take t
    | none => .next s.startDue

end Sys2Proof.Machine
end

