-- ==== Sys2Proof/Machine/Step.lean ====
section
/-!
DEFINITION. One step: time runs on, and the agent whose turn it is moves.
-/
namespace Sys2Proof.Machine

/-- One step of the machine (log 2, log 3). -/
def step (s : State) : Host.Outcome State Fault Refusal := s.tick.move

/-- The state with an instruction stored where the next step fetches it (log 1). -/
def State.withFetchWord (s : State) (nbits w : Nat) : State :=
  if nbits ≤ 32 then s.placeBank w else s.placeThread (w % 2 ^ nbits)

end Sys2Proof.Machine
end

