-- ==== Sys2Proof/Safety.lean ====
section
/-!
DEFINITION. What counts as a safe run, and the terms in which statements speak of one instruction: when it issues, what its
completion adds to its own effect, and what it leaves as it was.
-/
namespace Sys2Proof.Machine

/-! ### Runs -/

/-- Main memory is in canonical form: addresses strictly rising, no byte listed that reads as an unlisted one does. -/
def State.memOk (s : State) : Prop := Memory.wf s.mem = true

/-- The step at a state goes on: it neither faults nor is refused. -/
def State.goes (s : State) : Prop := ∃ t, step s = .next t

/-- A state is reached from another by steps. -/
inductive Reaches : State → State → Prop where
  | refl (s : State) : Reaches s s
  | tail (s t u : State) : Reaches s t → step t = .next u → Reaches s u

/-- A safe run from a state: each state it reaches goes on and keeps its memory in canonical form. -/
def State.safe (s : State) : Prop := ∀ t, Reaches s t → t.goes ∧ t.memOk

/-! ### When an instruction issues -/

/-- No open lookahead window names a register or a predicate that the form names (02 R38). -/
def State.noHazard (s : State) (f : Form) : Prop :=
  ∀ w ∈ s.thr.wins, ∀ d ∈ w.dests, match d with
    | .reg n => n = 0 ∨ n ∉ f.namesX
    | .pred n => n = 7 ∨ n ∉ f.hd.gp.setWidth 3 :: f.namesP

/-- An instruction of a form that the slot that acts would issue reaches its guard: the mode may run it (02 R35), a prefix in
force may stand before it (02 R41), and no window and no breakpoint stops it (02 R38, 23 R440). -/
structure State.AtGuard (s : State) (f : Form) : Prop where
  mode : f.needsPriv = true → s.thr.priv = true
  ordered : s.thr.ord.isSome = true → ordable f.opc = true
  windows : s.noHazard f
  unbroken : s.breakAt f = none

/-- Nothing earlier is open for which an instruction of a form waits, PREF apart (04 R103): an acquire or an atomic before a later access (16 R338, R340), an element of a VATOM, eight entries of the log (20 R388). -/
structure State.Behind (s : State) (f : Form) : Prop where
  acquired : 0x30 ≤ f.opc → ∀ o ∈ s.thr.openOuts, acquires o.ord = false
  exchanged : 0x33 ≤ f.opc → ∀ o ∈ s.thr.openOuts, o.opc ≠ 0x31
  elements : 0x30 ≤ f.opc → s.thr.vatomOpen = false
  room : f.hd.la ≠ 0 → f.opc = 0x30 ∨ f.opc = 0x31 ∨ f.opc = 0x63 → s.thr.outs.length < 8

/-- The slot that acts issues an instruction of a form and its guard is true: the walker's table lets it run in the loop's body
(19 R372), the registers it reads and writes are not pending (02 R37), no tagged form of the thread waits for its word (17 R363), and nothing
earlier holds it up. -/
structure State.Issues (s : State) (f : Form) : Prop extends State.AtGuard s f where
  guarded : s.guard f.hd = true
  walker : s.thr.walking = true → f.owEngine = false ∧ f.owReg s.thr.ow.index = false
  queued : ∀ w ∈ s.feq, w.slot = s.cur.toNat → w.out = 0
  ready : ∀ n ∈ f.namesX ++ f.implicitX, s.thr.pendingX n = false
  behind : ¬ (f.opc = 0x30 ∧ f.fn = 8) → s.Behind f

/-- The state once the fillers between the address `a` that follows an instruction and the end of the innermost loop have been fetched,
where nothing but fillers stands there: the fetch sets A and fills the caches (04 R89, R92; 09 R221). -/
def State.fetchedOn (s : State) (a : Word) : State :=
  match s.thr.loopStack with
  | [] => s
  | l :: _ => if s.endsAt a l.stop then s.touchRange a l.stop else s

/-- An instruction of form `f`, issued in `s`, has made the effect `t` and falls through (02 R37; 09 R221). -/
def State.after (s : State) (f : Form) (t : State) : State := t.retire f true s.thr.pc .seq true

/-- The same for an instruction that transfers control to `a` (02 R37; 09 R222). -/
def State.jumped (s : State) (f : Form) (t : State) (a : Word) : State := t.retire f true s.thr.pc (.jump a) true

/-! ### Work on the plane -/

/-- Work with these footprints may begin: no earlier footprint of the thread conflicts and an entry is free (07 R181, R182), no
instruction of the cluster is held, and the charge balance reaches the cap (22 R411, R412). -/
structure State.MayBegin (s : State) (fps : List Fp) : Prop where
  apart : s.claim fps = .ok ()
  unheld : ∀ c ∈ (s.cluster s.cl).charges, c.begun = true
  charged : ((s.cluster s.cl).cap.toNat : Int) ≤ (s.cluster s.cl).balance.toInt

/-- The operand lies inside its plot and the plot on the plane, its elements are of a plain format, and its shape is one that
07 R173 lets be written: then two elements never share a bit. -/
def Place.sound (p : Place) : Prop :=
  p.plot.row + p.plot.h ≤ 256 ∧ p.plot.col + p.plot.w ≤ 256 ∧ p.plot.sbase + p.plot.d ≤ 256
  ∧ p.t.row0 + p.t.h ≤ p.plot.h ∧ p.t.col0 + p.t.w ≤ p.plot.w ∧ p.off + p.t.layer + p.t.depth ≤ p.plot.d
  ∧ p.t.fmt ≤ 17 ∧ p.t.fmt ≠ 16 ∧ p.t.lbr ≤ 5 ∧ p.t.lbc ≤ 5 ∧ p.t.depth % p.t.sr = 0

/-- The store row of a cell lies under the operand. -/
def Place.covers (p : Place) (c r : Nat) : Prop :=
  p.plot.row + p.t.row0 ≤ c / 256 ∧ c / 256 < p.plot.row + p.t.row0 + p.t.h
  ∧ p.plot.col + p.t.col0 ≤ c % 256 ∧ c % 256 < p.plot.col + p.t.col0 + p.t.w
  ∧ p.plot.sbase + p.off + p.t.layer ≤ r ∧ r < p.plot.sbase + p.off + p.t.layer + p.t.depth

/-- The thread once one more plane op is in progress: nothing else of it changes but the cost that CHGRD reads (22 R424). -/
def State.oneMoreOp (s t : State) (o : PlaneOp) : Prop :=
  t.thr = { s.thr with ops := s.thr.ops ++ [o], lastCost := t.thr.lastCost } ∧ o.no = s.opNo + 1 ∧ o.pc = s.thr.pc

/-- Every element of an operand that `on` names holds the low bits of `new`, every other one is as it was, and no store row beside
the operand has changed. -/
def State.wroteElems (s t : State) (p : Place) (on : Nat → Nat → Nat → Bool) (new : Nat → Nat → Nat → Nat) : Prop :=
  (∀ d i j, (d, i, j) ∈ p.t.grid → t.elem p 0 d i j =
    if on d i j && !s.elemVoid p d i j then new d i j % 2 ^ fmtBits p.t.fmt else s.elem p 0 d i j)
  ∧ ∀ c r, r < 256 → ¬ p.covers c r → t.row c r = s.row c r

/-- Sources of one format class and format fit a destination: each conforms to it and may be read through its window, and so does
the predicate plane, if one is named (11 R249, R252). -/
def fitsWith (cls : Nat → Bool) (fmt : Nat) (td : Ten) (srcs : List (Ten × BitVec 4)) (tc : Option Ten) : Prop :=
  (∀ x ∈ srcs, x.1.data cls = true ∧ x.1.fmt = fmt ∧ x.1.conforms td = true ∧ x.1.winOk x.2 = true)
  ∧ ∀ t, tc = some t → t.predFor td = true

/-- The vector instruction `i` (11 R250-R253): operands that do not fit trap SPACE; otherwise, where their places are found and the
op may begin, every element that is inside the bound, not void and active takes its new bits, computed from the sources as
they stood, and the op holds its footprint. `extra` are further own-plot sources. -/
def State.vectorOp (s : State) (f : FT) (opc fn : Nat) (i : Instr) (legal : Prop) (td : Ten) (srcs : List (Ten × BitVec 4))
    (tc : Option Ten) (extra : List Ten) (new : Place → List Src → Nat → Nat → Nat → Nat) : Prop :=
  s.Issues (.t opc fn f) →
  (¬ legal → exec i s = .next (s.takeTrap ⟨cSPACE, 0, 0⟩))
  ∧ ∀ dst ps, legal → s.placesOf (td :: srcs.map (·.1)) = .ok (dst :: ps) →
      s.powered (td :: srcs.map (·.1) ++ (extra ++ tc.toList)) = .ok () → dst.sound →
      s.MayBegin (td.fp true ++ srcs.flatMap (fun x => x.1.fpWin s.thr.plot x.2) ++ (extra ++ tc.toList).flatMap fun t => t.fp false) →
      ∃ t o, exec i s = .next (s.after (.t opc fn f) t) ∧ s.oneMoreOp t o ∧ o.work = .held
        ∧ o.fps = td.fp true ++ srcs.flatMap (fun x => x.1.fpWin s.thr.plot x.2) ++ (extra ++ tc.toList).flatMap (fun t => t.fp false)
        ∧ s.wroteElems t dst (fun d i j => s.written dst (tc.map fun t => ⟨t, s.thr.plot, 0⟩) (s.E f.edg) (d, i, j))
            (new dst ((ps.zip (srcs.map (·.2))).map fun x => ⟨x.1, x.2⟩))

/-! ### What an instruction leaves as it was -/

/-- Every byte at every location reads as it did, under every key. -/
def State.sameBytes (s u : State) : Prop := ∀ l key, u.get l key = s.get l key

/-- A location that some storage holds: a row of the 256 and a byte of the 32 of a cell, an engine of the 768. -/
def Loc.proper : Loc → Prop
  | .cell _ r b => r < 256 ∧ b < 32
  | .buf e _ | .eng e _ => e < 768
  | _ => True

/-- No loop of the stack in force is the walker's. -/
def State.noWalkerLoop (s : State) : Prop := ∀ l ∈ s.thr.loopStack, l.walker = false

end Sys2Proof.Machine
end

