-- ==== Sys2Proof/Certificates/Slice0/Obligations.lean ====
section
/-!
DEFINITION. The statements about the model, for the provers.
-/
open Sys2Proof Sys2Proof.Machine

/-! ### Integer arithmetic (09 R208-R210) -/

/-- R208: the two-operand members of the IALU family write the result of the width SZ, reduced modulo 2^w and sign-extended.
R208: division truncates toward zero; a zero divisor and the overflow of the most negative number by −1 have results and
neither traps.
R208, R209, R210: the members that count, reverse, extract, insert and select bits. `c` is the control value, at full 64 bits;
`l` is the length used. -/
def Obligations.IntegerResults : Prop :=
  (
    ∀ (s : State) (f : FA),
      let w := szBits f.sz
      let a : BitVec w := (s.X f.xa).setWidth w
      let b : BitVec w := (s.opB f).setWidth w
      let gives (fn : Nat) (i : Instr) (r : BitVec w) : Prop :=
        s.Issues (.a 0x10 fn f) → exec i s = .next (s.after (.a 0x10 fn f) (s.setX f.xd (r.signExtend 64)))
      gives 0 (.add f) (a + b)
      ∧ gives 1 (.sub f) (a - b)
      ∧ gives 2 (.mul f) (a * b)
      ∧ gives 3 (.mulh f) ((a.signExtend (2 * w) * b.signExtend (2 * w)).extractLsb' w w)
      ∧ gives 4 (.mulhu f) ((a.setWidth (2 * w) * b.setWidth (2 * w)).extractLsb' w w)
      ∧ gives 9 (.and f) (a &&& b)
      ∧ gives 10 (.or f) (a ||| b)
      ∧ gives 11 (.xor f) (a ^^^ b)
      ∧ gives 12 (.andn f) (a &&& ~~~b)
      ∧ gives 13 (.shl f) (a <<< (b.toNat % w))
      ∧ gives 14 (.shr f) (a >>> (b.toNat % w))
      ∧ gives 15 (.sar f) (a.sshiftRight (b.toNat % w))
      ∧ gives 16 (.min f) (if a.sle b then a else b)
      ∧ gives 17 (.minu f) (if a ≤ b then a else b)
      ∧ gives 18 (.max f) (if b.sle a then a else b)
      ∧ gives 19 (.maxu f) (if b ≤ a then a else b))
  ∧ (
    ∀ (s : State) (f : FA),
      let w := szBits f.sz
      let a : BitVec w := (s.X f.xa).setWidth w
      let b : BitVec w := (s.opB f).setWidth w
      let gives (fn : Nat) (i : Instr) (r : BitVec w) : Prop :=
        s.Issues (.a 0x10 fn f) → exec i s = .next (s.after (.a 0x10 fn f) (s.setX f.xd (r.signExtend 64)))
      let least : Prop := a = BitVec.intMin w ∧ b = BitVec.allOnes w
      gives 5 (.div f) (if b = 0 then BitVec.allOnes w else if least then a else BitVec.ofInt w (a.toInt.tdiv b.toInt))
      ∧ gives 6 (.divu f) (if b = 0 then BitVec.allOnes w else a / b)
      ∧ gives 7 (.rem f) (if b = 0 then a else if least then 0 else BitVec.ofInt w (a.toInt.tmod b.toInt))
      ∧ gives 8 (.remu f) (if b = 0 then a else a % b))
  ∧ (
    ∀ (s : State) (f : FA),
      let w := szBits f.sz
      let a : BitVec w := (s.X f.xa).setWidth w
      let c : Word := s.opB f
      let pos := c.toNat % 64
      let len := c.toNat / 64 % 128
      let l := if pos < w then min len (w - pos) else 0
      let field : BitVec l := a.extractLsb' pos l
      let old : BitVec w := (s.X f.xd).setWidth w
      let gives (fn : Nat) (i : Instr) (r : BitVec w) : Prop :=
        s.Issues (.a 0x10 fn f) → exec i s = .next (s.after (.a 0x10 fn f) (s.setX f.xd (r.signExtend 64)))
      let counts (fn : Nat) (i : Instr) (holds : Nat → Prop) : Prop :=
        s.Issues (.a 0x10 fn f) → ∃ n, holds n ∧
          exec i s = .next (s.after (.a 0x10 fn f) (s.setX f.xd ((BitVec.ofNat w n).signExtend 64)))
      counts 20 (.clz f) (fun n => n ≤ w ∧ (∀ k, w - n ≤ k → k < w → a.getLsbD k = false) ∧ (n < w → a.getLsbD (w - 1 - n) = true))
      ∧ counts 21 (.ctz f) (fun n => n ≤ w ∧ (∀ k, k < n → a.getLsbD k = false) ∧ (n < w → a.getLsbD n = true))
      ∧ counts 22 (.popc f) (fun n => n = ((List.range w).filter a.getLsbD).length)
      ∧ gives 23 (.brev f) a.reverse
      ∧ gives 24 (.exts f) (field.signExtend w)
      ∧ gives 25 (.extz f) (field.setWidth w)
      ∧ counts 26 (.ins f) (fun n => ∀ k, k < w →
          n.testBit k = if pos ≤ k ∧ k < pos + l then a.getLsbD (k - pos) else old.getLsbD k)
      ∧ gives 27 (.sel f) (if s.P (f.imm.extractLsb' 0 3) != f.imm.getLsbD 3 then a else (s.X f.xb).setWidth w))

/-! ### Registers, compares, immediates (09 R202, R203, R211, R212; 04 R105, R106) -/

/-- R202, R203: x0 reads zero and discards writes, p7 reads 1 and discards writes; x56 to x63 are one bank in user mode and
another in privileged mode, and a write in one mode leaves the other's bank as it was; any other register holds what was
written, and no write reaches another register.
R211: a compare or predicate form writes its result to p[XD[2:0]]; the compares read their operands at the width SZ, signed or
unsigned as each says, and PGET reads its operands at full width. -/
def Obligations.RegistersAndCompares : Prop :=
  (
    ∀ (s : State) (n m : BitVec 6) (v : Word) (i j : BitVec 3) (b : Bool),
      s.X 0 = 0
      ∧ (s.setX n v).X m = (if m = n ∧ n ≠ 0 then v else s.X m)
      ∧ (56 ≤ n.toNat → ∀ priv, priv ≠ s.thr.priv →
          ({ (s.setX n v).thr with priv := priv } : Thread).X m = ({ s.thr with priv := priv } : Thread).X m)
      ∧ (n.toNat < 56 → ({ (s.setX n v).thr with priv := !s.thr.priv } : Thread).X n = if n = 0 then 0 else v)
      ∧ s.P 7 = true
      ∧ (s.setP i b).P j = (if j = i ∧ i ≠ 7 then b else s.P j)
      ∧ (s.setX n v).thr.p = s.thr.p
      ∧ (∀ k, (s.setP i b).X k = s.X k))
  ∧ (
    ∀ (s : State) (f : FA),
      let w := szBits f.sz
      let a : BitVec w := (s.X f.xa).setWidth w
      let b : BitVec w := (s.opB f).setWidth w
      let p := s.P (f.xa.extractLsb' 0 3)
      let q := s.P (f.xb.extractLsb' 0 3)
      let gives (fn : Nat) (i : Instr) (r : Bool) : Prop :=
        s.Issues (.a 0x11 fn f) → exec i s = .next (s.after (.a 0x11 fn f) (s.setP (f.xd.extractLsb' 0 3) r))
      gives 0 (.ceq f) (a == b)
      ∧ gives 1 (.cne f) (a != b)
      ∧ gives 2 (.clt f) (a.slt b)
      ∧ gives 3 (.cle f) (a.sle b)
      ∧ gives 4 (.cltu f) (a.ult b)
      ∧ gives 5 (.cleu f) (a.ule b)
      ∧ gives 6 (.pand f) (p && q)
      ∧ gives 7 (.por f) (p || q)
      ∧ gives 8 (.pxor f) (p ^^ q)
      ∧ gives 9 (.pnot f) (!p)
      ∧ gives 10 (.pmov f) p
      ∧ gives 11 (.pget f) ((s.X f.xa).getLsbD ((s.opB f).toNat % 64)))

/-- R212: MOVI, MOVHI and ADDI.
R105, R106: each pointer builder writes the pointer that the manual's operation gives, and traps SPACE, RANK or PLOT_BOUND
where that operation says so; `space` and `rank` are IMM16B[3:0] and IMM16B[15:4]. -/
def Obligations.ImmediateResults : Prop :=
  (
    ∀ (s : State) (f : FB),
      let w := szBits f.sz
      let gives (fn : Nat) (i : Instr) (r : Word) : Prop :=
        s.Issues (.b 0x12 fn f) → exec i s = .next (s.after (.b 0x12 fn f) (s.setX f.xd r))
      gives 0 (.movi f) (f.imm32.signExtend 64)
      ∧ gives 1 (.movhi f) (f.imm32 ++ (s.X f.xd).extractLsb' 0 32)
      ∧ gives 2 (.addi f) (((s.X f.xa + f.imm32.signExtend 64).setWidth w).signExtend 64))
  ∧ (
    ∀ (s : State) (f : FB),
      let space := f.imm16.toNat % 16
      let rank := f.imm16.toNat / 16
      let a := s.X f.xa
      let b := s.X f.xb
      let off := f.imm32.signExtend 64
      let gives (fn : Nat) (i : Instr) (r : Nat) : Prop := exec i s = .next (s.after (.b 0x12 fn f) (s.setX f.xd (BitVec.ofNat 64 r)))
      let traps (i : Instr) (cause : BitVec 16) : Prop := exec i s = .next (s.takeTrap ⟨cause, 0, 0⟩)
      let grouped : Prop := space = 2 ∨ space = 3
      let asp := a.toNat / 2 ^ 60
      let k : Int := b.toNat + f.imm16.toInt
      (s.Issues (.b 0x12 3 f) →
        if 4 < space ∨ (rank ≠ 0 ∧ ¬ grouped) then traps (.ptrmk f) 0x0104
        else gives 3 (.ptrmk f) (space * 2 ^ 60 + rank * 2 ^ 48 + (a + off).toNat % 2 ^ 48))
      ∧ (s.Issues (.b 0x12 4 f) →
        if 4 < space then traps (.ptrsp f) 0x0104
        else gives 4 (.ptrsp f) (space * 2 ^ 60 + (if grouped then a.toNat / 2 ^ 48 % 2 ^ 12 else 0) * 2 ^ 48 + a.toNat % 2 ^ 48))
      ∧ (s.Issues (.b 0x12 5 f) →
        if asp ≠ 2 ∧ asp ≠ 3 then traps (.ptrrk f) 0x0104
        else if k < 0 ∨ 4095 < k then traps (.ptrrk f) 0x0105
        else gives 5 (.ptrrk f) (asp * 2 ^ 60 + k.toNat * 2 ^ 48 + a.toNat % 2 ^ 48))
      ∧ (s.Issues (.b 0x12 6 f) → gives 6 (.ptroff f) (a.toNat / 2 ^ 48 * 2 ^ 48 + (a + b + off).toNat % 2 ^ 48))
      ∧ (s.Issues (.b 0x12 7 f) →
        if ¬ (space = 1 ∨ grouped) ∨ (rank ≠ 0 ∧ space = 1) then traps (.pladr f) 0x0104
        else if 255 < a.toNat ∨ 255 < b.toNat ∨ f.imm32.toInt < 0 ∨ 8191 < f.imm32.toInt then traps (.pladr f) 0x0201
        else gives 7 (.pladr f) (space * 2 ^ 60 + rank * 2 ^ 48 + a.toNat * 2 ^ 21 + b.toNat * 2 ^ 13 + f.imm32.toInt.toNat)))

/-! ### Floating point (09 R213-R215; 10 R233-R240) -/

/-- R213: the rounded members of the FALU family bring the exact result into the format of SZ by one rounding to nearest even; FABS
and FNEG change the sign bit alone; the compares are false with a NaN and take −0 as +0. -/
def Obligations.FloatResults : Prop :=
  ∀ (s : State) (f : FA),
    let F := if f.sz = 0 then fp64 else fp32
    let raw (n : BitVec 6) : Nat := (s.X n).toNat % 2 ^ F.width
    let a := F.value (raw f.xa)
    let b := F.value (raw f.xb)
    let gives (fn : Nat) (i : Instr) (r : Nat) : Prop :=
      s.Issues (.a 0x20 fn f) → exec i s = .next (s.after (.a 0x20 fn f) (s.setX f.xd (BitVec.ofNat 64 r)))
    let rounds (fn : Nat) (i : Instr) (v : Val) : Prop := gives fn i (F.result .rne false v)
    let tests (fn : Nat) (i : Instr) (r : Bool) : Prop :=
      s.Issues (.a 0x20 fn f) → exec i s = .next (s.after (.a 0x20 fn f) (s.setP (f.xd.extractLsb' 0 3) r))
    rounds 0 (.fadd f) (Val.add .rne a b)
    ∧ rounds 1 (.fsub f) (Val.add .rne a b.neg)
    ∧ rounds 2 (.fmul f) (a.mul b)
    ∧ rounds 3 (.fma f) (Val.add .rne (a.mul b) (F.value (raw f.xd)))
    ∧ rounds 4 (.fdiv f) (a.div b)
    ∧ rounds 5 (.fsqrt f) a.sqrt
    ∧ rounds 6 (.frsq f) a.rsqrt
    ∧ rounds 7 (.fmin f) (Val.pick true a b)
    ∧ rounds 8 (.fmax f) (Val.pick false a b)
    ∧ gives 9 (.fabs f) (raw f.xa % 2 ^ (F.width - 1))
    ∧ gives 10 (.fneg f) ((raw f.xa + 2 ^ (F.width - 1)) % 2 ^ F.width)
    ∧ tests 11 (.fceq f) (a.cmp b = some .eq)
    ∧ tests 12 (.fclt f) (a.cmp b = some .lt)
    ∧ tests 13 (.fcle f) (a.cmp b = some .lt ∨ a.cmp b = some .eq)

/-- The rational number of a finite value ±m · 2^e. -/
def ratOf (neg : Bool) (m : Nat) (e : Int) : ℚ := (if neg then -1 else 1) * m * (2 : ℚ) ^ e

/-- R213, R237: sums, products and orders of exact values are those of the rational numbers; a quotient holds enough bits to be
rounded as the exact one; the special values follow the manual's rules.
R233, R236: rounding to nearest gives the encoding of a value that no other finite value of the format is nearer to; an
encoding's own value is rounded to that encoding. -/
def Obligations.ExactArithmetic : Prop :=
  (
    (∀ (mode : Mode) (r t : Bool) (m n : Nat) (e x : Int),
      let a := Val.fin r m e
      let b := Val.fin t n x
      let p := ratOf r m e
      let q := ratOf t n x
      (∃ u k y, Val.add mode a b = .fin u k y ∧ ratOf u k y = p + q
        ∧ (p + q = 0 → u = decide (mode = .rdn ∨ (m = 0 ∧ n = 0 ∧ r = true ∧ t = true))))
      ∧ (∃ k y, a.mul b = .fin (r != t) k y ∧ ratOf (r != t) k y = p * q)
      ∧ (a.cmp b = some .lt ↔ p < q) ∧ (a.cmp b = some .eq ↔ p = q) ∧ (a.cmp b = some .gt ↔ q < p)
      ∧ (n ≠ 0 → ∃ k y, a.div b = .fin (r != t) k y ∧
          (k % 2 = 0 → ratOf (r != t) k y * q = p)
          ∧ (k % 2 = 1 → 2 ^ 160 ≤ k ∧ ratOf false (k - 1) y < |p / q| ∧ |p / q| < ratOf false (k + 1) y))
      ∧ (n = 0 → a.div b = if m = 0 then .nan else .inf (r != t))
      ∧ (a.mul (.inf t) = if m = 0 then .nan else .inf (r != t))
      ∧ Val.add mode a (.inf t) = .inf t ∧ a.div (.inf t) = .fin (r != t) 0 0 ∧ (Val.inf t).div a = .inf (t != r)
      ∧ Val.pick true a b = (if p < q ∨ (p = q ∧ (p ≠ 0 ∨ r = true)) then a else b)
      ∧ Val.pick false a b = (if q < p ∨ (p = q ∧ (p ≠ 0 ∨ r = false)) then a else b))
    ∧ (∀ (mode : Mode) (r t : Bool), Val.add mode (.inf r) (.inf t) = (if r = t then .inf r else .nan)
        ∧ (Val.inf r).mul (.inf t) = .inf (r != t) ∧ (Val.inf r).div (.inf t) = .nan)
    ∧ (∀ (mode : Mode) (v : Val), Val.add mode .nan v = .nan ∧ Val.add mode v .nan = .nan ∧ Val.mul .nan v = .nan ∧ v.mul .nan = .nan
        ∧ Val.div .nan v = .nan ∧ v.div .nan = .nan ∧ Val.cmp .nan v = none ∧ v.cmp .nan = none
        ∧ Val.pick true .nan v = v ∧ Val.pick true v .nan = v ∧ Val.pick false .nan v = v ∧ Val.pick false v .nan = v))
  ∧ (
    ∀ (code : Nat) (F : FFmt), ffmt code = some F →
      (∀ (mode : Mode) (sat : Bool) (b : Nat), b < 2 ^ F.width → F.value b ≠ .nan → F.result mode sat (F.value b) = b)
      ∧ (∀ (neg : Bool) (m : Nat) (e : Int), m ≠ 0 → ratOf false m e ≤ ratOf false F.maxFin.1 F.maxFin.2 →
          ∃ k y, F.value (F.result .rne false (.fin neg m e)) = .fin neg k y ∧
            ∀ c t j x, F.value c = .fin t j x → |ratOf neg m e - ratOf neg k y| ≤ |ratOf neg m e - ratOf t j x|))

/-- R214: FCVT rounds the exact value of its source once; an integer destination takes the nearer limit or the indefinite value
when the rounded value is out of range, 0 or the indefinite value for a NaN; from an integer to an integer RND plays no part.
R215: FCLASS writes a mask in which one bit is set, that of the class of its operand. -/
def Obligations.FloatConversions : Prop :=
  (
    ∀ (s : State) (f : FA), s.Issues (.a 0x20 14 f) →
      let src := (f.imm.extractLsb' 0 5).toNat
      let dst := (f.imm.extractLsb' 5 5).toNat
      let mode := Mode.ofCode (f.imm.extractLsb' 10 3).toNat
      let sat := f.imm.getLsbD 13
      ∃ r : Nat,
        exec (.fcvt f) s = .next (s.after (.a 0x20 14 f)
          (s.setX f.xd (if dst = 4 then (BitVec.ofNat 32 r).signExtend 64 else BitVec.ofNat 64 r)))
        ∧ (∀ F, ffmt dst = some F → ∀ G, ffmt src = some G →
            r = F.convert mode sat (G.value ((s.X f.xa).toNat % 2 ^ G.width)))
        ∧ (∀ F, ffmt dst = some F → ∀ w g, intFmt src = some (w, g) →
            r = F.convert mode sat (valOf (intValue w g (s.X f.xa).toNat) 0 false))
        ∧ (∀ w g, intFmt dst = some (w, g) →
            let lo : Int := if g then -(2 ^ (w - 1)) else 0
            let hi : Int := if g then 2 ^ (w - 1) - 1 else 2 ^ w - 1
            let outside : Nat := if g then 2 ^ (w - 1) else 2 ^ w - 1
            let bits (v : Int) : Nat := (v % 2 ^ w).toNat
            (∀ w' g', intFmt src = some (w', g') →
              let v := intValue w' g' (s.X f.xa).toNat
              r = bits (if sat then max lo (min v hi) else v))
            ∧ (∀ G, ffmt src = some G →
              match G.value ((s.X f.xa).toNat % 2 ^ G.width) with
              | .nan => r = if sat then 0 else outside
              | .inf neg => r = if sat then bits (if neg then lo else hi) else outside
              | .fin neg m e =>
                let n := roundInt mode neg m e
                r = if lo ≤ n ∧ n ≤ hi then bits n else if sat then bits (if n < lo then lo else hi) else outside)))
  ∧ (
    ∀ (s : State) (f : FA), s.Issues (.a 0x20 15 f) →
      let F := if f.sz = 0 then fp64 else fp32
      let b := (s.X f.xa).toNat % 2 ^ F.width
      let cls : Nat := match F.value b with
        | .inf true => 0
        | .inf false => 7
        | .nan => if b.testBit (F.tbits - 1) then 9 else 8
        | .fin neg m _ =>
          if m = 0 then (if neg then 3 else 4) else if m < 2 ^ F.tbits then (if neg then 2 else 5) else (if neg then 1 else 6)
      exec (.fclass f) s = .next (s.after (.a 0x20 15 f) (s.setX f.xd (BitVec.ofNat 64 (2 ^ cls)))))

/-! ### The guard, what an instruction leaves, traps (02 R24, R35-R37; 20 R384, R391) -/

/-- R24: with a false guard an instruction has no effect and no access; LOOP, LOOPX and OWLOOP skip their body, and an ORD
imposes no order.
R35: what is checked before a guard, in its order: the mode, ORD_MISPLACED, LA_HAZARD, and then a breakpoint (R440). Each traps,
whatever the guard says, and the instruction has no effect; with a debugger attached a breakpoint stops the slot (R440). -/
def Obligations.GuardAndIssue : Prop :=
  (
    ∀ (i : Instr) (s : State), i.isThread = true → s.AtGuard i.form → s.guard i.form.hd = false →
      exec i s = .next (match i with
        | .loop f | .loopx f => s.retire i.form false s.thr.pc (.skip (s.thr.pc + f.imm32.signExtend 64 * 4)) false
        | .owloop f => s.retire i.form false s.thr.pc (.skip (s.thr.pc + f.imm32.signExtend 64 * 4)) false
        | .ord _ => (s.withThr { s.thr with ord := some ⟨0, 0, s.thr.pc⟩ }).retire i.form false s.thr.pc .seq false
        | _ => s.retire i.form false s.thr.pc .seq false))
  ∧ (
    ∀ (i : Instr) (s : State), i.isThread = true →
      let f := i.form
      let misplaced := s.thr.ord.isSome = true ∧ ordable f.opc = false
      let user := f.needsPriv = true ∧ s.thr.priv = false
      (user → exec i s = .next (s.takeTrap ⟨0x0005, 0, 0⟩))
      ∧ (¬ user → misplaced → exec i s = .next (s.takeTrap ⟨0x0007, 0, 0⟩))
      ∧ (¬ user → ¬ misplaced → ¬ s.noHazard f → exec i s = .next (s.takeTrap ⟨0x0006, 0, 0⟩))
      ∧ (¬ user → ¬ misplaced → s.noHazard f → ∀ n, s.breakAt f = some n →
          exec i s = .next (if s.curDbg.attach then s.stopHere 4 else s.takeTrap ⟨0x0801, 0, BitVec.ofNat 64 (0x100 + n)⟩)))

/-- R384, R385: what taking a trap in user mode writes and where it goes; nothing of the thread's registers or of memory changes.
R384, R391: a trap in privileged mode is a double fault, which ends the item and enters no handler; a trap waits for an
access that has neither completed nor faulted, and an LA_HAZARD for the operations whose windows are open (R38). -/
def Obligations.TrapEntry : Prop :=
  (
    ∀ (s : State) (tr : Trap), s.thr.trapWaits tr = false → s.thr.priv = false →
      let u := s.takeTrap tr
      let here := match s.thr.ord with
        | some o => o.pc
        | none => s.thr.pc
      let logged := (s.thr.outs.filter (·.logged)).length
      u.thr.epc = (if s.thr.reissuing then s.thr.epc else here.setWidth 48)
      ∧ u.thr.ecause = tr.cause ∧ u.thr.eaddr = tr.addr ∧ u.thr.einfo = tr.info
      ∧ u.thr.estat = BitVec.ofNat 16 (min 8 logged * 256 + (if s.thr.ow.act then 16 else 0))
      ∧ (s.thr.tvec ≠ 0 → u.thr.priv = true ∧ u.thr.pc = s.thr.tvec.setWidth 64 ∧ u.thr.wins = [] ∧ u.thr.handlerLoops = []
          ∧ u.thr.edgeDue = false ∧ u.thr.edgeKept = s.thr.edgeDue ∧ u.thr.term = s.thr.term)
      ∧ (s.thr.tvec = 0 → u.thr.priv = false ∧ u.thr.pc = s.thr.pc ∧ u.thr.term = (if s.thr.term.isSome then s.thr.term
          else some { cause := 0x0704, cause2 := tr.cause, pc := here, addr := tr.addr, time := s.time }))
      ∧ u.thr = { s.thr with epc := u.thr.epc, ecause := u.thr.ecause, estat := u.thr.estat, eaddr := u.thr.eaddr
                             einfo := u.thr.einfo, traps := if tr.cause = 0x0303 then s.thr.traps else s.thr.traps + 1
                             latePending := s.thr.latePending && tr.cause ≠ 0x0303
                             priv := u.thr.priv, pc := u.thr.pc, wins := u.thr.wins, handlerLoops := u.thr.handlerLoops
                             term := u.thr.term, edgeDue := u.thr.edgeDue, edgeKept := u.thr.edgeKept, ord := none
                             reissuing := false, trapDue := none, waiting := false, granted := none, growing := none }
      ∧ s.sameBytes u)
  ∧ (
    ∀ (s : State) (tr : Trap),
      let u := s.takeTrap tr
      let here := match s.thr.ord with
        | some o => o.pc
        | none => s.thr.pc
      let waits := s.thr.openOuts ≠ []
        ∨ tr.cause = 0x0006 ∧ ∃ o ∈ s.thr.ops, o.dest ≠ 0 ∧ ∃ w ∈ s.thr.wins, Dest.reg o.dest ∈ w.dests
      (¬ waits → s.thr.priv = true → s.thr.term = none →
        u.thr = { s.thr with waiting := false, granted := none, growing := none
                             term := some { cause := 0x0702, cause2 := tr.cause, pc := here, addr := tr.addr, time := s.time } }
        ∧ s.sameBytes u)
      ∧ (waits → u.thr = { s.thr with waiting := true, granted := none, growing := none, trapDue := some tr } ∧ s.sameBytes u))

/-- R37, R221: what the completion of an instruction that falls through adds to its effect, where no loop of the walker is
active: the windows, the prefix, the PC and a loop's index; nothing else of the thread, and no byte, changes. Where nothing but fillers
stands before a loop's end, their fetch sets A in the leaf of their page (R89). -/
def Obligations.CompletionFrame : Prop :=
  ∀ (s t : State) (f : Form), t.noWalkerLoop →
    let u := s.after f t
    let next := s.thr.pc + BitVec.ofNat 64 (4 * f.len)
    { u with thr := t.thr, slots := t.slots, dbg := t.dbg } = t.fetchedOn next
    ∧ u.thr = { t.thr with x := u.thr.x, xp := u.thr.xp, pc := u.thr.pc, lastPc := s.thr.pc, wins := u.thr.wins, ord := u.thr.ord
                           loops := u.thr.loops, handlerLoops := u.thr.handlerLoops, outs := u.thr.outs
                           edgeDue := u.thr.edgeDue, yieldTo := u.thr.yieldTo, waiting := false, granted := none }
    ∧ (∀ n, (∀ l ∈ t.thr.loopStack, l.indexed = true → n ≠ l.index) → u.X n = t.X n)
    ∧ (t.thr.loopStack = [] →
        u.thr.pc = next ∧ u.thr.x = t.thr.x ∧ u.thr.xp = t.thr.xp ∧ u.thr.edgeDue = t.thr.edgeDue)
    ∧ (t.fetchedOn next).sameBytes u

/-! ### Branches and loops (09 R217-R222) -/

/-- R218: BR, BRL, RET, JT and JTL go to the target that the manual gives, with the link where there is one; RET to an address
that is no multiple of 4 traps ILLEGAL_FORMAT, an index out of a table JT_RANGE, an entry that cannot be fetched FETCH_BOUND. In
a walker's body a target outside it traps OW_ENGINE (R372), before its alignment is looked at. -/
def Obligations.Branches : Prop :=
  ∀ (s : State) (f : FB),
    let pc := s.thr.pc
    let off := f.imm32.signExtend 64 * 4
    let inBody (a : Word) : Prop := s.thr.walking = true → s.leavesBody (.jump a) = false
    let traps (i : Instr) (cause : BitVec 16) (addr info : Word) : Prop := exec i s = .next (s.takeTrap ⟨cause, addr, info⟩)
    let table := pc + off
    let i := s.X f.xa
    let entry := table + i * 4
    let goes (fn : Nat) (i : Instr) (t : State) (a : Word) : Prop :=
      (inBody a → exec i s = .next (s.jumped (.b 0x01 fn f) t a)) ∧ (¬ inBody a → traps i 0x0504 0 (s.owInfo 2))
    (s.Issues (.b 0x01 0 f) → goes 0 (.br f) s (pc + off))
    ∧ (s.Issues (.b 0x01 1 f) → goes 1 (.brl f) (s.setX f.xd (pc + 12)) (pc + off))
    ∧ (s.Issues (.b 0x01 2 f) →
      (¬ inBody i ∨ i.toNat % 4 = 0 → goes 2 (.ret f) s i) ∧ (inBody i → i.toNat % 4 ≠ 0 → traps (.ret f) 0x0001 0 0))
    ∧ (s.Issues (.b 0x01 3 f) →
      if f.imm16.toNat ≤ i.toNat then traps (.jt f) 0x0401 0 i
      else match s.parcelAt entry with
        | none => traps (.jt f) 0x0004 entry 0
        | some e => ∃ t : State, t.thr = s.thr ∧ t.rows = s.rows ∧ goes 3 (.jt f) t (table + e.signExtend 64 * 4))
    ∧ (s.Issues (.b 0x01 4 f) →
      if f.imm16.toNat ≤ i.toNat then traps (.jtl f) 0x0401 0 i
      else match s.parcelAt entry with
        | none => traps (.jtl f) 0x0004 entry 0
        | some e => ∃ t : State, t.thr = s.thr ∧ t.rows = s.rows ∧ goes 4 (.jtl f) (t.setX f.xd (pc + 12)) (table + e.signExtend 64 * 4))

/-- R208-R215, R24, R37: an integer, compare, immediate or floating-point instruction that completes changes no register but its
destination and the index of an active loop, no predicate but the one that a compare writes, no other register of the thread,
and no byte but the A bit of a page whose fillers are fetched up to a loop's end (R89); or it traps.
R222: a control transfer goes to its target and closes the windows; it keeps the longest run of outer loops all of whose bodies
hold the target, and deactivates the others. It changes no register. -/
def Obligations.ScalarFrame : Prop :=
  (
    ∀ (i : Instr) (s u : State),
      i.form.opc ∈ [0x10, 0x11, 0x12, 0x20] → i.isThread = true → s.Issues i.form → s.noWalkerLoop → exec i s = .next u →
      let next := s.thr.pc + BitVec.ofNat 64 (4 * i.form.len)
      (∃ tr, u = s.takeTrap tr)
      ∨ ((s.fetchedOn next).sameBytes u
        ∧ (∀ n, n ∉ i.form.writesX → (∀ l ∈ s.thr.loopStack, l.indexed = true → n ≠ l.index) → u.X n = s.X n)
        ∧ (∀ q, q ≠ i.form.writesP → u.P q = s.P q)
        ∧ u.thr = { s.thr with x := u.thr.x, xp := u.thr.xp, p := u.thr.p, pc := u.thr.pc, lastPc := s.thr.pc, wins := u.thr.wins
                               ord := none, loops := u.thr.loops, handlerLoops := u.thr.handlerLoops, outs := u.thr.outs
                               edgeDue := u.thr.edgeDue, yieldTo := u.thr.yieldTo, waiting := false, granted := none }
        ∧ { u with thr := s.thr, slots := s.slots, dbg := s.dbg } = s.fetchedOn next))
  ∧ (
    ∀ (s t : State) (f : Form) (a : Word),
      let u := s.jumped f t a
      let holds (l : Loop) : Prop := l.start.toNat ≤ a.toNat ∧ a.toNat < l.stop.toNat
      u.thr.pc = a
      ∧ (f.hd.la = 0 → ¬ (f.opc = 0x32 ∧ f.fn = 0) → u.thr.wins = [])
      ∧ (∃ k, u.thr.loopStack = t.thr.loopStack.drop k ∧ (∀ l ∈ u.thr.loopStack, holds l)
          ∧ ∀ l, t.thr.loopStack[k - 1]? = some l → 0 < k → ¬ holds l)
      ∧ u.thr.x = t.thr.x ∧ u.thr.xp = t.thr.xp ∧ u.thr.p = t.thr.p
      ∧ t.sameBytes u)

/-- R219, R220, R222: LOOP and LOOPX push a loop whose body starts after them, or skip it for a count of 0; a fifth loop and an LBRK
without a loop trap LOOP_DEPTH; LBRK leaves the innermost loop for its end.
R221: the back-edge test at the address that follows an instruction, fillers skipped. A loop with iterations left goes back to
its start and its index rises by its step; a loop without is left, and the next loop out is tested at the same address. The test
waits while the index is pending, and (log 68) while the access that ends the body may still trap at its own instruction. -/
def Obligations.LoopsAndBackEdges : Prop :=
  (
    ∀ (s : State) (f : FB),
      let pc := s.thr.pc
      let stop := pc + f.imm32.signExtend 64 * 4
      let n := (s.X f.xa).setWidth 32
      let full := 4 ≤ s.thr.loopStack.length
      let pushes (fn : Nat) (i : Instr) (index : BitVec 6) (step : BitVec 16) (x : Bool) : Prop :=
        s.Issues (.b 0x01 fn f) →
        (n = 0 → exec i s = .next (s.retire (.b 0x01 fn f) true pc (.skip stop) true))
        ∧ (n ≠ 0 → full → exec i s = .next (s.takeTrap ⟨0x0402, 0, 0⟩))
        ∧ (n ≠ 0 → ¬ full → ∃ t, exec i s = .next (s.after (.b 0x01 fn f) t)
            ∧ t.thr.loopStack = ⟨pc + 12, stop, n, index, step, x, false⟩ :: s.thr.loopStack
            ∧ t = { s with thr := { s.thr with loops := t.thr.loops, handlerLoops := t.thr.handlerLoops } }
            ∧ (if s.thr.priv then t.thr.loops = s.thr.loops else t.thr.handlerLoops = s.thr.handlerLoops))
      pushes 5 (.loop f) 0 0 false
      ∧ pushes 6 (.loopx f) f.xd f.imm16 true
      ∧ (s.Issues (.b 0x01 7 f) →
        match s.thr.loopStack with
        | [] => exec (.lbrk f) s = .next (s.takeTrap ⟨0x0402, 0, 0⟩)
        | l :: r =>
          if s.thr.walking = true ∧ (l.walker = true ∨ s.thr.outsideBody l.stop = true) then exec (.lbrk f) s = .next (s.takeTrap ⟨0x0504, 0, s.owInfo 2⟩)
          else ∃ u, exec (.lbrk f) s = .next u ∧ u.thr.pc = l.stop ∧ u.thr.loopStack = r ∧ u.thr.x = s.thr.x ∧ u.thr.xp = s.thr.xp
            ∧ u.thr.p = s.thr.p ∧ s.sameBytes u))
  ∧ (
    ∀ (s t : State) (f : Form) (l : Loop) (r : List Loop),
      let u := s.after f t
      let next := s.thr.pc + BitVec.ofNat 64 (4 * f.len)
      let ends := t.endsAt next l.stop = true
      let open' := (t.retired f true true s.thr.pc .seq).thr.lastOpen.isSome = true
      let ready (k : Loop) : Prop := k.indexed = true → t.thr.pendingX k.index = false
      t.thr.loopStack = l :: r → l.walker = false →
      (¬ ends → u.thr.pc = next ∧ u.thr.loopStack = l :: r)
      ∧ (ends → open' ∨ 1 < l.remaining.toNat ∧ ¬ ready l → u.thr.pc = l.stop ∧ u.thr.edgeDue = true ∧ u.thr.loopStack = l :: r)
      ∧ (ends → ¬ open' →
        (1 < l.remaining.toNat → ready l →
          u.thr.pc = l.start ∧ u.thr.wins = [] ∧ u.thr.loopStack = { l with remaining := l.remaining - 1 } :: r
          ∧ u.X l.index = (if l.indexed = true ∧ l.index ≠ 0 then t.X l.index + l.step.signExtend 64 else t.X l.index))
        ∧ (l.remaining.toNat ≤ 1 → r = [] → u.thr.pc = l.stop ∧ u.thr.loopStack = [])
        ∧ (l.remaining.toNat ≤ 1 → ∀ k r', r = k :: r' → l.stop ≠ k.stop → u.thr.pc = l.stop ∧ u.thr.loopStack = r)
        ∧ (l.remaining.toNat ≤ 1 → ∀ k r', r = k :: r' → l.stop = k.stop → k.walker = false → 1 < k.remaining.toNat → ready k →
          u.thr.pc = k.start ∧ u.thr.loopStack = { k with remaining := k.remaining - 1 } :: r')))

/-! ### Scalar accesses (04 R98-R104; 16 R337; 17 R352-R362; 09 R226) -/

/-- R100: the checks of an access of `n` bytes at `ea`, in their order. Each trap names the lowest byte that fails, and is raised
only where every earlier check passes. -/
def Obligations.AccessChecks : Prop :=
  ∀ (s : State) (w : Want) (ea : Word) (n : Nat), 0 < n → w.hostOk = true →
    let at' (i : Nat) : Word := ea + BitVec.ofNat 64 i
    let first (p : Word → Prop) (a : Word) : Prop := ∃ i, i < n ∧ a = at' i ∧ p a ∧ ∀ j, j < i → ¬ p (at' j)
    let all (p : Word → Prop) : Prop := ∀ i, i < n → p (at' i)
    let grouped (a : Word) : Prop := spaceOf a = 2 ∨ spaceOf a = 3
    let plotted (a : Word) : Prop := spaceOf a = 1 ∨ grouped a
    let traps (cause : BitVec 16) (a info : Word) : Prop := s.resolve w ea n = .error (.trap ⟨cause, a, info⟩)
    let legal := all fun a => s.formOk w.kind a = true
    let noRank (g : Group) (a : Word) : Prop := grouped a ∧ (g.next ≤ rankOf a ∨ g.member (rankOf a) = none)
    let placed := all fun a => plotted a → ∃ x, s.plotByte a = .ok x
    let outside (a : Word) : Prop := plotted a ∧ ∃ x, s.plotByte a = .ok x ∧ x.inside = false
    let off (a : Word) : Prop := plotted a ∧ ∃ x, s.plotByte a = .ok x ∧ s.isOff x.cell = true
    let aligned := w.align = 0 ∨ ea.toNat % w.align = 0
    let onPlane := legal ∧ placed ∧ aligned ∧ (all fun a => ¬ outside a) ∧ (all fun a => ¬ off a)
    let global := ((bytesOf ea n).filter fun a => spaceOf a = 0).map offsetOf
    let mapped := s.leaves (some s.cl) s.thr.root s.thr.vf w.store global []
    (∀ a, first (fun a => s.formOk w.kind a = false) a → traps 0x0104 a 0)
    ∧ (legal → s.curGroup = none → ∀ a, first grouped a → traps 0x0302 a 1)
    ∧ (legal → ∀ g, s.curGroup = some g → (∀ m ∈ g.members, (s.plotOfUid m.uid).isSome = true) →
        ∀ a, first (noRank g) a → traps 0x0105 a 0)
    ∧ (legal → placed → ¬ aligned → traps 0x0103 ea 0)
    ∧ (legal → placed → aligned → ∀ a, first outside a → traps 0x0201 a 0)
    ∧ (legal → placed → aligned → (all fun a => ¬ outside a) → ∀ a, first off a → traps 0x0202 a 0)
    ∧ (onPlane → ∀ va info, mapped = .error (va, info) → traps 0x0101 (BitVec.ofNat 64 va) (BitVec.ofNat 64 info))
    ∧ (onPlane → (all fun a => spaceOf a = 0) → ∀ lv, mapped = .ok lv →
        let entry (a : Word) : Word := ((NMap.find lv (offsetOf a / 65536)).map (·.entry)).getD 0
        let denied (a : Word) : Prop := w.store = true ∧ ((entry a).getLsbD 4 = true ∨ (entry a).getLsbD 1 = false)
        (∀ a, first denied a → traps (if (entry a).getLsbD 4 then 0x0107 else 0x0102) a 0)
        ∧ ((all fun a => ¬ denied a) → w.data = true →
          let poisoned (a : Word) : Prop := ∃ x, NMap.find lv (offsetOf a / 65536) = some x
            ∧ (s.drainedFor w.before).isPoisoned (s.leafLoc x (offsetOf a)).1 = true
          ∀ a, first poisoned a → traps 0x0106 a 0))
    ∧ (onPlane → (all plotted) → w.data = true →
        let poisoned (a : Word) : Prop := ∃ x, s.plotByte a = .ok x ∧ (s.drainedFor w.before).isPoisoned (s.plotLoc x) = true
        ∀ a, first poisoned a → traps 0x0106 a 0)
    ∧ (onPlane → (all fun a => spaceOf a = 4) →
        let o := ea.toNat % 2 ^ 28
        match engRange o with
        | none => traps 0x0102 ea 0
        | some (last, writable) =>
          if w.store = true ∧ writable = false then traps 0x0102 ea 0
          else last < o + n - 1 → traps 0x0102 (ea + BitVec.ofNat 64 (last + 1 - o)) 0)

/-- R335, R82: a write event of bytes is what later reads see: each byte written reads as written, under the key slot it was written
with, and every other byte reads as before; in a sector of main memory or of a peer's that is written, under that slot (R90, R91).
A void cell takes no byte and reads as zero (R168). -/
def Obligations.ByteWrites : Prop :=
  ∀ (s : State) (bs : List SqByte), (∀ b ∈ bs, b.loc.proper) → (bs.map (·.loc)).Nodup →
    let mates (l m : Loc) : Prop := (∃ j k, l = .mem j ∧ m = .mem k ∧ j / 32 = k / 32)
      ∨ ∃ d j k, l = .ext d j ∧ m = .ext d k ∧ j / 32 = k / 32
    let off (l : Loc) : Prop := l = .void ∨ (∃ e o, l = .eng e o) ∨ ∃ c r o, l = .cell c r o ∧ s.isVoid c = true
    (∀ b ∈ bs, ∀ c ∈ bs, mates b.loc c.loc → b.key = c.key) →
    let u := s.putBytes bs
    (∀ b ∈ bs, ¬ off b.loc → u.get b.loc b.key = b.val)
    ∧ (∀ l key, l.proper → (off l ∨ ∀ b ∈ bs, b.loc ≠ l) → (∀ b ∈ bs, mates b.loc l → b.key = key) → u.get l key = s.get l key)
    ∧ (∀ c r o key, s.isVoid c = true → u.get (.cell c r o) key = 0)
    ∧ (s.memOk → u.memOk)

/-- R99, R101: LD and LDZ with LA 0 write the little-endian value, sign- or zero-extended, a pair for 16 bytes; a check that fails
traps, in a walker's body OW_READ among them (R372). PREF makes no access that a thread sees (R103).
R37, R388: an LD or an LDZ with a nonzero LA stays outstanding, and its destination is pending until the oldest
outstanding access is performed: then the register takes the value, or the entry the trap that its checks give; younger accesses that
name one of its bytes then wait (R336). -/
def Obligations.Loads : Prop :=
  (
    ∀ (s : State) (f : FM),
      let ea := s.X f.xa + (if f.xb = 0 then 0 else s.X f.xb * BitVec.ofNat 64 (2 ^ f.scl.toNat)) + f.disp.signExtend 64
      let n := 2 ^ f.size.toNat
      let want : Want := { align := if f.at' = 0 then 0 else n }
      let free := s.thr.openOuts = [] ∧ (∀ e ∈ s.thr.sq, e.sc = false) ∧ (s.isSc = true → s.thr.sq = [])
      let loads (fn : Nat) (i : Instr) (image : Nat → Word) : Prop :=
        s.Issues (.m 0x30 fn f) → f.size.toNat ≤ 4 →
        (∀ a, s.thr.walking = true → s.inWindow ea n = some a → exec i s = .next (s.takeTrap ⟨0x0501, a, s.owInfo 0⟩))
        ∧ (f.hd.la = 0 → (s.thr.walking = true → s.inWindow ea n = none) → free →
          (∀ tr, s.resolve want ea n = .error (.trap tr) → exec i s = .next (s.takeTrap tr))
          ∧ (∀ s1 nm, s.resolve want ea n = .ok (s1, nm) → s1.claim nm.fps true = .ok () →
              let v := leNat (s1.drained.getBytes nm.locs)
              exec i s = .next (s.after (.m 0x30 fn f)
                (if n = 16 then (s1.setX f.xd (BitVec.ofNat 64 v)).setX (f.xd + 1) (BitVec.ofNat 64 (v / 2 ^ 64))
                 else s1.setX f.xd (image v)))))
      loads 0 (.ld f) (fun v => (BitVec.ofNat (8 * n) v).signExtend 64)
      ∧ loads 1 (.ldz f) (fun v => (BitVec.ofNat (8 * n) v).setWidth 64)
      ∧ (s.Issues (.m 0x30 8 f) → ∃ t : State, exec (.pref f) s = .next (s.after (.m 0x30 8 f) t) ∧ t.thr = s.thr ∧ t.rows = s.rows))
  ∧ (
    (∀ (s : State) (f : FM),
      let ea := s.ea f
      let n := 2 ^ f.size.toNat
      let align := if f.at' = 0 then 0 else n
      let stays (fn : Nat) (i : Instr) : Prop :=
        s.Issues (.m 0x30 fn f) → f.hd.la ≠ 0 → (s.thr.walking = true → s.inWindow ea n = none) →
        (∀ k, s.resolve { align := align } ea n ≠ .error (.stop k)) →
        (∀ tr, s.resolve { align := align } ea n = .error (.trap tr) → tr.cause ≠ 0x0802) →
        s.claim (ptrFp ea n false) true = .ok () →
        ∃ o t, exec i s = .next (s.after (.m 0x30 fn f) t)
          ∧ t = { s with opNo := s.opNo + 1, thr := { s.thr with outs := s.thr.outs ++ [o] } }
          ∧ o.no = s.opNo + 1 ∧ o.pc = s.thr.pc ∧ o.opc = 0x30 ∧ o.fn = BitVec.ofNat 8 fn ∧ o.ea = ea ∧ o.dest = f.xd
          ∧ o.pair = decide (f.size = 4) ∧ o.opB = BitVec.ofNat 64 align ∧ o.desc = f.size.setWidth 256
          ∧ o.fps = ptrFp ea n false ∧ o.ord = s.thr.ord ∧ o.faulted = none ∧ o.priv = s.thr.priv ∧ o.walked = s.thr.walking
          ∧ (f.xd ≠ 0 → t.thr.pendingX f.xd = true)
          ∧ (f.size = 4 → f.xd + 1 ≠ 0 → t.thr.pendingX (f.xd + 1) = true)
      stays 0 (.ld f) ∧ stays 1 (.ldz f))
    ∧ (∀ (s : State) (o : Out) (r : List Out),
      let v := s.atSlot s.input.slot
      let n := if o.pair then 16 else 2 ^ (o.desc.extractLsb' 0 3).toNat
      let want : Want := { align := o.opB.toNat, watch := false, before := some o.no }
      v.thr.openOuts = o :: r → o.opc = 0x30 → o.fn.toNat < 3 → o.root = v.thr.root → v.thr.phase = .running → v.curDbg.stopped = false →
      (∀ e ∈ v.thr.sq, o.no < e.no ∨ ((o.ord.any fun x => x.order = 4) = false ∧ e.sc = false)) →
      (o.walked = true → v.thr.walking = true → v.inWindow o.ea n = none) →
      (∀ s1 nm, v.resolve want o.ea n = .ok (s1, nm) →
        let w := leNat ((s1.drainedFor (some o.no)).getBytes nm.locs)
        ∃ u, exec .loadComplete s = .next u
          ∧ u.thr.outs = v.thr.outs.filter (fun p => p.no ≠ o.no)
          ∧ (∀ m, u.X m = (if n = 16 then (s1.setX o.dest (BitVec.ofNat 64 w)).setX (o.dest + 1) (BitVec.ofNat 64 (w / 2 ^ 64))
              else s1.setX o.dest (loadImage (o.fn = 0) n w)).X m)
          ∧ s1.sameBytes u)
      ∧ (∀ tr, v.resolve want o.ea n = .error (.trap tr) →
        ∃ u, exec .loadComplete s = .next u
          ∧ u = { v with feq := v.feq.filter (fun w => w.slot ≠ v.cur.toNat || w.out ≠ o.no)
                         thr := { v.thr with outs := u.thr.outs, sq := u.thr.sq } }
          ∧ (u.thr.outs.map fun p => { p with blocked := false })
              = v.thr.outs.map (fun p => { p with blocked := false, faulted := if p.no = o.no then some tr else p.faulted })
          ∧ (u.thr.sq.map fun e => { e with stuck := false }) = v.thr.sq.map (fun e => { e with stuck := false })
          ∧ (v.thr.outs.Pairwise (fun a b => a.no < b.no) → ∀ p ∈ u.thr.outs, o.no < p.no → p.priv = o.priv → p.faulted = none →
              p.opc ≠ 0x63 → (∃ a ∈ p.bytes, a ∈ o.bytes) → p.blocked = true))))

/-- R101, R337: ST puts its bytes at the end of the thread's store queue, and changes no byte and no register; a check that fails
traps.
R337: the oldest store of a queue leaves it, after every access issued before it: its bytes are written as one event. One that a
logged access holds back until it is re-issued (R336, R338; log 67) stays, with those behind it; one of which a peer cannot be reached
ends the item. -/
def Obligations.Stores : Prop :=
  (
    ∀ (s : State) (f : FM),
      let ea := s.X f.xa + (if f.xb = 0 then 0 else s.X f.xb * BitVec.ofNat 64 (2 ^ f.scl.toNat)) + f.disp.signExtend 64
      let n := 2 ^ f.size.toNat
      let want : Want := { store := true, reads := false, data := false, align := if f.at' = 0 then 0 else n }
      let value : Nat := (s.X f.xd).toNat + (if f.size = 4 then (s.X (f.xd + 1)).toNat * 2 ^ 64 else 0)
      s.Issues (.m 0x30 2 f) → f.size.toNat ≤ 4 → s.thr.walking = false →
      (∀ tr, s.resolve want ea n = .error (.trap tr) → exec (.st f) s = .next (s.takeTrap tr))
      ∧ (∀ s1 nm, s.resolve want ea n = .ok (s1, nm) → s1.storeClaims nm 1 = .ok () → ∃ e t,
          exec (.st f) s = .next (s.after (.m 0x30 2 f) t)
          ∧ t = { s1 with opNo := s1.opNo + 1, thr := { s1.thr with sq := s1.thr.sq ++ [e] } }
          ∧ s1.thr = s.thr ∧ s1.rows = s.rows
          ∧ nm.locs.length = n ∧ e.bytes.length = n ∧ e.ea = ea ∧ e.sc = s.isSc ∧ e.peers = nm.peers
          ∧ ∀ i b, e.bytes[i]? = some b →
              nm.locs[i]? = some (b.loc, b.key) ∧ b.val = BitVec.ofNat 8 (value / 256 ^ i)))
  ∧ (
    ∀ (s : State) (e : SqEntry),
      let v := s.atSlot s.input.slot
      let left := v.withThr { v.thr with sq := v.thr.sq.filter fun u => u.no ≠ e.no }
      v.thr.sq.head? = some e →
      (v.thr.sqStuck e = true → exec .storeLeavesQueue s = .next s)
      ∧ ((∃ o ∈ v.thr.openOuts, o.no < e.no) → v.savedPast e = false → exec .storeLeavesQueue s = .next s)
      ∧ (v.thr.sqStuck e = false → (∀ o ∈ v.thr.openOuts, e.no ≤ o.no) →
        ((∀ p ∈ e.peers, v.peerUp p = true) → exec .storeLeavesQueue s = .next (left.putBytes e.bytes))
        ∧ ((∃ p ∈ e.peers, v.peerUp p = false) → v.thr.term = none →
          exec .storeLeavesQueue s = .next (left.withThr { left.thr with
            term := some { cause := 0x0101, pc := e.pc, addr := e.ea, info := 4, time := v.time } }))))

/-- R360-R362: the tagged forms on a word of a live cell that no other slot waits for: LDF waits for full, LDFE waits for full and
leaves empty, STE waits for empty and fills, STF fills, FEQ shows the word and its bit; a form that waits joins the word's queue. With
a nonzero LA a read that has not to wait stays outstanding, and does the same when it is performed (R37, R388).
R362, R363: a waiter of a word completes when the word's bit becomes what it waits for: a fill hands the word to a slot that
waits in LDFE and leaves it empty; a slot that was served completes, and one whose wait expires takes FE_TIMEOUT. A row that has been
poisoned meanwhile serves nobody. -/
def Obligations.TaggedWords : Prop :=
  (
    ∀ (s : State) (f : FM) (s1 : State) (nm : Named) (c r w : Nat),
      let ea := s.ea f
      let ready (store : Bool) : Prop :=
        s.thr.granted = none ∧ s.thr.openOuts = [] ∧ s.thr.sq = [] ∧ s.thr.released = true
        ∧ s.resolve { kind := .tagged, store := store, reads := !store, align := 4 } ea 4 = .ok (s1, nm)
        ∧ s1.claim (nm.fps.map fun x => { x with write := true }) = .ok ()
        ∧ nm.word = some (c, r, w) ∧ r < 256 ∧ w < 8 ∧ s1.isVoid c = false ∧ s1.feq = []
      let word : BitVec 32 := (s1.row c r).data.extractLsb' (32 * w) 32
      let full := (s1.row c r).full.getLsbD w
      let v : BitVec 32 := (s.X f.xd).setWidth 32
      let stays (fn : Nat) (i : Instr) : Prop := s.claim (ptrFp ea 4 true) true = .ok () →
        ∃ o t, exec i s = .next (s.after (.m 0x30 fn f) t)
          ∧ t = { s with opNo := s.opNo + 1, thr := { s.thr with outs := s.thr.outs ++ [o] } }
          ∧ o.no = s.opNo + 1 ∧ o.pc = s.thr.pc ∧ o.opc = 0x30 ∧ o.fn = BitVec.ofNat 8 fn ∧ o.ea = ea ∧ o.dest = f.xd ∧ o.faulted = none
      let reads (fn : Nat) (i : Instr) (after : Bool) : Prop := s.Issues (.m 0x30 fn f) → ready false →
        if full then
          (f.hd.la = 0 → ∃ t, exec i s = .next (s.after (.m 0x30 fn f) t)
            ∧ t.thr = s1.thr.setX f.xd (word.signExtend 64)
            ∧ (t.row c r).data = (s1.row c r).data
            ∧ ∀ k, k < 8 → (t.row c r).full.getLsbD k = if k = w then after else (s1.row c r).full.getLsbD k)
          ∧ (f.hd.la ≠ 0 → stays fn i)
        else ∃ u q, exec i s = .next u ∧ u.thr = { s1.thr with waiting := true } ∧ u.feq = [q] ∧ q.slot = s.cur.toNat
          ∧ q.cell = c ∧ q.row = r ∧ q.word = w ∧ q.full = true ∧ q.out = 0 ∧ s1.sameBytes u
      let fills (fn : Nat) (i : Instr) : Prop := ∃ t : State, exec i s = .next (s.after (.m 0x30 fn f) t) ∧ t.thr = s1.thr
        ∧ (t.row c r).data.extractLsb' (32 * w) 32 = v
        ∧ (∀ k, k < 8 → k ≠ w → (t.row c r).data.extractLsb' (32 * k) 32 = (s1.row c r).data.extractLsb' (32 * k) 32)
        ∧ ∀ k, k < 8 → (t.row c r).full.getLsbD k = if k = w then true else (s1.row c r).full.getLsbD k
      reads 3 (.ldf f) true
      ∧ reads 4 (.ldfe f) false
      ∧ (s.Issues (.m 0x30 5 f) → ready true →
        if full then ∃ u q, exec (.ste f) s = .next u ∧ u.thr = { s1.thr with waiting := true } ∧ u.feq = [q] ∧ q.slot = s.cur.toNat
          ∧ q.cell = c ∧ q.row = r ∧ q.word = w ∧ q.full = false ∧ q.val = v ∧ s1.sameBytes u
        else fills 5 (.ste f))
      ∧ (s.Issues (.m 0x30 6 f) → ready true → fills 6 (.stf f))
      ∧ (s.Issues (.m 0x30 7 f) → ready false →
        (f.hd.la = 0 → exec (.feq f) s = .next (s.after (.m 0x30 7 f)
          (s1.setX f.xd (BitVec.ofNat 64 ((if full then 2 ^ 32 else 0) + word.toNat)))))
        ∧ (f.hd.la ≠ 0 → stays 7 (.feq f))))
  ∧ (
    (∀ (s : State) (f : FM) (nm : Named) (c r w : Nat) (x : FeWait),
      let k : SlotNo := BitVec.ofNat 11 x.slot
      let v : BitVec 32 := (s.X f.xd).setWidth 32
      s.Issues (.m 0x30 6 f) → s.thr.openOuts = [] → s.thr.sq = [] → s.thr.released = true →
      s.resolve { kind := .tagged, store := true, reads := false, align := 4 } (s.ea f) 4 = .ok (s, nm) →
      s.claim (nm.fps.map fun x => { x with write := true }) = .ok () → nm.word = some (c, r, w) → r < 256 → w < 8 → s.isVoid c = false →
      s.feq = [x] → x.cell = c → x.row = r → x.word = w → x.full = true → x.empties = true → x.slot < 2048 → x.slot ≠ s.cur.toNat →
      (x.out = 0 ∨ ∃ o ∈ (s.thread k).outs, o.no = x.out) →
      ∃ t : State, exec (.stf f) s = .next (s.after (.m 0x30 6 f) t) ∧ t.feq = [] ∧ (t.thread k).waiting = false
        ∧ ((s.row c r).poison = true → (t.thread k).granted = (s.thread k).granted ∧ (t.row c r).full.getLsbD w = true)
        ∧ ((s.row c r).poison = false → (t.row c r).full.getLsbD w = false
          ∧ ((∀ o ∈ (s.thread k).outs, o.no ≠ x.out) → (t.thread k).granted = some v)
          ∧ ∀ o, (s.thread k).outs.find? (fun o => o.no = x.out) = some o →
              (t.thread k).outs = (s.thread k).outs.filter (fun u => u.no ≠ o.no)
              ∧ ∀ m, (t.thread k).X m = ((s.thread k).setXAs o.priv o.dest (v.signExtend 64)).X m))
    ∧ (∀ (s : State) (f : FM) (v : BitVec 32), s.thr.granted = some v →
      (s.Issues (.m 0x30 3 f) → exec (.ldf f) s = .next (s.after (.m 0x30 3 f) (s.setX f.xd (v.signExtend 64))))
      ∧ (s.Issues (.m 0x30 4 f) → exec (.ldfe f) s = .next (s.after (.m 0x30 4 f) (s.setX f.xd (v.signExtend 64))))
      ∧ (s.Issues (.m 0x30 5 f) → exec (.ste f) s = .next (s.after (.m 0x30 5 f) s)))
    ∧ (∀ (s : State) (o : Out) (rest : List Out) (s1 : State) (nm : Named) (c r w : Nat),
      let v := s.atSlot s.input.slot
      let word : BitVec 32 := (s1.row c r).data.extractLsb' (32 * w) 32
      let full := (s1.row c r).full.getLsbD w
      v.thr.openOuts = o :: rest → o.opc = 0x30 → o.fn ∈ [3#8, 4#8, 7#8] → (∀ e ∈ v.thr.sq, o.no < e.no) →
      o.root = v.thr.root → v.thr.phase = .running → v.curDbg.stopped = false →
      v.resolve { kind := .tagged, align := 4, watch := false, before := some o.no } o.ea 4 = .ok (s1, nm) →
      nm.word = some (c, r, w) → s1.isVoid c = false → s1.feq = [] →
      (full = true ∨ o.fn = 7 → ∃ u, exec .loadComplete s = .next u ∧ u.thr.outs = v.thr.outs.filter (fun p => p.no ≠ o.no)
        ∧ (∀ m, u.X m = (s1.setX o.dest (if o.fn = 7 then BitVec.ofNat 64 ((if full then 2 ^ 32 else 0) + word.toNat)
            else word.signExtend 64)).X m)
        ∧ (r < 256 → w < 8 → (u.row c r).full.getLsbD w = (full && o.fn != 4)))
      ∧ (full = false → o.fn ≠ 7 → ∃ u q, exec .loadComplete s = .next u ∧ u.thr.outs = v.thr.outs ∧ u.feq = [q]
        ∧ q.slot = v.cur.toNat ∧ q.out = o.no ∧ q.cell = c ∧ q.row = r ∧ q.word = w ∧ q.full = true))
    ∧ (∀ (s : State),
      let v := s.atSlot s.input.slot
      v.thr.fewait ≠ 0 → v.thr.granted = none → v.thr.phase = .running → v.thr.trapDue = none → v.waitingOut = none →
      ∀ a, v.awaited = some a → exec .feTimeout s = .next (v.takeTrap ⟨0x0301, a, 0⟩)))

/-- R352-R354: an atomic with LA 0 is one event: the old bytes are returned, extended as the manual says, and the new ones written, by
ACAS only where the old value equals X[XD]; a check that fails traps. With a nonzero LA it stays outstanding with its operands as they
stood, and is the same event when it is performed (R37, R388). -/
def Obligations.Atomics : Prop :=
  (
    ∀ (s : State) (f : FM),
      let ea := s.X f.xa + f.disp.signExtend 64
      let n := 2 ^ f.size.toNat
      let w := 8 * n
      let b : BitVec w := (s.X f.xb).setWidth w
      let free := s.thr.released = true ∧ s.thr.sq = [] ∧ s.thr.openOuts = []
      let rmw (fn : Nat) (i : Instr) (signed host : Bool) (writes : BitVec w → Bool) (new : BitVec w → BitVec w) : Prop :=
        let want : Want := { kind := .atomic, store := true, align := n, hostOk := host }
        s.Issues (.m 0x31 fn f) →
        (f.hd.la = 0 → free →
          (∀ tr, s.resolve want ea n = .error (.trap tr) → exec i s = .next (s.takeTrap tr))
          ∧ (∀ s1 nm, s.resolve want ea n = .ok (s1, nm) → s.claim (ptrFp ea n true) true = .ok () →
              let old : BitVec w := BitVec.ofNat w (leNat (s1.getBytes nm.locs))
              ∃ t : State, exec i s = .next (s.after (.m 0x31 fn f)
                  (t.setX f.xd (if signed then old.signExtend 64 else old.setWidth 64)))
                ∧ (writes old = false → t = s1)
                ∧ (writes old = true → ∃ bs, t = s1.putBytes bs ∧ bs.map (fun x => (x.loc, x.key)) = nm.locs
                    ∧ leNat (bs.map (·.val)) = (new old).toNat)))
        ∧ (f.hd.la ≠ 0 → s.thr.released = true → (∀ k, s.resolve want ea n ≠ .error (.stop k)) →
            (∀ tr, s.resolve want ea n = .error (.trap tr) → tr.cause ≠ 0x0802) → s.claim (ptrFp ea n true) true = .ok () →
            ∃ o t, exec i s = .next (s.after (.m 0x31 fn f) t)
              ∧ t = { s with opNo := s.opNo + 1, thr := { s.thr with outs := s.thr.outs ++ [o] } }
              ∧ o.no = s.opNo + 1 ∧ o.pc = s.thr.pc ∧ o.opc = 0x31 ∧ o.fn = BitVec.ofNat 8 fn ∧ o.ea = ea ∧ o.opB = s.X f.xb
              ∧ o.opE = s.X f.xd ∧ o.dest = f.xd ∧ o.desc = f.size.setWidth 256 ∧ o.ord = s.thr.ord ∧ o.faulted = none)
      rmw 0 (.aadd f) true true (fun _ => true) (fun a => a + b)
      ∧ rmw 1 (.amin f) true false (fun _ => true) (fun a => if a.sle b then a else b)
      ∧ rmw 2 (.amax f) true false (fun _ => true) (fun a => if b.sle a then a else b)
      ∧ rmw 3 (.aminu f) false false (fun _ => true) (fun a => if a ≤ b then a else b)
      ∧ rmw 4 (.amaxu f) false false (fun _ => true) (fun a => if b ≤ a then a else b)
      ∧ rmw 5 (.aand f) true false (fun _ => true) (fun a => a &&& b)
      ∧ rmw 6 (.aor f) true false (fun _ => true) (fun a => a ||| b)
      ∧ rmw 7 (.axor f) true false (fun _ => true) (fun a => a ^^^ b)
      ∧ rmw 8 (.axchg f) true true (fun _ => true) (fun _ => b)
      ∧ rmw 9 (.acas f) true true (fun a => a == (s.X f.xd).setWidth w) (fun _ => b)
      ∧ rmw 10 (.afadd f) false false (fun _ => true)
          (fun a => BitVec.ofNat w (fp32.result .rne false (Val.add .rne (fp32.value a.toNat) (fp32.value b.toNat)))))
  ∧ (
    ∀ (s : State) (o : Out) (rest : List Out) (s1 : State) (nm : Named),
      let v := s.atSlot s.input.slot
      let n := 2 ^ (o.desc.extractLsb' 0 3).toNat
      let fn := o.fn.toNat
      v.thr.openOuts = o :: rest → o.opc = 0x31 → (∀ e ∈ v.thr.sq, o.no < e.no) →
      o.root = v.thr.root → v.thr.phase = .running → v.curDbg.stopped = false →
      v.resolve { atomWant fn n false with before := some o.no } o.ea n = .ok (s1, nm) →
      let x := s1.rmw fn n nm (o.opB.toNat % 2 ^ (8 * n)) (o.opE.toNat % 2 ^ (8 * n))
      ∃ u, exec .loadComplete s = .next u ∧ u.thr.outs = v.thr.outs.filter (fun p => p.no ≠ o.no)
        ∧ (∀ m, u.X m = (x.1.setX o.dest (loadImage (atomSigned fn) n x.2)).X m) ∧ x.1.sameBytes u)

/-- R41, R340, R351: ORD stands as a prefix for the next instruction; a FENCE completes once what its order acquires or releases is
performed, but for the stores in the queue, which later ones stand behind (R337) and only an SC fence waits for (R338); a QFENCE once
the item has no bank command left; each waits until then. An access that has faulted into the log is waited for by none (log 67).
R226: ENTER stores lr and fp below sp and sets fp and sp; LEAVEF loads them back; SPILL stores the registers its mask names at
rising addresses. A register that is not aligned traps MISALIGN, and an ENTER below STKLIM traps STACK_LIMIT. -/
def Obligations.OrderAndStack : Prop :=
  (
    ∀ (s : State) (f : FE),
      let order := f.sysn.extractLsb' 0 3
      let scope := f.sysn.extractLsb' 3 3
      let pending := (order = 1 ∨ order = 3 ∨ order = 4) ∧ s.thr.openOuts ≠ []
        ∨ (order = 2 ∨ order = 3 ∨ order = 4) ∧ ¬ (s.thr.openOuts = [] ∧ ∀ o ∈ s.thr.ops, o.untilLoopEnds = true)
        ∨ order = 4 ∧ s.thr.sq ≠ []
      let bank := (∃ q ∈ s.cmdq, ∃ c ∈ q.2, c.uid = s.thr.src.uid) ∨ ∃ c ∈ s.calls, c.uid = s.thr.src.uid ∧ c.gone = false
      (s.Issues (.e 0x32 0 f) → exec (.ord f) s = .next (s.after (.e 0x32 0 f)
        (s.withThr { s.thr with ord := some ⟨order, scope, s.thr.pc⟩ })))
      ∧ (s.Issues (.e 0x32 1 f) → (¬ pending → exec (.fence f) s = .next (s.after (.e 0x32 1 f) s))
        ∧ (pending → exec (.fence f) s = .next (s.withThr { s.thr with waiting := true })))
      ∧ (s.Issues (.e 0x32 2 f) → (¬ bank → exec (.qfence f) s = .next (s.after (.e 0x32 2 f) s))
        ∧ (bank → exec (.qfence f) s = .next (s.withThr { s.thr with waiting := true }))))
  ∧ (
    ∀ (s : State) (f : FA),
      let sp := s.X 63
      let fp := s.X 61
      let store : Want := { store := true, reads := false, data := false, align := 8 }
      let doubles (e : SqEntry) (locs : List (Loc × Nat)) (v : Word) : Prop :=
        e.bytes.map (fun b => (b.loc, b.key)) = locs ∧ leNat (e.bytes.map (·.val)) = v.toNat
      (s.Issues (.a 0x33 0 f) →
        if sp.toNat % 16 ≠ 0 then exec (.enter f) s = .next (s.takeTrap ⟨0x0103, sp, 0⟩)
        else if (sp.toNat : Int) - f.imm.toNat < s.thr.stklim.toNat then exec (.enter f) s = .next (s.takeTrap ⟨0x0403, 0, 0⟩)
        else (∀ tr, s.resolve store (sp - 16) 16 = .error (.trap tr) → exec (.enter f) s = .next (s.takeTrap tr))
          ∧ ∀ s1 nm, s.resolve store (sp - 16) 16 = .ok (s1, nm) → s1.storeClaims nm 2 = .ok () →
          ∃ e g t, exec (.enter f) s = .next (s.after (.a 0x33 0 f) ((t.setX 61 sp).setX 63 (sp - f.imm.setWidth 64)))
            ∧ t = { s1 with opNo := s1.opNo + 2, thr := { s1.thr with sq := s1.thr.sq ++ [e, g] } }
            ∧ doubles e ((nm.locs.drop 8).take 8) (s.X 62) ∧ doubles g (nm.locs.take 8) fp)
      ∧ (s.Issues (.a 0x33 1 f) →
        if fp.toNat % 16 ≠ 0 then exec (.leavef f) s = .next (s.takeTrap ⟨0x0103, fp, 0⟩)
        else s.thr.openOuts = [] → (∀ e ∈ s.thr.sq, e.sc = false) →
          (∀ tr, s.resolve { align := 8 } (fp - 16) 16 = .error (.trap tr) → exec (.leavef f) s = .next (s.takeTrap tr))
          ∧ ∀ s1 nm, s.resolve { align := 8 } (fp - 16) 16 = .ok (s1, nm) → s1.claim nm.fps true = .ok () →
          let v := leNat (s1.drained.getBytes nm.locs)
          exec (.leavef f) s = .next (s.after (.a 0x33 1 f)
            (((s1.setX 63 fp).setX 62 (BitVec.ofNat 64 (v / 2 ^ 64))).setX 61 (BitVec.ofNat 64 v))))
      ∧ (s.Issues (.a 0x33 2 f) →
        let a := s.X f.xa
        let ks := (List.range 16).filter fun k => f.imm.getLsbD k
        if a.toNat % 8 ≠ 0 then exec (.spill f) s = .next (s.takeTrap ⟨0x0103, a, 0⟩)
        else (∀ tr, s.resolveDoubles store a ks.length = .error (.trap tr) → exec (.spill f) s = .next (s.takeTrap tr))
          ∧ ∀ s1 nms, s.resolveDoubles store a ks.length = .ok (s1, nms) →
          s1.storeClaims ⟨[], nms.flatMap (·.fps), [], []⟩ ks.length = .ok () →
          nms.length = ks.length ∧ ∃ es t, exec (.spill f) s = .next (s.after (.a 0x33 2 f) t)
            ∧ t = { s1 with opNo := s1.opNo + ks.length, thr := { s1.thr with sq := s1.thr.sq ++ es } }
            ∧ es.length = ks.length
            ∧ ∀ (j : Nat) (e : SqEntry) (k : Nat) (nm : Named), es[j]? = some e → ks[j]? = some k → nms[j]? = some nm →
                doubles e nm.locs (s.X (f.xd + BitVec.ofNat 6 k))))

/-! ### Thread control (09 R205-R207, R227, R228; 20 R385-R391) -/

/-- R228, R391: NOP, EXIT, YIELD, TRAP, ERET and BRK. EXIT ends the thread, and in a handler fails the item with the cause of the
trap being handled; TRAP and BRK retire and then trap, so that EPC names the next instruction, past the fillers that stand before it
(R18, R19; log 50); ERET goes back to EPC with its low two bits cleared (log 38).
R228, R436: TSTAMP reads the die's copy of device time; EVT emits the event of a traced item whose function takes the kind. -/
def Obligations.ThreadControl : Prop :=
  (
    ∀ (s : State) (f : FE),
      let code := f.sysn.extractLsb' 0 8
      let regs (u : State) : Prop := u.thr.x = s.thr.x ∧ u.thr.xp = s.thr.xp ∧ u.thr.p = s.thr.p ∧ u.thr.e = s.thr.e ∧ u.thr.t = s.thr.t
      let same (u : State) : Prop := regs u ∧ s.sameBytes u
      let next := s.skipFiller allParcels (s.thr.pc + 8)
      let falls (u : State) : Prop := u.thr.pc = next ∧ u.thr.ord = none ∧ u.thr.priv = s.thr.priv
        ∧ u.thr.tvec = s.thr.tvec ∧ regs u ∧ (s.touchRange (s.thr.pc + 8) next).sameBytes u
      (s.Issues (.e 0x00 0 f) → exec (.nop f) s = .next (s.after (.e 0x00 0 f) s))
      ∧ (s.Issues (.e 0x00 1 f) → ∃ u, exec (.exitThread f) s = .next u ∧ same u
          ∧ (s.thr.priv = false → u.thr.phase = .ended .exit ∧ u.thr.term = s.thr.term)
          ∧ (s.thr.priv = true → s.thr.term = none →
              u.thr.term = some { cause := 0x0704, cause2 := s.thr.ecause, pc := s.thr.pc, time := s.time } ∧ u.thr.phase = s.thr.phase))
      ∧ (s.Issues (.e 0x00 2 f) → s.thr.loopStack = [] → f.hd.la = 0 →
          ∃ u, exec (.yieldSlot f) s = .next u ∧ u.thr.pc = s.thr.pc + 8 ∧ u.thr.wins = [] ∧ same u
          ∧ ∀ k : SlotNo, k.toNat ∈ u.thr.yieldTo ↔
              k ≠ s.cur ∧ k.toNat / 8 = s.cur.toNat / 8 ∧ (s.thread k).phase = .running ∧ (s.thread k).waiting = false
              ∧ (s.thread k).term = none ∧ (NMap.get {} s.dbg k.toNat).stopped = false)
      ∧ (s.Issues (.e 0x00 3 f) → s.thr.loopStack = [] → s.thr.edgeDue = false → f.hd.la = 0 →
          ∃ u : State, exec (.trap f) s = .next (u.takeTrap ⟨0x0900 + code.setWidth 16, 0, 0⟩) ∧ falls u ∧ u.thr.wins = [])
      ∧ (s.Issues (.e 0x00 8 f) → s.thr.loopStack = [] → s.thr.edgeDue = false → f.hd.la = 0 →
          ∃ u : State, falls u ∧
            (s.curDbg.attach = false → exec (.brk f) s = .next (u.takeTrap ⟨0x0801, 0, code.setWidth 64⟩))
            ∧ (s.curDbg.attach = true → (∀ o ∈ s.thr.ops, o.whole = false) → exec (.brk f) s = .next (u.debugStop 3))
            ∧ (s.curDbg.attach = true → (∃ o ∈ s.thr.ops, o.whole = true) →
                ∃ t, exec (.brk f) s = .next t ∧ t.thr = u.thr ∧ t.curDbg = { u.curDbg with due := some 3 }))
      ∧ (s.Issues (.e 0x00 4 f) →
          (s.thr.openOuts ≠ [] → exec (.eret f) s = .next (s.withThr { s.thr with waiting := true }))
          ∧ (s.thr.openOuts = [] → ∃ u, exec (.eret f) s = .next u ∧ u.thr.priv = false
              ∧ u.thr.pc = s.thr.epc.setWidth 64 &&& 0xFFFFFFFFFFFFFFFC
              ∧ u.thr.handlerLoops = [] ∧ u.thr.loops = s.thr.loops ∧ (f.hd.la = 0 → u.thr.wins = [])
              ∧ u.thr.reissuing = s.thr.outs.any (fun o => !o.priv) ∧ u.thr.edgeDue = s.thr.edgeKept ∧ same u)))
  ∧ (
    ∀ (s : State) (f : FE),
      let now : Word := s.dieTime.toArray.getD (dieOf s.cl) 0
      let kind := f.sysn.extractLsb' 0 8
      let event : Ev := ⟨now, kind, s.cur.setWidth 12, s.thr.vf.setWidth 12, (s.X f.xa).setWidth 32, none, false⟩
      (s.Issues (.e 0x00 9 f) → ∃ t : State, exec (.tstamp f) s = .next (s.after (.e 0x00 9 f) (t.setX f.xd now))
        ∧ { t with events := s.events } = s)
      ∧ (s.Issues (.e 0x00 10 f) → exec (.evt f) s = .next (s.after (.e 0x00 10 f)
          (if s.thr.src.pf.getLsbD 9 = true ∧ s.traced s.thr.vf.toNat kind.toNat = true then { s with events := s.events ++ [event] }
           else s))))

/-- R205, R206, R385, R389, R386, R207 and the registers of the other units: SYSR reads the system register that SYSN names, and
changes nothing but its destination and the trace (log 37: LOGN as ESTAT counted it at the entry).
R205: SYSW writes the writable fields of the register that SYSN names, and nothing else; SYSX does the same and returns the old
value. An instruction with a number that no map assigns, or of an access that the map does not give, is ILLEGAL_FIELD at decode; in a
mode that may not reach the register it traps PRIV (log 32: which access each map gives where two places of the manual differ). -/
def Obligations.SystemRegisters : Prop :=
  (
    ∀ (s : State) (f : FE), s.Issues (.e 0x00 5 f) → s.curDbg.stopped = false →
      let th := s.thr
      let log := th.outs.filter (·.logged)
      let reads (n : Nat) (v : Word) : Prop := f.sysn.toNat = n →
        ∃ t : State, exec (.sysr f) s = .next (s.after (.e 0x00 5 f) (t.setX f.xd v)) ∧ { t with events := s.events } = s
      reads 0x000 (th.item.setWidth 64)
      ∧ reads 0x001 (th.nitems.setWidth 64)
      ∧ reads 0x002 ((0#24 ++ th.ring) ++ th.seq)
      ∧ reads 0x003 (s.cur.setWidth 64)
      ∧ reads 0x004 (BitVec.ofNat 64 (s.cur.toNat / 8 % 16 / 8 * 256 + s.cur.toNat / 8))
      ∧ reads 0x005 (BitVec.ofNat 64 (th.sbase.toNat * 2 ^ 16 + th.col.toNat * 2 ^ 8 + th.row.toNat))
      ∧ reads 0x006 (BitVec.ofNat 64 (th.plotD * 2 ^ 18 + th.plotW * 2 ^ 9 + th.plotH))
      ∧ reads 0x007 (match th.groups with
          | [] => 0
          | m :: r => BitVec.ofNat 64 ((r.length + 1) % 16 * 2 ^ 28 + m.rank.toNat * 2 ^ 16 + m.gid % 65536))
      ∧ reads 0x100 (th.stkbase.setWidth 64) ∧ reads 0x101 (th.stklim.setWidth 64)
      ∧ reads 0x102 (th.fewait.setWidth 64) ∧ reads 0x103 (th.deadline.setWidth 64)
      ∧ reads 0x200 (th.tvec.setWidth 64) ∧ reads 0x201 (th.epc.setWidth 64) ∧ reads 0x202 (th.ecause.setWidth 64)
      ∧ reads 0x203 (th.estat.setWidth 64) ∧ reads 0x204 th.eaddr ∧ reads 0x205 th.einfo
      ∧ (∀ n, n < 8 →
          (∀ o, log[n]? = some o →
            let cause : BitVec 16 := match o.faulted with
              | some tr => tr.cause
              | none => 0
            reads (0x210 + n) o.ea
            ∧ reads (0x218 + n) (1#1 ++ (if o.faulted.isSome then 1#1 else 0#1) ++ 0#14 ++ o.pc.extractLsb' 0 48)
            ∧ reads (0x220 + n) (0#26 ++ o.dest ++ o.opc ++ o.fn ++ cause))
          ∧ (log[n]? = none → reads (0x210 + n) 0 ∧ reads (0x218 + n) 0 ∧ reads (0x220 + n) 0))
      ∧ reads 0x229 (th.drainbud.setWidth 64)
      ∧ (∀ n, n < 8 → reads (0x230 + n) (th.x.toArray.getD (56 + n) 0))
      ∧ reads 0x240 ((0#8 ++ th.root) ++ (th.vf ++ 0#6))
      ∧ reads 0x300 th.cyc
      ∧ reads 0x301 (s.dieTime.toArray.getD (s.cur.toNat / 8 % 16 / 8) 0)
      ∧ reads 0x302 ((s.cluster (s.cur.toNat / 8)).balance.signExtend 64)
      ∧ reads 0x303 (BitVec.ofNat 64 (th.energy / unitsPerNJ))
      ∧ reads 0x304 ((if th.ltrap then 1#1 else 0#1) ++ 0#15 ++ th.maxlate ++ th.latecnt)
      ∧ reads 0x305 (s.cluster (s.cur.toNat / 8)).sample
      ∧ reads 0x400 (BitVec.ofNat 64 ((if th.ow.act then 2 ^ 63 else 0) + th.ow.pending.length % 128 * 2 ^ 56
          + th.ow.decls.length % 8 * 2 ^ 53 + th.ow.wmask.toNat * 2 ^ 32 + th.ow.iter.toNat))
      ∧ reads 0x401 (th.ow.supp ++ th.ow.skip)
      ∧ reads 0x402 (th.ow.perf.setWidth 64)
      ∧ (∀ n : Fin 8, reads (0x408 + n) (th.ow.wins[n].base.setWidth 64))
      ∧ (∀ n : Fin 8, reads (0x410 + n) (th.ow.wins[n].bitoff ++ (th.ow.wins[n].gran ++ (0#4 ++ th.ow.wins[n].len))))
      ∧ (∀ n : Fin 4, reads (0x510 + n) th.watchA[n] ∧ reads (0x518 + n) (if 12 < (th.watchC[n].extractLsb' 0 4).toNat then th.watchC[n].extractLsb' 4 60 ++ 12#4 else th.watchC[n])
          ∧ reads (0x520 + n) (th.bp[n].setWidth 64))
      ∧ (∀ k, k = s.cluster (s.cur.toNat / 8) → reads 0x600
          (k.cap ++ (k.refill ++ (0#16 ++ (k.point ++ (0#2 ++ (k.rail ++ (if k.on then 1#1 else 0#1)))))))))
  ∧ (
    ∀ (s : State) (f : FE),
      let th := s.thr
      let v := s.X f.xa
      let writes (n : Nat) (t : Thread) : Prop := f.sysn.toNat = n →
        (s.Issues (.e 0x00 6 f) → exec (.sysw f) s = .next (s.after (.e 0x00 6 f) (s.withThr t)))
        ∧ (s.Issues (.e 0x00 7 f) → ∃ u : State, exec (.sysx f) s = .next (s.after (.e 0x00 7 f) (u.setX f.xd (s.sysRead n)))
            ∧ { u with events := s.events } = s.withThr t)
      writes 0x100 { th with stkbase := v.extractLsb' 0 48 }
      ∧ writes 0x101 { th with stklim := v.extractLsb' 0 48 }
      ∧ writes 0x102 { th with fewait := v.extractLsb' 0 32 }
      ∧ writes 0x103 { th with deadline := v.extractLsb' 0 16 }
      ∧ writes 0x200 { th with tvec := v.extractLsb' 2 46 ++ 0#2 }
      ∧ writes 0x201 { th with epc := v.extractLsb' 0 48 }
      ∧ writes 0x229 { th with drainbud := v.extractLsb' 0 32 }
      ∧ (∀ n : Fin 8, writes (0x230 + n) { th with x := th.x.set (56 + n.val) v })
      ∧ writes 0x240 { th with root := v.extractLsb' 12 44 }
      ∧ writes 0x304 { th with ltrap := v.getLsbD 63, maxlate := 0, latecnt := 0 }
      ∧ (∀ n : Fin 4, writes (0x510 + n) { th with watchA := th.watchA.set n v })
      ∧ (∀ n : Fin 4, writes (0x518 + n) { th with watchC := th.watchC.set n (v.extractLsb' 61 3 ++ 0#57 ++ v.extractLsb' 0 4) })
      ∧ (∀ n : Fin 4, writes (0x520 + n) { th with bp := th.bp.set n (v.extractLsb' 2 46 ++ 0#1 ++ v.extractLsb' 0 1) })
      ∧ (f.sysn.toNat = 0x228 → s.Issues (.e 0x00 6 f) → ∃ outs,
          exec (.sysw f) s = .next (s.after (.e 0x00 6 f) (s.withThr { th with outs := outs }))
          ∧ ((th.outs.map (·.no)).Nodup → ∀ o, o ∈ outs ↔ o ∈ th.outs ∧
              ∀ n, n < 8 → v.getLsbD n = true → (th.outs.filter (·.logged))[n]? ≠ some o)))
  ∧ (
    -- the map: the first number of a row and the last, whether it is read and written, and whether in user mode too
    let map : List (Nat × Nat × Bool × Bool × Bool × Bool) :=
      [(0x000, 0x007, true, false, true, false), (0x100, 0x101, true, true, true, false), (0x102, 0x103, true, true, true, true),
       (0x200, 0x201, true, true, false, false), (0x202, 0x205, true, false, false, false), (0x210, 0x227, true, false, false, false),
       (0x228, 0x228, false, true, false, false), (0x229, 0x229, true, true, true, false), (0x230, 0x237, true, true, false, false),
       (0x240, 0x240, true, true, false, false), (0x241, 0x241, false, true, false, false), (0x300, 0x303, true, false, true, false),
       (0x304, 0x304, true, true, true, true), (0x305, 0x305, true, false, true, false), (0x400, 0x402, true, false, true, false),
       (0x408, 0x417, true, false, true, false), (0x510, 0x513, true, true, false, false), (0x518, 0x51B, true, true, false, false),
       (0x520, 0x523, true, true, false, false), (0x600, 0x600, true, false, false, false)]
    ∀ (s : State) (f : FE),
      let may (p : Bool × Bool × Bool × Bool → Bool) : Prop := ∃ r ∈ map, r.1 ≤ f.sysn.toNat ∧ f.sysn.toNat ≤ r.2.1 ∧ p r.2.2 = true
      let traps (i : Instr) : Prop := exec i s = .next (s.takeTrap ⟨0x0005, 0, 0⟩)
      (¬ may (fun r => r.1) → decode (encode (.sysr f)) = .error .illegalField)
      ∧ (¬ may (fun r => r.2.1) → decode (encode (.sysw f)) = .error .illegalField)
      ∧ (¬ may (fun r => r.1 && r.2.1) → decode (encode (.sysx f)) = .error .illegalField)
      ∧ (s.thr.priv = false →
        (may (fun r => r.1 && !r.2.2.1) → traps (.sysr f)) ∧ (may (fun r => r.2.1 && !r.2.2.2) → traps (.sysw f))
        ∧ (may (fun r => r.1 && r.2.1 && !(r.2.2.1 && r.2.2.2)) → traps (.sysx f))))

/-! ### Plane atomics (17 R356-R359) -/

/-- R356, R357, R359: a VATOM whose operands fit takes every active element's operand and pointer as they stand at its issue, and
makes no access yet; the cell of TD's element says whether it is void (R250). Operands that do not fit trap SPACE.
R358: the aggregator merges the requests that name one location into one RMW, whose result is that of performing them in
prefix order, and the old value of each goes to its element of TD; the first element in that order that faults stops the op and ends
the item, its report counting those performed. -/
def Obligations.PlaneAtomics : Prop :=
  (
    ∀ (s : State) (f : FT),
      let ta := Ten.of (s.T f.ta)
      let tb := Ten.of (s.T f.tb)
      let td : List Ten := if f.td = 0 then [] else [Ten.of (s.T f.td)]
      let tc : Option Ten := if f.tc = 0 then none else some (Ten.of (s.T f.tc))
      let a : Place := ⟨ta, s.thr.plot, 0⟩
      let b : Place := ⟨tb, s.thr.plot, 0⟩
      let active (ps : List Place) (x : Nat × Nat × Nat) : Bool :=
        s.written (ps.headD a) (tc.map fun t => ⟨t, s.thr.plot, 0⟩) (s.E f.edg) x
      let own (write : Bool) (t : Ten) : List Fp := t.fp write
      let fits (fmts : List Nat) : Prop := ta.kind = 1 ∧ ta.fmt ∈ fmts ∧ tb.kind = 1 ∧ tb.fmt = 6 ∧ tb.conforms ta = true
        ∧ (∀ t ∈ td, (t.kind = 1 ∨ t.member = true) ∧ t.fmt = ta.fmt ∧ t.conforms ta = true) ∧ (∀ t, tc = some t → t.predFor ta = true)
      let issues (fn : Nat) (i : Instr) (fmts : List Nat) (as' : Nat → Nat) : Prop :=
        s.Issues (.t 0x34 fn f) →
        (¬ fits fmts → exec i s = .next (s.takeTrap ⟨0x0104, 0, 0⟩))
        ∧ (fits fmts → ∀ ps, s.placesOf td = .ok ps → s.powered (ta :: tb :: td ++ tc.toList) = .ok () →
            s.thr.released = true → s.thr.sq = [] → s.thr.openOuts = [] →
            let elems := (ta.grid.zip (List.range ta.grid.length)).filter fun x => active ps x.1
            let ptrs := elems.map fun x => BitVec.ofNat 64 (s.elem b 0 x.1.1 x.1.2.1 x.1.2.2)
            let fps := td.flatMap (own true) ++ own false ta ++ own false tb ++ tc.toList.flatMap (own false)
              ++ targetFp (fmtBits ta.fmt / 8) ptrs
            s.MayBegin fps →
            ∃ t o left, exec i s = .next (s.after (.t 0x34 fn f) t) ∧ s.oneMoreOp t o ∧ o.fps = fps ∧ s.sameBytes t
              ∧ o.work = (if left = [] then .held else .vatom (as' ta.fmt) (fmtBits ta.fmt / 8) (s.T f.td) s.curGid left 0)
              ∧ left.map (·.ptr) = ptrs ∧ left.map (·.idx) = elems.map (·.2)
              ∧ left.map (·.b) = elems.map fun x => BitVec.ofNat 64 (s.elem a 0 x.1.1 x.1.2.1 x.1.2.2))
      issues 0 (.vaadd f) [4, 5, 6] (fun _ => 0)
      ∧ issues 1 (.vamin f) [4, 5, 6] (fun fmt => if fmt = 5 then 3 else 1)
      ∧ issues 2 (.vamax f) [4, 5, 6] (fun fmt => if fmt = 5 then 4 else 2)
      ∧ issues 3 (.vaxchg f) [4, 5, 6, 8] (fun _ => 8)
      ∧ issues 4 (.vafadd f) [8] (fun _ => 10))
  ∧ (
    ∀ (s : State) (o : PlaneOp) (fn n : Nat) (gid : Option Nat) (left : List VElem) (performed : Nat) (v : VElem),
      let x := s.atSlot s.input.slot
      let want := atomWant fn n false
      x.opNamed s.input.unit = some o → o.root = x.thr.root → v ∈ left → v.idx = s.input.aux → (left.map (·.idx)).Nodup →
      (∀ td s1 nm p, td ≠ 0 → o.work = .vatom fn n td gid left performed → x.resolve want v.ptr n = .ok (s1, nm) →
        (∀ u ∈ left, ∃ r, x.resolve want u.ptr n = .ok r) → x.placeAs gid (Ten.of td) = .ok p → p.sound →
        let t := Ten.of td
        (∀ u ∈ left, u.idx < t.slices * (t.rows * t.cols)) → (∀ d i j, x.elemVoid p d i j = false) →
        ∃ (mine rest : List VElem) (w : State), exec .aggregatorRmw s = .next
            (w.setOp { o with work := if rest = [] then .held else .vatom fn n td gid rest (performed + mine.length) })
          ∧ v ∈ mine ∧ mine.Sublist left ∧ rest.Sublist left ∧ mine.length + rest.length = left.length
          ∧ let after (k : Nat) : State := (mine.take k).foldl (fun st (u : VElem) => (st.rmw fn n nm (u.b.toNat % 2 ^ (8 * n)) 0).1) s1
            (∀ (k : Nat) (u : VElem), mine[k]? = some u →
              let e := coverElem t u.idx
              w.elem p 0 e.1 e.2.1 e.2.2 = ((after k).rmw fn n nm (u.b.toNat % 2 ^ (8 * n)) 0).2 % 2 ^ fmtBits t.fmt)
            ∧ (∀ d i j, (d, i, j) ∈ t.grid → (∀ u ∈ mine, coverElem t u.idx ≠ (d, i, j)) → w.elem p 0 d i j = (after mine.length).elem p 0 d i j)
            ∧ w.mem = (after mine.length).mem)
      ∧ (o.work = .vatom fn n 0 gid left performed →
        (∀ s1 nm, x.resolve want v.ptr n = .ok (s1, nm) → (∀ u ∈ left, ∃ r, x.resolve want u.ptr n = .ok r) →
        ∃ mine rest : List VElem, exec .aggregatorRmw s = .next
            ((mine.foldl (fun st (u : VElem) => (st.rmw fn n nm (u.b.toNat % 2 ^ (8 * n)) 0).1) s1).setOp
              { o with work := if rest = [] then .held else .vatom fn n 0 gid rest (performed + mine.length) })
          ∧ v ∈ mine ∧ mine.Sublist left ∧ rest.Sublist left ∧ mine.length + rest.length = left.length
          ∧ (∀ u ∈ mine, u ≠ v → ∃ s2 m, s1.resolve want u.ptr n = .ok (s2, m) ∧ m.locs = nm.locs)
          ∧ ∀ u ∈ rest, u ∉ mine ∧ ∀ s2 m, s1.resolve want u.ptr n = .ok (s2, m) → m.locs ≠ nm.locs)
      ∧ (∀ tr, left.head? = some v → x.resolve want v.ptr n = .error (.trap tr) → x.thr.term = none →
        let rec' : FaultRec :=
          { cause := tr.cause, pc := o.pc, addr := tr.addr, count := BitVec.ofNat 64 performed, ordinal := BitVec.ofNat 32 v.idx
            time := s.time, info := tr.info }
        exec .aggregatorRmw s = .next ((x.withThr { x.thr with term := some rec' }).setOp { o with work := .held }))))

/-! ### Scheduling (15 R309, R316, R317, R328-R330) -/

/-- R329, R330: SPAWN puts the item of its continuation record at the tail of a queue, its 32 bytes in the queue's backing area
(R311; log 45), and raises its join counter; CONT does the same and ends the item; an operand outside space 0 and a queue that is
not the partition's trap SPACE, a record out of its limits traps ILLEGAL_FIELD, and a full queue holds the instruction, once its join
counter is checked and before it is raised (log 55). -/
def Obligations.SpawnAndCont : Prop :=
  ∀ (s : State) (f : FB),
    let a := s.X f.xa
    let q := f.imm16.toNat
    let want : Want := { align := 32 }
    let spawns (fn : Nat) (i : Instr) (done : State → Prop) : Prop := s.Issues (.b 0x40 fn f) →
      (spaceOf a ≠ 0 → exec i s = .next (s.takeTrap ⟨0x0104, a, 0⟩))
      ∧ (spaceOf a = 0 → ∀ tr, s.resolve want a 32 = .error (.trap tr) → exec i s = .next (s.takeTrap tr))
      ∧ (spaceOf a = 0 → ∀ s1 nm, s.resolve want a 32 = .ok (s1, nm) →
          let v := leNat (s1.drained.getBytes nm.locs)
          let qu := NMap.get {} s1.queues q
          let raises (s2 : State) : Prop :=
            if v / 2 ^ 128 % 2 ^ 64 = 0 then s2 = s1 else s1.joinAdd (BitVec.ofNat 64 (v / 2 ^ 128)) 1 true = .ok s2
          let fits := v % 4 = 0 ∧ 1 ≤ v / 2 ^ 192 % 2 ^ 8 ∧ v / 2 ^ 192 % 2 ^ 8 ≤ 64 ∧ 1 ≤ v / 2 ^ 200 % 2 ^ 8 ∧ v / 2 ^ 200 % 2 ^ 8 ≤ 64
            ∧ 1 ≤ v / 2 ^ 208 % 2 ^ 16 ∧ v / 2 ^ 208 % 2 ^ 16 ≤ 256 ∧ v / 2 ^ 227 % 2 ^ 5 = 0 ∧ v / 2 ^ 235 % 2 ^ 5 = 0
          (¬ fits → exec i s = .next (s.takeTrap ⟨0x0003, 0, 0⟩))
          ∧ (fits → s1.queueFor q s1.thr.part = false → exec i s = .next (s.takeTrap ⟨0x0104, 0, 0⟩))
          ∧ (fits → s1.queueFor q s1.thr.part = true → v / 2 ^ 128 % 2 ^ 64 ≠ 0 → ∀ tr,
              s1.joinAdd (BitVec.ofNat 64 (v / 2 ^ 128)) 1 true = .error (.trap tr) → exec i s = .next (s.takeTrap tr))
          ∧ (fits → s1.queueFor q s1.thr.part = true → ∀ s2, raises s2 → s1.queueRoomFor q = true → s1.thr.released = true →
              ∃ r : ItemRec, r.code = BitVec.ofNat 64 v ∧ r.frame = BitVec.ofNat 64 (v / 2 ^ 64) ∧ r.join = BitVec.ofNat 64 (v / 2 ^ 128)
                ∧ r.rodsH = v / 2 ^ 192 % 2 ^ 8 ∧ r.rodsW = v / 2 ^ 200 % 2 ^ 8 ∧ r.depth = v / 2 ^ 208 % 2 ^ 16
                ∧ r.pf = BitVec.ofNat 16 (v / 2 ^ 224) ∧ r.dl = BitVec.ofNat 16 (v / 2 ^ 240) ∧ r.queue = BitVec.ofNat 6 q
                ∧ r.launch = s.thr.src.launch ∧ r.seq = s.thr.seq ∧ r.ring = s.thr.ring ∧ r.part = s.thr.part ∧ r.vf = s.thr.vf
                ∧ r.root = s.thr.root ∧ r.place = some qu.nextPlace ∧ qu.nextPlace = qu.area + 32 * (qu.entered % qu.capacity)
                ∧ ∃ t : State, t = { s2.putBytes (((placeLocs qu.nextPlace).zip (leBytes 32 v)).map fun x => ⟨x.1.1, x.2, x.1.2⟩) with
                                     queues := t.queues, launches := t.launches }
                  ∧ NMap.get {} t.queues q = { qu with entries := qu.entries ++ [.item r], entered := qu.entered + 1 }
                  ∧ (∀ k, k ≠ q → NMap.get {} t.queues k = NMap.get {} s2.queues k)
                  ∧ t.launches = s2.launches.map (fun l => if l.id = r.launch then { l with expected := l.expected + 1 } else l)
                  ∧ done t)
          ∧ (fits → s1.queueFor q s1.thr.part = true → (∃ s2, raises s2) → s1.queueRoomFor q = false →
              exec i s = .next (s1.withThr { s1.thr with waiting := true })))
    spawns 0 (.spawn f) (fun t => exec (.spawn f) s = .next (s.after (.b 0x40 0 f) t))
    ∧ spawns 1 (.cont f) (fun t => ∃ u : State, exec (.cont f) s = .next u ∧ u.thr.phase = .ended .cont ∧ u.queues = t.queues
        ∧ u.launches = t.launches ∧ t.sameBytes u)

/-- R317, R330: PARK waits until the item's work is done and then gives up the slot: the item keeps its registers and its plot, and
is parked with its wait pointer, its new frame and its resume address.
R308, R309, R330: LAUNCH validates the packet that its operand names; an accepted one takes the next SEQ, which is returned, and
enters its queue as one launch entry. The ring, whose function and space it is read in, is the model's choice (log 46), and the value returned for a packet that is
not accepted is free (log 26). -/
def Obligations.ItemsIssued : Prop :=
  (
    ∀ (s : State) (f : FB), s.Issues (.b 0x40 2 f) → s.thr.tracedItem = false →
      let wait := s.X f.xb
      (wait.toNat % 8 ≠ 0 → exec (.park f) s = .next (s.takeTrap ⟨0x0103, wait, 0⟩))
      ∧ (wait.toNat % 8 = 0 → spaceOf wait ≠ 0 → exec (.park f) s = .next (s.takeTrap ⟨0x0104, wait, 0⟩))
      ∧ (wait.toNat % 8 = 0 → wait ≠ 0 → spaceOf wait = 0 → ∀ tr, s.resolve { align := 8 } wait 8 = .error (.trap tr) →
          exec (.park f) s = .next (s.takeTrap tr))
      ∧ (wait.toNat % 8 = 0 → wait ≠ 0 → spaceOf wait = 0 → ∀ s1 nm, s.resolve { align := 8 } wait 8 = .ok (s1, nm) →
          (s1.workDone = false → exec (.park f) s = .next (s1.withThr { s1.thr with waiting := true }))
          ∧ (s1.workDone = true → ∃ (u : State) (p : Parked), exec (.park f) s = .next u ∧ u.parked = s.parked ++ [p]
              ∧ p.thr = { s.thr with lastPc := s.thr.pc } ∧ p.wait = wait ∧ p.frame = s.X f.xa ∧ p.resume = s.thr.pc + f.imm32.signExtend 64 * 4
              ∧ p.eligible = false ∧ p.slot = s.cur ∧ u.thr.phase = .idle ∧ s1.sameBytes u))
      ∧ (wait = 0 → s.workDone = true → ∃ (u : State) (p : Parked), exec (.park f) s = .next u ∧ p ∈ u.parked ∧ p.thr = { s.thr with lastPc := s.thr.pc }
          ∧ p.frame = s.X f.xa ∧ p.resume = s.thr.pc + f.imm32.signExtend 64 * 4 ∧ p.eligible = true ∧ u.thr.phase = .idle
          ∧ (NMap.get {} u.queues s.thr.src.queue.toNat).entries
              = (NMap.get {} s.queues s.thr.src.queue.toNat).entries ++ [.parked s.thr.src.uid]))
  ∧ (
    ∀ (s : State) (f : FB), s.Issues (.b 0x40 9 f) →
      let a := s.X f.xa
      (spaceOf a ≠ 0 → exec (.launch f) s = .next (s.takeTrap ⟨0x0104, a, 0⟩))
      ∧ (spaceOf a = 0 → ∀ tr, s.resolve { align := 64 } a 64 = .error (.trap tr) → exec (.launch f) s = .next (s.takeTrap tr))
      ∧ (spaceOf a = 0 → ∀ s1 nm, s.resolve { align := 64 } a 64 = .ok (s1, nm) → s1.thr.released = true →
          let v := leNat (s1.getBytes nm.locs)
          let ring : BitVec 8 := (s1.launchRing.map fun c => c.ring.setWidth 8).getD 0
          let vf := (s1.launchRing.map (·.vf)).getD s1.thr.vf
          let root := (s1.launchRing.map (·.root)).getD s1.thr.root
          let l := packetOf (s1.launchId + 1) (s1.seq + 1) ring s1.thr.part vf root s1.deviceId (s1.getBytes nm.locs)
          let valid := s1.doneOk l = true ∧ s1.packetOk l (v / 2 ^ 224 % 2 ^ 32) = true ∧ s1.genOk l = true
          (valid → ∃ (t : State) (m : Launch), exec (.launch f) s = .next (s.after (.b 0x40 9 f) (t.setX f.xd ((s1.seq + 1).setWidth 64)))
            ∧ t.seq = s1.seq + 1 ∧ t.launches = s1.launches ++ [m] ∧ m.id = s1.launchId + 1 ∧ m.seq = s1.seq + 1
            ∧ m.code = BitVec.ofNat 64 v ∧ m.arg = BitVec.ofNat 64 (v / 2 ^ 64) ∧ m.items = BitVec.ofNat 32 (v / 2 ^ 128)
            ∧ m.rodsH = v / 2 ^ 160 % 2 ^ 8 ∧ m.rodsW = v / 2 ^ 168 % 2 ^ 8 ∧ m.depth = v / 2 ^ 176 % 2 ^ 16
            ∧ (NMap.get {} t.queues m.queue.toNat).entries = (NMap.get {} s1.queues m.queue.toNat).entries ++ [.launch m.id]
            ∧ t.thr = s1.thr ∧ s1.sameBytes t)
          ∧ (¬ valid → ∃ t : State, exec (.launch f) s = .next (s.after (.b 0x40 9 f)
                (t.setX f.xd ((Config.noSeq t.stepNo).setWidth 64)))
            ∧ t.seq = s1.seq ∧ t.queues = s1.queues ∧ t.thr = s1.thr)))

/-! ### Groups and plots (15 R318-R322, R331-R333) -/

/-- R318, R319, R331: GNEW makes a group whose rank 0 the thread is; JOIN makes it the next rank, or makes a group it is in the current
one; both return what the manual says and trap GROUP where a member may not join.
R320, R321, R331: a member arrives at the barrier of its current group once, and goes on when the phase has risen, with the first
row of the bank it may then read; the last one to arrive raises the phase. LEAVE takes the thread out of the group, GRANK and
GSIZE return its rank and size; without a current group each traps GROUP. -/
def Obligations.Groups : Prop :=
  (
    ∀ (s : State) (f : FB) (s1 : State) (nm : Named),
      let a := s.X f.xa
      spaceOf a = 0 → s.resolve { store := true, reads := false, data := false, align := 64 } a 64 = .ok (s1, nm) →
      s1.thr.released = true → s.thr.tracedItem = false →
      (s.Issues (.b 0x40 3 f) →
        let xbase := f.imm32.toNat % 256
        let xrows := f.imm32.toNat / 256 % 256
        let taken := leNat ((s1.getBytes nm.locs).take 2) ≠ 0 ∨ (s1.groupAt nm.locs).isSome = true
        (taken → exec (.gnew f) s = .next (s.takeTrap ⟨0x0302, 0, 2⟩))
        ∧ (¬ taken → s1.thr.plotD < xbase + 2 * xrows → exec (.gnew f) s = .next (s.takeTrap ⟨0x0201, 0, 0⟩))
        ∧ (¬ taken → xbase + 2 * xrows ≤ s1.thr.plotD → 15 ≤ s1.thr.groups.length → exec (.gnew f) s = .next (s.takeTrap ⟨0x0302, 0, 5⟩))
        ∧ (¬ taken → xbase + 2 * xrows ≤ s1.thr.plotD → s1.thr.groups.length < 15 → s1.groups.length < 4096 →
            ∃ (g : Group) (t : State), exec (.gnew f) s = .next (s.after (.b 0x40 3 f) (t.setX f.xd (BitVec.ofNat 64 g.gid)))
              ∧ g.gid ≠ 0 ∧ (∀ h ∈ s1.groups, h.gid ≠ g.gid) ∧ t.groups = s1.groups ++ [g]
              ∧ g.record = a ∧ g.cap = f.imm16.toNat ∧ g.next = 1 ∧ g.live = 1 ∧ g.phase = 0 ∧ g.arrived = 0 ∧ g.broken = false
              ∧ g.xbase = xbase ∧ g.xrows = xrows ∧ g.members = [⟨0, s.thr.src.uid, false⟩]
              ∧ t.thr = { s1.thr with groups := ⟨g.gid, 0⟩ :: s1.thr.groups }))
      ∧ (s.Issues (.b 0x40 4 f) →
        (s1.groupAt nm.locs = none → exec (.joinGroup f) s = .next (s1.withThr { s1.thr with waiting := true }))
        ∧ ∀ g, s1.groupAt nm.locs = some g →
          (∀ m, s1.thr.groups.find? (fun x => x.gid == g.gid) = some m → ∃ t : State,
            exec (.joinGroup f) s = .next (s.after (.b 0x40 4 f) (t.setX f.xd (m.rank.setWidth 64)))
            ∧ t = s1.withThr { s1.thr with groups := s1.thr.groups.filter (fun x => x.gid = g.gid)
                                                    ++ s1.thr.groups.filter fun x => x.gid ≠ g.gid })
          ∧ ((∀ x ∈ s1.thr.groups, x.gid ≠ g.gid) →
            let trap (info : Word) : Prop := exec (.joinGroup f) s = .next (s.takeTrap ⟨0x0302, 0, info⟩)
            (g.broken = true → trap 4)
            ∧ (g.broken = false → g.next = g.cap → trap 3)
            ∧ (g.broken = false → g.next ≠ g.cap → s1.thr.plotD < g.xbase + 2 * g.xrows →
                exec (.joinGroup f) s = .next (s.takeTrap ⟨0x0201, 0, 0⟩))
            ∧ (g.broken = false → g.next ≠ g.cap → g.xbase + 2 * g.xrows ≤ s1.thr.plotD → 15 ≤ s1.thr.groups.length → trap 5)
            ∧ (g.broken = false → g.next ≠ g.cap → g.xbase + 2 * g.xrows ≤ s1.thr.plotD → s1.thr.groups.length < 15 →
                ∃ (t : State) (h : Group), exec (.joinGroup f) s = .next (s.after (.b 0x40 4 f) (t.setX f.xd (BitVec.ofNat 64 g.next)))
                  ∧ h = { g with next := g.next + 1, live := g.live + 1
                                 members := g.members ++ [⟨BitVec.ofNat 12 g.next, s.thr.src.uid, false⟩] }
                  ∧ t.groups = s1.groups.map (fun x => if x.gid = g.gid then h else x)
                  ∧ t.thr = { s1.thr with groups := ⟨g.gid, BitVec.ofNat 12 g.next⟩ :: s1.thr.groups })))
      ∧ (s.Issues (.b 0x40 5 f) → f.xa ≠ 0 →
        let trap (info : Word) : Prop := exec (.leaveGroup f) s = .next (s.takeTrap ⟨0x0302, 0, info⟩)
        (s1.groupAt nm.locs = none → trap 2)
        ∧ ∀ g, s1.groupAt nm.locs = some g →
          ((∀ x ∈ s1.thr.groups, x.gid ≠ g.gid) → trap 6)
          ∧ ((∃ x ∈ s1.thr.groups, x.gid = g.gid) → ∃ t : State, exec (.leaveGroup f) s = .next (s.after (.b 0x40 5 f) t)
              ∧ t.thr = { s1.thr with groups := s1.thr.groups.filter (fun x => x.gid ≠ g.gid)
                                      arrived := s1.thr.arrived.filter fun x => x.1 ≠ g.gid }
              ∧ (g.live ≠ 1 → ∃ h ∈ t.groups, h.gid = g.gid)
              ∧ ∀ h ∈ t.groups, h.gid = g.gid → ∀ y ∈ h.members, y.uid ≠ s.thr.src.uid)))
  ∧ (
    ∀ (s : State) (f : FB), s.thr.tracedItem = false →
      (s.thr.groups = [] →
        let trap (i : Instr) : Prop := exec i s = .next (s.takeTrap ⟨0x0302, 0, 1⟩)
        (s.Issues (.b 0x40 6 f) → trap (.gbar f)) ∧ (s.Issues (.b 0x40 7 f) → trap (.grank f)) ∧ (s.Issues (.b 0x40 8 f) → trap (.gsize f))
        ∧ (s.Issues (.b 0x40 5 f) → f.xa = 0 → trap (.leaveGroup f)))
      ∧ ∀ m r g, s.thr.groups = m :: r → s.groups.find? (fun x => x.gid == m.gid) = some g →
        (s.Issues (.b 0x40 7 f) → exec (.grank f) s = .next (s.after (.b 0x40 7 f) (s.setX f.xd (m.rank.setWidth 64))))
        ∧ (s.Issues (.b 0x40 8 f) → exec (.gsize f) s = .next (s.after (.b 0x40 8 f) (s.setX f.xd (BitVec.ofNat 64 g.next))))
        ∧ (s.Issues (.b 0x40 5 f) → f.xa = 0 → s.thr.released = true → ∃ t : State, exec (.leaveGroup f) s = .next (s.after (.b 0x40 5 f) t)
            ∧ t.thr = { s.thr with groups := s.thr.groups.filter (fun x => x.gid ≠ m.gid)
                                   arrived := s.thr.arrived.filter fun x => x.1 ≠ m.gid }
            ∧ (g.live = 1 → ∀ h ∈ t.groups, h.gid ≠ m.gid)
            ∧ (g.live ≠ 1 → (∃ h ∈ t.groups, h.gid = m.gid) ∧ ∀ h ∈ t.groups, h.gid = m.gid →
                h.live = g.live - 1 ∧ h.next = g.next ∧ h.broken = g.broken ∧ ∀ y ∈ h.members, y.uid ≠ s.thr.src.uid))
        ∧ (s.Issues (.b 0x40 6 f) → s.thr.arrived = none → g.broken = true → exec (.gbar f) s = .next (s.takeTrap ⟨0x0302, 0, 4⟩))
        ∧ (s.Issues (.b 0x40 6 f) → s.thr.arrived = none → g.broken = false → s.thr.released = true →
            (g.arrived + 1 = g.live → ∃ t : State, exec (.gbar f) s = .next (s.after (.b 0x40 6 f)
                (t.setX f.xd (BitVec.ofNat 64 (g.xbase + (g.phase + 1).toNat % 2 * g.xrows))))
              ∧ t.thr = s.thr ∧ (∃ h ∈ t.groups, h.gid = g.gid)
              ∧ ∀ h ∈ t.groups, h.gid = g.gid → h.phase = g.phase + 1 ∧ h.arrived = 0)
            ∧ (g.arrived + 1 < g.live → ∃ u : State, exec (.gbar f) s = .next u
                ∧ u.thr = { s.thr with arrived := some (g.gid, g.phase), waiting := true }
                ∧ (∃ h ∈ u.groups, h.gid = g.gid)
                ∧ ∀ h ∈ u.groups, h.gid = g.gid → h.phase = g.phase ∧ h.arrived = g.arrived + 1))
        ∧ (s.Issues (.b 0x40 6 f) → ∀ ph, s.thr.arrived = some (g.gid, ph) → g.phase ≠ ph →
            exec (.gbar f) s = .next (s.after (.b 0x40 6 f) ((s.withThr { s.thr with arrived := none }).setX f.xd
              (BitVec.ofNat 64 (g.xbase + g.phase.toNat % 2 * g.xrows)))))
        ∧ (s.Issues (.b 0x40 6 f) → s.thr.arrived = some (g.gid, g.phase) → exec (.gbar f) s = .next
            (if g.broken then s.takeTrap ⟨0x0302, 0, 4⟩ else s.withThr { s.thr with waiting := true })))

/-! ### Descriptors (07 R173-R176, R184-R186) -/

/-- R173, R185: TDSET, TDLD, TDMOVE and TDSUB write a descriptor that they have validated, and trap ILLEGAL_FIELD or PLOT_BOUND
otherwise; TDGET and TDST show one; EDSET and EDGET write and read an edge register. t0 and e0 do not change.
R332, R333: PLOTGROW extends the plot in place where the extension lies in the partition and is free, and returns PLOTEXT; it
waits otherwise; a request with bits 63-32 that are not 0 traps ILLEGAL_FIELD (log 56). PLOTINFO counts the void cells of the plot or
names one. -/
def Obligations.DescriptorsAndPlots : Prop :=
  (
    ∀ (s : State) (f : FT),
      let put (u : State) (d : BitVec 256) : State :=
        if f.td = 0 then u else u.withThr { u.thr with t := u.thr.t.setIfInBounds f.td.toNat d }
      let writesOn (u : State) (fn : Nat) (i : Instr) (d : BitVec 256) : Prop :=
        let t := Ten.of d
        let inPlot := t.kind ∈ [1, 2, 3] → t.row0 + t.h ≤ s.thr.plotH ∧ t.col0 + t.w ≤ s.thr.plotW ∧ t.layer + t.depth ≤ s.thr.plotD
        (descOk d = false → exec i s = .next (s.takeTrap ⟨0x0003, 0, 0⟩))
        ∧ (descOk d = true → ¬ inPlot → exec i s = .next (s.takeTrap ⟨0x0201, 0, 0⟩))
        ∧ (descOk d = true → inPlot → exec i s = .next (s.after (.t 0x50 fn f) (put u d)))
      let writes := writesOn s
      let src := s.T f.ta
      let word (k : Nat) : Word := src.extractLsb' (64 * k) 64
      let a := s.X f.xs + f.imm18.signExtend 64
      let row0 := (src.extractLsb' 9 8).toNat
      let col0 := (src.extractLsb' 17 8).toNat
      let layer := (src.extractLsb' 43 8).toNat
      let x := s.X f.xs
      (s.Issues (.t 0x50 0 f) → writes 0 (.tdset f) (s.X (f.xs + 3) ++ s.X (f.xs + 2) ++ s.X (f.xs + 1) ++ s.X f.xs))
      ∧ (s.Issues (.t 0x50 1 f) → exec (.tdget f) s = .next (s.after (.t 0x50 1 f)
          ((((s.setX f.xs (word 0)).setX (f.xs + 1) (word 1)).setX (f.xs + 2) (word 2)).setX (f.xs + 3) (word 3))))
      ∧ (s.Issues (.t 0x50 2 f) → s.thr.openOuts = [] → (∀ e ∈ s.thr.sq, e.sc = false) → s.isSc = false →
          (∀ tr, s.resolve { watch := false } a 32 = .error (.trap tr) → exec (.tdld f) s = .next (s.takeTrap tr))
          ∧ ((∃ r, s.resolve { watch := false } a 32 = .ok r) →
            if ¬ (spaceOf a = 0 ∨ spaceOf a = 1) then exec (.tdld f) s = .next (s.takeTrap ⟨0x0104, a, 0⟩)
            else if a.toNat % 32 ≠ 0 then exec (.tdld f) s = .next (s.takeTrap ⟨0x0103, a, 0⟩)
            else ∀ s1 nm, s.resolve {} a 32 = .ok (s1, nm) → s1.claim nm.fps true = .ok () →
              writesOn s1 2 (.tdld f) (BitVec.ofNat 256 (leNat (s1.drained.getBytes nm.locs)))))
      ∧ (s.Issues (.t 0x50 3 f) →
          let want : Want := { store := true, reads := false, data := false }
          (∀ tr, s.resolve { want with watch := false } a 32 = .error (.trap tr) → exec (.tdst f) s = .next (s.takeTrap tr))
          ∧ ((∃ r, s.resolve { want with watch := false } a 32 = .ok r) →
            if ¬ (spaceOf a = 0 ∨ spaceOf a = 1) then exec (.tdst f) s = .next (s.takeTrap ⟨0x0104, a, 0⟩)
            else if a.toNat % 32 ≠ 0 then exec (.tdst f) s = .next (s.takeTrap ⟨0x0103, a, 0⟩)
            else ∀ s1 nm, s.resolve want a 32 = .ok (s1, nm) →
            s1.storeClaims nm 1 = .ok () → ∃ (e : SqEntry) (t : State), exec (.tdst f) s = .next (s.after (.t 0x50 3 f) t)
              ∧ t = { s1 with opNo := s1.opNo + 1, thr := { s1.thr with sq := s1.thr.sq ++ [e] } }
              ∧ e.bytes.map (fun b => (b.loc, b.key)) = nm.locs ∧ leNat (e.bytes.map (·.val)) = src.toNat))
      ∧ (s.Issues (.t 0x50 4 f) →
          let r : Int := row0 + (x.extractLsb' 0 16).toInt
          let c : Int := col0 + (x.extractLsb' 16 16).toInt
          let l : Int := layer + (x.extractLsb' 32 16).toInt
          if 0 ≤ r ∧ r ≤ 255 ∧ 0 ≤ c ∧ c ≤ 255 ∧ 0 ≤ l ∧ l ≤ 255 then ∃ d, writes 4 (.tdmove f) d
            ∧ Ten.of d = { Ten.of src with row0 := r.toNat, col0 := c.toNat, layer := l.toNat }
          else exec (.tdmove f) s = .next (s.takeTrap ⟨0x0201, 0, 0⟩))
      ∧ (s.Issues (.t 0x50 5 f) →
          let t := Ten.of src
          let r := (x.extractLsb' 0 16).toNat
          let c := (x.extractLsb' 16 16).toNat
          let l := (f.imm18.extractLsb' 0 9).toNat
          let asked (v whole off : Nat) : Int := if v = 0 then (whole : Int) - off else v
          let h := asked (x.extractLsb' 32 16).toNat t.h r
          let w := asked (x.extractLsb' 48 16).toNat t.w c
          let d := asked (f.imm18.extractLsb' 9 9).toNat t.depth l
          if r + h ≤ t.h ∧ c + w ≤ t.w ∧ l + d ≤ t.depth ∧ 0 < h ∧ 0 < w ∧ 0 < d ∧ t.row0 + r ≤ 255 ∧ t.col0 + c ≤ 255 ∧ t.layer + l ≤ 255
          then ∃ v, writes 5 (.tdsub f) v ∧ Ten.of v = { t with row0 := t.row0 + r, col0 := t.col0 + c, layer := t.layer + l
                                                                h := h.toNat, w := w.toNat, depth := d.toNat }
          else exec (.tdsub f) s = .next (s.takeTrap ⟨0x0201, 0, 0⟩))
      ∧ (s.Issues (.t 0x50 6 f) → exec (.edset f) s = .next (s.after (.t 0x50 6 f)
          (if f.edg = 0 then s else s.withThr { s.thr with e := s.thr.e.setIfInBounds f.edg.toNat (s.X f.xs) })))
      ∧ (s.Issues (.t 0x50 7 f) → exec (.edget f) s = .next (s.after (.t 0x50 7 f)
          (s.setX f.xs (if f.edg = 0 then 0xFFFF0000FFFF0000 else s.thr.e.toArray.getD f.edg.toNat 0)))))
  ∧ (
    ∀ (s : State) (f : FB),
      let q := s.X f.xa
      let th := s.thr
      let rodsH := q.toNat % 256
      let rodsW := q.toNat / 256 % 256
      let depth := q.toNat / 65536 % 65536
      let h := max th.plotH (4 * rodsH)
      let w := max th.plotW (4 * rodsW)
      let d := max th.plotD depth
      let legal := q.toNat / 2 ^ 32 % 2 ^ 32 = 0 ∧ rodsH ≤ 64 ∧ rodsW ≤ 64 ∧ depth ≤ 256
      let onPlane := th.row.toNat + h ≤ 256 ∧ th.col.toNat + w ≤ 256 ∧ th.sbase.toNat + d ≤ 256
      let voids := s.voidCells th.plot
      (s.Issues (.b 0x40 10 f) →
        (¬ legal → exec (.plotgrow f) s = .next (s.takeTrap ⟨0x0003, 0, 0⟩))
        ∧ (legal → ¬ onPlane → exec (.plotgrow f) s = .next (s.takeTrap ⟨0x0201, 0, 0⟩))
        ∧ (legal → onPlane → s.mayGrow th h w d = true → ∃ t : State, exec (.plotgrow f) s = .next (s.after (.b 0x40 10 f)
              (t.setX f.xd (BitVec.ofNat 64 (d * 2 ^ 18 + w * 2 ^ 9 + h))))
            ∧ t.thr = { th with plotH := h, plotW := w, plotD := d, growing := none }
            ∧ t = { s with thr := t.thr, rows := t.rows }
            ∧ (∀ c r, r < 256 → th.plot.holdsRow c r = true → t.row c r = s.row c r)
            ∧ (∀ c r, r < 256 → th.plot.holdsRow c r = false → ({ th.plot with h := h, w := w, d := d } : Plot).holdsRow c r = true →
                t.row c r = ({} : Row))
            ∧ (∀ c r, r < 256 → ({ th.plot with h := h, w := w, d := d } : Plot).holdsRow c r = false → t.row c r = s.row c r))
        ∧ (legal → onPlane → s.mayGrow th h w d = false → (∃ u : State, exec (.plotgrow f) s = .next u ∧ u.thr.waiting = true ∧ s.sameBytes u)
            ∨ exec (.plotgrow f) s = .next (s.takeTrap ⟨0x0203, 0, 0⟩)))
      ∧ (s.Issues (.b 0x40 11 f) →
        exec (.plotinfo f) s = .next (s.after (.b 0x40 11 f) (s.setX f.xd (
          if f.imm32 = 0 then BitVec.ofNat 64 voids.length
          else match voids[(s.X f.xa).toNat]? with
            | some x => BitVec.ofNat 64 (x % 256 * 256 + x / 256)
            | none => BitVec.allOnes 64)))))

/-! ### The vector families (11 R249-R267) -/

/-- R255-R257, 10 R248: the functions of one float operand, rounded once, and the forms on the bits of integers. The values of
VEXP2 and VLOG2 before their rounding are the model's enclosures (log 17).
R258, R259: VMOV copies bits, VSEL selects by its predicate plane, VCVT converts once under its scales, and the compares write one
predicate bit for each element. -/
def Obligations.VectorFunctions : Prop :=
  (
    ∀ (s : State) (f : FT),
      let td := Ten.of (s.T f.td)
      let ta := Ten.of (s.T f.ta)
      let tb := Ten.of (s.T f.tb)
      let tc : Option Ten := if f.tc = 0 then none else some (Ten.of (s.T f.tc))
      let mode := Mode.ofCode f.rnd.toNat
      let two := [(ta, f.wa), (tb, f.wb)]
      let one := [(ta, f.wa)]
      let w := fmtBits ta.fmt
      let bit (x : Option Src) (d i j : Nat) : Nat := (x.map fun y => s.elem y.place y.win d i j).getD 0
      let ops (fn : Nat) (i : Instr) (cls : Nat → Bool) (srcs : List (Ten × BitVec 4)) (new : Nat → Nat → Nat) : Prop :=
        s.vectorOp f 0x60 fn i (td.data cls = true ∧ td.fmt = ta.fmt ∧ fitsWith cls ta.fmt td srcs tc) td srcs tc []
          fun _ xs d i j => new (bit xs[0]? d i j) (bit xs[1]? d i j)
      let rounds (g : Val → Val) (a _ : Nat) : Nat := ((ffmt ta.fmt).map fun F => F.result mode (f.sat = 1) (g (F.value a))).getD 0
      let signed (a : Nat) : Int := intValue w true a
      ops 9 (.vrcp f) fmtF' one (rounds fun a => (Val.fin false 1 0).div a)
      ∧ ops 10 (.vsqrt f) fmtF one (rounds Val.sqrt)
      ∧ ops 11 (.vrsq f) fmtF' one (rounds Val.rsqrt)
      ∧ ops 12 (.vexp2 f) fmtF' one (rounds Val.exp2)
      ∧ ops 13 (.vlog2 f) fmtF' one (rounds Val.log2)
      ∧ ops 14 (.vand f) fmtI two (fun a b => a &&& b)
      ∧ ops 15 (.vor f) fmtI two (fun a b => a ||| b)
      ∧ ops 16 (.vxor f) fmtI two (fun a b => a ^^^ b)
      ∧ ops 17 (.vnot f) fmtI one (fun a _ => 2 ^ w - 1 - a)
      ∧ ops 18 (.vshl f) fmtI two (fun a b =>
          let g := ta.fmt = 0 ∨ ta.fmt = 2 ∨ ta.fmt = 4 ∨ ta.fmt = 6
          let v : Int := intValue w (decide g) a * 2 ^ (b % w)
          let lo : Int := if g then -(2 ^ (w - 1)) else 0
          let hi : Int := if g then 2 ^ (w - 1) - 1 else 2 ^ w - 1
          ((if f.sat = 1 then max lo (min v hi) else v) % 2 ^ w).toNat)
      ∧ ops 19 (.vshr f) fmtI two (fun a b => a / 2 ^ (b % w))
      ∧ ops 20 (.vsar f) fmtI two (fun a b => ((signed a / 2 ^ (b % w)) % 2 ^ w).toNat)
      ∧ ops 21 (.vclz f) fmtI one (fun a _ => ((List.range w).reverse.takeWhile fun k => !a.testBit k).length)
      ∧ ops 22 (.vpopc f) fmtI one (fun a _ => ((List.range w).filter fun k => a.testBit k).length))
  ∧ (
    ∀ (s : State) (f : FT),
      let td := Ten.of (s.T f.td)
      let ta := Ten.of (s.T f.ta)
      let tb := Ten.of (s.T f.tb)
      let tc : Option Ten := if f.tc = 0 then none else some (Ten.of (s.T f.tc))
      let two := [(ta, f.wa), (tb, f.wb)]
      let bit (x : Option Src) (d i j : Nat) : Nat := (x.map fun y => s.elem y.place y.win d i j).getD 0
      let active (d i j : Nat) : Bool := (tc.map fun t => s.elem ⟨t, s.thr.plot, 0⟩ 0 (if t.slices = 1 then 0 else d) i j == 1).getD true
      let compares (fn : Nat) (i : Instr) (fop : Val → Val → Bool) (iop : Int → Int → Bool) : Prop :=
        s.vectorOp f 0x60 fn i (td.data fmtP = true ∧ fitsWith fmtFI ta.fmt td two tc) td two tc [] fun _ xs d i j =>
          let a := bit xs[0]? d i j
          let b := bit xs[1]? d i j
          match ffmt ta.fmt, intFmt ta.fmt with
          | some F, _ => if fop (F.value a) (F.value b) then 1 else 0
          | none, some (w, g) => if iop (intValue w g a) (intValue w g b) then 1 else 0
          | none, none => 0
      let sc : Option Ten := if ta.scale = 0 then none else some (Ten.of (s.T (BitVec.ofNat 6 ta.scale)))
      let scaleFits (c : Option Ten) (t : Ten) : Prop := ∀ x, c = some x → x.kind = 1 ∧ x.fmt = 15 ∧ x.rows = t.rows
        ∧ x.cols = (t.cols + 16 * 2 ^ t.sblk - 1) / (16 * 2 ^ t.sblk) ∧ (x.slices = 1 ∨ x.slices = t.slices)
      let scale (c : Option Ten) (t : Ten) (d i j : Nat) : Option Nat :=
        c.map fun x => s.elem ⟨x, s.thr.plot, 0⟩ 0 (if x.slices = 1 then 0 else d) i (j / (16 * 2 ^ t.sblk))
      s.vectorOp f 0x60 23 (.vmov f) (td.data fmtX = true ∧ td.fmt = ta.fmt ∧ fitsWith fmtX ta.fmt td [(ta, f.wa)] tc) td [(ta, f.wa)] tc []
        (fun _ xs d i j => bit xs[0]? d i j)
      ∧ s.vectorOp f 0x60 25 (.vsel f) (td.data fmtX = true ∧ fitsWith fmtX td.fmt td two tc) td two none tc.toList
        (fun _ xs d i j => if active d i j then bit xs[0]? d i j else bit xs[1]? d i j)
      ∧ (s.Issues (.t 0x60 24 f) → td.fmt = 14 ∨ td.fmt = 16 → exec (.vcvt f) s = .next (s.takeTrap ⟨0x0003, 0, 0⟩))
      ∧ (td.fmt ≠ 14 → td.fmt ≠ 16 →
        s.vectorOp f 0x60 24 (.vcvt f)
          (td.data fmtX = true ∧ ta.data fmtX = true ∧ ta.fmt ≠ 14 ∧ ta.conforms td = true ∧ ta.winOk f.wa = true
            ∧ scaleFits sc ta ∧ scaleFits tc td) td [(ta, f.wa)] none (sc.toList ++ tc.toList)
          fun _ xs d i j =>
            let src := scale sc ta d i j
            let out := scale tc td d i j
            let v := elemValue ta.fmt (bit xs[0]? d i j)
            convertTo td.fmt (Mode.ofCode f.rnd.toNat) (f.sat = 1) (decide (ta.fmt ≤ 6))
              (if src = some 255 ∨ out = some 255 then .nan
               else match v with
                 | .fin g m e => .fin g m (e + ((src.map fun b => (b : Int) - 127).getD 0) + ((out.map fun b => 127 - (b : Int)).getD 0))
                 | v => v))
      ∧ compares 26 (.vceq f) (fun a b => a.cmp b = some .eq) (fun a b => a = b)
      ∧ compares 27 (.vcne f) (fun a b => a.cmp b ≠ some .eq) (fun a b => a ≠ b)
      ∧ compares 28 (.vclt f) (fun a b => a.cmp b = some .lt) (fun a b => a < b)
      ∧ compares 29 (.vcle f) (fun a b => a.cmp b = some .lt ∨ a.cmp b = some .eq) (fun a b => a ≤ b))

/-- R255-R257: the arithmetic of VARITH, element by element: in a float format the exact result rounded once under RND and SAT, in an
integer format SATI with SAT and WRAP without; VDIV follows DIV and DIVU, and VMIN, VMAX, VABS and VNEG as the manual says.
R260, R261: the scalar of VSCALAR is X[XS]: mod 2^w with the format's sign, as FP64, or as FP32 at its exact value; the forms act
as their VARITH partners with it, VBCAST writes its low bits, VIOTA writes s + step·(i·C + j). -/
def Obligations.VectorArithmetic : Prop :=
  (
    ∀ (s : State) (f : FT),
      let td := Ten.of (s.T f.td)
      let ta := Ten.of (s.T f.ta)
      let tb := Ten.of (s.T f.tb)
      let tc : Option Ten := if f.tc = 0 then none else some (Ten.of (s.T f.tc))
      let mode := Mode.ofCode f.rnd.toNat
      let sat := f.sat = 1
      let two := [(ta, f.wa), (tb, f.wb)]
      let one := [(ta, f.wa)]
      let legal (srcs : List (Ten × BitVec 4)) : Prop := td.data fmtFI = true ∧ td.fmt = ta.fmt ∧ fitsWith fmtFI ta.fmt td srcs tc
      let bit (x : Option Src) (d i j : Nat) : Nat := (x.map fun y => s.elem y.place y.win d i j).getD 0
      let result (fop : FFmt → Nat → Nat → Nat → Nat) (iop : Nat → Bool → Int → Int → Int → Int) (a b c : Nat) : Nat :=
        match ffmt ta.fmt, intFmt ta.fmt with
        | some F, _ => fop F a b c
        | none, some (w, g) => (iop w g (intValue w g a) (intValue w g b) (intValue w g c) % 2 ^ w).toNat
        | none, none => 0
      let ops (fn : Nat) (i : Instr) (srcs : List (Ten × BitVec 4)) (fop : FFmt → Nat → Nat → Nat → Nat)
          (iop : Nat → Bool → Int → Int → Int → Int) : Prop :=
        s.vectorOp f 0x60 fn i (legal srcs) td srcs tc [] fun dst xs d i j =>
          result fop iop (bit xs[0]? d i j) (bit xs[1]? d i j) (s.elem dst 0 d i j)
      let clamp (w : Nat) (g : Bool) (v : Int) : Int :=
        if sat then (if g then max (-(2 ^ (w - 1))) (min v (2 ^ (w - 1) - 1)) else max 0 (min v (2 ^ w - 1))) else v
      let exact (g : FFmt → Nat → Nat → Nat → Val) (F : FFmt) (a b c : Nat) : Nat := F.result mode (decide sat) (g F a b c)
      ops 0 (.vadd f) two (exact fun F a b _ => Val.add mode (F.value a) (F.value b)) (fun w g a b _ => clamp w g (a + b))
      ∧ ops 1 (.vsub f) two (exact fun F a b _ => Val.add mode (F.value a) (F.value b).neg) (fun w g a b _ => clamp w g (a - b))
      ∧ ops 2 (.vmul f) two (exact fun F a b _ => (F.value a).mul (F.value b)) (fun w g a b _ => clamp w g (a * b))
      ∧ ops 3 (.vfma f) two (exact fun F a b c => Val.add mode ((F.value a).mul (F.value b)) (F.value c))
          (fun w g a b c => clamp w g (a * b + c))
      ∧ ops 4 (.vmin f) two (fun F a b _ => F.result .rne false (Val.pick true (F.value a) (F.value b))) (fun _ _ a b _ => min a b)
      ∧ ops 5 (.vmax f) two (fun F a b _ => F.result .rne false (Val.pick false (F.value a) (F.value b))) (fun _ _ a b _ => max a b)
      ∧ ops 6 (.vabs f) one (fun F a _ _ => a % 2 ^ (F.width - 1)) (fun w g a _ _ => clamp w g |a|)
      ∧ ops 7 (.vneg f) one (fun F a _ _ => (a + 2 ^ (F.width - 1)) % 2 ^ F.width) (fun w g a _ _ => clamp w g (-a))
      ∧ ops 8 (.vdiv f) two (exact fun F a b _ => (F.value a).div (F.value b)) (fun w g a b _ =>
          if b = 0 then -1 else if g = true ∧ a = -(2 ^ (w - 1)) ∧ b = -1 then a else a.tdiv b))
  ∧ (
    ∀ (s : State) (f : FT),
      let td := Ten.of (s.T f.td)
      let ta := Ten.of (s.T f.ta)
      let tb := Ten.of (s.T f.tb)
      let tc : Option Ten := if f.tc = 0 then none else some (Ten.of (s.T f.tc))
      let x := (s.X f.xs).toNat
      let mode := Mode.ofCode f.rnd.toNat
      let k : Val := if td.fmt = 7 then fp64.value x else fp32.value (x % 2 ^ 32)
      let one := [(ta, f.wa)]
      let bit (y : Option Src) (d i j : Nat) : Nat := (y.map fun y => s.elem y.place y.win d i j).getD 0
      let clamp (w : Nat) (g : Bool) (v : Int) : Nat :=
        let lo : Int := if g then -(2 ^ (w - 1)) else 0
        let hi : Int := if g then 2 ^ (w - 1) - 1 else 2 ^ w - 1
        ((if f.sat = 1 then max lo (min v hi) else v) % 2 ^ w).toNat
      let ops (fn : Nat) (i : Instr) (srcs : List (Ten × BitVec 4)) (fop : Val → Val → Val) (iop : Int → Int → Int) : Prop :=
        s.vectorOp f 0x61 fn i (td.data fmtFI = true ∧ fitsWith fmtFI td.fmt td srcs tc) td srcs tc [] fun _ xs d i j =>
          let a := bit xs[0]? d i j
          let c := bit xs[1]? d i j
          match ffmt td.fmt, intFmt td.fmt with
          | some F, _ => F.result mode (f.sat = 1) (fop (F.value a) (F.value c))
          | none, some (w, g) => clamp w g (iop (intValue w g a) (intValue w g c))
          | none, none => 0
      let n : Int := match intFmt td.fmt with
        | some (w, g) => intValue w g x
        | none => 0
      ops 0 (.vadds f) one (fun a _ => Val.add mode a k) (fun a _ => a + n)
      ∧ ops 1 (.vmuls f) one (fun a _ => a.mul k) (fun a _ => a * n)
      ∧ ops 2 (.vfmas f) [(ta, f.wa), (tb, f.wb)] (fun a c => Val.add mode (a.mul k) c) (fun a c => a * n + c)
      ∧ ops 3 (.vmins f) one (fun a _ => Val.pick true a k) (fun a _ => min a n)
      ∧ ops 4 (.vmaxs f) one (fun a _ => Val.pick false a k) (fun a _ => max a n)
      ∧ s.vectorOp f 0x61 5 (.vbcast f) (td.data fmtX = true ∧ fitsWith fmtX td.fmt td [] tc) td [] tc [] (fun _ _ _ _ _ => x)
      ∧ s.vectorOp f 0x61 6 (.viota f) (td.data fmtI = true ∧ fitsWith fmtI td.fmt td [] tc) td [] tc [] (fun _ _ _ i j =>
          match intFmt td.fmt with
          | some (w, g) => clamp w g (n + f.imm18.toInt * (i * td.cols + j : Nat))
          | none => 0))

/-- R262-R264: the lane forms move and combine the elements of one cell; a source element outside the bound reads as zero at its own
coordinates, and takes no part in MIN and MAX. `lane` are the elements of a cell and slice in their order.
R265-R267: the logic forms write predicate planes; PPCNT, PPANY and PPALL count the bits inside the bound into a register, or stay
outstanding with a nonzero LA, and trap ECC at a poisoned row (log 66: EADDR names the first in the order of the grid); FESET and FECLR set
and clear the full/empty bits of the words that hold a written element. What VSCANC MIN and MAX give before the first element that counts is
log 21. -/
def Obligations.LanesAndPredicates : Prop :=
  (
    ∀ (s : State) (f : FT),
      let td := Ten.of (s.T f.td)
      let ta := Ten.of (s.T f.ta)
      let tb := Ten.of (s.T f.tb)
      let tc : Option Ten := if f.tc = 0 then none else some (Ten.of (s.T f.tc))
      let e := s.E f.edg
      let mode := Mode.ofCode f.rnd.toNat
      let sat := decide (f.sat = 1)
      let op := (f.imm18.extractLsb' 0 2).toNat
      let own (t : Ten) (i j : Nat) : Nat := i % t.ebr * t.ebc + j % t.ebc
      let inside (t : Ten) (r c k : Nat) : Bool := inBound e (r * t.ebr + k / t.ebc) (c * t.ebc + k % t.ebc)
      let lane (x : Option Src) (t : Ten) (d r c k : Nat) : Nat :=
        if inside t r c k then (x.map fun y => s.elem y.place y.win d (r * t.ebr + k / t.ebc) (c * t.ebc + k % t.ebc)).getD 0 else 0
      let bit (y : Option Src) (d i j : Nat) : Nat := (y.map fun y => s.elem y.place y.win d i j).getD 0
      let moves (fn : Nat) (i : Instr) (two : Bool) (ok : Prop) (k : Nat → Nat → Nat) : Prop :=
        s.vectorOp f 0x62 fn i (td.data fmtX = true ∧ ok ∧ fitsWith fmtX td.fmt td [(ta, f.wa)] tc) td
          ((ta, f.wa) :: if two then [(tb, f.wb)] else []) tc []
          fun _ xs d i j => lane xs[0]? ta d (i / td.ebr) (j / td.ebc) (k (own td i j) (bit xs[1]? d i j))
      let single := td.ebr * td.ebc = 1 ∧ td.h = ta.h ∧ td.w = ta.w ∧ td.slices = ta.slices
      let folds (l : List (Nat × Bool)) (empty : Nat) : Nat :=
        if op = 0 then sumBits ta.fmt mode sat (l.map (·.1))
        else (pickList (op = 1) ta.fmt ((l.filter (·.2)).map (·.1))).getD empty
      let lanes (x : Option Src) (d r c n : Nat) : List (Nat × Bool) := (List.range n).map fun k => (lane x ta d r c k, inside ta r c k)
      let maskOk : Prop := ∀ t, tc = some t → t.predFor td = true
      moves 0 (.vperm f) true (tb.data fmtI = true ∧ tb.conforms td = true ∧ tb.winOk f.wb = true) (fun _ b => b % (td.ebr * td.ebc))
      ∧ moves 1 (.vrot f) false True (fun k _ => (BitVec.ofNat 64 k + s.X f.xs + f.imm18.signExtend 64).toNat % (td.ebr * td.ebc))
      ∧ moves 2 (.vxch f) false (f.imm18.toNat < td.ebr * td.ebc) (fun k _ => k ^^^ f.imm18.toNat)
      ∧ s.vectorOp f 0x62 6 (.vlut f)
        (td.data fmtX = true ∧ ta.data fmtI = true ∧ tb.data fmtX = true ∧ tb.fmt = td.fmt ∧ td.conforms ta = true ∧ tb.h = td.h
          ∧ tb.w = td.w ∧ ta.winOk f.wa = true ∧ tb.winOk f.wb = true ∧ maskOk) td [(ta, f.wa), (tb, f.wb)] tc []
        (fun _ xs d i j => lane xs[1]? tb 0 (i / td.ebr) (j / td.ebc) (bit xs[0]? d i j % (tb.ebr * tb.ebc)))
      ∧ s.vectorOp f 0x62 3 (.vredc f)
        (ta.data fmtFI = true ∧ td.data fmtFI = true ∧ td.fmt = ta.fmt ∧ single ∧ ta.winOk f.wa = true ∧ maskOk) td [(ta, f.wa)] tc []
        (fun _ xs d i j => folds (lanes xs[0]? d i j (ta.ebr * ta.ebc)) 0)
      ∧ s.vectorOp f 0x62 4 (.vscanc f)
        (ta.data fmtFI = true ∧ td.data fmtFI = true ∧ td.fmt = ta.fmt ∧ td.conforms ta = true ∧ ta.winOk f.wa = true ∧ maskOk)
        td [(ta, f.wa)] tc []
        (fun _ xs d i j =>
          let l := lanes xs[0]? d (i / td.ebr) (j / td.ebc) (if f.imm18.getLsbD 2 then own td i j else own td i j + 1)
          if op = 0 ∧ l = [] then 0 else folds l (scanStart (op = 1) ta.fmt))
      ∧ s.vectorOp f 0x62 5 (.vdotc f)
        (ta.data fmtFI = true ∧ tb.data fmtFI = true ∧ tb.fmt = ta.fmt ∧ tb.conforms ta = true
          ∧ td.data (if fmtF ta.fmt then fmtF else fun c => c = 4 || c = 6) = true ∧ single
          ∧ ta.winOk f.wa = true ∧ tb.winOk f.wb = true ∧ maskOk) td [(ta, f.wa), (tb, f.wb)] tc []
        (fun dst xs d i j =>
          let n := ta.ebr * ta.ebc
          let a := (List.range n).map (lane xs[0]? ta d i j)
          let b := (List.range n).map (lane xs[1]? tb d i j)
          let old : Option Nat := if f.imm18.getLsbD 0 then some (s.elem dst 0 d i j) else none
          match ffmt ta.fmt, ffmt td.fmt with
          | some F, some G => G.result mode sat (xsum mode
              ((a.zip b).map (fun x => (F.value x.1).mul (F.value x.2)) ++ (old.map G.value).toList))
          | _, _ => match intFmt ta.fmt, intFmt td.fmt with
            | some (w, g), some (w', g') => intResult w' g' sat
                (((a.zip b).map fun x => intValue w g x.1 * intValue w g x.2).sum + (old.map (intValue w' g')).getD 0)
            | _, _ => 0))
  ∧ (
    ∀ (s : State) (f : FT),
      let td := Ten.of (s.T f.td)
      let ta := Ten.of (s.T f.ta)
      let tb := Ten.of (s.T f.tb)
      let bit (y : Option Src) (d i j : Nat) : Nat := (y.map fun y => s.elem y.place y.win d i j).getD 0
      let fits (srcs : List (Ten × BitVec 4)) : Prop := td.data fmtP = true
        ∧ ∀ x ∈ srcs, x.1.data fmtP = true ∧ x.1.conforms td = true ∧ x.1.winOk x.2 = true
      let ops (fn : Nat) (i : Instr) (srcs : List (Ten × BitVec 4)) (new : Nat → Nat → Nat) : Prop :=
        s.vectorOp f 0x63 fn i (fits srcs) td srcs none [] fun _ xs d i j => new (bit xs[0]? d i j) (bit xs[1]? d i j)
      let counts (fn : Nat) (i : Instr) (result : List Nat → Nat) : Prop :=
        s.Issues (.t 0x63 fn f) → ta.data fmtP = true → ∀ p, s.placesOf [ta] = .ok [p] → s.powered [ta] = .ok () →
          s.MayBegin (ta.fp false) →
          let xs := ta.grid.filter fun x => inBound (s.E f.edg) x.2.1 x.2.2
          (f.hd.la = 0 → (∀ x ∈ xs, s.elemPoison p 0 x.1 x.2.1 x.2.2 = false) → ∃ t : State,
            exec i s = .next (s.after (.t 0x63 fn f) (t.setX f.xs (BitVec.ofNat 64 (result (xs.map fun x => s.elem p 0 x.1 x.2.1 x.2.2)))))
            ∧ t.thr = { s.thr with lastCost := t.thr.lastCost } ∧ t.rows = s.rows)
          ∧ (f.hd.la = 0 → ∀ x, xs.find? (fun x => s.elemPoison p 0 x.1 x.2.1 x.2.2) = some x →
            exec i s = .next (s.takeTrap ⟨0x0106, ta.rowPointer x, 0⟩))
          ∧ (f.hd.la ≠ 0 → ∃ (t : State) (o : Out), exec i s = .next (s.after (.t 0x63 fn f) t)
            ∧ t.thr = { s.thr with lastCost := t.thr.lastCost, outs := s.thr.outs ++ [o] }
            ∧ o.no = s.opNo + 1 ∧ o.opc = 0x63 ∧ o.fn = BitVec.ofNat 8 fn ∧ o.dest = f.xs ∧ o.desc = s.T f.ta ∧ o.edge = s.E f.edg ∧ o.faulted = none)
      let tags (fn : Nat) (i : Instr) (full : Bool) : Prop :=
        s.Issues (.t 0x63 fn f) → td.data fmtX = true → ∀ p, s.placesOf [td] = .ok [p] → s.powered [td] = .ok () →
          (full = true → s.thr.released = true) → p.sound → s.MayBegin (td.fp true) → s.feq = [] →
          let holds (c r w : Nat) : Prop := ∃ x ∈ td.grid, inBound (s.E f.edg) x.2.1 x.2.2 = true ∧ s.elemVoid p x.1 x.2.1 x.2.2 = false
            ∧ ∃ cell k b q, td.at x.1 x.2.1 x.2.2 = (cell, k, b) ∧ c = p.plot.cell cell.1 cell.2 ∧ r = p.storeRow k
              ∧ q < (fmtBits td.fmt + 31) / 32 ∧ w = b / 32 + q
          ∃ t o, exec i s = .next (s.after (.t 0x63 fn f) t) ∧ s.oneMoreOp t o ∧ o.fps = td.fp true
            ∧ (∀ c r, r < 256 → (t.row c r).data = (s.row c r).data)
            ∧ (∀ c r w, r < 256 → w < 8 → holds c r w → (t.row c r).full.getLsbD w = full)
            ∧ (∀ c r w, r < 256 → w < 8 → ¬ holds c r w → (t.row c r).full.getLsbD w = (s.row c r).full.getLsbD w)
      ops 0 (.ppset f) [] (fun _ _ => f.imm18.toNat % 2)
      ∧ ops 1 (.ppand f) [(ta, f.wa), (tb, f.wb)] (fun a b => a &&& b)
      ∧ ops 2 (.ppor f) [(ta, f.wa), (tb, f.wb)] (fun a b => a ||| b)
      ∧ ops 3 (.ppnot f) [(ta, f.wa)] (fun a _ => 1 - a)
      ∧ counts 4 (.ppcnt f) List.sum
      ∧ counts 5 (.ppany f) (fun l => if 1 ∈ l then 1 else 0)
      ∧ counts 6 (.ppall f) (fun l => if ∀ b ∈ l, b = 1 then 1 else 0)
      ∧ tags 7 (.feset f) true
      ∧ tags 8 (.feclr f) false)

/-! ### Scrolls and moves (08 R190-R201; 07 R163, R181) -/

/-- R190, R192, R196, R199: a scroll takes its frame, its shift, its mode and its holes at issue and holds the frame's footprint, and
under SPILL that of the rectangle swept; nothing moves before its first unit step. R191: a unit step moves each line by one
cell, its trailing cell takes the vacant value, and under WRAP the value of the leading cell, which SPILL puts beyond the
frame; a void cell passes zero, or under carry holes is passed over. R194: a scroll stands still while a debugger has its slot
stopped, or its item is to be saved (log 23). -/
def Obligations.Scrolls : Prop :=
  (∀ (s : State) (f : FT),
    let td := Ten.of (s.T f.td)
    let fd := if f.ta = 0 then s.T f.td else s.T f.ta
    let r := Ten.of fd
    let frame : Ten := { td with row0 := r.row0, col0 := r.col0, h := r.h, w := r.w }
    let legal := td.own = true ∧ (f.ta ≠ 0 → (Ten.of (s.T f.ta)).own = true)
    let scrolls (fn : Nat) (i : Instr) (dy dx : Int) (mode : BitVec 2) (carry : Bool) : Prop :=
      s.Issues (.t 0x70 fn f) →
      let all := if mode = 2 then frame.swept s.thr.plot dy dx else frame
      let fps := frame.fp true ++ if mode = 2 then all.fp true else []
      (¬ legal → exec i s = .next (s.takeTrap ⟨0x0104, 0, 0⟩))
      ∧ (legal → s.powered [frame, all] = .ok () → s.MayBegin fps →
          ∃ t o, exec i s = .next (s.after (.t 0x70 fn f) t) ∧ s.oneMoreOp t o ∧ o.fps = fps
            ∧ o.work = .scroll ⟨s.T f.td, fd, mode, carry, dy, dx⟩ ∧ s.sameBytes t)
    scrolls 0 (.scroll f) (f.imm18.extractLsb' 0 9).toInt (f.imm18.extractLsb' 9 9).toInt (BitVec.ofNat 2 td.edge) (decide (td.hole = 1))
    ∧ scrolls 1 (.scrollx f) ((s.X f.xs).extractLsb' 0 16).toInt ((s.X f.xs).extractLsb' 16 16).toInt (f.imm18.extractLsb' 0 2)
        (f.imm18.getLsbD 2))
  ∧ (∀ s : State, (s.atSlot s.input.slot).scrollStands = true → exec .scrollUnitStep s = .next s)
  ∧ ∀ (s : State) (o : PlaneOp) (sc : Scroll),
    let x := s.atSlot s.input.slot
    let td := Ten.of sc.td
    let fr := Ten.of sc.frame
    let p := x.thr.plot
    let down := sc.dy ≠ 0
    let v := if down then sc.dy else sc.dx
    let far := if down then fr.h else fr.w
    let cell (a m : Nat) : Nat × Nat :=
      let k := if 0 < v then m else far - 1 - m
      if down then (fr.row0 + k, fr.col0 + a) else (fr.row0 + a, fr.col0 + k)
    let void (y : Nat × Nat) : Bool := x.isVoid (p.cell y.1 y.2)
    let line (a : Nat) : List (Nat × Nat) := ((List.range far).map (cell a)).filter fun y => !(sc.carry && void y)
    let put (k : Nat) : Nat := p.sbase + td.layer + k
    let old (y : Nat × Nat) (k : Nat) : Row := if void y then ({} : Row) else x.row (p.cell y.1 y.2) (put k)
    let vacant : BitVec 256 := if sc.mode = 3 then BitVec.ofNat 256 (((List.range 8).map fun i => td.fill * 2 ^ (32 * i)).sum) else 0
    let beyond (a : Nat) : Int × Int :=
      let e := cell a (far - 1)
      if down then ((e.1 : Int) + v, (e.2 : Int)) else ((e.1 : Int), (e.2 : Int) + v)
    x.opNamed s.input.unit = some o → o.work = .scroll sc → (sc.dy ≠ 0 ∨ sc.dx ≠ 0) → x.scrollStands = false →
    fr.row0 + fr.h ≤ p.h → fr.col0 + fr.w ≤ p.w → p.row + p.h ≤ 256 → p.col + p.w ≤ 256 → p.sbase + td.layer + td.depth ≤ 256 →
    ∃ (t : State) (o' : PlaneOp), exec .scrollUnitStep s = .next t ∧ t.thr = { x.thr with ops := t.thr.ops } ∧ t.opNamed o.no = some o'
      ∧ o' = { o with work := .scroll { sc with dy := if down then sc.dy - sc.dy.sign else 0
                                                dx := if down then sc.dx else sc.dx - sc.dx.sign }, poison := o'.poison }
      ∧ (∀ a < (if down then fr.w else fr.h), ∀ y rest, line a = y :: rest →
          (∀ k < td.depth, void y = false →
            (t.row (p.cell y.1 y.2) (put k)).data = if sc.mode = 1 then (old ((line a).getLast?.getD y) k).data else vacant)
          ∧ (∀ m b c, (line a)[m]? = some b → (line a)[m + 1]? = some c → void c = false → ∀ k < td.depth,
            (t.row (p.cell c.1 c.2) (put k)).data = (old b k).data ∧ (t.row (p.cell c.1 c.2) (put k)).poison = (old b k).poison)
          ∧ (sc.mode = 2 → ∀ r c : Nat, beyond a = ((r : Int), (c : Int)) → r < p.h → c < p.w → void (r, c) = false → ∀ k < td.depth,
            (t.row (p.cell r c) (put k)).data = (old ((line a).getLast?.getD y) k).data))
      ∧ (∀ c r, r < 256 → (t.row c r).full = (x.row c r).full)
      ∧ (∀ c r, r < 256 → (∀ k < td.depth, r ≠ put k) → t.row c r = x.row c r)
      ∧ (sc.mode ≠ 2 → ∀ c r, r < 256 → (∀ i < fr.h, ∀ j < fr.w, c ≠ p.cell (fr.row0 + i) (fr.col0 + j)) → t.row c r = x.row c r)

/-- R181, 07 R163: an op that has nothing left to do completes once its busy cycles have passed (22 R410): its footprint is released, a
register it writes is written in the bank of the mode it was issued in, and an op that read a poisoned row ends its item with cause
ECC. R200, R201: PLCOPY copies the elements of a tensor of the same format and shape, through a window, whole blocks of an
accumulator included, whose images it writes with EXP sign-extended and the reserved bits 0 (10 R246); PLFILL writes one value into
every element inside the bound. -/
def Obligations.PlaneMoves : Prop :=
  (
    ∀ (s : State) (o : PlaneOp),
      let x := s.atSlot s.input.slot
      x.opNamed s.input.unit = some o → o.untilLoopEnds = false →
      (o.work = .held ∨ ∃ sc, o.work = .scroll sc ∧ sc.dy = 0 ∧ sc.dx = 0) →
      let busy := (x.cluster x.cl).on = true ∧ ∃ c ∈ (x.cluster x.cl).charges, c.op = o.no
      (busy → exec .planeOpComplete s = .next s)
      ∧ (¬ busy → ∃ t : State, exec .planeOpComplete s = .next t ∧ (∀ q, q ∈ t.thr.ops ↔ q ∈ x.thr.ops ∧ q.no ≠ o.no)
        ∧ (t.thr.x, t.thr.xp) = ((x.thr.setXAs o.priv o.dest o.destVal).x, (x.thr.setXAs o.priv o.dest o.destVal).xp)
        ∧ t.thr.term = (if o.poison && x.thr.term.isNone then some ({ cause := 0x0106, pc := o.pc, time := s.time } : FaultRec)
                        else x.thr.term)
        ∧ x.sameBytes t))
  ∧ (
    ∀ (s : State) (f : FT),
      let td := Ten.of (s.T f.td)
      let ta := Ten.of (s.T f.ta)
      let whole (t : Ten) : Ten := if t.fmt = 16 then { t with fmt := 6, kind := 1 } else t
      let cuts := td.fmt = 16 ∧ td.cutsBlock (s.E f.edg) = true
      let low3 (v from' n : Nat) : Nat := ((List.range n).map fun k => v / 2 ^ (from' + 8 * k) % 8 * 2 ^ (from' + 8 * k)).sum
      let canon (q v : Nat) : Nat :=
        if q < 6 then v
        else if q = 6 then (if v % 4096 < 2048 then v % 4096 else 0xF000 + v % 4096) + v / 2 ^ 16 % 4 * 2 ^ 16 + low3 v 32 4
        else low3 v 0 4
      let copied (i j v : Nat) : Nat := if td.fmt = 16 then canon ((i % td.ebr * td.ebc + j % td.ebc) % 8) v else v
      s.vectorOp f 0x70 2 (.plcopy f)
        (td.own = true ∧ ta.own = true ∧ td.fmt = ta.fmt ∧ td.lbr = ta.lbr ∧ td.lbc = ta.lbc ∧ td.h = ta.h ∧ td.w = ta.w
          ∧ td.depth = ta.depth ∧ ¬ cuts)
        (whole td) [(whole ta, f.wa)] none []
        (fun _ xs d i j => copied i j ((xs[0]?.map fun y => s.elem y.place y.win d i j).getD 0))
      ∧ s.vectorOp f 0x70 3 (.plfill f) (td.kind = 1 ∨ td.kind = 3) td [] none [] (fun _ _ _ _ _ => (s.X f.xs).toNat))

/-! ### The network (14 R296-R302) -/

/-- R297-R299: a reduction captures its operands and holds their footprint; its root takes the elements that are inside the bound,
selected and not void, and rounds their exact sum, or writes the least or the greatest of them, once; NREDX writes its register
with the result, the others one element for each row or column of a slice.
R298, R299: NBCR and NBCC write each element of a row, or of a column, with the bits of its only source element. -/
def Obligations.NetworkForms : Prop :=
  (
    (∀ (s : State) (f : FT),
      let td := Ten.of (s.T f.td)
      let ta := Ten.of (s.T f.ta)
      let tc : Option Ten := if f.tc = 0 then none else some (Ten.of (s.T f.tc))
      let bf16 := f.imm18.extractLsb' 2 2 = 1
      let source := ta.kind = 1 ∧ ta.fmt ∈ [8, 9, 10, 4] ∧ ∀ t, tc = some t → t.predFor ta = true
      let result := td.kind = 1 ∧ td.slices = ta.slices ∧ if ta.fmt = 4 then td.fmt = 4 ∨ td.fmt = 6 else td.fmt = 8 ∨ td.fmt = 9
      let reduces (fn : Nat) (i : Instr) (legal : Prop) (own : List Ten) (fps : List Fp) (dest : BitVec 6) : Prop :=
        s.Issues (.t 0x80 fn f) →
        (¬ (source ∧ legal) → exec i s = .next (s.takeTrap ⟨0x0104, 0, 0⟩))
        ∧ (source → legal → s.powered (own ++ ta :: tc.toList) = .ok () →
            s.MayBegin (fps ++ ta.fp false ++ tc.toList.flatMap fun t => t.fp false) →
            ∃ t o, exec i s = .next (s.after (.t 0x80 fn f) t) ∧ s.oneMoreOp t o ∧ o.dest = dest ∧ o.priv = s.thr.priv
              ∧ o.fps = fps ++ ta.fp false ++ tc.toList.flatMap (fun t => t.fp false)
              ∧ o.work = .reduce fn (s.T f.td) (s.T f.ta) (s.T f.tc) (s.E f.edg) (decide (f.sat = 1)) f.imm18 ∧ s.sameBytes t)
      reduces 0 (.nredr f) (result ∧ td.h = ta.h ∧ td.lbr = ta.lbr ∧ td.w = 1 ∧ td.lbc = 0) [td] (td.fp true) 0
      ∧ reduces 1 (.nredc f) (result ∧ td.w = ta.w ∧ td.lbc = ta.lbc ∧ td.h = 1 ∧ td.lbr = 0) [td] (td.fp true) 0
      ∧ reduces 2 (.nredx f) (¬ (ta.fmt = 4 ∧ bf16)) [] [] f.xs)
    ∧ ∀ (s : State) (o : PlaneOp) (fn : Nat) (td ta tc : BitVec 256) (edge : Word) (sat : Bool) (imm : BitVec 18),
      let x := s.atSlot s.input.slot
      let d : Place := ⟨Ten.of td, x.thr.plot, 0⟩
      let a : Place := ⟨Ten.of ta, x.thr.plot, 0⟩
      let c : Option Place := if tc = 0 then none else some ⟨Ten.of tc, x.thr.plot, 0⟩
      let op := imm.extractLsb' 0 2
      let best (l : List Val) : Val := match l with
        | [] => .fin false 0 0
        | v :: r => r.foldl (Val.pick (op = 1)) v
      let least (l : List Int) : Int := match l with
        | [] => 0
        | v :: r => r.foldl (fun p q => if op = 1 then min p q else max p q) v
      let taking : List (Nat × Nat × Nat) := a.t.grid.filter (x.written a c edge)
      let value (fmt : Nat) (l : List (Nat × Nat × Nat)) : Nat :=
        let es := l.map fun y => x.elem a 0 y.1 y.2.1 y.2.2
        match ffmt a.t.fmt, ffmt fmt, intFmt fmt with
        | some F, some G, _ => G.result .rne sat (if op = 0 then xsum .rne (es.map F.value) else best (es.map F.value))
        | none, none, some (w, g) => intResult w g sat (if op = 0 then (es.map (intValue 32 true)).sum else least (es.map (intValue 32 true)))
        | _, _, _ => 0
      x.opNamed s.input.unit = some o → o.work = .reduce fn td ta tc edge sat imm → a.t.fmt ∈ [8, 9, 10, 4] →
      (fn = 2 → ∃ t : State, exec .reductionRoot s = .next t ∧ x.sameBytes t
        ∧ ∀ v, v = BitVec.ofNat 64 (value (if a.t.fmt = 4 then 6 else if imm.extractLsb' 2 2 = 1 then 9 else 8) taking) →
          (t.thr.x, t.thr.xp) = ((x.thr.setXAs o.priv o.dest v).x, (x.thr.setXAs o.priv o.dest v).xp)
          ∧ ∀ q ∈ t.thr.ops, q.no = o.no → q.work = .held ∧ q.dest = 0)
      ∧ (fn < 2 → d.sound → (if a.t.fmt = 4 then d.t.fmt = 4 ∨ d.t.fmt = 6 else d.t.fmt = 8 ∨ d.t.fmt = 9) →
        ∃ t : State, exec .reductionRoot s = .next t
          ∧ x.wroteElems t d (fun _ _ _ => true) (fun k i j => value d.t.fmt
              (taking.filter fun y => y.1 = k && if fn = 0 then y.2.1 = i else y.2.2 = j))
          ∧ t.thr = { x.thr with ops := t.thr.ops } ∧ ∀ q ∈ t.thr.ops, q.no = o.no → q.work = .held))
  ∧ (
    ∀ (s : State) (f : FT),
      let td := Ten.of (s.T f.td)
      let ta := Ten.of (s.T f.ta)
      let tc : Option Ten := if f.tc = 0 then none else some (Ten.of (s.T f.tc))
      let planes := td.kind = 1 ∧ ta.kind = 1 ∧ td.fmt = ta.fmt ∧ td.slices = ta.slices ∧ ∀ t, tc = some t → t.predFor td = true
      s.vectorOp f 0x80 3 (.nbcr f) (planes ∧ ta.w = 1 ∧ ta.lbc = 0 ∧ td.h = ta.h ∧ td.lbr = ta.lbr) td [(ta, 0)] tc []
        (fun _ xs d i _ => (xs[0]?.map fun y => s.elem y.place y.win d i 0).getD 0)
      ∧ s.vectorOp f 0x80 4 (.nbcc f) (planes ∧ ta.h = 1 ∧ ta.lbr = 0 ∧ td.w = ta.w ∧ td.lbc = ta.lbc) td [(ta, 0)] tc []
        (fun _ xs d _ j => (xs[0]?.map fun y => s.elem y.place y.win d 0 j).getD 0))

/-- R302: DRED sends its elements and waits for the switch, which adds one contribution of each participant in the order of their
ports, rounding each addition to FP32, and rounds the sum to every destination's format (10 R239); participants that differ in count
or format, and a reduction that does not complete in time, end the item with SPACE and NOTMAPPED. That the contribution is read at issue, so
that TA's footprint is not held, is log 43, and the report's info 4 for a timeout is log 66. -/
def Obligations.DeviceReductions : Prop :=
  (∀ (s : State) (f : FT),
    let td := Ten.of (s.T f.td)
    let ta := Ten.of (s.T f.ta)
    let x := s.X f.xs
    let fits (t : Ten) : Prop := t.kind = 1 ∧ t.fmt ∈ [8, 9, 11, 12]
    let legal := fits td ∧ fits ta ∧ ta.conforms td = true ∧ x.extractLsb' 48 16 = 0 ∧ x.extractLsb' 8 8 = 0 ∧ x.extractLsb' 0 8 ≠ 0
    s.Issues (.t 0x80 5 f) →
    (¬ legal → exec (.dred f) s = .next (s.takeTrap ⟨0x0104, 0, 0⟩))
    ∧ (legal → s.powered [td, ta] = .ok () → 4 ≤ s.thr.dreds → exec (.dred f) s = .next (s.withThr { s.thr with waiting := true }))
    ∧ (legal → s.powered [td, ta] = .ok () → s.thr.dreds < 4 → s.MayBegin (td.fp true ++ ta.fp false) →
        ∃ t o, exec (.dred f) s = .next (s.after (.t 0x80 5 f) t) ∧ s.oneMoreOp t o ∧ o.fps = td.fp true ∧ s.sameBytes t
          ∧ o.work = .dred (s.T f.td) (s.T f.ta) (decide (f.sat = 1)) x
              (ta.grid.map fun y => BitVec.ofNat 32 (s.elem ⟨ta, s.thr.plot, 0⟩ 0 y.1 y.2.1 y.2.2))))
  ∧ ∀ (s : State) (o : PlaneOp) (td ta : BitVec 256) (sat : Bool) (ctx : Word) (own : List (BitVec 32)),
    let x := s.atSlot s.input.slot
    let d : Place := ⟨Ten.of td, x.thr.plot, 0⟩
    let fmt := (Ten.of ta).fmt
    let ends (i : Instr) (cause : BitVec 16) (info : Word) : Prop := ∃ t : State, exec i s = .next t ∧ x.sameBytes t
      ∧ (∀ q ∈ t.thr.ops, q.no = o.no → q.work = .held)
      ∧ t.thr.term = some { cause := cause, pc := o.pc, time := s.time, info := info }
    x.opNamed s.input.unit = some o → o.work = .dred td ta sat ctx own → x.thr.term = none →
    ends .dredTimeout 0x0101 4
    ∧ ∀ port others, s.input.payload = .contributions port others → others.length = (ctx.extractLsb' 0 8).toNat → fmt < 32 →
      let all : List Contribution := ⟨port, BitVec.ofNat 5 fmt, own⟩ :: others
      (all.map (·.port)).Nodup →
      ((∃ c ∈ others, c.elems.length ≠ own.length ∨ c.fmt.toNat ≠ fmt) → ends .dredCombine 0x0104 0)
      ∧ ((∀ c ∈ others, c.elems.length = own.length ∧ c.fmt.toNat = fmt) → d.sound → own.length = d.t.grid.length →
          ∀ byPort : List Contribution, byPort.Perm all → byPort.Pairwise (fun p q => p.port < q.port) →
            let sum (k : Nat) : Val := match byPort.map fun c => elemValue fmt (c.elems.getD k 0).toNat with
              | [] => .fin false 0 0
              | v :: r => r.foldl (fun p q => fp32.value (fp32.result .rne false (Val.add .rne p q))) v
            ∃ t : State, exec .dredCombine s = .next t ∧ t.thr = { x.thr with ops := t.thr.ops }
              ∧ (∀ q ∈ t.thr.ops, q.no = o.no → q.work = .held)
              ∧ x.wroteElems t d (fun _ _ _ => true) fun k i j =>
                ((ffmt d.t.fmt).map fun F => F.result .rne sat (sum (d.t.grid.idxOf (k, i, j)))).getD 0)

/-! ### The matrix unit (13 R271-R289) -/

/-- R273-R280, R286: MSTREAM multiplies one of the format pairs: an FP64 or FP32 pair rounds once for each k, a BF16 or FP16 pair once
for each row of cells, and a narrow pair forms an exact value chunk by chunk, which its accumulator block takes; XC takes the status
word when the op completes. A void weight cell contributes nothing, and sums pass it unchanged (07 R168; log 24); void cells
are passed over in the search for the weights' format, and a rectangle of void cells alone traps SPACE (log 42). -/
def Obligations.MatrixProducts : Prop :=
  (∀ w a : Nat,
    let table : List (Nat × Nat × Nat × Nat × Nat × Nat × Nat × Bool) :=
      [(7, 7, 2, 1, 1, 7, 0, false), (8, 8, 2, 2, 1, 8, 1, false), (9, 9, 4, 4, 2, 8, 2, false), (10, 10, 4, 4, 2, 8, 2, false),
        (11, 11, 8, 8, 3, 16, 3, true), (11, 12, 8, 8, 3, 16, 3, true), (12, 11, 8, 8, 3, 16, 3, true), (12, 12, 8, 8, 3, 16, 3, true),
        (0, 0, 8, 8, 3, 16, 3, false), (13, 13, 16, 8, 4, 16, 3, true), (14, 11, 16, 8, 4, 16, 3, true), (14, 12, 16, 8, 4, 16, 3, true)]
    (pairOf w a).map (fun p => (p.kc, p.nc, p.alb, p.dfmt, p.dlbc, p.scales))
      = (table.find? fun x => x.1 = w && x.2.1 = a).map fun x => x.2.2)
  ∧ ∀ (s : State) (f : FQ),
    let ta := Ten.of (s.T f.ta)
    let tb := Ten.of (s.T f.tb)
    let td := Ten.of (s.T f.td)
    let tc : Option Ten := if f.tc = 0 then none else some (Ten.of (s.T f.tc))
    let pl := s.thr.plot
    let unit (y : Nat × Nat) : MUnit := s.munit (pl.cell y.1 y.2)
    let live (y : Nat × Nat) : Prop := s.isVoid (pl.cell y.1 y.2) = false
    let free := ∀ y ∈ tb.cells, (unit y).owner = none ∨ (unit y).owner = some s.thr.src.uid
    let weights (w : Nat) : Prop := w < 32 ∧ (∃ y ∈ tb.cells, live y)
      ∧ ∀ y ∈ tb.cells, live y → (unit y).owner = some s.thr.src.uid ∧ (unit y).active.fmt = some (BitVec.ofNat 5 w)
    let shapes (p : Pair) : Prop := ta.kind = 1 ∧ ta.lbr = p.alb ∧ ta.slices = 1 ∧ ta.row0 = tb.row0 ∧ ta.h = tb.h
      ∧ td.kind = (if p.dfmt = 16 then 2 else 1) ∧ td.fmt = p.dfmt ∧ td.lbc = p.dlbc ∧ td.slices = 1 ∧ td.col0 = tb.col0 ∧ td.w = tb.w
      ∧ td.rows = ta.cols ∧ ∀ c, tc = some c → p.scales = true ∧ c.kind = 1 ∧ c.fmt = 15 ∧ c.row0 = ta.row0 ∧ c.col0 = ta.col0
          ∧ c.h = ta.h ∧ c.w = ta.w ∧ c.lbr = 0 ∧ c.lbc = ta.lbc ∧ c.slices = 1
    s.Issues (.q 0x90 2 f) →
    (¬ (tb.kind = 1 ∧ free ∧ ∃ w p, weights w ∧ pairOf w ta.fmt = some p ∧ shapes p) →
      exec (.mstream f) s = .next (s.takeTrap ⟨0x0104, 0, 0⟩))
    ∧ ∀ w p, tb.kind = 1 → free → weights w → pairOf w ta.fmt = some p → shapes p → s.poweredAll td (ta :: tb :: tc.toList) = .ok () →
      let fps := td.fp true ++ ta.fp false ++ tc.toList.flatMap (fun t => t.fp false)
        ++ [⟨tb.row0, tb.row0 + tb.h, tb.col0, tb.col0 + tb.w, 256, 257, false⟩]
      let rows := s.E f.edm
      let cols := s.E f.edn
      let depth := s.E f.edk
      let mIn (m : Nat) : Bool := (rows.extractLsb' 0 16).toNat ≤ m && m < (rows.extractLsb' 16 16).toNat
      let nIn (n : Nat) : Bool := (cols.extractLsb' 32 16).toNat ≤ n && n < (cols.extractLsb' 48 16).toNat
      let ks : List Nat := (List.range (tb.h * p.kc)).filter fun k => (depth.extractLsb' 0 16).toNat ≤ k && k < (depth.extractLsb' 16 16).toNat
      let a (k m : Nat) : Val := elemValue ta.fmt (s.elem ⟨ta, pl, 0⟩ 0 0 k m)
      let cell (k n : Nat) : Nat := pl.cell (tb.row0 + k / p.kc) (tb.col0 + n / p.nc)
      let plane (k n : Nat) : WPlane := (s.munit (cell k n)).active
      let weight (k n : Nat) : Val :=
        let i := k % p.kc
        let j := n % p.nc
        if w = 14 then valOf ((cb2 ((plane k n).data.extractLsb' ((i / 8 * 8 + j) * 16) 16).toNat (plane k n).cblo.toNat
          (plane k n).cbhi.toNat).getD (i % 8) 0) (-2) false
        else elemValue w ((plane k n).data.extractLsb' ((i * p.nc + j) * fmtBits w) (fmtBits w)).toNat
      let product (m n k : Nat) : Val := (a k m).mul (weight k n)
      -- a void weight cell contributes nothing: sums pass it unchanged (07 R168)
      let live (n k : Nat) : Bool := !s.isVoid (cell k n)
      let F := if p.dfmt = 7 then fp64 else fp32
      let rnd (v : Val) : Val := F.value (F.result .rne false v)
      let wide (m n : Nat) : Val :=
        if p.kc = 4 then
          (List.range tb.h).foldl (fun q i => if ks.all (fun k => k / 4 ≠ i || !live n k) then q
            else rnd (Val.add .rne q (xsum .rne ((ks.filter fun k => k / 4 = i && live n k).map (product m n))))) (.fin true 0 0)
        else (ks.filter (live n)).foldl (fun q k => rnd (Val.add .rne (product m n k) q)) (.fin true 0 0)
      let chunk := min (sblkOf f.sba.toNat) (sblkOf f.sbb.toNat)
      let chunks := (tb.h * p.kc + chunk - 1) / chunk
      let ofChunk (c : Nat) : List Nat := ks.filter fun k => k / chunk = c
      let sa (k m : Nat) : Nat := (tc.map fun t => s.elem ⟨t, pl, 0⟩ 0 0 (k / p.kc) m).getD 127
      let sw (k n : Nat) : Nat := if p.scales = false ∨ s.isVoid (cell k n) = true then 127
        else ((plane k n).scales.extractLsb' (8 * (n % p.nc)) 8).toNat
      let nanScale (m n c : Nat) : Bool := (ofChunk c).any fun k => sa k m == 255 || sw k n == 255
      let plus (m n : Nat) (v : Machine.Dyadic) (k : Nat) : Machine.Dyadic := match product m n k with
        | .fin g c e => Machine.Dyadic.add v (if g then -(c : Int) else c, e + ((sa k m : Int) - 127 + ((sw k n : Int) - 127)))
        | _ => v
      let G (m n : Nat) : Machine.Dyadic := (List.range chunks).foldl (fun g c => round64
        (if nanScale m n c then g else Machine.Dyadic.add g (((ofChunk c).filter (live n)).foldl (plus m n) (0, 0)))) (0, 0)
      let meets (m n : Nat) (v : Val) : Bool := (List.range chunks).any fun c => !nanScale m n c && (ofChunk c).any fun k => live n k && product m n k = v
      let status (m n : Nat) : Nat := (if meets m n .nan then 1 else 0) + (if meets m n (.inf false) then 2 else 0)
        + if meets m n (.inf true) then 4 else 0
      let es (b : BlockId) : List (Nat × Nat) := (List.range 8).map (td.blockElem b)
      let row (b : BlockId) : Nat := (td.blockElem b 0).1
      let old (b : BlockId) : Acc := Acc.ofImage (s.blockImage td 0 b)
      let taken (b : BlockId) : List (Nat × Nat) := (es b).filter fun e => nIn e.2
      let up (b : BlockId) := (old b).update ((es b).map fun e => if nIn e.2 then G (row b) e.2 else (0, 0))
      let touched : List BlockId := td.blocks.filter fun b => !s.isVoid (pl.cell b.1.1 b.1.2) && mIn (row b) && !(taken b).isEmpty
      let some' (q : BlockId → Nat × Nat → Bool) : Nat := if touched.any (fun b => (taken b).any (q b)) then 1 else 0
      let word := (if touched.any (fun b => decide ((old b).e < (up b).1.e)) then 16 else 0)
        + (if touched.any (fun b => (up b).2.2) then 8 else 0)
        + 4 * some' (fun b e => 2 ≤ status (row b) e.2) + 2 * some' (fun b e => status (row b) e.2 % 2 = 1)
        + some' (fun b e => (List.range chunks).any (nanScale (row b) e.2))
      pl.row + pl.h ≤ 256 → pl.col + pl.w ≤ 256 → pl.sbase + pl.d ≤ 256 → td.row0 + td.h ≤ pl.h → td.col0 + td.w ≤ pl.w →
      td.layer + td.depth ≤ pl.d → td.depth = td.sr → td.lbr ≤ 5 → s.MayBegin fps →
      ∃ t o, exec (.mstream f) s = .next (s.after (.q 0x90 2 f) t) ∧ s.oneMoreOp t o ∧ o.work = .held ∧ o.fps = fps ∧ o.dest = f.xc
        ∧ (p.dfmt ≠ 16 → o.destVal = 0 ∧ s.wroteElems t ⟨td, pl, 0⟩ (fun _ m n => mIn m && nIn n) fun _ m n =>
            F.result .rne false (Val.add .rne (F.value (s.elem ⟨td, pl, 0⟩ 0 0 m n)) (wide m n)))
        ∧ (p.dfmt = 16 → o.destVal = BitVec.ofNat 64 word
            ∧ (∀ b ∈ touched, t.blockImage td 0 b = Acc.image ⟨(up b).1.m, (up b).1.e, (up b).1.flags,
                ((es b).zip ((up b).1.stat)).map fun x => x.2 ||| if nIn x.1.2 then status (row b) x.1.2 else 0⟩)
            ∧ (∀ b ∈ td.blocks, b ∉ touched → t.blockImage td 0 b = s.blockImage td 0 b)
            ∧ ∀ c r, r < 256 → ¬ (⟨td, pl, 0⟩ : Place).covers c r → t.row c r = s.row c r)

/-- R272, R284, R285: WLD loads a slice of weights, with their scales and magnitudes, into the shadow plane of every live cell of a
rectangle, claiming units that no plot holds and emptying them first; WSWAP exchanges the planes; a unit that another item holds
and operands that do not fit trap SPACE.
R287-R289: ACCZ clears blocks, ACCNRM lowers the exponent of a float block as far as its floor and its largest mantissa allow, and
ACCRD converts elements of blocks once, under an output scale: it reads TA at its slice 0 (log 42), and an integer-mode block converts as no
integer source does (log 66). The bytes of a plane beyond its slice are log 66. -/
def Obligations.MatrixUnits : Prop :=
  (
    ∀ (s : State) (f : FQ),
      let ta := Ten.of (s.T f.ta)
      let tb : Option Ten := if f.tb = 0 then none else some (Ten.of (s.T f.tb))
      let p := s.thr.plot
      let d := f.imm32.toNat
      let cell (y : Nat × Nat) : Nat := p.cell y.1 y.2
      let mine (c : Nat) : Prop := (s.munit c).owner = none ∨ (s.munit c).owner = some s.thr.src.uid
      let onPlane := p.row + p.h ≤ 256 ∧ p.col + p.w ≤ 256 ∧ ta.row0 + ta.h ≤ p.h ∧ ta.col0 + ta.w ≤ p.w
      let placed : List (Nat × Nat × Nat × Bool) := [(7, 1, 0, false), (8, 1, 1, false), (9, 2, 2, false), (10, 2, 2, false),
        (11, 3, 3, true), (12, 3, 3, true), (0, 3, 3, false), (13, 4, 3, true), (14, 1, 3, true)]
      let legal := ta.kind = 1 ∧ d < ta.slices ∧ ∃ scaled, (ta.fmt, ta.lbr, ta.lbc, scaled) ∈ placed
        ∧ ∀ b, tb = some b → scaled = true ∧ b.kind = 1 ∧ b.fmt = 15 ∧ b.row0 = ta.row0 ∧ b.col0 = ta.col0 ∧ b.h = ta.h ∧ b.w = ta.w
            ∧ b.lbr = 0 ∧ b.lbc = 3 ∧ b.slices = 1
      let rect (p0 p1 : Nat) (write : Bool) : Fp := ⟨ta.row0, ta.row0 + ta.h, ta.col0, ta.col0 + ta.w, p0, p1, write⟩
      let free := ∀ y ∈ ta.cells, mine (cell y)
      let does (fn : Nat) (i : Instr) (fps : List Fp) (new : Nat → MUnit → MUnit → Prop) : Prop := s.MayBegin fps →
        ∃ t o, exec i s = .next (s.after (.q 0x90 fn f) t) ∧ s.oneMoreOp t o ∧ o.work = .held ∧ o.fps = fps ∧ s.sameBytes t
          ∧ (∀ y ∈ ta.cells, s.isVoid (cell y) = false → new (cell y) (s.munit (cell y)) (t.munit (cell y)))
          ∧ ∀ c, (∀ y ∈ ta.cells, s.isVoid (cell y) = false → cell y ≠ c) → t.munit c = s.munit c
      (s.Issues (.q 0x90 0 f) →
        (¬ (legal ∧ free) → exec (.wld f) s = .next (s.takeTrap ⟨0x0104, 0, 0⟩))
        ∧ (legal → free → s.poweredAll ta tb.toList = .ok () → onPlane →
            does 0 (.wld f) (rect (ta.layer + d * ta.sr) (ta.layer + (d + 1) * ta.sr) false :: tb.toList.flatMap (fun t => t.fp false)
                ++ [rect 257 258 true])
              fun c u v => v.owner = some s.thr.src.uid ∧ v.active = (if u.owner = none then ({} : WPlane) else u.active)
                ∧ v.shadow.fmt = some (BitVec.ofNat 5 ta.fmt) ∧ v.shadow.cblo = BitVec.ofNat 4 ta.cblo ∧ v.shadow.cbhi = BitVec.ofNat 4 ta.cbhi
                ∧ (∀ k < ta.sr, k < 2 → v.shadow.data.extractLsb' (256 * k) 256 = (s.row c (p.sbase + ta.layer + d * ta.sr + k)).data)
                ∧ v.shadow.scales = (match tb with
                  | none => 0x7F7F7F7F7F7F7F7F
                  | some b => (s.row c (p.sbase + b.layer)).data.setWidth 64)))
      ∧ (s.Issues (.q 0x90 1 f) →
        (¬ (ta.own = true ∧ free) → exec (.wswap f) s = .next (s.takeTrap ⟨0x0104, 0, 0⟩))
        ∧ (ta.own = true → free → s.poweredAll ta [] = .ok () → onPlane →
            does 1 (.wswap f) [rect 256 258 true] fun _ u v => v = { u with active := u.shadow, shadow := u.active })))
  ∧ (
    ∀ (s : State) (f : FQ),
      let td := Ten.of (s.T f.td)
      let ta := Ten.of (s.T f.ta)
      let tc : Option Ten := if f.tc = 0 then none else some (Ten.of (s.T f.tc))
      let pl := s.thr.plot
      let inPlot (t : Ten) : Prop := pl.row + pl.h ≤ 256 ∧ pl.col + pl.w ≤ 256 ∧ pl.sbase + pl.d ≤ 256 ∧ t.row0 + t.h ≤ pl.h
        ∧ t.col0 + t.w ≤ pl.w ∧ t.layer + t.depth ≤ pl.d ∧ t.depth = t.slices * t.sr
      let blocks (fn : Nat) (i : Instr) (new : Acc → Acc → Prop) : Prop := s.Issues (.q 0x90 fn f) →
        (td.kind ≠ 2 → exec i s = .next (s.takeTrap ⟨0x0104, 0, 0⟩))
        ∧ (td.kind = 2 → s.poweredAll td [] = .ok () → inPlot td → td.fmt = 16 → s.MayBegin (td.fp true) →
            ∃ t o, exec i s = .next (s.after (.q 0x90 fn f) t) ∧ s.oneMoreOp t o ∧ o.work = .held ∧ o.fps = td.fp true
              ∧ (∀ d b, d < td.slices → b ∈ td.blocks → s.isVoid (pl.cell b.1.1 b.1.2) = false →
                  ∃ a : Acc, t.blockImage td d b = a.image ∧ new (Acc.ofImage (s.blockImage td d b)) a)
              ∧ ∀ c r, r < 256 → ¬ (⟨td, pl, 0⟩ : Place).covers c r → t.row c r = s.row c r)
      let zero : List Int := List.replicate 8 0
      let rows := s.E f.edm
      let cols := s.E f.edn
      let inside (i j : Nat) : Bool := (rows.extractLsb' 0 16).toNat ≤ i && i < (rows.extractLsb' 16 16).toNat
        && (cols.extractLsb' 32 16).toNat ≤ j && j < (cols.extractLsb' 48 16).toNat
      let scaleFits : Prop := ∀ x, tc = some x → x.kind = 1 ∧ x.fmt = 15 ∧ x.rows = td.rows
        ∧ x.cols = (td.cols + 16 * 2 ^ td.sblk - 1) / (16 * 2 ^ td.sblk) ∧ (x.slices = 1 ∨ x.slices = ta.slices)
      let fits := (td.kind = 1 ∨ td.kind = 3) ∧ ta.kind = 2 ∧ td.rows = ta.rows ∧ td.cols = ta.cols ∧ td.slices = 1 ∧ scaleFits
      let fps := td.fp true ++ ta.fp false ++ tc.toList.flatMap fun t => t.fp false
      blocks 3 (.accz f) (fun _ a => if f.flg.getLsbD 0 then a = ⟨zero, 0, 2, List.replicate 8 0⟩
        else a = ⟨zero, f.imm32.toInt, 0, List.replicate 8 0⟩)
      ∧ blocks 5 (.accnrm f) (fun o a =>
        (o.flags / 2 % 2 = 1 → a = o)
        ∧ (o.flags / 2 % 2 = 0 → o.m = zero → a = { o with e := min o.e f.imm32.toInt })
        ∧ (o.flags / 2 % 2 = 0 → o.m ≠ zero → ∀ k : Nat, (k = 0 ∨ ∀ v ∈ o.m, |v| * 2 ^ k < 2 ^ 46) → (∃ v ∈ o.m, 2 ^ 46 ≤ |v| * 2 ^ (k + 1)) →
            ∀ e, e = min o.e (max f.imm32.toInt (o.e - k)) → a = { o with m := o.m.map fun v => v * 2 ^ (o.e - e).toNat, e := e }))
      ∧ (s.Issues (.q 0x90 4 f) →
        (td.fmt = 14 ∨ td.fmt = 16 → exec (.accrd f) s = .next (s.takeTrap ⟨0x0003, 0, 0⟩))
        ∧ (td.fmt ≠ 14 → td.fmt ≠ 16 → ¬ fits → exec (.accrd f) s = .next (s.takeTrap ⟨0x0104, 0, 0⟩))
        ∧ (td.fmt ≠ 14 → td.fmt ≠ 16 → fits → s.poweredAll td (ta :: tc.toList) = .ok () → (⟨td, pl, 0⟩ : Place).sound → s.MayBegin fps →
            ∃ t o, exec (.accrd f) s = .next (s.after (.q 0x90 4 f) t) ∧ s.oneMoreOp t o ∧ o.work = .held ∧ o.fps = fps
              ∧ s.wroteElems t ⟨td, pl, 0⟩ (fun _ i j => inside i j) fun _ i j =>
                  let e := i % ta.ebr * ta.ebc + j % ta.ebc
                  let out : Option Nat := tc.map fun x => s.elem ⟨x, pl, 0⟩ 0 0 i (j / (16 * 2 ^ td.sblk))
                  convertTo td.fmt (Mode.ofCode (f.flg.extractLsb' 0 3).toNat) (f.flg.getLsbD 3) false
                    (if out = some 255 then .nan
                     else match (Acc.ofImage (s.blockImage ta 0 ((ta.row0 + i / ta.ebr, ta.col0 + j / ta.ebc), e / 8))).elem (e % 8) with
                       | .fin g m x => .fin g m (x + (out.map fun b => 127 - (b : Int)).getD 0)
                       | v => v))))

/-! ### Copies (06 R139-R160) -/

/-- R139, R145, R153-R157: a copy that passes its checks in their order captures its operands and enters its channel, and waits for a
place there and for a scoreboard entry; CPM checks its ranges, and one of no bytes completes at once (log 41: after its checks, ahead of
older copies). R141: what stands at the head of a channel and needs no engine is passed, unless the copies of the item are to stop. The
group, the root and the mode of the issue are captured (logs 41 and 10).
R148, R158-R160: SEAL marks the unmarked copies with the next batch and returns it, WAITB waits until at most so many batches are
unfinished, WPTR returns the units delivered and the copies completed, CPSTAT what is queued. -/
def Obligations.CopyForms : Prop :=
  (
    ∀ (s : State) (f : FQ),
      let td := Ten.of (s.T f.td)
      let ta := Ten.of (s.T f.ta)
      let tb := Ten.of (s.T f.tb)
      let tc : Option Ten := if f.tc = 0 then none else some (Ten.of (s.T f.tc))
      let e := s.E f.edm
      let p := s.thr.plot
      let k := f.ch.toNat
      let traps (i : Instr) (c : BitVec 16) : Prop := exec i s = .next (s.takeTrap ⟨c, 0, 0⟩)
      let enters (fn : Nat) (i : Instr) (new : Copy → Prop) : Prop :=
        ((s.chan k).queue.length < 8 → s.entryFree = true →
          ∃ (t : State) (c : Copy), exec i s = .next (s.after (.q 0xA0 fn f) (t.passHead k)) ∧ new c
          ∧ c.no = s.opNo + 1 ∧ c.pc = s.thr.pc ∧ c.slack = f.slack ∧ c.slack0 = f.slack ∧ c.units = 0 ∧ c.part = 0 ∧ c.batch = none
          ∧ c.written = 0 ∧ c.ordinal = (s.chan k).ordinal + 1 ∧ c.gid = s.curGid ∧ c.buffered = false ∧ c.sectorsAsked = false
          ∧ c.cover = [] ∧ c.ahead = [] ∧ c.root = s.thr.root ∧ c.priv = s.thr.priv
          ∧ t.chan k = { s.chan k with queue := (s.chan k).queue ++ [c], ordinal := (s.chan k).ordinal + 1 }
          ∧ t.thr = { s.thr with chans := t.thr.chans, unsealed := s.thr.unsealed + 1 }
          ∧ (∀ j, j ≠ k → t.chan j = s.chan j) ∧ s.sameBytes t)
        ∧ (8 ≤ (s.chan k).queue.length ∨ s.entryFree = false → exec i s = .next (s.withThr { s.thr with waiting := true }))
      let unit (fmt : Nat) : Nat := if fmt = 16 then 64 else max 1 (fmtBits fmt / 8)
      let cpio (fn : Nat) (i : Instr) (kind : CopyKind) (pl m : Ten) : Prop := s.Issues (.q 0xA0 fn f) →
        let base : Word := BitVec.ofNat 64 m.base + s.X f.xa
        let fits := pl.own = true ∧ m.kind = 4 ∧ pl.fmt = m.fmt ∧ (pl.fmt = 16 → pl.cols % 8 = 0 ∧ pl.cutsBlock e = false)
        let aligned := base.toNat % unit pl.fmt = 0 ∧ m.stride % unit pl.fmt = 0 ∧ f.imm32.toNat % unit pl.fmt = 0
        (¬ fits → traps i 0x0104) ∧ (fits → ¬ aligned → traps i 0x0103)
        ∧ (fits → aligned → pl.inPlot p = false → traps i 0x0201)
        ∧ (fits → aligned → pl.inPlot p = true → s.touchesOff pl = true → traps i 0x0202)
        ∧ (fits → aligned → pl.inPlot p = true → s.touchesOff pl = false → enters fn i fun c => c.kind = kind ∧ c.total = pl.rows
            ∧ c.td = s.T f.td ∧ c.ta = s.T f.ta ∧ c.edge = e ∧ c.addend = s.X f.xa ∧ c.stride = f.imm32.signExtend 64)
      let gather (fn : Nat) (i : Instr) (kind : CopyKind) (d : Ten) : Prop := s.Issues (.q 0xA0 fn f) →
        let fits := d.kind = 1 ∧ d.depth = 1 ∧ tb.kind = 1 ∧ tb.fmt = 6 ∧ tb.lbr = 0 ∧ tb.lbc = 1 ∧ tb.h = d.h ∧ tb.w = d.w
          ∧ ∀ t, tc = some t → t.kind = 3 ∧ t.h = d.h ∧ t.w = d.w ∧ t.lbr = d.lbr ∧ t.lbc = d.lbc
        let inside := ∀ t ∈ d :: tb :: tc.toList, t.inPlot p = true
        let off := ∃ t ∈ d :: tb :: tc.toList, s.touchesOff t = true
        (¬ fits → traps i 0x0104) ∧ (fits → ¬ inside → traps i 0x0201) ∧ (fits → inside → off → traps i 0x0202)
        ∧ (fits → inside → ¬ off → enters fn i fun c => c.kind = kind ∧ c.total = 1 ∧ c.td = s.T f.td ∧ c.ta = s.T f.ta ∧ c.tb = s.T f.tb
            ∧ c.tc = s.T f.tc)
      let src := s.X f.xa
      let dst := s.X f.xb
      let n := (s.X f.xc).toNat
      let pointer (a : Word) : Prop := rankOf a = 0 ∧ (spaceOf a = 0 ∨ spaceOf a = 1 ∧ offsetOf a / 2 ^ 29 = 0)
      let row (a : Word) : Nat := offsetOf a / 2 ^ 21 % 256
      let col (a : Word) : Nat := offsetOf a / 2 ^ 13 % 256
      let held (a : Word) : Prop := spaceOf a = 1 → row a < p.h ∧ col a < p.w ∧ offsetOf a % 2 ^ 13 + n ≤ 32 * p.d
      let cold (a : Word) : Prop := spaceOf a = 1 ∧ s.isOff (p.cell (row a) (col a)) = true
      cpio 0 (.cpin f) .cpin td ta ∧ cpio 1 (.cpout f) .cpout ta td ∧ gather 2 (.cpg f) .cpg td ∧ gather 3 (.cps f) .cps ta
      ∧ (s.Issues (.q 0xA0 4 f) →
        let fits := (td.own = true ∨ td.member = true) ∧ (ta.own = true ∨ ta.member = true) ∧ td.fmt = ta.fmt ∧ td.rows = ta.rows
          ∧ td.cols = ta.cols ∧ td.slices = ta.slices ∧ (td.fmt = 16 → td.cutsBlock e = false ∧ ta.cutsBlock e = false)
        let grouped := td.member = true ∨ ta.member = true → s.curGroup.isSome = true
        let ranked := ∀ t, t = td ∨ t = ta → t.member = true → ∀ g, s.curGroup = some g → t.rank < g.next ∧ (g.member t.rank).isSome = true
        let inside := ∀ t, t = td ∨ t = ta → t.own = true → t.inPlot p = true
        let off := s.touchesOff td = true ∨ s.touchesOff ta = true
        (¬ fits → traps (.cpp f) 0x0104)
        ∧ (fits → ¬ grouped → exec (.cpp f) s = .next (s.takeTrap ⟨0x0302, 0, 1⟩))
        ∧ (fits → grouped → ¬ ranked → traps (.cpp f) 0x0105)
        ∧ (fits → grouped → ranked → ¬ inside → traps (.cpp f) 0x0201)
        ∧ (fits → grouped → ranked → inside → off → traps (.cpp f) 0x0202)
        ∧ (fits → grouped → ranked → inside → ¬ off → s.cppOverlap td ta = true → traps (.cpp f) 0x0104)
        ∧ (fits → grouped → ranked → inside → ¬ off → s.cppOverlap td ta = false → enters 4 (.cpp f) fun c => c.kind = .cpp
            ∧ c.total = td.rows ∧ c.td = s.T f.td ∧ c.ta = s.T f.ta ∧ c.edge = e))
      ∧ (s.Issues (.q 0xA0 5 f) →
        (¬ (n < 2 ^ 40 ∧ pointer src ∧ pointer dst) → traps (.cpm f) 0x0104)
        ∧ (n < 2 ^ 40 → pointer src → pointer dst → ¬ (held src ∧ held dst) → traps (.cpm f) 0x0201)
        ∧ (n < 2 ^ 40 → pointer src → pointer dst → held src → held dst → cold src ∨ cold dst → traps (.cpm f) 0x0202)
        ∧ (n < 2 ^ 40 → pointer src → pointer dst → held src → held dst → ¬ (cold src ∨ cold dst) →
            (n ≠ 0 → enters 5 (.cpm f) fun c => c.kind = .cpm ∧ c.src = src ∧ c.dst = dst ∧ c.len = n ∧ c.total = (n + 31) / 32)
            ∧ (n = 0 → 8 ≤ (s.chan k).queue.length ∨ s.entryFree = false →
                exec (.cpm f) s = .next (s.withThr { s.thr with waiting := true }))
            ∧ (n = 0 → (s.chan k).queue.length < 8 → s.entryFree = true → ∃ t : State, exec (.cpm f) s = .next (s.after (.q 0xA0 5 f) t)
                ∧ t.chan k = { s.chan k with ordinal := (s.chan k).ordinal + 1, done := (s.chan k).done + 1 }
                ∧ t.thr = { s.thr with chans := t.thr.chans, unsealed := s.thr.unsealed + 1 } ∧ s.sameBytes t)))
      ∧ (∀ c, (s.chan k).queue.head? = some c → c.masked = false → c.units < c.total → s.passHead k = s)
      ∧ (s.thr.term.isSome = true ∨ s.thr.preempt = .flush ∧ s.rewound.flushable = true ∧ s.curDbg.stopped = false → s.passHead k = s)
      ∧ (∀ c, (s.chan k).queue = [c] → c.kind = .cpin ∨ c.kind = .cpout ∨ c.kind = .cpp → c.sectorsAsked = false → s.thr.tracedItem = false →
          s.thr.term = none → (s.thr.preempt = .flush → s.thr.priv = true ∨ s.curDbg.stopped = true) → c.units ≤ c.total → (∀ u, c.units ≤ u → u < c.total → c.grid.unitElems c.edge u = []) →
          (s.passHead k).chan k = { s.chan k with queue := [], wp := (s.chan k).wp + BitVec.ofNat 32 (c.total - c.units)
                                                  done := (s.chan k).done + 1 } ∧ s.sameBytes (s.passHead k)))
  ∧ (
    ∀ (s : State) (f : FQ),
      let k := f.ch.toNat
      let h := s.chan k
      let open' := ∃ j, j < 4 ∧ ∃ c ∈ (s.chan j).queue, c.batch = none
      let b := s.thr.batchNo + 1
      let wptr : Word := BitVec.ofNat 64 (h.done.toNat * 2 ^ 32 + h.wp.toNat)
      let stat : Word := BitVec.ofNat 64 ((h.queue.head?.map fun c => c.slack.toNat).getD 0 * 2 ^ 52 + s.thr.unsealed.toNat * 2 ^ 32
        + s.thr.batches.length % 65536 * 2 ^ 16 + h.queue.length % 16)
      s.thr.tracedItem = false →
      (s.Issues (.q 0xA0 6 f) →
        (open' → 16 ≤ s.thr.batches.length → exec (.seal f) s = .next (s.withThr { s.thr with waiting := true }))
        ∧ (¬ open' ∨ s.thr.batches.length < 16 → ∃ t : State, exec (.seal f) s = .next (s.after (.q 0xA0 6 f) (t.setX f.xc (b.setWidth 64)))
            ∧ t.thr = { s.thr with batchNo := b, unsealed := 0, chans := t.thr.chans, batches := t.thr.batches }
            ∧ (open' → t.thr.batches = s.thr.batches ++ [b]) ∧ (¬ open' → t.thr.batches = s.thr.batches)
            ∧ ∀ j, t.chan j = { s.chan j with
                queue := (s.chan j).queue.map fun c => if c.batch = none then { c with batch := some b } else c }))
      ∧ (s.Issues (.q 0xA0 7 f) →
        if s.thr.batches.length ≤ f.imm32.toNat then exec (.waitb f) s = .next (s.after (.q 0xA0 7 f) s)
        else exec (.waitb f) s = .next (s.withThr { s.thr with waiting := true }))
      ∧ (s.Issues (.q 0xA0 8 f) → exec (.wptr f) s = .next (s.after (.q 0xA0 8 f) (s.setX f.xc wptr)))
      ∧ (s.Issues (.q 0xA0 9 f) → exec (.cpstat f) s = .next (s.after (.q 0xA0 9 f) (s.setX f.xc stat))))

/-- R141, R142, R147, R153-R157: what a step of a copy moves: CPIN elements of one row of the grid from memory, CPOUT to it, CPP from one
plot to another, CPM up to 32 bytes, and CPG and CPS the bytes that each cell's pointer and count name; the elements of an aligned 4-byte
unit move together, and no more than the burst holds. An ACC48 image is written with EXP sign-extended and its reserved bits 0 (10 R246).
R149: a poisoned sector that a copy has written whole loses its poison. A copy translates under the root of its issue, and its pointers in
the group captured then (logs 10 and 41).
R142, R148, R150, R151, R155, R159: a burst serves the ready copy with the least slack, of equals the earliest issued; the last unit of a
copy completes it, a unit that faults ends the item with a report of the copy, and a copy of an item that is to stop is dropped; the slack
of a copy that waits falls by one; each sector of a gather fills the 4-byte units of the cells whose last byte it brings, and the last one
completes it. -/
def Obligations.CopyWork : Prop :=
  (
    ∀ (s : State) (c : Copy) (budget : Nat),
      let x := s.withRoot c.root
      let dt := Ten.of c.td
      let at' := Ten.of c.ta
      let addr (m : Ten) (w d i j : Nat) : Word :=
        BitVec.ofNat 64 m.base + c.addend + BitVec.ofNat 64 d * c.stride + BitVec.ofNat 64 (i * m.stride + j * w / 8)
      let size := fmtBits c.grid.words.fmt
      let xs := c.picked budget
      let grid := c.kind = .cpin ∨ c.kind = .cpout ∨ c.kind = .cpp
      let live (p : Place) : List (Nat × Nat × Nat) := xs.filter fun y => c.kind == .cpout || !x.elemVoid p y.1 y.2.1 y.2.2
      let moves (p : Place) (t : State) (new : Nat → Nat → Nat → Nat) : Prop :=
        (∀ d i j, (d, i, j) ∈ p.t.grid → t.elem p 0 d i j = if (d, i, j) ∈ xs ∧ s.elemVoid p d i j = false
          then c.grid.copied i j (new d i j) % 2 ^ fmtBits p.t.fmt else s.elem p 0 d i j)
        ∧ ∀ k r, r < 256 → ¬ p.covers k r → (t.row k r).data = (s.row k r).data
      let after (t : State) (c' : Copy) (left : Nat) : Prop := s.serveUnit c budget = .on (t.withRoot s.thr.root) c' left
      let ended (d : Copy) : Copy := { d with units := d.units + 1, part := 0, ahead := d.ahead.filter fun y => d.units < y.2.1 }
      let delivers (c0 : Copy) (P : State → Prop) : Prop := ∃ (t : State) (c' : Copy) (left : Nat), after t c' left ∧ P t
        ∧ c' = { ended c0 with written := c'.written, cover := c'.cover }
      -- the elements that `xs` names are moved, to or from a place of that many of them that are not void
      let serves (p : Place) (P : State → Prop) : Prop := ∃ (t : State) (d : Copy), P t
        ∧ d = { c with ahead := c.ahead ++ xs, part := c.part + xs.length, written := c.written + ((live p).length * size + 7) / 8, cover := d.cover }
        ∧ if d.todo = [] then after t (ended d) (budget - xs.length * size) else after t d 0
      -- what is picked (R142, R147)
      (grid → size ≠ 0 → xs.length * size ≤ budget ∧ (∀ y ∈ xs, y ∈ c.rest)
        ∧ ((∀ y ∈ c.todo, (c.with4 y).length * size ≤ 32768) → ∀ y ∈ xs, ∀ z ∈ c.with4 y, z ∈ xs)
        ∧ ((c.todo.flatMap c.with4).length * size ≤ budget → ∀ y ∈ c.todo, y ∈ xs))
      ∧ (grid → c.todo = [] → after x (ended c) budget)
      ∧ (grid → c.todo ≠ [] → xs = [] → after x c 0)
      ∧ (c.kind = .cpin → c.todo ≠ [] → xs ≠ [] → ∀ p, x.copyPlace c dt xs = .ok p → p.sound →
        let w := fmtBits p.t.fmt
        let n := (w + 7) / 8
        ∀ s1 bs, x.copyRead (xs.flatMap fun y => (List.range n).map fun k => addr at' w y.1 y.2.1 y.2.2 + BitVec.ofNat 64 k) = .ok (s1, bs) →
          serves p fun t => moves p t fun d i j => leNat ((bs.drop (xs.idxOf (d, i, j) * n)).take n) / 2 ^ (j * w % 8))
      ∧ (c.kind = .cpout → c.todo ≠ [] → xs ≠ [] → ∀ p, x.copyPlace c at' xs = .ok p → 8 ≤ fmtBits p.t.fmt →
        (∀ y ∈ xs, s.elemPoison p 0 y.1 y.2.1 y.2.2 = false) →
        let w := fmtBits p.t.fmt
        let bytes := xs.flatMap fun y => (List.range (w / 8)).map fun k =>
          (addr dt w y.1 y.2.1 y.2.2 + BitVec.ofNat 64 k, BitVec.ofNat 8 (at'.copied y.2.1 y.2.2 (s.elem p 0 y.1 y.2.1 y.2.2) / 256 ^ k))
        (bytes.map (·.1)).Nodup → ∀ s1 ls, x.agentLocs (some s.cl) x.thr.root x.thr.vf true (bytes.map (·.1)) = .ok (s1, ls) →
          let u := (bytes.zip ls).foldl (fun v b => v.putBytes [⟨b.2.1, b.1.2, b.2.2⟩]) s1
          let hit := (ls.map (·.1)).filter fun l => s1.isPoisoned l
          serves p fun t => t = if hit = [] then u else u.clearPoison (c.cover ++ hit))
      ∧ (c.kind = .cpp → c.todo ≠ [] → xs ≠ [] → ∀ p q, x.copyPlace c dt xs = .ok p → x.copyPlace c at' xs = .ok q → p.sound →
        (∀ y ∈ xs, s.elemPoison q 0 y.1 y.2.1 y.2.2 = false) → serves p fun t => moves p t fun d i j => s.elem q 0 d i j)
      ∧ (c.kind = .cpm →
        let o := 32 * c.units + c.part
        let n := min 32 (c.len - 32 * c.units) - c.part
        let q := c.cpmTake budget
        let lacks := (4 - (c.dst.toNat + o + n) % 4) % 4
        (q ≤ n ∧ 8 * q ≤ budget ∧ (q = 0 ∨ (c.dst.toNat + o + q) % 4 = 0 ∨ q = n ∧ 8 * (n + min lacks (c.len - (o + n))) ≤ budget))
        ∧ (c.part = 0 → c.buffered = false → (c.dst.toNat + c.len ≤ c.src.toNat ∨ c.src.toNat + c.len ≤ c.dst.toNat) → n ≠ 0 → q = n →
          let a := c.src + BitVec.ofNat 64 o
          let b := c.dst + BitVec.ofNat 64 o
          ∀ s1 s2 nm to', x.resolveBytes { watch := false } a (bytesOf a n) = .ok (s1, nm) →
            nm.locs.length = n →
            s1.resolveBytes { store := true, reads := false, data := false, watch := false } b (bytesOf b n) = .ok (s2, to') →
            delivers c fun t => (s2.putBytes ((to'.locs.zip (s1.getBytes nm.locs)).map fun y => ⟨y.1.1, y.2, y.1.2⟩)).sameBytes t))
      ∧ (c.kind = .cpg → ∀ gs, s.gathersOf dt (Ten.of c.tb) (if c.tc = 0 then none else some (Ten.of c.tc)) = .ok gs →
        (gs.map (s.gatherRow dt)).Nodup → (∀ g ∈ gs, (s.gatherRow dt g).2 < 256) →
        ∃ (t : State) (c' : Copy), after t c' 0
          ∧ c' = { c with gathers := gs, sectors := c'.sectors, sectorsAsked := true, written := (gs.map fun g => 32 - 4 * ((g.n + 3) / 4)).sum }
          ∧ (∀ q, q ∈ c'.sectors ↔ ∃ g ∈ gs, ∃ k < g.n, (g.ptr + BitVec.ofNat 64 k).toNat / 32 = q)
          ∧ ∀ g ∈ gs, (t.row (s.gatherRow dt g).1 (s.gatherRow dt g).2).data
              = (s.row (s.gatherRow dt g).1 (s.gatherRow dt g).2).data &&& BitVec.ofNat 256 (2 ^ (32 * ((g.n + 3) / 4)) - 1))
      ∧ (c.kind = .cps → ∀ g w r,
        (c.buffered = true ∧ c.gathers = [g]
          ∨ c.buffered = false ∧ c.part = 0 ∧ s.gathersOf at' (Ten.of c.tb) (if c.tc = 0 then none else some (Ten.of c.tc)) = .ok [g]) →
        g.n ≤ 32 → (blocksOf 4 [g]).drop c.part = w :: r →
        let ks := (List.range g.n).filter fun k => (g.ptr + BitVec.ofNat 64 k).toNat / 4 = w
        let cell := s.gatherRow at' g
        let row := s.row cell.1 cell.2
        8 * ks.length ≤ budget → budget < 8 * (ks.length + 1) → s.isVoid cell.1 = false → row.poison = false →
        ∀ s1 ls, x.pointerLocs c.gid true (ks.map fun k => g.ptr + BitVec.ofNat 64 k) = .ok (s1, ls) →
          let u := s1.putBytes ((ls.zip ks).map fun y => ⟨y.1.1, row.data.extractLsb' (8 * y.2) 8, y.1.2⟩)
          let hit := (ls.map (·.1)).filter fun l => s1.isPoisoned l
          let d : Copy := { c with gathers := [g], buffered := true, written := c.written + ks.length, part := c.part + 1
                                   cover := if hit = [] then c.cover else c.cover ++ hit }
          after (if hit = [] then u else u.clearPoison (c.cover ++ hit)) (if r = [] then ended d else d) 0))
  ∧ (
    (∀ (s : State) (die : Nat),
      (∀ k n c, (k, n, c) ∈ s.readyCopies die ↔ k ∈ s.liveSlots ∧ dieOf (slotCluster k) = die ∧ n < 4
        ∧ ((s.atSlot k).chan n).queue.head? = some c ∧ (s.atSlot k).copyReady c = true)
      ∧ (s.readyCopies die).Pairwise fun y z => y.2.2.slack < z.2.2.slack ∨ y.2.2.slack = z.2.2.slack ∧ y.2.2.no ≤ z.2.2.no)
    ∧ (∀ (s : State) (k : SlotNo) (n : Nat) (c : Copy),
      let x := s.atSlot k
      let stops := x.thr.term.isSome = true ∨ x.thr.preempt = .flush ∧ x.rewound.flushable = true ∧ x.curDbg.stopped = false
      s.input.aux < 16 → (s.readyCopies s.input.unit)[s.input.aux]? = some (k, n, c) → n < 4 → c.units < c.total →
      x.thr.tracedItem = false → (∀ d, (x.chan n).queue[1]? = some d → d.masked = false ∧ d.units < d.total) →
      (c.part = 0 → stops → ∃ t : State, exec .copyBurst s = .next t
        ∧ (t.chan n).queue.length + 1 = (x.chan n).queue.length ∧ (t.chan n).done = (x.chan n).done ∧ (t.chan n).wp = (x.chan n).wp ∧ x.sameBytes t)
      ∧ (¬ stops →
        (∀ s' c' left, x.serveUnit c 32768 = .on s' c' left → s'.thr = x.thr → s'.cur = x.cur → c'.total = c.total →
          (c'.sectorsAsked = false ∧ c'.units = c.total ∧ c.total = c.units + 1
            ∨ c'.sectorsAsked = true ∧ c'.sectors = [] ∧ c'.units = c.units ∧ c.total = c.units + 1) →
          ∃ t : State, exec .copyBurst s = .next t ∧ s'.sameBytes t
            ∧ (t.chan n).queue.length + 1 = (x.chan n).queue.length ∧ (t.chan n).done = (x.chan n).done + 1
            ∧ (t.chan n).wp = (x.chan n).wp + 1 ∧ ∀ j, j ≠ n → t.chan j = x.chan j)
        ∧ (∀ s' c' left, x.serveUnit c 32768 = .on s' c' left → c'.sectorsAsked = true → c'.sectors ≠ [] → s'.thr = x.thr → s'.cur = x.cur →
            ∃ (t : State) (d : Copy), exec .copyBurst s = .next t ∧ (t.chan n).queue.head? = some d ∧ d = { c' with slack := d.slack }
              ∧ (t.chan n).done = (x.chan n).done ∧ s'.sameBytes t)))
    ∧ (∀ (s : State) (k : SlotNo) (n : Nat) (c : Copy) (s' : State) (c' : Copy) (tr : Trap),
      let x := s.atSlot k
      let stops := x.thr.term.isSome = true ∨ x.thr.preempt = .flush ∧ x.rewound.flushable = true ∧ x.curDbg.stopped = false
      s.input.aux < 16 → (s.readyCopies s.input.unit)[s.input.aux]? = some (k, n, c) → n < 4 → c.units < c.total → ¬ stops →
      x.serveUnit c 32768 = .fault s' c' tr → s'.thr = x.thr → s'.cur = x.cur →
      ∃ t : State, exec .copyBurst s = .next t ∧ s'.sameBytes t
        ∧ (t.chan n).queue.map (·.no) = ((x.chan n).queue.drop 1).map (·.no) ∧ (t.chan n).done = (x.chan n).done
        ∧ t.thr.term = some { cause := tr.cause, pc := c'.pc, addr := tr.addr, count := BitVec.ofNat 64 c'.written
                              ordinal := c'.ordinal, detail := BitVec.ofNat 32 n, time := s'.time })
    ∧ ∀ s : State,
      let x := s.atSlot s.input.slot
      let k := s.input.unit
      ∀ c, k < 4 → (x.chan k).queue.head? = some c →
      (x.copyReady c = true → c.slack ≠ 0 → ∃ t : State, exec .copySlackDecay s = .next t
        ∧ t.chan k = { x.chan k with queue := { c with slack := c.slack - 1 } :: (x.chan k).queue.drop 1 }
        ∧ t = x.withThr { x.thr with chans := t.thr.chans })
      ∧ ∀ g, c.sectorsAsked = true → s.input.aux ∈ c.sectors → c.gathers = [g] → x.thr.tracedItem = false → g.n ≤ 32 →
        (∀ d, (x.chan k).queue[1]? = some d → d.masked = false ∧ d.units < d.total) →
        let open' := setDel s.input.aux c.sectors
        let sector (i : Nat) : Nat := (g.ptr + BitVec.ofNat 64 i).toNat / 32
        -- the bytes of the 4-byte units that this sector completes
        let bytes := (List.range g.n).filter fun i => (List.range g.n).any (fun j => j / 4 == i / 4 && sector j == s.input.aux)
          && (List.range g.n).all fun j => j / 4 != i / 4 || !open'.contains (sector j)
        let units := (List.range 8).filter fun w => bytes.any fun i => i / 4 == w
        let cell := x.gatherRow (Ten.of c.td) g
        let kept (d : Copy) : Prop := d = { c with sectors := open', written := c.written + 4 * units.length }
        cell.2 < 256 →
        (bytes = [] → open' ≠ [] → ∃ (t : State) (d : Copy), exec .cpgSectorArrival s = .next t ∧ x.sameBytes t
          ∧ (t.chan k).queue.head? = some d ∧ kept d)
        ∧ (bytes ≠ [] → ∀ s1 ls, (x.withRoot c.root).pointerLocs c.gid false (bytes.map fun i => g.ptr + BitVec.ofNat 64 i) = .ok (s1, ls) →
          s1.thr = (x.withRoot c.root).thr → s1.rows = x.rows → s1.cur = x.cur → s1.isVoid cell.1 = false → ls.length = bytes.length →
          ∃ t : State, exec .cpgSectorArrival s = .next t
            ∧ (∀ i b, (i, b) ∈ bytes.zip (s1.getBytes ls) → (t.row cell.1 cell.2).data.extractLsb' (8 * i) 8 = b)
            ∧ (∀ i < 32, i ∉ bytes → (t.row cell.1 cell.2).data.extractLsb' (8 * i) 8
                = if i / 4 ∈ units then 0 else (x.row cell.1 cell.2).data.extractLsb' (8 * i) 8)
            ∧ (open' = [] → (t.chan k).done = (x.chan k).done + 1
                ∧ (t.chan k).queue = (x.chan k).queue.drop 1 ∧ (t.row cell.1 cell.2).poison = false)
            ∧ (open' ≠ [] → (t.chan k).done = (x.chan k).done ∧ ∃ d : Copy, (t.chan k).queue.head? = some d ∧ kept d)))

/-! ### Bank engines (05 R109-R138) -/

/-- R127, R130, R131, R133, R134, R136: BKLOAD and BKACT read their source as loads of the thread and enter a command in the queue of
every stack that their set reaches; BKWAIT waits for the calls up to a token, or for all; BKSTAT returns an engine's status word.
A set that is not one, and an engine of another partition, trap SPACE.
R112, R127, R132, R135, R136: BKCALL releases the thread's stores, reads its block, checks every region of every engine and its
send tensor, and enters a call with the next token, which it returns; a thread has at most 16 calls. QDEPTH counts the running call (log
22), and where BKACT's rule names no EADDR the source pointer is given (log 66). -/
def Obligations.BankForms : Prop :=
  (
    ∀ (s : State) (f : FQ),
      let set := s.X f.xb
      let first := set.toNat % 1024
      let count := set.toNat / 2 ^ 10 % 1024
      let stride := set.toNat / 2 ^ 20 % 1024
      let range : List Nat := (List.range count).map fun i => first + i * stride
      let isSet := set.toNat / 2 ^ 30 = 0 ∧ count ≠ 0 ∧ stride ≠ 0 ∧ count ≤ 768 ∧ first + (count - 1) * stride ≤ 767
      let mine (e : Nat) : Prop := e ≤ 767 ∧ (s.engine (BitVec.ofNat 10 e)).part = some s.thr.part
      let waits (i : Instr) (u : State) : Prop := exec i s = .next (u.withThr { u.thr with waiting := true })
      let queued (u t : State) (es : List Nat) (kind : CmdKind) : Prop := t.thr = u.thr ∧ t.calls = u.calls
        ∧ ∀ k, NMap.get [] t.cmdq k = NMap.get [] u.cmdq k ++ if ∃ e ∈ es, e / 64 = k
            then [{ uid := u.thr.src.uid, no := u.opNo + 1, kind := kind, left := es.filter fun e => e / 64 = k }] else []
      let commands (fn : Nat) (i : Instr) (src : Word) (n : Nat) (kind : List Byte → CmdKind) : Prop :=
        (s.thr.openOuts ≠ [] → waits i s)
        ∧ (s.thr.openOuts = [] → f.flg.getLsbD 0 = false → ¬ (isSet ∧ ∀ e ∈ range, mine e) → exec i s = .next (s.takeTrap ⟨0x0104, 0, 0⟩))
        ∧ (s.thr.openOuts = [] → ∀ s1 es s2 bs, s.bankSet f = .ok (s1, es) → s1.bankLoad 0 src n = .ok (s2, bs) →
            (f.flg.getLsbD 0 = false → s1 = s ∧ es = range)
            ∧ (s2.queueRoom es = true → ∃ t : State, exec i s = .next (s.after (.q 0xB0 fn f) t) ∧ queued s2 t es (kind bs))
            ∧ (s2.queueRoom es = false → waits i s2))
      let h := s.X f.xa
      let va := h.toNat % 2 ^ 48
      let n := h.toNat / 2 ^ 48
      let off := f.imm32.toNat
      let len := (s.X f.xc).toNat
      let row := offsetOf h / 2 ^ 21 % 256
      let col := offsetOf h / 2 ^ 13 % 256
      let inCell := spaceOf h = 1 → row < s.thr.plotH ∧ col < s.thr.plotW ∧ offsetOf h % 2 ^ 13 + len ≤ 32 * s.thr.plotD
      let calls := s.calls.filter fun c => c.uid = s.thr.src.uid
      let t := h.setWidth 16
      let age (k : BitVec 16) : Nat := (s.thr.callNo - k).toNat
      let all := f.flg.getLsbD 0 = true ∨ 32768 ≤ age t
      let e := h.toNat
      let g := s.engine (BitVec.ofNat 10 e)
      let depth := ((NMap.get [] s.cmdq (e / 64)).filter fun c => c.left.contains e).length
      (s.Issues (.q 0xB0 0 f) →
        (1023 < off → exec (.bkload f) s = .next (s.takeTrap ⟨0x0003, 0, 0⟩))
        ∧ (off ≤ 1023 → va % 4 ≠ 0 → exec (.bkload f) s = .next (s.takeTrap ⟨0x0103, BitVec.ofNat 64 va, 0⟩))
        ∧ (off ≤ 1023 → va % 4 = 0 → n = 0 ∨ 1024 < off + n → exec (.bkload f) s = .next (s.takeTrap ⟨0x0104, 0, 0⟩))
        ∧ (off ≤ 1023 → va % 4 = 0 → n ≠ 0 → off + n ≤ 1024 → commands 0 (.bkload f) (BitVec.ofNat 64 va) (4 * n) fun bs =>
            .program off ((List.range n).map fun k => BitVec.ofNat 32 (leNat ((bs.drop (4 * k)).take 4)))))
      ∧ (s.Issues (.q 0xB0 1 f) →
        (1 < spaceOf h → exec (.bkact f) s = .next (s.takeTrap ⟨0x0104, h, 0⟩))
        ∧ (spaceOf h ≤ 1 → h.toNat % 32 ≠ 0 ∨ len % 32 ≠ 0 ∨ off % 32 ≠ 0 → exec (.bkact f) s = .next (s.takeTrap ⟨0x0103, h, 0⟩))
        ∧ (spaceOf h ≤ 1 → h.toNat % 32 = 0 → len % 32 = 0 → off % 32 = 0 → 65536 < off + len →
            exec (.bkact f) s = .next (s.takeTrap ⟨0x0104, 0, 0⟩))
        ∧ (spaceOf h ≤ 1 → h.toNat % 32 = 0 → len % 32 = 0 → off % 32 = 0 → off + len ≤ 65536 → ¬ inCell →
            exec (.bkact f) s = .next (s.takeTrap ⟨0x0201, h, 0⟩))
        ∧ (spaceOf h ≤ 1 → h.toNat % 32 = 0 → len % 32 = 0 → off % 32 = 0 → off + len ≤ 65536 → inCell →
            commands 1 (.bkact f) h len fun bs => .activations off bs))
      ∧ (s.Issues (.q 0xB0 3 f) →
        ((∃ c ∈ calls, all ∨ age t ≤ age c.token) → waits (.bkwait f) s)
        ∧ ((∀ c ∈ calls, ¬ (all ∨ age t ≤ age c.token)) → exec (.bkwait f) s = .next (s.after (.q 0xB0 3 f) s)))
      ∧ (s.Issues (.q 0xB0 4 f) →
        (¬ mine e → exec (.bkstat f) s = .next (s.takeTrap ⟨0x0104, 0, 0⟩))
        ∧ (mine e → s.thr.tracedItem = false → exec (.bkstat f) s = .next (s.after (.q 0xB0 4 f) (s.setX f.xc (BitVec.ofNat 64
            (g.token.toNat * 2 ^ 48 + g.pc.toNat * 2 ^ 38 + g.fault.toNat * 2 ^ 24 + min depth 65535 * 2 ^ 8 + g.scaleNan.toNat * 8
              + g.faulted.toNat * 4 + g.waiting.toNat * 2 + g.busy.toNat)))))))
  ∧ (
    ∀ (s : State) (f : FQ),
      let p := s.X f.xa
      let waits (u : State) : Prop := exec (.bkcall f) s = .next (u.withThr { u.thr with waiting := true })
      let td := Ten.of (s.T f.td)
      let send := (td.kind = 1 ∨ td.kind = 2) ∧ td.fmt ∈ [8, 9, 10, 11, 12, 4, 16]
      let fps := if f.td = 0 then [] else td.fp true
      s.Issues (.q 0xB0 2 f) →
      (1023 < f.imm32.toNat → exec (.bkcall f) s = .next (s.takeTrap ⟨0x0003, 0, 0⟩))
      ∧ (f.imm32.toNat ≤ 1023 → spaceOf p ≠ 0 → exec (.bkcall f) s = .next (s.takeTrap ⟨0x0104, p, 0⟩))
      ∧ (f.imm32.toNat ≤ 1023 → spaceOf p = 0 → p.toNat % 128 ≠ 0 → exec (.bkcall f) s = .next (s.takeTrap ⟨0x0103, p, 0⟩))
      ∧ (f.imm32.toNat ≤ 1023 → spaceOf p = 0 → p.toNat % 128 = 0 →
        (s.thr.released = false → waits s)
        ∧ (s.thr.released = true → s.thr.tracedItem = false → ∀ s1 es s2 bs s3 parts, s.bankSet f = .ok (s1, es) → s1.bankLoad 0 p 128 = .ok (s2, bs) →
            s2.checkParts (leNat bs) es = .ok (s3, parts) → s3.T f.td = s.T f.td → s3.thr = s.thr →
            (f.td ≠ 0 → ¬ send → exec (.bkcall f) s = .next (s.takeTrap ⟨0x0104, 0, 0⟩))
            ∧ (f.td ≠ 0 → send → td.inPlot s.thr.plot = false → exec (.bkcall f) s = .next (s.takeTrap ⟨0x0201, 0, 0⟩))
            ∧ (f.td ≠ 0 → send → td.inPlot s.thr.plot = true → s3.touchesOff td = true → exec (.bkcall f) s = .next (s.takeTrap ⟨0x0202, 0, 0⟩))
            ∧ ((f.td ≠ 0 → send ∧ td.inPlot s.thr.plot = true ∧ s3.touchesOff td = false) →
              let outstanding := (s3.calls.filter fun c => c.uid = s.thr.src.uid).length
              let token := s.thr.callNo + 1
              (16 ≤ outstanding ∨ s3.entryFree = false → waits s3)
              ∧ (outstanding < 16 → s3.entryFree = true → s3.claim fps = .ok () →
                (s3.queueRoom es = false → waits s3)
                ∧ (s3.queueRoom es = true → ∃ t : State, exec (.bkcall f) s = .next (s.after (.q 0xB0 2 f) (t.setX f.xc (token.setWidth 64)))
                  ∧ t.thr = { s3.thr with callNo := token }
                  ∧ (es = [] → t.calls = s3.calls ∧ t.cmdq = s3.cmdq)
                  ∧ (es ≠ [] → ∃ c : Call, t.calls = s3.calls ++ [c] ∧ c.id = s3.opNo + 1 ∧ c.no = c.id ∧ c.uid = s.thr.src.uid
                      ∧ c.pc = s.thr.pc ∧ c.token = token ∧ c.parts = parts ∧ c.left = es ∧ c.fps = fps ∧ c.fault = none ∧ c.count = 0
                      ∧ c.sat = f.flg.getLsbD 1 ∧ c.entry = f.imm32.setWidth 10
                      ∧ c.send = (if f.td = 0 then none else some ⟨s.T f.td, s.thr.row.toNat, s.thr.col.toNat, s.thr.sbase.toNat⟩)
                      ∧ (∀ i < 14, c.args[i]? = some (BitVec.ofNat 32 (leNat bs / 2 ^ (512 + 32 * i))))
                      ∧ ∀ k, (∃ e ∈ es, e / 64 = k) → ∃ q : Cmd, NMap.get [] t.cmdq k = NMap.get [] s3.cmdq k ++ [q]
                          ∧ q.kind = .call c.id ∧ q.left = es.filter fun e => e / 64 = k)))))))

/-- R114, R122, R125, R130, R131, R135: an engine performs the oldest command addressed to it once it is free: it writes its program
store or its buffer, or starts a call in the state that R114 gives; a send lands in the live cells it names; a call whose
engines have ended it and whose sends have landed completes, or, when an engine faulted, is reported and ends its item (20 R392), which
stops at once, while the report has no place; one that was discarded before any engine began it never completes. -/
def Obligations.BankEvents : Prop :=
  (∀ (s : State) (c : Cmd),
    let e := s.input.unit
    let g := s.engine (BitVec.ofNat 10 e)
    let done (t : State) : Prop := ∀ q ∈ NMap.get [] t.cmdq (e / 64), q.no = c.no → e ∉ q.left
    e < 768 → g.busy = false → (NMap.get [] s.cmdq (e / 64)).find? (fun q => q.left.contains e) = some c →
    (∀ k ∈ s.calls, k.uid = c.uid → k.fault = none) →
    (∀ first ws, c.kind = .program first ws → first + ws.length ≤ 1024 → ∃ t : State, exec .engineProgramWrite s = .next t ∧ done t
      ∧ (t.engine (BitVec.ofNat 10 e)) = { g with prog := (t.engine (BitVec.ofNat 10 e)).prog }
      ∧ (∀ i w, ws[i]? = some w → NMap.get 0 (t.engine (BitVec.ofNat 10 e)).prog (first + i) = w)
      ∧ (∀ k, k < first ∨ first + ws.length ≤ k → NMap.get 0 (t.engine (BitVec.ofNat 10 e)).prog k = NMap.get 0 g.prog k)
      ∧ t.thr = s.thr ∧ t.calls = s.calls)
    ∧ (∀ first bs, c.kind = .activations first bs → first + bs.length ≤ 65536 → ∃ t : State, exec .engineActWrite s = .next t ∧ done t
      ∧ (∀ i b key, bs[i]? = some b → t.get (.buf e (first + i)) key = b)
      ∧ (∀ k key, k < first ∨ first + bs.length ≤ k → t.get (.buf e k) key = s.get (.buf e k) key) ∧ t.thr = s.thr ∧ t.calls = s.calls)
    ∧ (∀ k p, c.kind = .call k.id → s.calls.find? (fun x => x.id == k.id) = some k → k.parts.find? (fun x => x.engine == e) = some p →
      ∃ t : State, exec .engineCallStart s = .next t ∧ t.thr = s.thr ∧ t.calls = s.calls
      ∧ ∀ h, h = t.engine (BitVec.ofNat 10 e) →
        h = { g with b := h.b, acc := h.acc, wfmt := 0, afmt := 0, cblo := 2, cbhi := 6, ws := h.ws, as' := 127, regions := h.regions, pc := k.entry
                     token := k.token, fault := 0, scaleNan := false, faulted := false, waiting := false, busy := true, renorm := 0
                     call := some k.id }
        ∧ h.B 15 = BitVec.ofNat 32 p.ordinal ∧ (∀ i : Nat, 1 ≤ i → i ≤ 14 → h.B (BitVec.ofNat 4 i) = k.args.getD (i - 1) 0)
        ∧ (∀ i : Fin 8, h.acc[i] = 0) ∧ (∀ i : Fin 8, h.ws[i] = 127) ∧ ∀ i : Fin 4, h.regions[i] = p.regions.getD i ({} : Region)))
  ∧ (∀ (s : State) (x : Send), s.sends.find? (fun y => y.id == s.input.unit) = some x →
      (∀ y ∈ s.sends.takeWhile (fun y => y.id ≠ x.id), y.engine ≠ x.engine) → (x.bytes.map (·.1)).Nodup →
      ∃ t : State, exec .bsendDelivery s = .next t ∧ t.sends = s.sends.filter (fun y => y.id ≠ x.id)
        ∧ (∀ c r b v, (Loc.cell c r b, v) ∈ x.bytes → r < 256 → b < 32 → s.isVoid c = false → (∀ y ∈ x.bytes, y.1.proper) →
            t.get (.cell c r b) 0 = v)
        ∧ t.calls = s.calls.map fun c => if c.id = x.call then { c with count := c.count + 1 } else c)
  ∧ ∀ (s : State) (c : Call), s.calls.find? (fun k => k.id == s.input.unit) = some c → c.left = [] → (∀ x ∈ s.sends, x.call ≠ c.id) →
    (c.gone = true → exec .callComplete s = .next s ∧ exec .callFaultReport s = .next s)
    ∧ (c.gone = false → c.fault = none → ∃ t : State, exec .callComplete s = .next t ∧ t.calls = s.calls.filter (fun k => k.id ≠ c.id)
      ∧ t = { s with calls := t.calls, events := t.events })
    ∧ ∀ x k, c.gone = false → c.fault = some x → s.slotOfUid c.uid = some k →
      let y := s.atSlot k
      let report : FaultRec := { cause := 0x0701, pc := x.pc.setWidth 64, addr := x.addr.setWidth 64, count := BitVec.ofNat 64 c.count
                                 ordinal := c.token.setWidth 32, detail := BitVec.ofNat 32 (x.engine * 2 ^ 16 + x.code.toNat * 2 ^ 8), time := x.time }
      let z := y.withThr { y.thr with term := some report }
      (y.thr.term = none → y.thr.phase = .running → ∀ u, z.pushReport k z.thr report = some u → ∃ t : State, exec .callFaultReport s = .next t
        ∧ t.thr.phase = .ended .failed ∧ t.thr.endCause = 0x0701 ∧ ∀ q ∈ t.calls, q.id ≠ c.id)
      ∧ (y.thr.term = none → y.thr.phase = .running → z.pushReport k z.thr report = none → ∃ t : State, exec .callFaultReport s = .next t
        ∧ t.thr = z.thr ∧ t.calls = z.calls.filter fun q => q.id ≠ c.id)
      ∧ (y.thr.term.isSome = true → ∀ u, y.pushReport k y.thr report = some u → ∃ t : State, exec .callFaultReport s = .next t
        ∧ t.calls = u.calls.filter fun q => q.id ≠ c.id)

/-- R115, R116, R124, R125: the scalar and control words of an engine, and what an engine fault does: the engine ends the call at the
word, the call keeps its first fault, and the item's commands that no engine has begun are dropped. A word outside the store
faults BANK_PC, an illegal one BANK_ILLEGAL.
R111, R117, R118, R122-R124: an engine address names the buffer or a region; BFMT and BSCL set the formats and the scales, BRD and
BWR move a word, BSIG writes one once the engine's sends have landed, BWAIT waits until one has a value, and BSEND sends eight
elements of an accumulator to the tensor of the call. Of several faults of one word the order is the model's (log 66); the report of a
timeout names no engine address (log 51). -/
def Obligations.EngineOps : Prop :=
  (
    (∀ (s : State) (f : FBk),
      let imm : BitVec 32 := f.imm14.signExtend 32
      let set (r : BitVec 4) (v : BitVec 32) : State := if r = 0 then s else { s with eng := { s.eng with b := s.eng.b.setIfInBounds r.toNat v } }
      let B (r : BitVec 4) : BitVec 32 := if r = 0 then 0 else s.eng.b.toArray.getD r.toNat 0
      let goes (i : Instr) (t : State) (n : Int) : Prop :=
        let p := (s.eng.pc.toNat : Int) + n
        (0 ≤ p → p ≤ 1023 → exec i s = .next { t with eng := { t.eng with pc := BitVec.ofInt 10 p, waiting := false } })
        ∧ (p < 0 ∨ 1023 < p → exec i s = .next (t.engFault 6 0))
      let far := f.imm14.toInt
      goes .bnop s 1
      ∧ goes (.bli f) (set f.rd imm) 1
      ∧ goes (.baddi f) (set f.rd (B f.rs + imm)) 1
      ∧ goes (.badd f) (set f.rd (B f.rs + B f.rt)) 1
      ∧ goes (.bsub f) (set f.rd (B f.rs - B f.rt)) 1
      ∧ goes (.bmul f) (set f.rd (B f.rs * B f.rt)) 1
      ∧ goes (.bbz f) s (if B f.rs = 0 then far else 1)
      ∧ goes (.bbnz f) s (if B f.rs = 0 then 1 else far)
      ∧ goes (.bloop f) (set f.rd (B f.rd - 1)) (if B f.rd - 1 = 0 then 1 else far)
      ∧ exec .bankIllegal s = .next (s.engFault 1 0))
    ∧ ∀ (s : State) (c : Call), s.eng.call = some c.id → s.calls.find? (fun k => k.id == c.id) = some c →
      let e := s.curE.toNat
      let last : Bool := s.eng.busy && s.sends.any fun x => x.engine = e
      let ends (t : State) (g : Engine) : Prop := t.eng = { g with call := none, waiting := false, busy := last } ∧ t.thr = s.thr ∧ t.rows = s.rows
      (∃ t : State, exec .bhalt s = .next t ∧ ends t s.eng
        ∧ t.calls = s.calls.map fun k => if k.id = c.id then { k with left := k.left.filter (fun x => x ≠ e) } else k)
      ∧ ∀ code addr, (∀ q ∈ s.cmdq, ∀ k ∈ q.2, k.kind = .call c.id → k.begun = true) →
        ends (s.engFault code addr) { s.eng with faulted := true, fault := code }
        ∧ (∃ k ∈ (s.engFault code addr).calls, k.id = c.id ∧ k.left = c.left.filter (fun x => x ≠ e)
            ∧ k.fault = (match c.fault with
              | some x => some x
              | none => some ⟨e, code, s.eng.pc, addr, s.time⟩))
        ∧ ∀ j, ∀ k ∈ NMap.get [] (s.engFault code addr).cmdq j, k.uid = c.uid → k.begun = true)
  ∧ (
    ∀ (s : State) (f : FBk), s.eng.pc.toNat < 1023 →
      let imm : BitVec 32 := f.imm14.signExtend 32
      let B (r : BitVec 4) : BitVec 32 := if r = 0 then 0 else s.eng.b.toArray.getD r.toNat 0
      let a := B f.rs + imm
      let off := a.toNat % 2 ^ 28
      let sel := a.toNat / 2 ^ 28
      let r : Region := s.eng.regions.toArray.getD (sel - 1) {}
      let e := s.curE.toNat
      let faults (i : Instr) (code : BitVec 8) (at' : BitVec 32) : Prop := exec i s = .next (s.engFault code at')
      let goes (i : Instr) (P : State → Prop) : Prop := ∃ t : State, P t ∧ exec i s = .next
        { t with eng := { t.eng with pc := s.eng.pc + 1, waiting := false } }
      let buffer := sel = 0 ∧ off < 65536
      let region := 1 ≤ sel ∧ sel ≤ 4 ∧ off < r.len
      let inside (n : Nat) : Prop := if sel = 0 then off + n ≤ 65536 else off + n ≤ r.len
      let locs (n : Nat) : List (Loc × Nat) := (List.range n).map fun i =>
        if sel = 0 then (.buf e (off + i), 0) else (.mem (e * chanBytes + r.off + off + i), r.key)
      let clean (n : Nat) : Prop := ∀ l ∈ locs n, s.isPoisoned l.1 = false
      let checks (i : Instr) (align n : Nat) : Prop := (¬ (buffer ∨ region) → faults i 2 a)
        ∧ (buffer ∨ region → a.toNat % align ≠ 0 → faults i 3 a)
        ∧ (buffer ∨ region → a.toNat % align = 0 → ¬ inside n → faults i 2 a)
      let word := leNat (s.getBytes (locs 4))
      let fine := (buffer ∨ region) ∧ a.toNat % 4 = 0 ∧ inside 4
      let may := sel ≠ 0 → r.w = true
      let sends := (s.sends.filter fun x => x.engine = e).length
      let stored (t : State) : Prop := (∀ key, (locs 4).map (fun l => t.get l.1 (if sel = 0 then key else l.2)) = leBytes 4 (B f.rt).toNat)
        ∧ t.eng.b = s.eng.b ∧ t.thr = s.thr ∧ t.rows = s.rows
        ∧ ∀ id, s.eng.call = some id → t.calls = s.calls.map fun c => if c.id = id then { c with count := c.count + 1 } else c
      let n0 := (B f.rt + imm).toNat
      -- R117
      (f.imm14.extractLsb' 12 2 ≠ 0 ∨ f.imm14.extractLsb' 2 2 = 3 → faults (.bfmt f) 1 0)
      ∧ (f.imm14.extractLsb' 12 2 = 0 → f.imm14.extractLsb' 2 2 ≠ 3 → goes (.bfmt f) fun t => t = { s with eng := { s.eng with
          wfmt := f.imm14.extractLsb' 0 2, afmt := f.imm14.extractLsb' 2 2, cblo := f.imm14.extractLsb' 4 4, cbhi := f.imm14.extractLsb' 8 4 } })
      -- R118
      ∧ (¬ region → faults (.bscl f) 2 a)
      ∧ (region → a.toNat % 8 ≠ 0 → faults (.bscl f) 3 a) ∧ (region → a.toNat % 8 = 0 → ¬ inside 8 → faults (.bscl f) 2 a)
      ∧ (region → a.toNat % 8 = 0 → inside 8 → ¬ clean 8 → faults (.bscl f) 5 a)
      ∧ (region → a.toNat % 8 = 0 → inside 8 → clean 8 → goes (.bscl f) fun t => t.eng = { s.eng with
          ws := Vector.ofFn fun i => (s.getBytes (locs 8)).getD i.val 0, as' := (B f.rt).setWidth 8 })
      -- R123
      ∧ checks (.brd f) 4 4 ∧ checks (.bwr f) 4 4 ∧ checks (.bsig f) 4 4
      ∧ (fine → ¬ clean 4 → faults (.brd f) 5 a)
      ∧ (fine → clean 4 → goes (.brd f) fun t => t.eng = if f.rd = 0 then s.eng else
          { s.eng with b := s.eng.b.setIfInBounds f.rd.toNat (BitVec.ofNat 32 word) })
      ∧ (fine → ¬ may → faults (.bwr f) 4 a ∧ faults (.bsig f) 4 a)
      ∧ (fine → may → e < 768 → goes (.bwr f) stored)
      ∧ (fine → may → e < 768 → sends = 0 → goes (.bsig f) stored)
      ∧ (fine → may → sends ≠ 0 → exec (.bsig f) s = .next s)
      ∧ (¬ buffer → faults (.bwait f) 2 a)
      ∧ (buffer → a.toNat % 4 ≠ 0 → faults (.bwait f) 3 a)
      ∧ (buffer → a.toNat % 4 = 0 → inside 4 → ¬ clean 4 → faults (.bwait f) 5 a)
      ∧ (buffer → a.toNat % 4 = 0 → inside 4 → clean 4 → BitVec.ofNat 32 word = B f.rt → goes (.bwait f) fun t => t.eng = s.eng)
      ∧ (buffer → a.toNat % 4 = 0 → inside 4 → clean 4 → BitVec.ofNat 32 word ≠ B f.rt →
          exec (.bwait f) s = .next { s with eng := { s.eng with waiting := true } })
      ∧ (s.eng.busy = false ∨ s.eng.waiting = false → s.input.unit = e → exec .bankTimeout s = .next s)
      ∧ (s.eng.busy = true → s.eng.waiting = true → s.input.unit = e → exec .bankTimeout s = .next (s.engFault 7 0))
      -- R122
      ∧ (∀ c, s.engCall = some c →
        (c.send = none → faults (.bsend f) 2 0)
        ∧ ∀ x, c.send = some x → let t := Ten.of x.desc
          (t.rows * t.cols < n0 + 8 → faults (.bsend f) 2 0)
          ∧ (n0 + 8 ≤ t.rows * t.cols → t.fmt = 16 → n0 % 8 ≠ 0 → faults (.bsend f) 3 0)
          ∧ (n0 + 8 ≤ t.rows * t.cols → (t.fmt = 16 → n0 % 8 = 0) → 16 ≤ sends → exec (.bsend f) s = .next s)
          ∧ (n0 + 8 ≤ t.rows * t.cols → (t.fmt = 16 → n0 % 8 = 0) → sends < 16 → goes (.bsend f) fun u =>
              ∃ y : Send, u = { s with opNo := s.opNo + 1, sends := s.sends ++ [y] } ∧ y.id = s.opNo + 1 ∧ y.call = c.id ∧ y.engine = e
              ∧ ∀ l, l ∈ y.bytes ↔ ∃ k b, k < (if t.fmt = 16 then 1 else 8) ∧ b < (if t.fmt = 16 then 64 else fmtBits t.fmt / 8)
                  ∧ l.1 = (if t.fmt = 16 then
                      let o := 64 * ((n0 / t.cols % t.ebr * t.ebc + n0 % t.cols % t.ebc) / 8) + b
                      .cell ((x.row + t.row0 + n0 / t.cols / t.ebr) * 256 + (x.col + t.col0 + n0 % t.cols / t.ebc))
                        (x.sbase + t.layer + o / 32) (o % 32)
                    else x.loc ((n0 + k) / t.cols) ((n0 + k) % t.cols) b)
                  ∧ l.2 = BitVec.ofNat 8 ((if t.fmt = 16 then (s.eng.acc.toArray.getD f.rs.toNat 0).toNat
                      else (Acc.ofImage (s.eng.acc.toArray.getD f.rs.toNat 0)).sendBits k t.fmt c.sat) / 256 ^ b))))

/-- R119-R121: BMAC adds eight exact dot products of a weight line and the activations to an accumulator, under the scales of the engine;
BZA clears one and BRDA reads an element as FP32 or INT32: they read no memory, so nothing that is poisoned stops them. BMAC's reads of a
poisoned sector fault BANK_ECC; of its several faults the one that is reported is the model's choice (log 66). -/
def Obligations.EngineSums : Prop :=
  ∀ (s : State) (f : FBk), s.eng.pc.toNat < 1023 →
    let g := s.eng
    let B (r : BitVec 4) : BitVec 32 := if r = 0 then 0 else g.b.toArray.getD r.toNat 0
    let goes (i : Instr) (P : Engine → Prop) : Prop := ∃ t : State, exec i s = .next t
      ∧ ∃ h : Engine, P h ∧ t.eng = { h with pc := g.pc + 1, waiting := false }
    let faults (i : Instr) (code : BitVec 8) (at' : BitVec 32) : Prop := exec i s = .next (s.engFault code at')
    let wa := B f.rs
    let xa := B f.rt
    let e := s.curE.toNat
    let r : Region := g.regions.toArray.getD (wa.toNat / 2 ^ 28 - 1) {}
    let off := wa.toNat % 2 ^ 28
    let n := if g.wfmt = 0 then 64 else if g.wfmt = 3 then 8 else 16
    let sz := if g.afmt = 2 then 2 else 1
    let legal := f.imm14 = 0 ∨ f.imm14 = 1 ∧ f.rs ≠ f.rt
    let region := 1 ≤ wa.toNat / 2 ^ 28 ∧ wa.toNat / 2 ^ 28 ≤ 4 ∧ off < r.len
    let line := s.getBytes ((List.range 128).map fun i => (.mem (e * chanBytes + r.off + off + i), r.key))
    let acts := s.getBytes ((List.range (n * sz)).map fun i => (.buf e (xa.toNat + i), 0))
    let x (k : Nat) : Val := elemValue (if g.afmt = 0 then 11 else if g.afmt = 1 then 12 else 9) (leNat ((acts.drop (k * sz)).take sz))
    let w (j k : Nat) : Val :=
      let seg := line.drop (16 * j)
      if g.wfmt = 0 then valOf ((cb2 (leNat ((seg.drop (2 * (k / 8))).take 2)) g.cblo.toNat g.cbhi.toNat).getD (k % 8) 0) (-2) false
      else if g.wfmt = 1 then elemValue 11 (seg.getD k 0).toNat
      else if g.wfmt = 2 then elemValue 12 (seg.getD k 0).toNat
      else elemValue 9 (leNat ((seg.drop (2 * k)).take 2))
    let nan (j : Nat) : Bool := g.ws.toArray.getD j 0 == 255 || g.as' == 255
    let plus (v : Machine.Dyadic) (p : Val) : Machine.Dyadic := match p with
      | .fin neg m x => Machine.Dyadic.add v (if neg then -(m : Int) else m, x)
      | _ => v
    let dot (j : Nat) : Machine.Dyadic := (List.range n).foldl (fun v k => plus v ((w j k).mul (x k))) (0, 0)
    let meets (j : Nat) (v : Val) (bit : Nat) : Nat := if (List.range n).any (fun k => (w j k).mul (x k) = v) then bit else 0
    let old := Acc.ofImage (g.acc.toArray.getD f.rd.toNat 0)
    let up := old.update ((List.range 8).map fun j => if nan j then (0, 0)
      else ((dot j).1, (dot j).2 + (g.ws.toArray.getD j 0).toNat - 127 + g.as'.toNat - 127))
    let stats : List Nat := (List.range 8).map fun j => old.stat.getD j 0 ||| (meets j .nan 1 ||| meets j (.inf false) 2 ||| meets j (.inf true) 4)
    let new : Acc := { up.1 with stat := stats }
    let a := Acc.ofImage (g.acc.toArray.getD f.rs.toNat 0)
    let j := f.imm14.toNat
    let st := a.stat.getD j 0
    (¬ legal → faults (.bmac f) 1 0)
    ∧ (legal → ¬ region → faults (.bmac f) 2 wa)
    ∧ (legal → region → 65536 ≤ xa.toNat → faults (.bmac f) 2 xa)
    ∧ (legal → region → xa.toNat < 65536 → wa.toNat % 128 ≠ 0 → faults (.bmac f) 3 wa)
    ∧ (legal → region → xa.toNat < 65536 → wa.toNat % 128 = 0 → xa.toNat % sz ≠ 0 → faults (.bmac f) 3 xa)
    ∧ (legal → region → xa.toNat < 65536 → wa.toNat % 128 = 0 → xa.toNat % sz = 0 → r.len < off + 128 → faults (.bmac f) 2 wa)
    ∧ (legal → region → xa.toNat < 65536 → wa.toNat % 128 = 0 → xa.toNat % sz = 0 → off + 128 ≤ r.len → 65536 < xa.toNat + n * sz →
        faults (.bmac f) 2 xa)
    ∧ (legal → region → wa.toNat % 128 = 0 → xa.toNat % sz = 0 → off + 128 ≤ r.len → xa.toNat + n * sz ≤ 65536 →
        (∃ i < 128, s.isPoisoned (.mem (e * chanBytes + r.off + off + i)) = true) → faults (.bmac f) 5 wa)
    ∧ (legal → region → wa.toNat % 128 = 0 → xa.toNat % sz = 0 → off + 128 ≤ r.len → xa.toNat + n * sz ≤ 65536 →
        (∀ i < 128, s.isPoisoned (.mem (e * chanBytes + r.off + off + i)) = false) →
        (∃ i < n * sz, s.isPoisoned (.buf e (xa.toNat + i)) = true) → faults (.bmac f) 5 xa)
    ∧ (legal → region → wa.toNat % 128 = 0 → xa.toNat % sz = 0 → off + 128 ≤ r.len → xa.toNat + n * sz ≤ 65536 →
        (∀ i < 128, s.isPoisoned (.mem (e * chanBytes + r.off + off + i)) = false) → (∀ i < n * sz, s.isPoisoned (.buf e (xa.toNat + i)) = false) →
        goes (.bmac f) fun h => h.acc = g.acc.setIfInBounds f.rd.toNat new.image ∧ h.renorm = g.renorm + (if up.2.1 then 1 else 0)
          ∧ h.scaleNan = (g.scaleNan || (List.range 8).any nan)
          ∧ h = { g with acc := h.acc, renorm := h.renorm, scaleNan := h.scaleNan, b := h.b }
          ∧ (f.imm14 = 0 → h.b = g.b)
          ∧ (f.imm14 = 1 → (f.rs ≠ 0 → h.B f.rs = wa + 128) ∧ (f.rt ≠ 0 → h.B f.rt = xa + BitVec.ofNat 32 (n * sz))
              ∧ ∀ q, q ≠ f.rs → q ≠ f.rt → h.B q = g.B q))
    ∧ (¬ ((f.rt = 0 ∧ -2048 ≤ f.imm14.toInt ∧ f.imm14.toInt ≤ 2047) ∨ (f.rt = 1 ∧ f.imm14 = 0)) → faults (.bza f) 1 0)
    ∧ ((f.rt = 0 ∧ -2048 ≤ f.imm14.toInt ∧ f.imm14.toInt ≤ 2047) ∨ (f.rt = 1 ∧ f.imm14 = 0) → goes (.bza f) fun h => h = { g with
        acc := g.acc.setIfInBounds f.rd.toNat (Acc.image ⟨List.replicate 8 0, if f.rt = 1 then 0 else f.imm14.toInt, if f.rt = 1 then 2 else 0,
          List.replicate 8 0⟩) })
    ∧ (7 < j → faults (.brda f) 1 0)
    ∧ (j ≤ 7 → goes (.brda f) fun h => h = if f.rd = 0 then g else { g with b := g.b.setIfInBounds f.rd.toNat (BitVec.ofNat 32 (
        if st % 2 = 1 ∨ st / 2 % 4 = 3 then 0x7FC00000 else if st / 2 % 2 = 1 then 0x7F800000 else if st / 4 % 2 = 1 then 0xFF800000
        else if a.flags / 2 % 2 = 1 then ((max (-(2 ^ 31)) (min (a.m.getD j 0) (2 ^ 31 - 1))) % 2 ^ 32).toNat
        else fp32.result .rne false (valOf (a.m.getD j 0) a.e false))) })

/-! ### The reverse-cover walker (19 R367-R380) -/

/-- R370, R373, R378: OWLOOP checks in its order, skips to its end for a count of 0, and otherwise clears the cover bits of the enabled
windows, starts the walker at the last iteration, zeroes the scratch registers, and pushes the walker's loop; the cover map's
footprint is held until the loop ends.
R375, R376, R379, R380: OWWIN sets a window it has checked; OWDECL adds a declaration, and with `.last` skips the iteration when at
least one granule is declared and every one is covered; OWCHK says whether a range is covered; OWSTAT returns the counts. That a range
outside its window is found before a store already performed is log 57. -/
def Obligations.WalkerForms : Prop :=
  (
    ∀ (s : State) (f : FQ),
      let m := Ten.of (s.T f.td)
      let n := (s.X f.xa).setWidth 32
      let win (w : Nat) : OwWin := s.thr.ow.wins.toArray.getD w {}
      let on (w : Nat) : Prop := w < 8 ∧ (win w).len ≠ 0
      let count (w : Nat) : Nat := (win w).len.toNat / 2 ^ (win w).gran.toNat
      let apart (a la b lb : Nat) : Prop := a + la ≤ b ∨ b + lb ≤ a
      let legal := m.kind = 3 ∧ f.xc ≠ 0 ∧ ¬ (32 ≤ f.xc.toNat ∧ f.xc.toNat ≤ 55) ∧ f.xa ≠ f.xc ∧ (∃ w, on w)
        ∧ (∀ w, on w → (win w).bitoff.toNat + count w ≤ m.slices * (m.rows * m.cols))
        ∧ ∀ v w, on v → on w → v ≠ w → apart (win v).base.toNat (win v).len.toNat (win w).base.toNat (win w).len.toNat
            ∧ apart (win v).bitoff.toNat (count v) (win w).bitoff.toNat (count w)
      let i := Instr.owloop f
      let traps (c : BitVec 16) (info : Word) : Prop := exec i s = .next (s.takeTrap ⟨c, 0, info⟩)
      let allowed := s.thr.ow.act = false ∧ s.thr.src.pf.getLsbD 10 = true
      s.Issues (.q 0xC0 0 f) →
      (s.thr.ow.act = true → traps 0x0504 (BitVec.ofNat 64 (s.thr.ow.iter.toNat + 2 ^ 32)))
      ∧ (s.thr.ow.act = false → s.thr.src.pf.getLsbD 10 = false → traps 0x0102 0)
      ∧ (allowed → ¬ legal → traps 0x0104 0)
      ∧ (allowed → legal → s.touchesOff m = true → traps 0x0202 0)
      ∧ (allowed → legal → s.touchesOff m = false →
        (n = 0 → exec i s = .next (s.retire (.q 0xC0 0 f) true s.thr.pc (.skip (s.thr.pc + f.imm32.signExtend 64 * 4)) true))
        ∧ (n ≠ 0 → 4 ≤ s.thr.loopStack.length → traps 0x0402 0)
        ∧ (n ≠ 0 → s.thr.loopStack.length < 4 → s.claim (m.fp true) = .ok () → (⟨m, s.thr.plot, 0⟩ : Place).sound → (∀ o ∈ s.thr.ops, o.no ≤ s.opNo) →
          (∀ k, 32 ≤ k.toNat → k.toNat ≤ 55 → s.thr.pendingX k = false) →
          ∃ (t : State) (o : PlaneOp), exec i s = .next (s.after (.q 0xC0 0 f) t) ∧ t.thr.ops = s.thr.ops ++ [o] ∧ o.fps = m.fp true
            ∧ o.untilLoopEnds = true ∧ o.work = .held
            ∧ (∀ w, w < 8 → (t.thr.ow.wmask.getLsbD w = true ↔ on w))
            ∧ t.thr.ow = { s.thr.ow with act := true, iter := n - 1, wmask := t.thr.ow.wmask, supp := 0, skip := 0, perf := 0, pending := []
                                         decls := [], stored := false, map := s.T f.td, index := f.xc }
            ∧ t.X f.xc = (n - 1).setWidth 64 ∧ (∀ k, 32 ≤ k.toNat → k.toNat ≤ 55 → t.X k = 0) ∧ t.thr.p = s.thr.p &&& 0xF0
            ∧ (∀ k, k ≠ f.xc → ¬ (32 ≤ k.toNat ∧ k.toNat ≤ 55) → t.X k = s.X k)
            ∧ t.thr.loopStack = ⟨s.thr.pc + 16, s.thr.pc + f.imm32.signExtend 64 * 4, n, f.xc, 0, false, true⟩ :: s.thr.loopStack
            ∧ (∀ d i j, (d, i, j) ∈ m.grid → ∀ b, b = (d * m.rows + i) * m.cols + j →
                ((∃ w, on w ∧ (win w).bitoff.toNat ≤ b ∧ b < (win w).bitoff.toNat + count w) → t.elem ⟨m, s.thr.plot, 0⟩ 0 d i j = 0)
                ∧ ((∀ w, on w → b < (win w).bitoff.toNat ∨ (win w).bitoff.toNat + count w ≤ b) →
                    t.elem ⟨m, s.thr.plot, 0⟩ 0 d i j = s.elem ⟨m, s.thr.plot, 0⟩ 0 d i j))
            ∧ ∀ c r, r < 256 → ¬ (⟨m, s.thr.plot, 0⟩ : Place).covers c r → t.row c r = s.row c r)))
  ∧ (
    ∀ (s : State) (f : FQ),
      let a := s.X f.xa
      let l := s.X f.xb
      let o := s.thr.ow
      let g := 2 ^ (f.imm32.extractLsb' 0 4).toNat
      let w := f.imm32.toNat
      let win : OwWin := o.wins.toArray.getD w {}
      let info (reason : Nat) : Word := BitVec.ofNat 64 (o.iter.toNat + reason * 2 ^ 32)
      let traps (i : Instr) (c : BitVec 16) (at' info : Word) : Prop := exec i s = .next (s.takeTrap ⟨c, at', info⟩)
      let inside := win.len ≠ 0 ∧ win.base.toNat ≤ a.toNat ∧ a.toNat + l.toNat ≤ win.base.toNat + win.len.toNat
      let first := (a.toNat - win.base.toNat) / 2 ^ win.gran.toNat
      let n := if l = 0 then 0 else (a.toNat + l.toNat - 1 - win.base.toNat) / 2 ^ win.gran.toNat + 1 - first
      let declared := o.decls ++ [(w, first, n)]
      let skips := f.flg.getLsbD 0 = true ∧ (∃ d ∈ declared, d.2.2 ≠ 0) ∧ ∀ d ∈ declared, ∀ k < d.2.2, s.covered d.1 (d.2.1 + k) = true
      (s.Issues (.q 0xC0 1 f) →
        (o.act = true → traps (.owwin f) 0x0504 0 (info 1))
        ∧ (o.act = false → 2 ^ 32 ≤ l.toNat → traps (.owwin f) 0x0104 0 0)
        ∧ (o.act = false → l.toNat < 2 ^ 32 → l ≠ 0 → ¬ (a.toNat < 2 ^ 48 ∧ a.toNat + l.toNat ≤ 2 ^ 48) → traps (.owwin f) 0x0104 a 0)
        ∧ (o.act = false → l.toNat < 2 ^ 32 → l ≠ 0 → a.toNat < 2 ^ 48 ∧ a.toNat + l.toNat ≤ 2 ^ 48 → a.toNat % g ≠ 0 ∨ l.toNat % g ≠ 0 →
            traps (.owwin f) 0x0103 a 0)
        ∧ (o.act = false → l.toNat < 2 ^ 32 → l = 0 ∨ (a.toNat < 2 ^ 48 ∧ a.toNat + l.toNat ≤ 2 ^ 48 ∧ a.toNat % g = 0 ∧ l.toNat % g = 0) →
            exec (.owwin f) s = .next (s.after (.q 0xC0 1 f) (s.withThr { s.thr with ow := { o with
              wins := o.wins.setIfInBounds (f.imm32.extractLsb' 4 3).toNat
                { base := a.setWidth 48, len := l.setWidth 32, gran := f.imm32.extractLsb' 0 4, bitoff := f.imm32.extractLsb' 8 24 } } }))))
      ∧ (s.Issues (.q 0xC0 2 f) →
        (o.act = false ∨ s.thr.priv = true → traps (.owdecl f) 0x0504 0 (info 1))
        ∧ (o.act = true → s.thr.priv = false →
          (¬ inside → traps (.owdecl f) 0x0503 a (info 1))
          ∧ (inside → o.stored = true → traps (.owdecl f) 0x0503 a (info 2))
          ∧ (inside → o.stored = false → 4 ≤ o.decls.length → traps (.owdecl f) 0x0505 0 (info 2))
          ∧ (inside → o.stored = false → o.decls.length < 4 →
            (¬ skips → exec (.owdecl f) s = .next (s.after (.q 0xC0 2 f) (s.withThr { s.thr with ow := { o with decls := declared } })))
            ∧ (skips → ∀ x, s.thr.loops.find? (fun y => y.walker) = some x → 1 < x.remaining.toNat → s.thr.pendingX x.index = false →
                (∀ k, 32 ≤ k.toNat → k.toNat ≤ 55 → s.thr.pendingX k = false) →
                ¬ (32 ≤ x.index.toNat ∧ x.index.toNat ≤ 55) → x.index ≠ 0 →
                ∃ t : State, exec (.owdecl f) s = .next t ∧ t.thr.pc = x.start ∧ t.X x.index = (o.iter - 1).setWidth 64
                  ∧ t.thr.ow.skip = (if o.skip = BitVec.allOnes 32 then o.skip else o.skip + 1)
                  ∧ t.thr.ow.iter = o.iter - 1 ∧ t.thr.ow.pending = [] ∧ t.thr.ow.decls = [] ∧ t.thr.ow.act = true
                  ∧ (∀ k, 32 ≤ k.toNat → k.toNat ≤ 55 → t.X k = 0) ∧ t.thr.p = s.thr.p &&& 0xF0
                  ∧ (∀ k, k ≠ x.index → ¬ (32 ≤ k.toNat ∧ k.toNat ≤ 55) → t.X k = s.X k)))))
      ∧ (s.Issues (.q 0xC0 3 f) →
        (¬ inside → traps (.owchk f) 0x0503 a (info 1))
        ∧ (inside → o.act = true ∨ s.claim ((Ten.of o.map).fp false) true = .ok () →
            ((∀ k < n, s.covered w (first + k) = true) → exec (.owchk f) s = .next (s.after (.q 0xC0 3 f) (s.setX f.xc 1)))
            ∧ ((∃ k < n, s.covered w (first + k) = false) → exec (.owchk f) s = .next (s.after (.q 0xC0 3 f) (s.setX f.xc 0)))))
      ∧ (s.Issues (.q 0xC0 4 f) → exec (.owstat f) s = .next (s.after (.q 0xC0 4 f)
          (s.setX f.xc (if f.imm32 = 0 then BitVec.ofNat 64 (o.supp.toNat * 2 ^ 32 + o.skip.toNat) else o.perf.setWidth 64)))))

/-! ### Power and current (22 R408-R424) -/

/-- R422-R424: PWRHINT sets the thread's hint for at most 2^20 µs, or until another, and it ends when its time has come; CHGRD returns
the cluster's balance, the cycles held for charge, or the cost of the last charged instruction.
R408, R409, R417, R420: a write of RAILCTL, CLCTL or VFENERGY is refused for the first reason that holds, which PCERR names, or
takes effect: a rail brings its voltage to what its clusters and its floor need, a cluster switched on has a balance of CAP and closes its
first sample at the next multiple of 10,000 ns (R418), and a function's energy is set. The order of the reasons, where the rules give
none, and what CHGRD deducts are log 64, and what counts as live is log 59. A domain that is switched off loses what its cells hold (log
70 for what they hold when it comes on again).
R408: the block's other offsets read as zero and ignore writes, and a write at an offset is that register's event. -/
def Obligations.PowerForms : Prop :=
  (
    (∀ (s : State) (f : FE),
      let us := min ((s.X f.xa).extractLsb' 0 32).toNat (2 ^ 20)
      let now := s.dieTime.toArray.getD (dieOf s.cl) 0
      let value : Word := if f.sysn.extractLsb' 0 2 = 0 then
          BitVec.ofInt 64 ((s.cluster s.cl).balance.toInt - (((s.cluster s.cl).charges.filter (·.begun)).map (·.cost)).sum)
        else if f.sysn.extractLsb' 0 2 = 1 then s.thr.heldCycles.setWidth 64 else BitVec.ofNat 64 s.thr.lastCost
      (s.Issues (.e 0xD0 0 f) → exec (.pwrhint f) s = .next (s.after (.e 0xD0 0 f) (s.withThr { s.thr with
        hint := f.sysn.extractLsb' 0 3, hintNo := s.stepNo
        hintUntil := if us = 0 then none else some (now + BitVec.ofNat 64 (us * 16000)) })))
      ∧ (s.Issues (.e 0xD0 1 f) → s.thr.tracedItem = false → exec (.chgrd f) s = .next (s.after (.e 0xD0 1 f) (s.setX f.xd value))))
    ∧ ∀ s : State,
      let x := s.atSlot s.input.slot
      ∀ til, x.thr.hintUntil = some til →
        (til ≤ x.dieTime.toArray.getD (dieOf x.cl) 0 → ∃ t : State, exec .hintExpiry s = .next t ∧ t.thr.hint = 0 ∧ t.thr.hintUntil = none
          ∧ t = x.withThr { x.thr with hint := 0, hintUntil := none, hintNo := t.thr.hintNo })
        ∧ (x.dieTime.toArray.getD (dieOf x.cl) 0 < til → exec .hintExpiry s = .next s))
  ∧ (
    ∀ s : State,
      let k := s.input.unit
      let v : Word := s.input.value.setWidth 64
      let refused (i : Instr) (offset why : Nat) : Prop := exec i s = .next { s with
        power := { s.power with errOffset := BitVec.ofNat 16 offset, errWhy := BitVec.ofNat 8 why } }
      let rail (r : Nat) : Rail := s.power.rails.toArray.getD r {}
      let uses (r c : Nat) : Prop := c < 256 ∧ (s.cluster c).on = true ∧ (s.cluster c).rail.toNat = r
      let vmin (p : BitVec 3) : Nat := [160, 148, 136, 124, 116].getD p.toNat 110
      let wants (j : Nat) : Nat :=
        if s.power.dvfs.stage = some .hop ∧ s.power.dvfs.target.toNat = j then max (vmin (s.cluster j).point) (vmin s.power.dvfs.point)
        else vmin (s.cluster j).point
      let floor := (v.extractLsb' 8 8).toNat
      let c := s.cluster k
      let on := v.getLsbD 0
      let refill : BitVec 16 := v.extractLsb' 24 16
      let cap : BitVec 24 := v.extractLsb' 40 24
      let live := (∃ j ∈ s.liveSlots, (s.thread j).vf.toNat = k) ∨ (∃ p ∈ s.parked, p.thr.vf.toNat = k)
        ∨ ∃ r ∈ s.rings, r.2.halted = false ∧ ∃ g, r.2.cfg = some g ∧ g.vf.toNat = k
      (k < 4 →
        (on = false → (∃ j, uses k j) → refused .railctlWrite (8 * k) 4)
        ∧ ((on = true ∨ ∀ j, ¬ uses k j) → floor < 110 ∨ 160 < floor → refused .railctlWrite (8 * k) 5)
        ∧ ((on = true ∨ ∀ j, ¬ uses k j) → 110 ≤ floor → floor ≤ 160 → ∃ t : State, exec .railctlWrite s = .next t
            ∧ t = { s with power := { s.power with rails := t.power.rails } }
            ∧ (∀ r, r ≠ k → t.power.rails.toArray.getD r {} = rail r)
            ∧ ∀ q, q = t.power.rails.toArray.getD k {} → q.ilim = v.extractLsb' 32 16 ∧ q.vfloor = v.extractLsb' 8 8 ∧ q.en = on
                ∧ (∀ j, uses k j → wants j ≤ q.vnow.toNat) ∧ floor ≤ q.vnow.toNat
                ∧ (q.vnow.toNat = floor ∨ ∃ j, uses k j ∧ wants j = q.vnow.toNat)))
      ∧ (k < 256 →
        let why := if s.power.dvfs.stage.isSome = true ∧ s.power.dvfs.target.toNat = k then 6
          else if c.on = true ∧ on = true ∧ v.extractLsb' 1 2 ≠ c.rail then 1
          else if refill = 0 ∨ cap.toNat < refill.toNat then 2
          else if on = true ∧ (rail (v.extractLsb' 1 2).toNat).en = false then 3 else 0
        (why ≠ 0 → refused .clctlWrite (0x100 + 8 * k) why)
        ∧ (why = 0 → ∃ t : State, exec .clctlWrite s = .next t
            ∧ t = { s with clusters := t.clusters, rows := t.rows, units := t.units
                           power := { s.power with rails := t.power.rails, dvfs := t.power.dvfs } }
            ∧ (c.on = false ∨ on = true → t.rows = s.rows ∧ t.units = s.units)
            ∧ (c.on = true → on = false → ∀ x r, r < 256 → t.row x r = if clusterOf x = k then {} else s.row x r)
            ∧ ((∀ j < 256, (s.cluster j).thermalCap = none) ∨ s.power.dvfs.stage.isSome = true → t.power.dvfs = s.power.dvfs)
            ∧ t.cluster k = { c with cap := cap, refill := refill, rail := v.extractLsb' 1 2, on := on
                                     balance := if on = true ∧ c.on = false then cap.setWidth 40 else c.balance
                                     window := if on = true ∧ c.on = false then
                                       (s.dieTime.toArray.getD (dieOf k) 0).toNat / 160000 else c.window }
            ∧ ∀ j, j ≠ k → t.cluster j = s.cluster j))
      ∧ (k < 64 →
        (live → refused .vfenergyWrite (0x1100 + 8 * k) 7)
        ∧ (¬ live → ∃ t : State, exec .vfenergyWrite s = .next t ∧ NMap.get 0 t.power.vfenergy k = v
            ∧ (∀ j, j ≠ k → NMap.get 0 t.power.vfenergy j = NMap.get 0 s.power.vfenergy j)
            ∧ t = { s with power := { s.power with vfenergy := t.power.vfenergy, vfpart := t.power.vfpart } }))
      ∧ (∀ off, (off % 8 ≠ 0 ∨ (0x20 ≤ off ∧ off < 0x100) ∨ off = 0x1300 ∨ 0x1318 ≤ off → s.powerWord off = 0)
          ∧ (off % 8 ≠ 0 ∨ (0x20 ≤ off ∧ off < 0x100) ∨ (0x900 ≤ off ∧ off < 0x1100) ∨ 0x1308 ≤ off → s.powerSet off v = s))
      ∧ (∀ r < 4, s.powerWord (8 * r) = BitVec.ofNat 64 ((rail r).ilim.toNat * 2 ^ 32 + (rail r).vnow.toNat * 2 ^ 16
          + (rail r).vfloor.toNat * 2 ^ 8 + if (rail r).en then 1 else 0))
      ∧ s.powerWord 0x1310 = BitVec.ofNat 64 (s.power.errOffset.toNat * 2 ^ 16 + s.power.errWhy.toNat)
      ∧ (k < 4 → exec .railctlWrite s = .next (s.powerSet (8 * k) v)) ∧ (k < 256 → exec .clctlWrite s = .next (s.powerSet (0x100 + 8 * k) v)))

/-- R415, R416: a request for an operating point is denied for the first check it fails, or accepted with the next SEQ; a slower point
takes the clock first and the rail after it, a faster one the rail first, and the request then ends.
R411, R414, R418-R421: a cycle of a cluster debits its begun charges, each to the item whose instruction it is, and refills its balance up to
CAP, and its occupied slots count it and use their share of energy; a droop stretches the clock for at least 256 cycles; a sample closes the counts at each
multiple of 10,000 ns; a
temperature sets the caps, each until its own lower threshold. -/
def Obligations.ClusterPower : Prop :=
  (
    ∀ s : State,
      let c := (s.input.value.extractLsb' 8 8).toNat
      let p := (s.input.value.extractLsb' 0 3).toNat
      let d := s.power.dvfs
      let k := s.cluster c
      let rail := s.power.rails.toArray.getD k.rail.toNat {}
      let vmin : Nat := [160, 148, 136, 124, 116, 110].getD p 110
      let why := if d.stage.isSome = true then 5
        else if 6 ≤ p ∨ k.on = false then 6
        else if vmin < rail.vfloor.toNat then 3
        else if p < (k.thermalCap.map BitVec.toNat).getD 0 then 7
        else if s.exceeds c p = true then 4
        else 0
      let ends (i : Instr) (P : State → Dvfs → Prop) : Prop := ∃ t : State, exec i s = .next t ∧ P t t.power.dvfs ∧ t.thr = s.thr
      let to' := d.target.toNat
      let g := s.cluster to'
      (∀ q, q = { d with seq := d.seq + 1, cluster := BitVec.ofNat 8 c } →
        (why ≠ 0 → ends .dvfsRequest fun t e => e = { q with status := BitVec.ofNat 4 why } ∧ t.clusters = s.clusters)
        ∧ (why = 0 → p = k.point.toNat → ends .dvfsRequest fun t e => e = { q with status := 2 } ∧ t.clusters = s.clusters)
        ∧ (why = 0 → p ≠ k.point.toNat → ends .dvfsRequest fun t e => t.clusters = s.clusters ∧ e = {
            q with status := 1, target := BitVec.ofNat 8 c, point := BitVec.ofNat 3 p, thermal := false,
                   stage := some (if p < k.point.toNat then .rampUp else .hop) }))
      ∧ (d.stage = some .rampUp → ends .railRampDone fun t e => e = { d with stage := some .hop } ∧ t.clusters = s.clusters
          ∧ (g.on = true → [160, 148, 136, 124, 116].getD d.point.toNat 110 ≤ (t.power.rails.toArray.getD g.rail.toNat {}).vnow.toNat))
      ∧ (d.stage = some .hop → g.stretch = none → g.point.toNat < d.point.toNat → ends .clockHop fun t e => e = { d with stage := some .rampDown }
          ∧ t.cluster to' = { g with point := d.point } ∧ ∀ j, j ≠ to' → t.cluster j = s.cluster j)
      ∧ (d.stage = some .hop → g.stretch.isSome = true → exec .clockHop s = .next s)
      ∧ ((∀ j < 256, (s.cluster j).thermalCap = none) → d.thermal = false →
        (d.stage = some .hop → g.stretch = none → d.point.toNat ≤ g.point.toNat → ends .clockHop fun t e => e = { d with stage := none, status := 2 }
          ∧ t.cluster to' = { g with point := d.point } ∧ ∀ j, j ≠ to' → t.cluster j = s.cluster j)
        ∧ (d.stage = some .rampDown → ends .railRampDone fun t e => e = { d with stage := none, status := 2 } ∧ t.clusters = s.clusters)))
  ∧ (
    ∀ s : State,
      let c := s.input.unit
      let k := s.cluster c
      let others (t : State) : Prop := ∀ j, j ≠ c → t.cluster j = s.cluster j
      let occupied (j : SlotNo) : Prop := j.toNat / 8 = c ∧ (s.thread j).phase ≠ .idle
      -- the charge of a scroll that stands between its steps is not debited (08 R194, 22 R410)
      let busy := k.charges.filter fun x => !s.chargeStands x
      let begun := busy.filter (·.begun)
      let refill := if k.halved then k.refill.toNat / 2 else k.refill.toNat
      let v := (s.power.rails.toArray.getD k.rail.toNat {}).vnow.toNat
      let slots := ((List.range 8).filter fun j => (s.thread (BitVec.ofNat 11 (8 * c + j))).phase != .idle).length
      let mhz := 1750 - 250 * k.point.toNat
      let ratio (n : Nat) : Nat := if k.cycles = 0 then 0 else n * 1024 / k.cycles
      let temp : BitVec 9 := s.input.value.setWidth 9
      let hot := 110 ≤ temp.toNat ∨ k.halved = true ∧ 100 ≤ temp.toNat
      let window := (s.dieTime.toArray.getD (dieOf c) 0).toNat / 160000
      let warm := 100 ≤ temp.toNat ∨ k.thermalCap.isSome = true ∧ 95 ≤ temp.toNat
      (c < 256 → k.on = true → ∃ t : State, exec .chargeCycle s = .next t ∧ others t ∧ (∀ l key, t.get l key = s.get l key)
        ∧ (t.cluster c).balance = BitVec.ofInt 40 (min (k.cap.toNat : Int) (k.balance.toInt - (begun.map (·.cost)).sum + refill))
        ∧ (t.cluster c).charges = k.charges.filter s.chargeStands
            ++ (busy.map fun x => if x.begun then { x with cycles := x.cycles - 1 } else x).filter fun x => !x.begun || 0 < x.cycles
        ∧ (t.cluster c).cycles = k.cycles + 1 ∧ (t.cluster c).stretch = k.stretch.map (fun n => n + 1)
        ∧ ∀ j, (occupied j → (t.thread j).cyc = (s.thread j).cyc + 1 ∧ (t.thread j).x = (s.thread j).x ∧ (t.thread j).pc = (s.thread j).pc
              ∧ (t.thread j).energy = (s.thread j).energy + 6000000 * 105 / mhz * (840 / slots) * v * v * (if k.stretch.isSome then 2 else 1)
                  + ((begun.filter fun x => s.slotOfUid x.uid = some j).map fun x => x.cost * v * v * (105 * 840)).sum)
            ∧ ((s.thread j).phase = .idle → t.thread j = s.thread j))
      ∧ (c < 256 → k.on = true → k.stretch = none → ∃ t : State, exec .droopDetect s = .next t ∧ others t
        ∧ t.cluster c = { k with stretch := some 0, droops := k.droops + 1 } ∧ t.thr = s.thr)
      ∧ (∀ n, k.stretch = some n → (n < 256 → exec .droopEnd s = .next s)
        ∧ (256 ≤ n → ∃ t : State, exec .droopEnd s = .next t ∧ others t ∧ t.cluster c = { k with stretch := none } ∧ t.thr = s.thr))
      ∧ (window = k.window → exec .clusterSample s = .next s)
      ∧ (c < 256 → k.on = true → window ≠ k.window → ∃ (t : State) (sample : Word), exec .clusterSample s = .next t ∧ others t ∧ t.thr = s.thr
        ∧ t.cluster c = { k with sample := sample, window := window, cycles := 0, issue := 0, mem := 0, chg := 0, maxTemp := k.temp }
        ∧ sample = BitVec.ofNat 64 (((k.sample.toNat / 2 ^ 48 + 1) % 65536) * 2 ^ 48 + k.maxTemp.toNat * 2 ^ 39 + s.newestHint c * 2 ^ 36
            + ratio k.issue * 2 ^ 24 + ratio k.mem * 2 ^ 12 + ratio k.chg))
      ∧ (c < 256 → temp.toNat < 120 → ∃ t : State, exec .thermalThreshold s = .next t ∧ others t ∧ t.thr = s.thr
        ∧ ∀ h, h = t.cluster c → h.temp = temp ∧ h.maxTemp = (if k.maxTemp < temp then temp else k.maxTemp)
            ∧ (h.halved = true ↔ hot) ∧ (hot → h.thermalCap = some 5) ∧ (¬ hot → warm → h.thermalCap = some 2)
            ∧ (¬ hot → ¬ warm → h.thermalCap = none) ∧ h.point = k.point ∧ h.on = k.on))

/-! ### The life of items (15 R307-R317, R323-R325; 20 R392-R402) -/

/-- 15 R316, R317; 20 R392, R393: an item that has met an asynchronous fault stops at once: its copies end at a unit's end, its commands that no
engine has begun are gone, and of its long accesses only those go on that wait for nothing; it is reported, or once its fault ring has a
place; an item whose thread has stopped ends once its work is done: its units and slot are free, its join counter has gone down
by one, and its launch counts it, the last item ending the launch; a parked item is eligible once its word is 0, whose leaf has its A
bit then (04 R89). -/
def Obligations.ItemsEnd : Prop :=
  ∀ s : State,
    let x := s.atSlot s.input.slot
    let th := x.thr
    let all := (-1 : Word)
    (∀ f, th.term = some f → th.phase ≠ .idle → th.reported = false →
      (th.phase ≠ .ended .failed → ∀ u, u = x.abandon f.cause →
        let stops (t : State) : Prop := t.thr.phase = .ended .failed ∧ t.thr.endCause = f.cause ∧ t.thr.x = th.x ∧ t.thr.ops = th.ops
          ∧ t.thr.sq = th.sq ∧ t.thr.outs = th.openOuts.filter (fun o => !x.outHeld o)
          ∧ (∀ k c, c ∈ (t.chan k).queue ↔ c ∈ (x.chan k).queue ∧ (c.part ≠ 0 ∨ c.sectorsAsked = true))
          ∧ (∀ w ∈ t.feq, w.slot ≠ x.cur.toNat) ∧ ∀ j, ∀ q ∈ NMap.get [] t.cmdq j, q.uid = th.src.uid → q.begun = true
        (u.pushReport u.cur u.thr f = none → ∃ t : State, exec .itemTerminate s = .next t ∧ stops t ∧ t.thr.reported = false ∧ u.sameBytes t)
        ∧ ∀ v, u.pushReport u.cur u.thr f = some v → v.thr = u.thr → v.feq = u.feq → v.cmdq = u.cmdq →
            ∃ t : State, exec .itemTerminate s = .next t ∧ stops t ∧ t.thr.reported = true ∧ v.sameBytes t)
      ∧ (th.phase = .ended .failed → (x.pushReport x.cur th f = none → exec .itemTerminate s = .next s)
        ∧ ∀ v, x.pushReport x.cur th f = some v → v.thr = th → exec .itemTerminate s = .next (v.withThr { th with reported := true })))
    ∧ (∀ k, th.phase = .ended k → th.term.isSome = true ∧ th.reported = false ∨ x.workDone = false ∨ x.plotQuiet = false →
        exec .itemEnd s = .next s)
    ∧ (∀ k, th.phase = .ended k → (th.term.isSome = true → th.reported = true) → x.workDone = true → x.plotQuiet = true → th.groups = [] →
      th.tracedItem = false → ∀ l, x.launches.find? (fun m => m.id == th.src.launch) = some l →
      let l' : Launch := { l with ok := if k = .failed then l.ok else l.ok + 1, failed := if k = .failed then l.failed + 1 else l.failed
                                  energy := l.energy + th.energy, late := l.late + th.lateItem }
      let last := l'.ok.toNat + l'.failed.toNat = l.expected
      let given (P : State → Prop) : Prop := ∃ t : State, exec .itemEnd s = .next t ∧ P t ∧ t.thr.phase = .idle ∧ t.thr.ops = [] ∧ t.thr.plotD = 0 ∧ t.thr.x = th.x ∧ t.thr.p = th.p
        ∧ ∀ c, (t.munit c).owner ≠ some th.src.uid ∧ ((x.munit c).owner ≠ some th.src.uid → t.munit c = x.munit c)
      let counts (t : State) : Prop := (¬ last → t.launches = x.launches.map fun m => if m.id = l.id then l' else m)
        ∧ (last → ∀ m ∈ t.launches, m.id ≠ l.id)
      (last → x.launchHeld l' = false) →
      (th.src.join = 0 → given fun t => counts t ∧ (¬ last → x.sameBytes t))
      ∧ ∀ s1 nm, th.src.join ≠ 0 → x.resolve { kind := .atomic, store := true, align := 8, watch := false } th.src.join 8 = .ok (s1, nm) →
          s1.thr = th → s1.launches = x.launches → (last → s1.launchHeld l' = false) → s1.units = x.units →
          let old : Word := BitVec.ofNat 64 (leNat (s1.getBytes nm.locs))
          given fun t => counts t ∧ (¬ last → (s1.putBytes ((nm.locs.zip (leBytes 8 (old + all).toNat)).map fun y => ⟨y.1.1, y.2, y.1.2⟩)).sameBytes t))
    ∧ ∀ p, s.parked.find? (fun q => q.thr.src.uid == s.input.unit) = some p → p.thr.term = none → p.eligible = false → ∀ u v, s.parkWord p = .ok (u, v) →
      (v ≠ 0 → exec .parkCheck s = .next u)
      ∧ (v = 0 → ∃ t : State, exec .parkCheck s = .next t
          ∧ t.parked = u.parked.map (fun q => if q.thr.src.uid = p.thr.src.uid then { q with eligible := true } else q)
          ∧ (NMap.get {} t.queues p.thr.src.queue.toNat).entries
              = (NMap.get {} u.queues p.thr.src.queue.toNat).entries ++ [.parked p.thr.src.uid]
          ∧ t = { u with parked := t.parked, queues := t.queues })

/-- 15 R307-R309, R311, R312, R323, R324; 20 R393: the launch engine takes the packet at HEAD, moves HEAD on and gives an accepted launch
the next SEQ and an entry in its queue; a ring with a bad block halts until it is reset; queues are configured within their
shares; a replicated launch waits for the acceptances it lacks, sends its packet and its own acceptance to the other devices, and one that
times out ends. -/
def Obligations.LaunchEngine : Prop :=
  ∀ s : State,
    let r := s.input.unit
    let ring := NMap.get ({} : Ring) s.rings r
    let takes (i : Instr) (u : State) (c : RingCfg) (origin : BitVec 8) (bytes : List Byte) : Prop :=
      let l := packetOf (u.launchId + 1) (u.seq + 1) (c.ring.setWidth 8) c.part c.vf c.root origin bytes
      let valid := u.doneOk l = true ∧ u.packetOk l (leNat bytes / 2 ^ 224 % 2 ^ 32) = true ∧ u.genOk l = true
      (valid → ∃ (t : State) (m : Launch), exec i s = .next t ∧ t.seq = u.seq + 1 ∧ t.launches = u.launches ++ [m] ∧ m.seq = u.seq + 1
        ∧ m = { l with dl := m.dl, age := u.stepNo, lacks := m.lacks } ∧ (l.replicated = false → m.lacks = [] ∧ t.reports = u.reports)
        ∧ (l.replicated = true → ∀ d < 64, l.devmask.getLsbD d = true → BitVec.ofNat 8 d ≠ u.deviceId →
            Report.acceptance (BitVec.ofNat 8 d) origin l.gen ∈ t.reports
            ∧ (origin = u.deviceId → Report.forwarded (BitVec.ofNat 8 d) m.id ∈ t.reports))
        ∧ (NMap.get {} t.queues m.queue.toNat).entries = (NMap.get {} u.queues m.queue.toNat).entries ++ [.launch m.id] ∧ t.thr = u.thr)
      ∧ (¬ valid → ∃ t : State, exec i s = .next t ∧ t.seq = u.seq ∧ t.queues = u.queues ∧ t.thr = u.thr)
    let block (c : RingCfg) (off : Nat) : Nat := c.block.toNat + off
    let q := NMap.get ({} : Queue) s.queues r
    (∀ c, ring.cfg = some c →
      (ring.halted = true → exec .launchRingRead s = .next s)
      ∧ (ring.halted = false → s.boot.marked = true →
        let readable := (∃ y, s.agentLocs none c.root c.vf true (vaRange c.block.toNat 64) = .ok y)
        (∀ s1 b, s.ringBlk c.root c.vf c.block.toNat = some (s1, b) → readable → b.tail % 64 = 0 → b.tail < b.size →
          (b.tail = b.head → exec .launchRingRead s = .next s1)
          ∧ (b.tail ≠ b.head → ∀ s2 bytes u, s1.agentRead c.root c.vf (b.base + b.head) 64 = some (s2, bytes) →
              s2.agentWrite c.root c.vf (block c 16) (leBytes 4 ((b.head + 64) % b.size)) = some u →
              takes .launchRingRead u c u.deviceId bytes))
        ∧ ((s.ringBlk c.root c.vf c.block.toNat = none ∨ ¬ readable ∨ ∃ s1 b, s.ringBlk c.root c.vf c.block.toNat = some (s1, b)
              ∧ (b.tail % 64 ≠ 0 ∨ b.size ≤ b.tail)) →
            ∃ t : State, exec .launchRingRead s = .next t ∧ (NMap.get {} t.rings r).halted = true ∧ t.launches = s.launches ∧ t.queues = s.queues))
      ∧ (∃ t : State, exec .ringReset s = .next t ∧ NMap.get {} t.rings r = { ring with halted := false }
          ∧ ∀ u, s.agentWrite c.root c.vf (block c 16) (leBytes 4 (s.input.value.toNat % 2 ^ 32)) = some u → u.rings = s.rings → u.sameBytes t)
      ∧ ∀ bytes, s.input.payload = .bytes bytes →
          (leNat bytes / 2 ^ 209 % 2 = 0 ∨ s.input.aux = s.deviceId.toNat → exec .replicatedPacket s = .next s)
          ∧ (leNat bytes / 2 ^ 209 % 2 = 1 → s.input.aux ≠ s.deviceId.toNat → takes .replicatedPacket s c (BitVec.ofNat 8 s.input.aux) bytes))
    ∧ (∀ c, s.input.payload = .queue c →
      let others := (s.queues.map fun y => if y.1 ≠ c.q.toNat ∧ y.2.part = c.part ∧ y.2.enabled = true then y.2.share else 0).sum
      (1024 < c.share + others → exec .queueConfig s = .next s)
      ∧ (c.share + others ≤ 1024 → ∃ t : State, exec .queueConfig s = .next t ∧ t = { s with queues := t.queues }
          ∧ NMap.get {} t.queues c.q.toNat = { NMap.get {} s.queues c.q.toNat with
              part := c.part, enabled := true, capacity := c.capacity, share := c.share, area := c.area }
          ∧ ∀ k, k ≠ c.q.toNat → NMap.get {} t.queues k = NMap.get {} s.queues k))
    ∧ (q.entries ≠ [] → ∃ t : State, exec .priorityAging s = .next t ∧ NMap.get {} t.queues r = { q with boost := q.boost + 1 }
        ∧ (∀ k, k ≠ r → NMap.get {} t.queues k = NMap.get {} s.queues k) ∧ t = { s with queues := t.queues })
    ∧ (∀ origin gen dev, origin = BitVec.ofNat 8 r → gen = s.input.value.setWidth 32 → dev = BitVec.ofNat 8 s.input.aux →
      (s.launches.all (fun l => !(l.replicated && l.origin == origin && l.gen == gen)) = true →
        exec .replicaAccept s = .next { s with early := s.early ++ [(origin, gen, dev)] })
      ∧ ∀ l, s.launches.find? (fun l => l.replicated && l.origin == origin && l.gen == gen) = some l → dev ∈ l.lacks →
          ∃ t : State, exec .replicaAccept s = .next t
            ∧ t.launches = s.launches.map (fun m => if m.id = l.id then { l with lacks := l.lacks.filter fun d => d ≠ dev } else m)
            ∧ (l.lacks.filter (fun d => d ≠ dev) = [] → NMap.get 0 t.gLast l.origin.toNat = l.gen) ∧ t.queues = s.queues ∧ t.thr = s.thr)
    ∧ (∀ l, s.launches.find? (fun l => l.id == r) = some l →
      (l.lacks = [] ∨ s.launchHeld l = true → exec .startTimeout s = .next s)
      ∧ (l.lacks ≠ [] → s.launchHeld l = false → ∃ t : State, exec .startTimeout s = .next t ∧ (∀ m ∈ t.launches, m.id ≠ l.id)
          ∧ .launch l.id ∉ (NMap.get {} t.queues l.queue.toNat).entries ∧ t.thr = s.thr))
    ∧ ∀ c s1 b u, (NMap.get ({} : Part) s.parts r).cfg = some c → s.ringBlk c.root c.vf c.faultBlock.toNat = some (s1, b) → b.head ≠ b.tail →
        b.size ≠ 0 → s1.agentWrite c.root c.vf (c.faultBlock.toNat + 16) (leBytes 4 ((b.head + 64) % b.size)) = some u → exec .faultRingSpace s = .next u

/-- 07 R164, R166; 09 R204; 15 R312-R314: a dispatch decision takes a candidate that no other outranks in effective priority unless a
queue is owed, and starts its record in a place that the partition may grant: a fresh thread in user mode at the record's code
address, on an idle slot of the plot's cluster, its plot cleared. The slot is the model's choice (log 45).
06 R151; 08 R194; 20 R397-R401: a pre-emption request asks an item to drain when its time left is within its budget, to be flushed
when it is idempotent and else to be saved; a drain that expires asks again; a save, taken at an instruction
boundary with its accesses logged, writes the area and puts the saved item at the head of its queue; a flush drops what has
not started and puts the original record there, but neither before the trap of a faulted access nor from a slot that a debugger has
stopped (23 R441). -/
def Obligations.DispatchAndPreemption : Prop :=
  (
    ∀ (s : State) (c : Cand) (p : Plot) (r : ItemRec) (k : SlotNo),
      let part := s.input.unit
      let judged := ((s.queues.filterMap fun x => if x.2.enabled && x.2.part.toNat = part then s.headOf x.1 x.2 else none).map
        fun y => (y, s.judge part y)).filter fun y => match y.2 with
          | .no => false
          | _ => true
      let cfg := (NMap.get ({} : Part) s.parts r.part.toNat).cfg
      s.readyReserve part = none → pickOf judged = some ((c, .place p), false) → c.entry = .item r → s.idleSlot p.home = some k → p.onPlane = true →
      1 ≤ p.h → 1 ≤ p.w → 1 ≤ p.d →
      (∀ y ∈ judged, y.1.prio ≤ c.prio)
      ∧ s.grants part none p = true
      ∧ ∃ t : State, exec .dispatchItem s = .next t
        ∧ (∀ th, th = t.thread k → th.phase = .running ∧ th.priv = false ∧ th.pc = r.code ∧ th.src.uid = s.uid + 1 ∧ th.item = r.item
            ∧ th.seq = r.seq ∧ th.deadline = r.dl ∧ th.root = r.root ∧ th.vf = r.vf ∧ th.part = r.part ∧ th.groups = [] ∧ th.loops = []
            ∧ th.plot = p ∧ (∀ n : Nat, n < 63 → th.x.toArray.getD n 0 = if n = 20 then r.frame else if n = 19 then r.join else 0)
            ∧ th.p = 0 ∧ (∀ n : Nat, th.t.toArray.getD n 0 = 0) ∧ th.outs = [] ∧ th.sq = [] ∧ th.ops = []
            ∧ ∀ g, cfg = some g → th.tvec = g.tvec &&& 0xFFFFFFFFFFFC)
        ∧ (∀ j, j ≠ k → t.thread j = s.thread j)
        ∧ (∀ c r, r < 256 → c < 65536 → t.row c r = if p.holdsRow c r then ({} : Row) else s.row c r)
        ∧ (∀ l key, t.get l key = s.get l key ∨ ∃ c r b, l = .cell c r b))
  ∧ (
    (∀ s : State,
      let uid := s.input.unit
      let area : Word := s.input.value.setWidth 64
      ∀ k, s.slotOfUid uid = some k →
        let th := s.thread k
        let mhz := 1750 - 250 * (s.cluster (k.toNat / 8)).point.toNat
        let left := (th.src.cycles.toNat - th.cyc.toNat) * 1000
        let other : Preempt := if th.src.pf.getLsbD 8 then .flush else .save area
        (th.phase ≠ .running ∨ th.term.isSome = true ∨ th.preempt ≠ .none → exec .preemptRequest s = .next s)
        ∧ (th.phase = .running → th.term = none → th.preempt = .none → ∃ t : State, exec .preemptRequest s = .next t
            ∧ t.thread k = { th with preempt := if (NMap.get ({} : Dbg) s.dbg k.toNat).stopped then .save area
                else if th.src.cycles ≠ 0 ∧ left ≤ th.drainbud.toNat * mhz then .drain area else other }
            ∧ ∀ j, j ≠ k → t.thread j = s.thread j))
    ∧ ∀ s : State,
      let x := s.atSlot s.input.slot
      let th := x.thr
      let w := x.rewound
      let ready := th.phase = .running ∧ th.term = none ∧ th.priv = false ∧ w.thr.edgeDue = false ∧ th.granted = none ∧ th.trapDue = none
        ∧ w.thr.unlogged = none ∧ (th.reissuing = false ∨ w.reissueHeld = true) ∧ w.traceWaits = false
      let head (t : State) (e : QEntry) : Prop := (NMap.get {} t.queues th.src.queue.toNat).entries
        = e :: (NMap.get {} x.queues th.src.queue.toNat).entries
      let y := w.stand
      (∀ area, th.preempt = .drain area → th.phase = .running → th.term = none → ∃ t : State, exec .drainExpiry s = .next t
        ∧ t.thr = { th with preempt := if x.curDbg.stopped = false ∧ th.src.pf.getLsbD 8 = true then .flush else .save area })
      ∧ (∀ area, th.preempt = .save area → ready → w.saveReady = true → th.groups = [] → th.tracedItem = false →
        ∀ u v, y.agentWrite y.thr.root y.thr.vf area.toNat (y.headBytes y.thr.atSave (y.listedVoids y.thr.plot)) = some u →
          u.agentWrite y.thr.root y.thr.vf (area.toNat + 0x1000) (u.imageBytes y.thr) = some v → v.saved = x.saved → v.reports = x.reports →
          v.queues = x.queues →
          ∃ (t : State) (z : Saved), exec .saveItem s = .next t ∧ t.thr.phase = .idle ∧ head t (.saved th.src.uid)
            ∧ t.saved = x.saved ++ [z] ∧ t.reports = x.reports ++ [.saved th.src.uid] ∧ z.area = area ∧ z.park = none
            ∧ z.thr.x = th.x ∧ z.thr.xp = th.xp ∧ z.thr.p = th.p ∧ z.thr.e = th.e ∧ z.thr.t = th.t ∧ z.thr.pc = w.thr.here
            ∧ z.thr.loops = th.loops ∧ z.thr.ow = th.ow ∧ z.thr.saves = th.saves + 1 ∧ z.thr.src = th.src
            ∧ (∀ o ∈ z.thr.outs, o.logged = true) ∧ z.thr.outs.length = w.thr.outs.length ∧ v.sameBytes t)
      ∧ (th.preempt = .flush → x.curDbg.stopped = true → exec .flushItem s = .next s)
      ∧ (th.preempt = .flush → ready → w.thr.loggedFault = none → x.curDbg.stopped = false → ∃ t : State, exec .flushItem s = .next t
          ∧ ∀ z, z = ((y.dropBank th.src.uid).dropCharges x.cur y.thr).withThr { y.thr with
                chans := y.thr.chans.map fun h => { h with queue := h.queue.filter fun c => !(c.part = 0 && !c.sectorsAsked) }
                ops := y.thr.ops.filter fun o => match o.work with
                  | .scroll _ => false
                  | _ => true } →
            (z.flushReady = false → t = z)
            ∧ (z.flushReady = true → th.groups = [] → t.thr.phase = .idle ∧ t.reports = x.reports ++ [.flushed th.src.uid]
                ∧ ∃ past, head t (.item { th.src with past := past, place := none }) ∧ past.flushes = th.src.past.flushes + 1 ∧ past.traps = th.src.past.traps + th.traps)))

/-- 05 R108, R109, R138; 14 R295, R304; 15 R325: a partition reset ends everything of the partition: no slot, parked item, saved item,
group, launch or packet on its way is left, and its engines are cleared; it waits where a report of a join counter that cannot be
lowered, or of an item that had failed, has no place (log 62); an engine without commands goes to another partition; an access to a peer
that has had no answer faults at its first byte there, and such a store ends its item, with WHY 4. -/
def Obligations.PartitionsAndPeers : Prop :=
  (∀ s : State,
    let part : BitVec 4 := BitVec.ofNat 4 s.input.unit
    let e := s.input.unit
    let g := s.engine (BitVec.ofNat 10 e)
    let joins (t : Thread) : Prop := t.part = part ∧ (t.src.join ≠ 0 ∨ t.term.isSome = true ∧ t.reported = false)
    (s.resetPartition part = none → exec .partitionReset s = .next s)
    ∧ (s.resetPartition part = none → (∃ k, joins (s.thread k)) ∨ (∃ p ∈ s.parked, joins p.thr) ∨ ∃ v ∈ s.saved, joins v.thr)
    ∧ (∀ t, s.resetPartition part = some t → exec .partitionReset s = .next t
      ∧ (∀ k, (s.thread k).part = part → (t.thread k).phase = .idle)
      ∧ (∀ k, (s.thread k).part ≠ part → (t.thread k).x = (s.thread k).x ∧ (t.thread k).pc = (s.thread k).pc ∧ (t.thread k).phase = (s.thread k).phase)
      ∧ (∀ p ∈ t.parked, p.thr.part ≠ part) ∧ (∀ v ∈ t.saved, v.thr.part ≠ part) ∧ (∀ g ∈ t.groups, g.part ≠ part)
      ∧ (∀ l ∈ t.launches, l.part ≠ part) ∧ (∀ f ∈ t.flights, f.part ≠ part)
      ∧ ((∀ k, ¬ joins (s.thread k)) → (∀ p ∈ s.parked, ¬ joins p.thr) → (∀ v ∈ s.saved, ¬ joins v.thr) → ∀ k < 768, t.engine (BitVec.ofNat 10 k) =
            if (s.engine (BitVec.ofNat 10 k)).part = some part then { part := some part } else s.engine (BitVec.ofNat 10 k)))
    ∧ (e < 768 →
      (g.busy = true ∨ (∃ c ∈ NMap.get [] s.cmdq (e / 64), e ∈ c.left) → exec .enginePartitionAssign s = .next s)
      ∧ (g.busy = false → (∀ c ∈ NMap.get [] s.cmdq (e / 64), e ∉ c.left) → ∃ t : State, exec .enginePartitionAssign s = .next t
          ∧ t.engine (BitVec.ofNat 10 e) = { g with part := if s.input.flag then none else some (BitVec.ofNat 4 s.input.aux) }
          ∧ (∀ k, k ≠ BitVec.ofNat 10 e → t.engine k = s.engine k) ∧ t = { s with eng := t.eng, engines := t.engines })))
  ∧ ∀ s : State,
    let x := s.atSlot s.input.slot
    let peer (u : State) (a : Word) (info : Nat) : Prop := spaceOf a = 0 ∧
      match u.lookup (some x.cl) u.thr.root x.thr.vf (offsetOf a) false with
      | .ok y => y.peer ≠ 0 ∧ y.peer ≠ x.deviceId.toNat ∧ info = whyInfo y.level 4
      | .error w => w % 16 = 4 ∧ info = w
    (s.input.flag = true → x.thr.sq = [] → exec .peerTimeout s = .next s)
    ∧ (∀ q, s.input.flag = true → x.thr.sq.head? = some q →
      (q.peers = [] ∨ x.thr.sqStuck q = true → exec .peerTimeout s = .next s)
      ∧ (q.peers ≠ [] → x.thr.sqStuck q = false → ∃ t : State, exec .peerTimeout s = .next t
          ∧ t.thr.sq = x.thr.sq.filter (fun e => e.no ≠ q.no) ∧ x.sameBytes t
          ∧ t.thr.term = (match x.thr.term with
            | some f => some f
            | none => some { cause := 0x0101, pc := q.pc, addr := q.ea, time := x.time, info := 4 })))
    ∧ ∀ o, s.input.flag = false → (x.thr.outs.filter fun o => o.faulted.isNone && !o.blocked).head? = some o → o.opc ≠ 0x63 →
      let bytes := bytesOf o.ea (if o.pair then 16 else 2 ^ (o.desc.extractLsb' 0 3).toNat)
      let u := x.withRoot o.root
      ((∀ a ∈ bytes, ∀ n, ¬ peer u a n) → exec .peerTimeout s = .next s)
      ∧ ∀ i n, i < bytes.length → peer u (bytes.getD i 0) n → (∀ j < i, ∀ m, ¬ peer u (bytes.getD j 0) m) → (∀ k, x.thr.phase ≠ .ended k) →
        ∃ t : State, exec .peerTimeout s = .next t ∧ x.sameBytes t ∧ t.thr.x = x.thr.x
          ∧ ∃ p ∈ t.thr.outs, p.no = o.no ∧ p.faulted = some ⟨0x0101, bytes.getD i 0, BitVec.ofNat 64 n⟩

/-! ### What reaches a thread or memory of its own accord (04 R78, R89-R96; 14 R294-R305; 16 R334, R344, R345; 20 R388, R404) -/

/-- 04 R89, R92, R95, R96: a walk that finds a leaf sets A, and D for a store, in the entry, and both caches hold the leaf so; a
TLBINV waits until the thread has released its earlier accesses, and then no cache that it names holds an entry of the tag
that covers the page, and every other entry stays; a write of PTBASE changes ROOT alone: earlier accesses keep the root of their issue (log
10). -/
def Obligations.TranslationEvents : Prop :=
  (∀ s : State,
    let v := s.input.value
    let root : BitVec 44 := v.extractLsb' 0 44
    let vf : BitVec 6 := v.extractLsb' 44 6
    let store := v.getLsbD 98
    let cl := s.input.unit % 256
    let found := s.lookup (some cl) root vf (v.extractLsb' 50 48).toNat store
    (∀ w, found = .error w → exec .pageWalk s = .next s)
    ∧ ∀ x, found = .ok x →
      (x.fresh = false → ∃ t : State, exec .pageWalk s = .next t ∧ t = { s with clusters := t.clusters }
        ∧ ∃ e ∈ (t.cluster cl).tlb, e.covers root vf x.base = true)
      ∧ (x.fresh = true → ∃ (t : State) (e : TLeaf), exec .pageWalk s = .next t
          ∧ e.root = root ∧ e.vf = vf ∧ e.level = x.level ∧ e.base = x.base
          ∧ (∀ b : Nat, b < 64 → e.entry.getLsbD b = (x.entry.getLsbD b || b == 5 || (store && b == 6)))
          ∧ e ∈ (t.cluster cl).tlb ∧ e ∈ NMap.get [] t.l2tlb (cl % 16 / 8)
          ∧ (e.entry ≠ x.entry → t.tableRead x.slot = e.entry)
          ∧ (∀ l, (∀ i < 8, l ≠ if isMain (x.slot + i) then Loc.mem (storageOf 0 (x.slot + i)) else .ext 256 (x.slot + i)) →
              t.get l 0 = s.get l 0)
          ∧ t.thr = s.thr))
  ∧ ∀ s : State,
    let x := s.atSlot s.input.slot
    let th := x.thr
    let v : Word := s.input.value.setWidth 64
    let page := (v.extractLsb' 16 32).toNat
    let dev := v.getLsbD 62
    let die := x.cl % 16 / 8
    let inv (i : Instr) (all : Bool) : Prop :=
      let named (e : TLeaf) : Prop := e.root = th.root ∧ e.vf = th.vf
        ∧ (all = true ∨ e.base / 65536 ≤ page ∧ page < (e.base + levelSpan e.level) / 65536)
      let dropped (l m : List TLeaf) : Prop := ∀ e, e ∈ m ↔ e ∈ l ∧ ¬ named e
      (th.released = false → exec i s = .next s)
      ∧ (th.released = true → (dev = true → x.invOutstanding th.root th.vf all (page * 65536) = false) → ∃ t : State, exec i s = .next t
          ∧ (∀ c, c < 256 → if c = x.cl ∨ dev = true then dropped (x.cluster c).tlb (t.cluster c).tlb
              else (t.cluster c).tlb = (x.cluster c).tlb)
          ∧ (∀ d, d < 2 → if d = die ∨ dev = true then dropped (NMap.get [] x.walkCache d) (NMap.get [] t.walkCache d)
              else NMap.get [] t.walkCache d = NMap.get [] x.walkCache d)
          ∧ (∀ d, d < 2 → if dev = true then dropped (NMap.get [] x.l2tlb d) (NMap.get [] t.l2tlb d)
              else NMap.get [] t.l2tlb d = NMap.get [] x.l2tlb d)
          ∧ t.thr = th ∧ x.sameBytes t)
    inv .tlbinvVa false ∧ inv .tlbinvAll true
    ∧ exec .ptbaseWrite s = .next (x.withThr { th with root := v.extractLsb' 12 44 })

/-- 02 R35, R43; 14 R294; 17 R363; 20 R388: at a boundary a faulted access of the log traps with its cause, one that no instruction has
retired past at its own instruction, and a pending LATE traps in user mode, both once every open access has completed or faulted; a wait that has lasted its limit traps
FE_TIMEOUT with the address of the word; a parcel that encodes nothing traps.
09 R205; 14 R294, R295; 20 R389: a packet takes its thread's deadline when it is sent, and a response its request's; packets of one network
from one place to another arrive in order; one for another partition is
dropped and its router counts it; a late packet is counted by the thread that it charges and by its item, and is pending under LTRAP; the register writes that are events. -/
def Obligations.TrapsAndPackets : Prop :=
  (
    ∀ s : State,
      let x := s.atSlot s.input.slot
      let th := x.thr
      (x.atBoundary = false → exec .loggedFaultTrap s = .next s ∧ exec .lateTrap s = .next s)
      ∧ (x.atBoundary = true →
        ((∀ o ∈ th.outs, o.priv = th.priv → o.faulted = none) → exec .loggedFaultTrap s = .next s)
        ∧ (∀ a o b tr, th.outs = a ++ o :: b → o.faulted = some tr → o.priv = th.priv → (∀ p ∈ a, p.priv = th.priv → p.faulted = none) →
            exec .loggedFaultTrap s = .next (if th.openOuts.isEmpty then x.atNext.enterTrap tr else s))
        ∧ ((∀ o ∈ th.outs, o.priv = th.priv → o.faulted = none) → th.latePending = true → th.priv = false →
            exec .lateTrap s = .next (if th.openOuts.isEmpty then x.atNext.enterTrap ⟨0x0303, 0, 0⟩ else s))
        ∧ (th.latePending = false ∨ th.priv = true → exec .lateTrap s = .next s))
      ∧ (∀ a o b tr, th.outs = a ++ o :: b → o.faulted = some tr → o.logged = false → o.priv = th.priv → (th.outs.map (·.no)).Nodup →
          (∀ p ∈ a, p.priv = th.priv → p.faulted = none ∨ p.logged = true) → th.reissuing = false → th.granted = none →
          x.boundary = some ((x.withThr { th with outs := a ++ b, pc := o.pc, ord := o.ord, wins := o.wins, edgeDue := false
                                                  trapDue := none }).takeTrap tr))
      ∧ (th.phase = .running → th.fewait ≠ 0 →
        (∀ o, x.waitingOut = some o → th.reissuing = false → ∃ t : State, exec .feTimeout s = .next t ∧ t.thr.pc = th.pc ∧ t.thr.x = th.x
          ∧ (∃ p ∈ t.thr.outs, p.no = o.no ∧ p.faulted = some ⟨0x0301, o.ea, 0⟩) ∧ ∀ w ∈ t.feq, ¬ (w.slot = x.cur.toNat ∧ w.out = o.no))
        ∧ (x.waitingOut = none → th.granted = none → th.trapDue = none → ∀ i a, x.fetch = .instr i →
          ((∃ fn f, i.form = .m 0x30 fn f ∧ a = x.ea f ∧ ∃ w ∈ x.feq, w.slot = x.cur.toNat ∧ w.out = 0)
            ∨ ∃ f, i.form = .b 0x40 4 f ∧ a = x.X f.xa ∧ th.waiting = true) →
          exec .feTimeout s = .next (x.takeTrap ⟨0x0301, a, 0⟩)))
      ∧ (th.fewait = 0 → exec .feTimeout s = .next s)
      ∧ (s.parcelAt s.thr.pc = none → exec .illegalEncoding s = .next (s.takeTrap ⟨0x0004, s.thr.pc, 0⟩))
      ∧ ∀ p, s.parcelAt s.thr.pc = some p →
          exec .illegalEncoding s = .next (s.takeTrap (if p.extractLsb' 0 2 = 3 then ⟨0x0001, 0, 0⟩ else ⟨0x0002, 0, 0⟩)))
  ∧ (
    ∀ s : State,
      let x := s.atSlot s.input.slot
      let th := x.thr
      let v : Word := s.input.value.setWidth 64
      let writes (n : Nat) (t : Thread) : Prop := s.input.unit = n → exec .registerWrite s = .next (x.withThr t)
      let drops (i : Instr) : Prop := ∃ outs, exec i s = .next (x.withThr { th with outs := outs })
        ∧ ((th.outs.map (·.no)).Nodup → ∀ o, o ∈ outs ↔ o ∈ th.outs ∧
            ∀ n, n < 8 → v.getLsbD n = true → (th.outs.filter (·.logged))[n]? ≠ some o)
      let no := s.input.unit
      let away : State := { s with flights := s.flights.filter fun g => g.no ≠ no }
      let sent (w : State) (p : Packet) (src : PacketDest) (uid : Nat) (part : BitVec 4) (dl : BitVec 16) : State :=
        { w with flightNo := w.flightNo + 1, flights := w.flights ++ [⟨w.flightNo + 1, p, src, uid, part, dl⟩] }
      (∀ p, s.input.payload = .packet p → s.flights.find? (fun g => g.no = no) = none →
        let u := s.thread p.slot
        exec .packetArrival s = .next (if no = 0 ∧ u.phase ≠ .idle then
          sent s p (.cluster (BitVec.ofNat 8 (slotCluster p.slot))) u.src.uid u.part u.deadline else s))
      ∧ (∀ f, s.flights.find? (fun g => g.no = no) = some f →
        let nets : Nat := match f.packet.network with
          | .req => 0 | .rsp => 1 | .pln => 2 | .sum => 3 | .cmd => 4 | .trc => 5
        let k := nets * 256 + f.packet.router.toNat
        let late := ((s.netCycles / 1024) % 65536 + 65536 - f.deadline.toNat) % 65536
        let other := ∃ q, s.destPart f.packet.dest = some q ∧ q ≠ f.part
        -- packets of one network from one place to another arrive in the order in which they were sent
        let early := ∃ g ∈ s.flights, g.no < f.no ∧ g.packet.network = f.packet.network ∧ g.src = f.src ∧ g.packet.dest = f.packet.dest
        (early → exec .packetArrival s = .next s)
        ∧ (¬ early → other → ∃ t : State, exec .packetArrival s = .next t ∧ t = { away with isolation := t.isolation }
            ∧ NMap.get 0 t.isolation k = NMap.get 0 s.isolation k + 1
            ∧ ∀ j, j ≠ k → NMap.get 0 t.isolation j = NMap.get 0 s.isolation j)
        ∧ (¬ early → ¬ other → f.deadline = 0 ∨ late = 0 ∨ 32768 ≤ late →
            (s.input.payload = .none → exec .packetArrival s = .next away)
            ∧ ∀ p, s.input.payload = .packet p →
                exec .packetArrival s = .next (sent away { p with slot := f.packet.slot } f.packet.dest f.uid f.part f.deadline))
        ∧ (¬ early → ¬ other → f.deadline ≠ 0 → 1 ≤ late → late ≤ 32767 → s.input.payload = .none → ∀ j, s.slotOfUid f.uid = some j →
            let u := s.thread j
            ∃ t : State, exec .packetArrival s = .next t
            ∧ (∀ w, w = t.thread j → w.latecnt.toNat = min (u.latecnt.toNat + 1) 0xFFFFFFFF ∧ w.maxlate.toNat = max u.maxlate.toNat late
                ∧ w.lateItem = u.lateItem + 1 ∧ w.latePending = (u.latePending || u.ltrap)
                ∧ w = { u with latecnt := w.latecnt, maxlate := w.maxlate, lateItem := w.lateItem, latePending := w.latePending })
            ∧ (∀ i, i ≠ j → t.thread i = s.thread i)
            ∧ t = { away with thr := t.thr, slots := t.slots, events := t.events }))
      ∧ exec .latecntWrite s = .next (x.withThr { th with ltrap := v.getLsbD 63, maxlate := 0, latecnt := 0 })
      ∧ drops .opldrop
      ∧ (s.input.unit = 0x228 → drops .registerWrite)
      ∧ writes 0x100 { th with stkbase := v.extractLsb' 0 48 }
      ∧ writes 0x101 { th with stklim := v.extractLsb' 0 48 }
      ∧ writes 0x102 { th with fewait := v.extractLsb' 0 32 }
      ∧ writes 0x103 { th with deadline := v.extractLsb' 0 16 }
      ∧ writes 0x200 { th with tvec := v.extractLsb' 2 46 ++ 0#2 }
      ∧ writes 0x201 { th with epc := v.extractLsb' 0 48 }
      ∧ writes 0x229 { th with drainbud := v.extractLsb' 0 32 }
      ∧ (∀ n : Fin 8, writes (0x230 + n) { th with x := th.x.set (56 + n.val) v })
      ∧ writes 0x240 { th with root := v.extractLsb' 12 44 }
      ∧ writes 0x304 { th with ltrap := v.getLsbD 63, maxlate := 0, latecnt := 0 }
      ∧ (∀ n : Fin 4, writes (0x510 + n) { th with watchA := th.watchA.set n v })
      ∧ (∀ n : Fin 4, writes (0x518 + n) { th with watchC := th.watchC.set n (v.extractLsb' 61 3 ++ 0#57 ++ v.extractLsb' 0 4) })
      ∧ (∀ n : Fin 4, writes (0x520 + n) { th with bp := th.bp.set n (v.extractLsb' 2 46 ++ 0#1 ++ v.extractLsb' 0 1) })
      ∧ (s.input.unit ≤ 7 ∨ 0x202 ≤ s.input.unit ∧ s.input.unit ≤ 0x227 ∨ 0x400 ≤ s.input.unit ∧ s.input.unit ≤ 0x4FF →
          exec .registerWrite s = .next s))

/-- 14 R305; 16 R334, R344, R345: a peer, the host, an RDMA port and a system core read, write and read-modify-write bytes of main memory
under the key that their request names, and change no other byte; the atomics return the old value, and a port performs no swap.
04 R78, R90; 14 R303; 20 R404; 24 R453: a loaded key slot holds its key; a scrub counts a corrected error and poisons the sector of an
uncorrectable one; a second parity error ends every item that uses the unit with CONFIG_PARITY, and a first changes nothing
but the trace, and which items use a unit is log 47; an error in an engine's buffer poisons its sector (05 R109); links retrain on four lanes,
replay and are retired, and a retired one is recalibrated with its record; a port stamps a PTP message with T. A read or an atomic from
outside that meets poison changes nothing (log 15). -/
def Obligations.OutsideEvents : Prop :=
  (
    ∀ (s : State) (r : OutsideReq),
      s.input.payload = .outside r → (s.keySlots.find r.key.toNat).isSome = true → r.layout.toNat < 3 → r.device = 0 →
      let key := r.key.toNat
      let loc (k : Nat) : Loc := .mem (storageOf r.layout.toNat (r.pa.toNat + k))
      let clean (n : Nat) : Prop := ∀ k < n, s.isPoisoned (loc k) = false
      let wrote (t : State) (n : Nat) (new : Nat → Byte) : Prop := (∀ k < n, t.get (loc k) key = new k)
        ∧ (∀ l, (∀ k < n, l ≠ loc k) → t.get l key = s.get l key) ∧ t.thr = s.thr ∧ t.slots = s.slots
      let old (k : Nat) : Byte := s.get (loc k) key
      let val (n : Nat) : Nat := leNat ((List.range n).map old)
      let rmw (i : Instr) (n new : Nat) : Prop := r.pa.toNat % n = 0 → r.pa.toNat + n ≤ 618475290624 →
        (¬ clean n → exec i s = .next s)
        ∧ (clean n → ∃ t : State, exec i s = .next t ∧ t.reports = s.reports ++ [.value ((List.range n).map old)]
            ∧ wrote t n fun k => BitVec.ofNat 8 (new / 2 ^ (8 * k)))
      let serves (i : Instr) (swaps : Bool) : Prop :=
        (∀ n, r.op = .read n → r.pa.toNat + n ≤ 618475290624 →
          exec i s = .next (if ∃ k ∈ List.range n, s.isPoisoned (loc k) = true then s
            else { s with reports := s.reports ++ [.value ((List.range n).map old)] }))
        ∧ (∀ bs, r.op = .write bs → r.pa.toNat + bs.length ≤ 618475290624 → ∃ t : State, exec i s = .next t ∧ t.reports = s.reports
            ∧ wrote t bs.length fun k => bs.getD k 0)
        ∧ (∀ a, r.op = .fetchAdd a → rmw i 8 ((val 8 + a.toNat) % 2 ^ 64))
        ∧ (∀ a, r.op = .swap a → if swaps then rmw i 8 a.toNat else exec i s = .next s)
        ∧ (∀ e a, r.op = .compareSwap e a → rmw i 8 (if val 8 = e.toNat then a.toNat else val 8))
        ∧ ∀ (fn : BitVec 4) (wide : Bool) (a e : Word), r.op = .atom fn wide a e → if swaps then
            ∀ n, n = (if wide then 8 else 4) → fn.toNat ≤ 9 ∨ fn = 10 ∧ wide = false →
              rmw i n (if fn = 9 ∧ val n ≠ e.toNat % 2 ^ (8 * n) then val n else atomNew fn.toNat n (val n) (a.toNat % 2 ^ (8 * n)))
          else exec i s = .next s
      serves .peerAccess true ∧ serves .systemCoreAccess true
      ∧ (s.input.unit < 32 → s.input.unit ∉ s.portsRetired → serves .rdmaTransfer false
        ∧ ∀ qp imm bs, r.op = .writeImm qp imm bs → r.pa.toNat + bs.length ≤ 618475290624 → ∃ t : State, exec .rdmaTransfer s = .next t
            ∧ wrote t bs.length (fun k => bs.getD k 0)
            ∧ (NMap.get {} t.qps qp.toNat).done = (NMap.get ({} : QueuePair) s.qps qp.toNat).done ++ [(some imm, bs.length)])
      ∧ (s.boot.hostLink.isSome = true → serves .hostAccess true)
      ∧ (s.boot.hostLink = none → exec .hostAccess s = .next s))
  ∧ (
    ∀ s : State,
      let n := s.input.unit
      let link := NMap.get ({} : Link) s.links n
      let becomes (i : Instr) (l : Link) : Prop := ∃ t : State, exec i s = .next t ∧ t = { s with links := t.links }
        ∧ NMap.get {} t.links n = l ∧ ∀ j, j ≠ n → NMap.get ({} : Link) t.links j = NMap.get {} s.links j
      let failed (th : Thread) : Thread := { th with term := some (th.term.getD { cause := 0x0703, pc := th.pc, time := s.time }) }
      let parity (uses : SlotNo → Prop) (parked : Thread → Bool) : Prop := ∃ t : State, exec .parityError s = .next t
        ∧ (∀ k, k ∈ s.liveSlots → uses k → t.thread k = failed (s.thread k))
        ∧ (∀ k, k ∉ s.liveSlots ∨ ¬ uses k → t.thread k = s.thread k)
        ∧ t.parked = s.parked.map fun p => if parked p.thr then { p with thr := failed p.thr } else p
      (n < 64 → ∃ t : State, exec .keySlotLoad s = .next t ∧ t = { s with keySlots := t.keySlots }
        ∧ t.keySlots.find n = some (.loaded s.input.value) ∧ ∀ j, j ≠ n → t.keySlots.find j = s.keySlots.find j)
      ∧ (∀ f, s.input.payload = .ecc [f] → n < 12 → f.sector < 1610612736 → ∃ t : State, exec .eccScrub s = .next t ∧ s.sameBytes t ∧ t.thr = s.thr
          ∧ NMap.get 0 t.eccCorr n = NMap.get 0 s.eccCorr n + (if f.correctable then 1 else 0)
          ∧ ∀ k, t.isPoisoned (.mem k) = (s.isPoisoned (.mem k) || (!f.correctable && k / 32 == n * 1610612736 + f.sector)))
      ∧ (∀ u, s.input.payload = .parity u → s.input.flag = false → ∃ t : State, exec .parityError s = .next t ∧ { t with events := s.events, traces := s.traces } = s)
      ∧ (s.input.flag = true →
          (∀ k, s.input.payload = .parity (.descriptorFile k) → parity (fun j => j = k) fun _ => false)
          ∧ (∀ p, s.input.payload = .parity (.plotTable p) → parity (fun j => (s.thread j).part = p) fun th => th.part == p)
          ∧ (∀ r, s.input.payload = .parity (.routerTable r) →
              parity (fun j => r.toNat ∈ (s.thread j).plot.clusters) fun th => th.plot.clusters.contains r.toNat)
          ∧ ∀ c, s.input.payload = .parity (.matrixPlane c) →
              parity (fun j => (s.munit c.toNat).owner = some (s.thread j).src.uid) fun th => (s.munit c.toNat).owner == some th.src.uid)
      ∧ (∀ f, s.input.payload = .cellEcc f → ∃ t : State, exec .eccScrub s = .next t ∧ t.thr = s.thr
          ∧ (∀ l key, t.get l key = s.get l key)
          ∧ ∀ c r b, r < 256 → t.isPoisoned (.cell c r b) = (s.isPoisoned (.cell c r b)
              || (!f.correctable && !s.isVoid c && c * 256 + r == f.cell.toNat * 256 + f.row.toNat)))
      ∧ (∀ f, s.input.payload = .bufEcc f → f.engine.toNat < 768 → ∃ t : State, exec .eccScrub s = .next t ∧ t.thr = s.thr
          ∧ (∀ l key, t.get l key = s.get l key)
          ∧ ∀ e b, e < 768 → t.isPoisoned (.buf e b) = (s.isPoisoned (.buf e b)
              || (!f.correctable && e == f.engine.toNat && b / 32 == f.sector.toNat)))
      ∧ (n < 16 → link.retired = true → ∀ c, s.input.payload = .calibration c → ∃ t : State, exec .linkRetrain s = .next t
          ∧ t = { s with links := t.links, boot := { s.boot with calibration := some c } }
          ∧ NMap.get {} t.links n = { link with lanes := if s.input.flag then 8 else 4 }
          ∧ ∀ j, j ≠ n → NMap.get ({} : Link) t.links j = NMap.get {} s.links j)
      ∧ (∀ one, s.input.payload = .timestamp one → exec .rdmaTransfer s = .next (if n < 32 ∧ n ∉ s.portsRetired then
          { s with reports := s.reports ++ [.stamped n one s.time] } else s))
      ∧ (n < 16 →
          (link.retired = false ∨ s.input.payload = .none →
            becomes .linkRetrain { link with lanes := if link.retired = true ∧ s.input.flag = true then 8 else 4 })
          ∧ becomes .flitCrcReplay { link with replays := link.replays + 1 }
          ∧ (s.input.flag = false → becomes .linkRetirement { link with retired := true }))
      ∧ (s.input.flag = true → n < 32 → ∃ t : State, exec .linkRetirement s = .next t ∧ t = { s with portsRetired := t.portsRetired }
          ∧ ∀ j, j ∈ t.portsRetired ↔ j ∈ s.portsRetired ∨ j = n))

/-! ### Device time, the merge of events, the debug block (23 R427-R434, R438-R443) -/

/-- 23 R427: an offset that a chosen port finds below 1 ms is slewed (log 3), a forward one of 1 ms or more is one step, and a backward one
sets T to half rate: T never steps back, and unlocked it runs free; a die's copy goes up to T with a step and at a resync, and never down; each change of lock state emits LOCK.
23 R429, R432, R433, R434, R443: a watermark, with the blocks read again, takes the events at or below it that no source can still
precede, in the order of TIME, then SOURCE, then emission; one event alone is written at TAIL, which moves on, or held where
the ring is full and lossless, or lost and counted, or queued for the device ring, or its trace is broken; WAITNS counts the
nanoseconds in which an event was held; a reading of EVTS or WAITNS clears it; PCSAMPLE is emitted of a traced item for each multiple of
PERIOD. The merge at watermarks, the bound of device sources, WAITNS and what is done with lost events and broken traces are log 58. -/
def Obligations.TimeAndTrace : Prop :=
  (
    ∀ s : State,
      let port := ∃ p, s.ptpPort = some p ∧ p.toNat < 32 ∧ p.toNat ∉ s.portsRetired
      (∀ d, s.input.payload = .offset d → ¬ (port ∧ s.lockState ≠ 0) → exec .ptpAdjust s = .next s)
      ∧ (∀ d, s.input.payload = .offset d → port → s.lockState ≠ 0 →
        (16000000 ≤ d → ∃ t : State, exec .ptpAdjust s = .next t ∧ t.time = s.time + BitVec.ofInt 64 d
          ∧ t = { s with time := t.time, timeOffset := 0, halfRate := false, dieTime := t.dieTime }
          ∧ ∀ d : Fin 2, t.dieTime[d].toNat = max s.dieTime[d].toNat t.time.toNat)
        ∧ (d < 16000000 → -16000000 < d → exec .ptpAdjust s = .next { s with timeOffset := d, halfRate := false })
        ∧ (d ≤ -16000000 → exec .ptpAdjust s = .next { s with timeOffset := d, halfRate := true }))
      ∧ (∃ t : State, exec .timeResync s = .next t ∧ t = { s with dieTime := t.dieTime }
          ∧ ∀ d : Fin 2, t.dieTime[d].toNat = max s.dieTime[d].toNat s.time.toNat)
      ∧ ∀ (lock : BitVec 2) (u : State), lock = s.input.value.setWidth 2 →
          u = { s with lockState := lock, timeOffset := if lock = 0 then 0 else s.timeOffset, halfRate := if lock = 0 then false else s.halfRate } →
          exec .ptpLockChange s = .next (if lock = s.lockState then s
            else if u.traced 0xFFF 0x61 then
              if 64 ≤ (s.events.filter fun e => e.vf = 0xFFF && e.source.toNat = 0xE41).length then
                { u with traces := NMap.put {} s.traces 0xFFF (let v := NMap.get ({} : TraceV) s.traces 0xFFF
                                                              { v with lost := v.lost + 1, uncounted := v.uncounted + 1 }) }
              else { u with events := u.events ++ [⟨s.time, 0x61, 0xE41, 0xFFF, lock.setWidth 32, none, false⟩] }
            else u))
  ∧ (
    ∀ s : State,
      let mark := s.input.value.toNat
      let k := s.input.unit * 4096 + s.input.aux
      let x := s.atSlot s.input.slot
      let vfOf := x.thr.vf.toNat
      let r := s.countWaits.refreshAll
      let early (e : Ev) : Bool := e.time.toNat ≤ mark && e.time.toNat < min s.time.toNat (min s.dieTime[0].toNat s.dieTime[1].toNat)
      let due := r.events.filter early
      let rest := r.events.filter fun e => !early e
      let u : State := { r with events := rest }
      let finish (w : State) : State := (w.traces.map (·.1)).foldl State.countLost w
      let key (e : Ev) : Nat := sourceDie e.source.toNat * 4096 + e.vf.toNat
      (∀ v, (NMap.get {} r.traces v).halted = false)
      ∧ (∀ v tr c, s.traces = [(v, tr)] → tr.cfg = some c → s.countWaits.traceBlk c = none → (NMap.get {} r.traces v).ctl.getLsbD 0 = false)
      ∧ (∀ n, NMap.get 0 r.waitns n = if ∃ e ∈ s.events, e.held = true ∧ key e = n then
          BitVec.ofNat 64 (min ((NMap.get 0 s.waitns n).toNat + (s.time.toNat - s.waitMark.toNat) / 16) (2 ^ 64 - 1))
        else NMap.get 0 s.waitns n)
      ∧ (∃ l : List Ev, exec .watermarkStep s = .next (finish (u.mergeAll l)) ∧ l.Perm due
          ∧ l.Pairwise (fun a b => a.time.toNat < b.time.toNat ∨ a.time = b.time ∧ a.source.toNat ≤ b.source.toNat)
          ∧ ∀ t c, l.filter (fun e => e.time == t && e.source == c) = due.filter fun e => e.time == t && e.source == c)
      ∧ (∀ e v, due = [e] → v = e.vf.toNat →
        let tr := NMap.get ({} : TraceV) r.traces v
        let ends (P : State → Prop) : Prop := ∃ w : State, exec .watermarkStep s = .next (finish w) ∧ P w
        let takes := tr.ctl.getLsbD 0 = true ∧ (e.kind = 0x60 ∨ tr.mask.getLsbD e.kind.toNat = true)
        let device := NMap.get ({} : TraceV) r.traces 0xFFF
        let broken : Prop := v ≠ 0xFFF → device.ctl.getLsbD 0 = true → ends fun w => (NMap.get {} w.traces v).ctl.getLsbD 0 = false
          ∧ w.events = rest ++ [⟨s.time, 0x60, 0xE40, 0xFFF, BitVec.ofNat 32 (tr.lost.toNat + 1), none, false⟩]
        (¬ takes → ends fun w => w = u)
        ∧ (takes → tr.cfg = none → broken)
        ∧ ∀ c, takes → tr.cfg = some c →
          let writes (w : State) (off : Nat) (bs : List Byte) : Option State := w.agentWrite c.root (c.vf.setWidth 6) off bs
          ∀ u1 b, u.traceBlk c = some (u1, b) →
            let free := (b.size - 16 - (b.tail + b.size - b.head) % b.size) / 16
            let room := e.stamp = none ∧ tr.lost = 0 ∧ 1 ≤ free
            (room → ∀ w z, writes u1 (b.base + b.tail) (leBytes 16 (e.payload ++ e.vf ++ e.source ++ e.kind ++ e.time).toNat) = some w →
              writes w (c.block.toNat + 12) (leBytes 4 ((b.tail + 16) % b.size)) = some z → ends fun t =>
                (NMap.get 0 t.evts (key e)).toNat = min ((NMap.get 0 z.evts (key e)).toNat + 1) (2 ^ 64 - 1)
                ∧ (NMap.get {} t.traces v).lost = 0 ∧ t = { z with traces := t.traces, evts := t.evts })
            ∧ (free = 0 → v ≠ 0xFFF → tr.ctl.getLsbD 1 = true → u1.traces = u.traces → u1.events = rest → ends fun w =>
                w.events = rest ++ [{ e with held := true }] ∧ (NMap.get {} w.traces v).halted = true ∧ (NMap.get {} w.traces v).lost = tr.lost
                ∧ w = { u1 with events := w.events, traces := w.traces })
            ∧ (free = 0 → v ≠ 0xFFF → tr.ctl.getLsbD 1 = false → u1.traces = u.traces → ends fun w =>
                (NMap.get {} w.traces v).lost = tr.lost + 1 ∧ (NMap.get {} w.traces v).uncounted = tr.uncounted + 1
                ∧ w = { u1 with traces := w.traces })
            ∧ (free = 0 → v = 0xFFF → u1.events = rest → ends fun w => w = { u1 with events := rest ++ [e] }))
      ∧ exec .mergeCounterRead s = .next (if s.input.flag then
          { s with reports := s.reports ++ [.counts 0 (NMap.get 0 s.waitns k)], waitns := NMap.put 0 s.waitns k 0 }
        else { s with reports := s.reports ++ [.counts (NMap.get 0 s.evts k) 0], evts := NMap.put 0 s.evts k 0 })
      ∧ ∀ period now, period = (NMap.get ({} : TraceV) x.traces vfOf).period.toNat * 16000 →
          now = x.dieTime.toArray.getD (x.cl % 16 / 8) 0 →
          let next := (x.thr.pcSampled.toNat / period + 1) * period
          let due := period ≠ 0 ∧ x.thr.phase ≠ .idle ∧ next ≤ now.toNat
          (¬ due → exec .pcSample s = .next s)
          ∧ (due → ∀ y, y = x.withThr { x.thr with pcSampled := BitVec.ofNat 64 next } → exec .pcSample s = .next
              (if x.thr.src.pf.getLsbD 9 && x.traced vfOf 0x46 then
                { y with events := x.events ++ [⟨now, 0x46, x.cur.setWidth 12, x.thr.vf.setWidth 12,
                    (if s.input.flag then 1#1 else 0#1) ++ (if x.thr.priv then 1#1 else 0#1) ++ x.thr.pc.extractLsb' 2 30, none, false⟩] }
              else y)))

/-- 23 R438, R441, R443: HALT asks a slot that runs to stop at its next boundary, where it stops with REASON 1 once its loads have
completed or are logged; RESUME and STEP set a stopped slot running, STEP for one instruction; SAMPLE shows the slot; DROPLOG
drops the entries it names. A stop waits for an access that is neither complete nor logged, and for a matrix or network op. The
runtime of a partition reaches the slots of its clusters, the hypervisor every slot. Every other register of the slot, and every other slot, stays.
23 R438, R442: READ and WRITE answer BUSY unless the slot is stopped. On a stopped slot READ gives the register that NUM names, and
WRITE replaces it alone; x0, e0 and p7 take no write; a bad number, a read-only system register, a PC that is not a multiple
of 4 and a descriptor that does not pass give RESULT 2. That a slot passes the breakpoint or watchpoint that it is resumed at is log 35; READ
of x0, DROPLOG without a stop, ATTACH with each command, and what SAMPLE shows of a slot without an item are log 61. -/
def Obligations.DebugBlock : Prop :=
  (
    (∀ s : State,
      let x := s.atSlot s.input.slot
      let th := x.thr
      let d : Dbg := { x.curDbg with attach := s.input.flag, cmd := 0, result := 0 }
      let becomes (i : Instr) (u : State) (e : Dbg) : Prop := ∃ t : State, exec i s = .next t ∧ t.curDbg = e ∧ t = { u with dbg := t.dbg }
        ∧ ∀ k : Nat, k ≠ x.cur.toNat → NMap.get ({} : Dbg) t.dbg k = NMap.get {} s.dbg k
      let pass : Option Word := if (x.curDbg.stat.extractLsb' 16 48).toNat = th.pc.toNat then some th.pc else none
      let next := match th.ord with
        | some o => o.pc
        | none => x.skipFiller (2 ^ 46) th.pc
      let log := min 8 (th.outs.filter (·.logged)).length
      (th.phase = .running → x.curDbg.stopped = false → becomes .haltSlot x { d with cmd := 1, haltReq := true })
      ∧ (th.phase ≠ .running ∨ x.curDbg.stopped = true → becomes .haltSlot x d)
      ∧ (x.curDbg.stopped = true → becomes .resumeSlot x { d with stopped := false, pass := pass, stat := 0 }
          ∧ becomes .stepSlot x { d with stopped := false, pass := pass, stat := 0, stepReq := true, cmd := 3 }
          ∧ becomes .dbgSample x d)
      ∧ (x.curDbg.stopped = false → becomes .resumeSlot x d ∧ becomes .stepSlot x { d with result := 1 }
          ∧ (th.exited = true → becomes .dbgSample x { d with stat := th.lastPc.extractLsb' 0 48 ++ (0x0800 : BitVec 16) })
          ∧ (th.exited = false → th.phase = .idle → becomes .dbgSample x { d with stat := 15 })
          ∧ (th.exited = false → th.phase ≠ .idle → ∀ w, w = BitVec.ofNat 16 (log * 2 ^ 12 + s.input.aux % 2 * 2 ^ 10 + if th.priv then 2 ^ 8 else 0) →
              becomes .dbgSample x { d with stat := next.extractLsb' 0 48 ++ w }))
      ∧ ∃ outs, becomes .droplog { x.withThr { th with outs := outs } with
            feq := x.feq.filter fun w => w.slot ≠ x.cur.toNat || w.out = 0 || outs.any fun o => o.no = w.out } { d with data := s.input.value.setWidth 64 }
          ∧ ((th.outs.map (·.no)).Nodup → ∀ o, o ∈ outs ↔ o ∈ th.outs ∧
              ∀ n, n < 8 → s.input.value.getLsbD n = true → (th.outs.filter (·.logged))[n]? ≠ some o))
    ∧ (∀ s : State, s.curDbg.haltReq = true → s.curDbg.due = none → s.thr.reissuing = false → s.thr.granted = none → s.thr.unlogged = none →
        s.thr.edgeDue = false → s.thr.trapDue = none → s.thr.loggedFault = none → s.lateTrap = none → ∀ w, w = s.atNext.rewound →
        let busy := (∃ o ∈ w.thr.openOuts, o.logged = false) ∨ ∃ o ∈ w.thr.ops, o.whole = true
        (busy → s.boundary = some (w.withThr { w.thr with waiting := true }))
        ∧ (¬ busy → ∃ t : State, s.boundary = some t ∧ t.curDbg.stopped = true ∧ t.curDbg.haltReq = false ∧ t.thr.pc = w.thr.here
          ∧ t.thr.x = s.thr.x
          ∧ t.curDbg.stat = w.thr.here.extractLsb' 0 48 ++ BitVec.ofNat 16 (min 8 (w.thr.outs.filter (·.logged)).length * 2 ^ 12
              + (if w.thr.priv then 2 ^ 9 + 2 ^ 8 else 0) + 1)))
    ∧ ∀ (s : State) (who : Option (BitVec 4)) (k : SlotNo) (off : BitVec 17),
        let d : Dbg := NMap.get {} s.dbg k.toNat
        let y := s.atSlot k
        let mine := ∀ p, who = some p → ∃ c, (NMap.get ({} : Part) s.parts p.toNat).cfg = some c ∧ ∃ q ∈ c.clusters, q.toNat = k.toNat / 8
        let shows (r : Nat) (w : Word) : Prop := off.toNat = k.toNat * 64 + 8 * r → s.input.payload = .control (.debugRead who off) →
          exec .systemCoreAccess s = .next (if mine then { s with reports := s.reports ++ [.value (leBytes 8 w.toNat)] } else s)
        shows 0 (BitVec.ofNat 64 (d.result.toNat * 256 + d.cmd.toNat * 16 + if d.attach then 1 else 0))
        ∧ shows 1 (d.num.setWidth 64) ∧ shows 2 d.data ∧ shows 3 d.stat
        ∧ ∀ v : Word, s.input.payload = .control (.debugWrite who off v) → mine → off.toNat = k.toNat * 64 → v.extractLsb' 4 4 = 0 →
            ∃ t : State, exec .systemCoreAccess s = .next t ∧ t.curDbg = { d with attach := v.getLsbD 0 } ∧ t = { y with dbg := t.dbg })
  ∧ (
    ∀ s : State,
      let x := s.atSlot s.input.slot
      let th := x.thr
      let n := s.input.unit
      let v : Word := s.input.value.setWidth 64
      let ctl (r : BitVec 2) : Dbg := { x.curDbg with attach := s.input.flag, cmd := 0, result := r, num := BitVec.ofNat 16 n }
      let becomes (i : Instr) (u : State) (e : Dbg) : Prop := ∃ t : State, exec i s = .next t ∧ t.curDbg = e ∧ t = { u with dbg := t.dbg }
        ∧ ∀ k : Nat, k ≠ x.cur.toNat → NMap.get ({} : Dbg) t.dbg k = NMap.get {} s.dbg k
      let reads (w : Word) : Prop := becomes .dbgRead x { ctl 0 with data := w }
      let writes (t : Thread) : Prop := becomes .dbgWrite (x.withThr t) { ctl 0 with data := v }
      (x.curDbg.stopped = false → becomes .dbgRead x (ctl 1) ∧ becomes .dbgWrite x { ctl 1 with data := v })
      ∧ (x.curDbg.stopped = true → n < 65536 →
        (∀ j : Fin 64, n = 0x1000 + j → reads (if j.val = 0 then 0 else th.x[j]) ∧ writes (if j.val = 0 then th else { th with x := th.x.set j v }))
        ∧ (∀ j : Fin 8, n = 0x1040 + j → reads th.xp[j] ∧ writes { th with xp := th.xp.set j v })
        ∧ (n = 0x1048 → reads ((th.p.extractLsb' 0 7).setWidth 64) ∧ writes { th with p := (v.extractLsb' 0 7).setWidth 8 })
        ∧ (n = 0x1049 → reads th.pc ∧ (v.toNat % 4 = 0 → writes { th with pc := v })
            ∧ (v.toNat % 4 ≠ 0 → becomes .dbgWrite x { ctl 2 with data := v }))
        ∧ (∀ j : Fin 8, n = 0x1050 + j → reads (if j.val = 0 then 0xFFFF0000FFFF0000 else th.e[j])
            ∧ writes (if j.val = 0 then th else { th with e := th.e.set j v }))
        ∧ (∀ (j : Fin 64) (w : Fin 4), n = 0x1100 + 4 * j.val + w.val →
            reads (if j.val = 0 then 0 else th.t[j].extractLsb' (64 * w.val) 64)
            ∧ (j.val = 0 → becomes .dbgWrite x { ctl 2 with data := v })
            ∧ ∀ d : BitVec 256, j.val ≠ 0 →
                (∀ i : Fin 4, d.extractLsb' (64 * i.val) 64 = if i = w then v else th.t[j].extractLsb' (64 * i.val) 64) →
                (x.validate d = .ok () → writes { th with t := th.t.set j d })
                ∧ ((∃ tr, x.validate d = .error (.trap tr)) → becomes .dbgWrite x { ctl 2 with data := v }))
        ∧ (n = 0x100 → reads (th.stkbase.setWidth 64) ∧ writes { th with stkbase := v.extractLsb' 0 48 })
        ∧ (n = 0x201 → writes { th with epc := v.extractLsb' 0 48 })
        ∧ (n = 0x202 → reads (th.ecause.setWidth 64) ∧ becomes .dbgWrite x { ctl 2 with data := v })
        ∧ (n = 0x204 → reads th.eaddr ∧ becomes .dbgWrite x { ctl 2 with data := v })
        ∧ (0x104A ≤ n ∧ n ≤ 0x104F ∨ 0x1058 ≤ n ∧ n ≤ 0x10FF ∨ 0x1200 ≤ n → becomes .dbgRead x (ctl 2) ∧ becomes .dbgWrite x { ctl 2 with data := v })))

/-! ### Starting and serving the module (24 R447-R455) -/

/-- R447-R452: a start keeps the boot record alone: no thread, plot store, engine state, key or byte of memory survives it. At step 4 the
calibration record is made, unless a warm start keeps it, at step 5 slot 0 takes a fresh key and the boot record is mirrored with the void map
behind it, and at step 7 the runtime's tables are set up. A start that reaches step 8 is marked good and clears the count of the slot it
booted; one that stops counts a failed attempt (a warm start fails at no step that it skips), with what the steps before have done, and a warm
start follows by itself; the third marks the slot bad and makes the other active, and with both bad the module is in recovery. One that waits
for step 8 fails at the watchdog. A power loss ends all work. The mirror's place is the model's (log 48), and so is what a start keeps and how
a failed one is left (log 60).
R447, R449, R452, R453, R455: an image update writes the inactive slot alone, refuses a second write while one runs, and makes the
other slot active; a host that attaches after step 7 trains then; low flow reports an alert; a cluster that is on is not
recalibrated. That a finished write clears the slot's mark and count is the model's choice (log 49). -/
def Obligations.StartsAndService : Prop :=
  (
    ∀ s : State,
      let b := s.boot
      let fails (q : Boot) (booted : Bool) (n : Nat) : Prop := q.failStep = BitVec.ofNat 32 n ∧ q.marked = false ∧ q.waits = false
        ∧ (booted = false → q.cntA = min 3 (b.cntA + 1) ∧ q.badA = (b.badA || decide (3 ≤ q.cntA)) ∧ q.cntB = b.cntB ∧ q.badB = b.badB)
        ∧ (booted = true → q.cntB = min 3 (b.cntB + 1) ∧ q.badB = (b.badB || decide (3 ≤ q.cntB)) ∧ q.cntA = b.cntA ∧ q.badA = b.badA)
        ∧ q.recovery = (b.recovery || q.badA && q.badB) ∧ q.due = !(q.badA && q.badB)
        ∧ (q.badA && q.badB = false → q.activeB = if (if booted then q.badB else q.badA) then !booted else b.activeB)
      let clears (t : State) : Prop := (∀ k, (t.thread k).phase = .idle) ∧ (∀ c r, t.row c r = ({} : Row))
        ∧ (∀ e, (t.engine e).buf = [] ∧ (t.engine e).prog = []) ∧ t.launches = [] ∧ t.parked = [] ∧ t.groups = []
      -- the boot record, the count of void cells behind it, and no other byte
      let mirrored (t : State) (at' : Nat) : Prop := (at' + 130 ≤ 618475290624 →
          (∀ k < 16, t.get (.mem (storageOf 0 (at' + k))) 0 = (leBytes 16 (0x48524F4254485848 + (b.starts + 1).toNat * 2 ^ 64)).getD k 0)
          ∧ ∀ k < 2, t.get (.mem (storageOf 0 (at' + 64 + k))) 0 = (leBytes 2 s.voids.length).getD k 0)
        ∧ ∀ k, (∀ j < 130, k ≠ storageOf 0 (at' + j)) → t.get (.mem k) 0 = 0
      let image := if b.activeB then b.imageB else b.imageA
      let halted (i : ImageSlot) : ImageSlot := { i with writing := false }
      let starts (i : Instr) (cold : Bool) (c : StartCfg) : Prop :=
        let runs (n : Nat) : Bool := cold || (n ≠ 1 && (n ≠ 4 || b.calibration.isNone || !c.sensorsNear))
        let out := (c.fails.headD none).filter runs
        let stop : Option Nat := if image.good then out else some (min 3 (out.getD 3))
        let made (t : State) (n : Nat) : Prop := clears t ∧ t.boot.starts = b.starts + 1 ∧ t.boot.lastCold = cold ∧ t.boot.powered = true
          ∧ t.boot.imageA = halted b.imageA ∧ t.boot.imageB = halted b.imageB ∧ t.boot.bootedB = b.activeB ∧ t.boot.mirror = c.mirror
          ∧ t.boot.cfg = some { c with fails := c.fails.drop 1 }
          ∧ t.boot.calibration = if 4 < n ∧ runs 4 = true then some c.calibration else b.calibration
        (∀ n, stop = some n → n < 8 → ∃ t : State, exec i s = .next t ∧ made t n ∧ fails t.boot b.activeB n ∧ t.boot.hostLink = none
          ∧ (n ≤ 5 → t.mem = [] ∧ t.keySlots = [])
          ∧ (5 < n → t.keySlots = [(0, .drawn s.draws)] ∧ t.draws = s.draws + 1 ∧ mirrored t c.mirror))
        ∧ (∀ n, stop = some n → 8 ≤ n → ∃ t : State, exec i s = .next t ∧ made t 8 ∧ t.boot.waits = true ∧ t.boot.marked = false
          ∧ t.boot.hostLink = c.host)
        ∧ (stop = none → ∃ t : State, exec i s = .next t ∧ made t 8
            ∧ (∀ q, q = t.boot → q.marked = true ∧ q.waits = false ∧ q.due = false ∧ q.tgood = s.time
                ∧ q.hostLink = c.host ∧ q.activeB = b.activeB ∧ q.badA = b.badA ∧ q.badB = b.badB
                ∧ q.cntA = (if b.activeB then b.cntA else 0) ∧ q.cntB = if b.activeB then 0 else b.cntB)
            ∧ t.draws = s.draws + 1 ∧ t.baseKey = .drawn s.draws
            ∧ (c.keys = [] → t.keySlots = [(0, .drawn s.draws)] ∧ mirrored t c.mirror)
            ∧ (∀ p, c.parts = [p] → (NMap.get ({} : Part) t.parts p.part.toNat).cfg = some p)
            ∧ ∀ r, c.rings = [r] → (NMap.get ({} : Ring) t.rings r.ring.toNat).cfg = some r)
      (∀ c, s.input.payload = .start c →
        (b.powered = true ∨ b.recovery = true → exec .coldStart s = .next s)
        ∧ (b.powered = false → b.recovery = false → starts .coldStart true c)
        ∧ (b.powered = false ∨ b.recovery = true → exec .warmStart s = .next s)
        ∧ (b.powered = true → b.recovery = false → starts .warmStart false c)
        ∧ (b.due = true → b.powered = true → b.recovery = false → b.cfg = some c → exec .warmStart s = .next s.startDue))
      ∧ (b.due = false ∨ b.powered = false ∨ b.recovery = true → s.startDue = s)
      ∧ (b.waits = false ∨ b.powered = false → exec .startWatchdog s = .next s)
      ∧ (b.waits = true → b.powered = true → ∃ t : State, exec .startWatchdog s = .next t ∧ fails t.boot b.bootedB 8
          ∧ t.boot.imageA = b.imageA ∧ t.boot.imageB = b.imageB ∧ t.thr = s.thr ∧ (s.keySlots.find 0 = none → t = { s with boot := t.boot }))
      ∧ ∃ t : State, exec .inputPowerLoss s = .next t ∧ clears t ∧ t.mem = [] ∧ t.keySlots = []
          ∧ t.boot = { b with marked := false, hostLink := none, powered := false, waits := false, due := false
                              imageA := halted b.imageA, imageB := halted b.imageB })
  ∧ (
    ∀ s : State,
      let b := s.boot
      let updates (u : ImageStep) (q : Boot) : Prop := s.input.payload = .image u →
        ∃ t : State, exec .imageUpdate s = .next t ∧ t.boot = q ∧ t.thr = s.thr ∧ t.slots = s.slots
          ∧ (s.keySlots.find 0 = none → t = { s with boot := q })
          ∧ ∀ l key, (∀ k < 130, l ≠ .mem (storageOf 0 (b.mirror + k))) → t.get l key = s.get l key
      let n := s.input.unit
      (b.activeB = false →
        (b.imageB.writing = true → s.input.payload = .image .beginWrite → exec .imageUpdate s = .next s)
        ∧ (b.imageB.writing = false → updates .beginWrite { b with imageB := { b.imageB with writing := true, good := false } })
        ∧ (b.imageB.writing = true → ∀ v ok, updates (.endWrite v ok) { b with imageB := ⟨v, ok, false⟩, badB := false, cntB := 0 })
        ∧ updates .setActive { b with activeB := true, recovery := b.recovery && b.badB })
      ∧ (b.activeB = true →
        (b.imageA.writing = true → s.input.payload = .image .beginWrite → exec .imageUpdate s = .next s)
        ∧ (b.imageA.writing = false → updates .beginWrite { b with imageA := { b.imageA with writing := true, good := false } })
        ∧ (b.imageA.writing = true → ∀ v ok, updates (.endWrite v ok) { b with imageA := ⟨v, ok, false⟩, badA := false, cntA := 0 })
        ∧ updates .setActive { b with activeB := false, recovery := b.recovery && b.badA })
      ∧ (∀ l, s.input.payload = .host l → exec .hostAttach s = .next
          (if (b.marked = true ∨ b.waits = true) ∧ b.hostLink = none then { s with boot := { b with hostLink := some l } } else s))
      ∧ exec .coolantFlowLow s = .next (if n < 3000 then { s with boot := { b with alerts := b.alerts + 1 } } else s)
      ∧ (n < 256 → ((s.cluster n).on = true → exec .clusterRecalibration s = .next s)
        ∧ ((s.cluster n).on = false → ∀ c, s.input.payload = .calibration c →
            exec .clusterRecalibration s = .next { s with boot := { b with calibration := some c } })))

/-! ### The whole machine -/

/-- 02 R18-R22, R35; 05 R115; 24 R447: a slot's turn runs the instruction that the parcels at its PC decode to, once nothing is due at the
boundary before it, and adds to it only what a STEP and the stall sample take from the turn; an engine's turn runs the word
at its PC; an event's turn runs that event with its input. Fillers are passed; what does not decode traps. Nothing runs
in a module that is down, but that the warm start which a failed start causes begins; and a turn that may not be taken changes nothing. A
breakpoint at the instruction behind an ORD fetches it. That the turns are named by the state is the
model's (log 2). -/
def Obligations.StepRunsDecoded : Prop :=
  ∀ (s : State) (r : List Turn),
    let base : State := { s.tick with turns := r }
    (∀ k, s.turns = .slot k :: r →
      (s.isDown = true → step s = .next base.startDue)
      ∧ (s.isDown = false → ∀ u, u = base.atSlot k →
        (u.slotMay = false → step s = .next u)
        ∧ (u.slotMay = true →
          let turn (o : Host.Outcome State Fault Refusal) : Host.Outcome State Fault Refusal := match o with
            | .next t => .next (t.afterTurn k)
            | .fault f => .fault f
            | .refused f => .refused f
          let v := u.touchCode u.thr.pc
          (∀ t, u.boundary = some t → step s = .next (t.afterTurn k))
          ∧ (u.thr.reissuing = false → u.thr.granted.isSome = true ∨ u.thr.unlogged = none ∧ u.thr.edgeDue = false ∧ u.thr.trapDue = none
                ∧ u.thr.loggedFault = none ∧ (u.thr.latePending = false ∨ u.thr.priv = true) ∧ u.curDbg.haltReq = false ∧ u.curDbg.due = none
                ∧ u.traceWaits = false → u.boundary = none)
          ∧ (u.boundary = none →
            (u.parcelAt u.thr.pc = none → step s = turn (.next (v.takeTrap ⟨0x0004, u.thr.pc, 0⟩)))
            ∧ ((u.parcelAt u.thr.pc).isSome = true →
              (∀ i n, decode (u.blockParcels u.thr.pc) = .ok (i, n) → step s = turn (exec i (v.touchPrefixed i))
                ∧ ((∀ b ∈ v.thr.bp.toList, b.getLsbD 0 = false) ∨ (∀ f, i ≠ .ord f) → v.touchPrefixed i = v))
              ∧ (decode (u.blockParcels u.thr.pc) = .error .illegalFormat → step s = turn (.next (v.takeTrap ⟨0x0001, 0, 0⟩)))
              ∧ (decode (u.blockParcels u.thr.pc) = .error .illegalField → step s = turn (.next (v.takeTrap ⟨0x0003, 0, 0⟩)))
              ∧ (decode (u.blockParcels u.thr.pc) = .error .filler →
                  step s = .next (v.withThr { v.thr with pc := u.skipFiller ((32 - u.thr.pc.toNat % 32) / 4) u.thr.pc })))))))
    ∧ (∀ e, s.turns = .engine e :: r → s.isDown = false → ∀ u, u = base.atEngine e →
        (u.eng.busy = true → u.eng.call.isSome = true → u.engineHeld u.eng = false →
          step s = exec (decodeBank (NMap.get 0 u.eng.prog u.eng.pc.toNat)) u)
        ∧ (u.eng.busy = false ∨ u.eng.call = none ∨ u.engineHeld u.eng = true → step s = .next u))
    ∧ (∀ i inp, s.turns = .event i inp :: r → i.form = .none → i ≠ .illegalEncoding → i ≠ .bankIllegal →
        step s = if s.isDown = true ∧ reachesOff i = false then .next base.startDue else exec i { base with input := inp })
    ∧ (∀ (t : State) (k : SlotNo), (NMap.get ({} : Dbg) t.dbg k.toNat).stepReq = false →
        t.afterTurn k = if (t.thread k).waiting then t
          else t.setCluster (k.toNat / 8) { t.cluster (k.toNat / 8) with issued := true })
    ∧ (s.turns = [] → step s = match s.tick.nextTurn with
        | some t => s.tick.take t
        | none => .next s.tick.startDue)

/-- Words of the spec's own examples decode to the instructions they stand for, one of each family (02 R25-R30, R44, R390; 04; 05; 06; 07;
08; 09; 11-15; 17; 19; 22; 23; 25). -/
def Obligations.DecodeWords : Prop :=
  let gp : Hd := ⟨7, 0⟩
  let reads (ps : List Parcel) (i : Instr) : Prop := decode ps = .ok (i, ps.length)
  reads [0x0001C000, 0x00004000] (.eret ⟨gp, 0, 0, 0, 0⟩)
  ∧ reads [0x3E01C000, 0x00006241] (.sysw ⟨gp, 62, 0, 0, 0x241⟩)
  ∧ reads [0x0501C000, 0x0000A083] (.evt ⟨gp, 5, 0, 0, 0x083⟩)
  ∧ reads [0x0C5DC005, 0x08000006, 0x00000012] (.loopx ⟨gp, 0, 12, 23, 8192, 0, 18⟩)
  ∧ reads [0x0031C049, 0x00000000, 0x00000008] (.movi ⟨gp, 0, 0, 12, 0, 0, 8⟩)
  ∧ reads [0x30C5C049, 0x00010003, 0x00020408] (.ptrmk ⟨gp, 0, 48, 49, 4, 0, 0x20408⟩)
  ∧ reads [0x0209C080, 0x07404180] (.fcvt ⟨gp, 0, 2, 2, 1, 0x0106, 0⟩)
  ∧ reads [0x6F0DC080, 0x02000002] (.fdiv ⟨gp, 1, 47, 3, 0, 0, 2⟩)
  ∧ reads [0x1415C8C1, 0x000000C0, 0x00000008] (.ld ⟨⟨7, 2⟩, 0, 20, 5, 0, 3, 0, 8⟩)
  ∧ reads [0x3DF1C0C1, 0x000012C0, 0x00000000] (.st ⟨gp, 0, 61, 60, 1, 3, 0, 0⟩)
  ∧ reads [0x0A0DC0C1, 0x00002080, 0x00000000] (.ldfe ⟨gp, 0, 10, 3, 0, 2, 0, 0⟩)
  ∧ reads [0x0715C0C5, 0x000048C6, 0x00000010] (.acas ⟨gp, 0, 7, 5, 0, 3, 6, 16⟩)
  ∧ reads [0x2598C101, 0x00008003, 0x00000102] (.gnew ⟨⟨3, 0⟩, 0, 37, 38, 2, 0, 0x102⟩)
  ∧ reads [0x0019C141, 0x00000000, 0x00081502] (.tdld ⟨gp, 0, 6, 0, 0, 0, 0, 0, 0, 0, 32, 21⟩)
  ∧ reads [0x0001C141, 0x00100000, 0x00001606] (.edset ⟨gp, 0, 0, 0, 0, 1, 0, 0, 0, 0, 0, 22⟩)
  ∧ reads [0x0419C181, 0x00100005, 0x00000000] (.vadd ⟨gp, 4, 6, 0, 0, 1, 0, 0, 0, 5, 0, 0⟩)
  ∧ reads [0x020DC185, 0x00007003, 0x00000102] (.vfmas ⟨gp, 2, 3, 0, 0, 0, 0, 7, 0, 3, 0, 1⟩)
  ∧ reads [0x0A31C189, 0x00000000, 0x00010002] (.vxch ⟨gp, 10, 12, 0, 0, 0, 0, 0, 0, 0, 4, 0⟩)
  ∧ reads [0x0021C1C1, 0x00000000, 0xFE000000] (.scroll ⟨gp, 0, 8, 0, 0, 0, 0, 0, 0, 0, 0x3F800, 0⟩)
  ∧ reads [0x000DC242, 0x00000000, 0x00000003, 0xFFFFFFE2] (.accz ⟨gp, 0, 0, 3, 0, 0, 0, 0, 0, 0, 0, 0, 0, 0, 0, 0, 0xFFFFFFE2⟩)
  ∧ reads [0x461DC282, 0x03001000, 0x00000001, 0x00000000] (.cpout ⟨gp, 1, 6, 7, 0, 3, 0, 1, 0, 0, 0, 0, 0, 0, 0, 0, 0⟩)
  ∧ reads [0x0011C2C2, 0x0038D000, 0x000B0002, 0x00000000] (.bkcall ⟨gp, 0, 0, 4, 0, 0, 14, 13, 0, 0, 0, 0, 0, 11, 0, 0, 0⟩)
  ∧ reads [0x00020302, 0x00963000, 0x00001002, 0x00000000] (.owdecl ⟨⟨8, 0⟩, 0, 0, 0, 0, 0, 37, 35, 0, 0, 0, 0, 0, 0, 1, 0, 0⟩)
  ∧ reads [0x0021C340, 0x00001001] (.chgrd ⟨gp, 0, 8, 0, 1⟩)
  ∧ decodeBank 0x1880000C = .bfmt ⟨0x620, 0, 0, 0⟩
  ∧ decodeBank 0x0000FD46 = .bmul ⟨0, 3, 15, 5⟩
  ∧ decodeBank 0x0006100B = .bmac ⟨1, 8, 4, 0⟩
  ∧ decodeBank 0xFFFC01C9 = .bloop ⟨0x3FFF, 0, 0, 7⟩
  ∧ decode [0x0001C003] = .ok (.illegalEncoding, 1)
  ∧ decode [0xFFFFFFFF] = .error .filler

/-- 02 R18-R33: every well-formed instruction of a thread is read back from its parcels, whatever follows them, and an encoding that
decodes to an instruction is that instruction's own, bit for bit. -/
def Obligations.EncodeDecodeThread : Prop :=
  (∀ (i : Instr) (rest : List Parcel), i.wf = true → i.isThread = true → decode (encode i ++ rest) = .ok (i, (encode i).length))
  ∧ ∀ (ps : List Parcel) (i : Instr) (n : Nat), decode ps = .ok (i, n) → i ≠ .illegalEncoding →
      i.wf = true ∧ i.isThread = true ∧ encode i = ps.take n

/-- 05 R115, R116; 02 R44, R45: every well-formed engine operation is read back from its word, and every word that is not illegal is its
operation's own; an op of 20 to 63 is illegal. -/
def Obligations.EncodeDecodeBank : Prop :=
  (∀ i : Instr, i.wf = true → i.isBank = true → decodeBank (encodeBank i) = i)
  ∧ (∀ w : Parcel, decodeBank w ≠ .bankIllegal → (decodeBank w).wf = true ∧ (decodeBank w).isBank = true ∧ encodeBank (decodeBank w) = w)
  ∧ ∀ w : Parcel, 20 ≤ (w.extractLsb' 0 6).toNat → decodeBank w = .bankIllegal

/-- Every step answers a next state: no instruction, event or turn stops the machine (the model has no fault; log 60). And every step
keeps main memory in canonical form (the model's form of 04 R77-R90), from any state that has it. -/
def Obligations.StepKeepsMemory : Prop :=
  (∀ s : State, ∃ t : State, step s = .next t)
  ∧ (∀ (i : Instr) (s : State), ∃ t : State, exec i s = .next t)
  ∧ ∀ s t : State, s.memOk → step s = .next t → t.memOk

/-- 24 R447, R448; 09 R204, R206: what reset leaves: memory, stores and engines hold nothing, every byte of main memory reads 0 under slot
0's key but for the boot record and the void map behind it (R450, R451; log 48 for their place), no thread runs, and no ring, queue, launch or call is set up; memory is in canonical form. That reset is the end of
a cold start is the model's (log 1), and registers without a reset value read 0 (log 4). -/
def Obligations.ResetState : Prop :=
  State.reset.memOk
  ∧ (∀ k, 130 ≤ k → State.reset.get (.mem k) 0 = 0)
  ∧ (∀ k < 16, State.reset.get (.mem k) 0 = (leBytes 16 (0x48524F4254485848 + 2 ^ 64)).getD k 0)
  ∧ (∀ k < 66, State.reset.get (.mem (64 + k)) 0 = if k < 2 then 0 else 0xFF)
  ∧ (∀ k, (State.reset.thread k).phase = .idle ∧ (State.reset.thread k).priv = false ∧ (State.reset.thread k).fewait = 0x4000
      ∧ (State.reset.thread k).drainbud = 20000 ∧ ∀ n : Nat, (State.reset.thread k).x.toArray.getD n 0 = 0)
  ∧ (∀ c r, State.reset.row c r = ({} : Row)) ∧ (∀ e, State.reset.engine e = ({} : Engine)) ∧ (∀ c, State.reset.munit c = ({} : MUnit))
  ∧ (∀ j, j ≠ 0 → State.reset.keySlots.find j = none)
  ∧ (∀ r, NMap.get {} State.reset.rings r = ({} : Ring)) ∧ (∀ q, NMap.get {} State.reset.queues q = ({} : Queue))
  ∧ State.reset.launches = [] ∧ State.reset.calls = [] ∧ State.reset.groups = [] ∧ State.reset.parked = []
  ∧ (∀ k, NMap.get {} State.reset.dbg k = ({ stat := 15 } : Dbg))
end

