-- ==== Sys2Proof/Laws/Issue.lean ====
section
/-!
SUPPORT. What the issue of an instruction answers, once for every instruction: its own effect where it issues, a trap, a stop or
a wait where it does not.
-/
namespace Sys2Proof.Machine

/-- An instruction that issues passes every check of `gate`. -/
theorem State.Issues.gate_eq {s : State} {f : Form} (h : s.Issues f) : s.gate f = .run := by
  have hm : (f.needsPriv && !s.thr.priv) = false := by
    cases hp : f.needsPriv
    · simp
    · simp [h.mode hp]
  have ho : (s.thr.ord.isSome && !ordable f.opc) = false := by
    cases hp : s.thr.ord.isSome
    · simp
    · simp [h.ordered hp]
  have he : (s.thr.walking && f.owEngine) = false := by
    cases hp : s.thr.walking
    · simp
    · simp [(h.walker hp).1]
  have hr : ((f.namesX ++ f.implicitX).any s.thr.pendingX) = false := by
    rw [List.any_eq_false]
    intro n hn
    simp [h.ready n hn]
  have hwn : ∀ g : Gate, g = .run → (if (s.thr.wins.any fun w => w.dests.any fun d => match d with
        | .reg n => n ≠ 0 && f.namesX.contains n
        | .pred n => n ≠ 7 && (f.hd.gp.setWidth 3 :: f.namesP).contains n) then .trap ⟨cLA_HAZARD, 0, 0⟩ else g) = Gate.run := by
    rintro g rfl
    simp only [ite_eq_right_iff, reduceCtorEq, imp_false, Bool.not_eq_true, List.any_eq_false]
    intro w hw d hd
    have := h.windows w hw d hd
    cases d with
    | reg n => rcases this with rfl | h' <;> simp_all
    | pred n => rcases this with rfl | h' <;> simp_all
  have hq : s.feq.any (fun w => decide (w.slot = s.cur.toNat) && decide (w.out ≠ 0)) = false := by
    rw [List.any_eq_false]
    intro w hw
    simp only [Bool.and_eq_true, decide_eq_true_eq, not_and, not_not]
    exact h.queued w hw
  unfold State.gate
  simp only [hm, ho, h.unbroken, h.guarded, he, hr, hq, Bool.false_eq_true, if_false]
  refine hwn _ ?_
  by_cases hpref : f.opc = 0x30 ∧ f.fn = 8
  · simp [hpref]
  have h := h.behind hpref
  have ha : (decide (0x30 ≤ f.opc) && s.thr.openOuts.any (fun o => acquires o.ord)) = false := by
    by_cases hp : 0x30 ≤ f.opc
    · simp only [hp, decide_true, Bool.true_and]
      rw [List.any_eq_false]
      intro o ho
      simp [h.acquired hp o ho]
    · simp [hp]
  have hx : (decide (0x33 ≤ f.opc) && s.thr.openOuts.any (fun o => decide (o.opc = 0x31))) = false := by
    by_cases hp : 0x33 ≤ f.opc
    · simp only [hp, decide_true, Bool.true_and]
      rw [List.any_eq_false]
      intro o ho
      simpa using h.exchanged hp o ho
    · simp [hp]
  have hv : (decide (0x30 ≤ f.opc) && s.thr.vatomOpen) = false := by
    by_cases hp : 0x30 ≤ f.opc
    · simp [h.elements hp]
    · simp [hp]
  have hl : (decide (f.hd.la ≠ 0) && (decide (f.opc = 0x30) || decide (f.opc = 0x31) || decide (f.opc = 0x63))
      && decide (8 ≤ s.thr.outs.length)) = false := by
    rw [Bool.eq_false_iff]
    intro hc
    simp only [Bool.and_eq_true, Bool.or_eq_true, decide_eq_true_eq, ne_eq] at hc
    have := h.room hc.1.1 (by tauto)
    omega
  rw [if_neg (by simp), ha, hx, hv, hl]
  simp

/-- What an instruction that issues answers, by its own effect. -/
theorem issueWith_of_issues {s : State} {f : Form} (h : s.Issues f) (off : State → Done) (body : State → Res Done) {d : Done}
    (hb : body s = .ok d) (hl : s.thr.walking = true → s.leavesBody d.flow = false) :
    issueWith f off body s = .next (d.st.retire f true s.thr.pc d.flow d.opens) := by
  have hw : (s.thr.walking && s.leavesBody d.flow) = false := by
    cases hp : s.thr.walking
    · simp
    · simp [hl hp]
  have hr : (s.thr.walking && f.owReg s.thr.ow.index) = false := by
    cases hp : s.thr.walking
    · simp
    · simp [(h.walker hp).2]
  simp [issueWith, h.gate_eq, hb, hw, hr]

/-- A control transfer is what leaves the walker's body. -/
@[simp] theorem leavesBody_seq (s : State) : s.leavesBody .seq = false := rfl
@[simp] theorem leavesBody_skip (s : State) (a : Word) : s.leavesBody (.skip a) = false := rfl
@[simp] theorem leavesBody_turn (s : State) : s.leavesBody .turn = false := rfl
@[simp] theorem leavesBody_set (s : State) : s.leavesBody .set = false := rfl
@[simp] theorem leavesBody_trapNext (s : State) (t : Trap) : s.leavesBody (.trapNext t) = false := rfl
@[simp] theorem leavesBody_stopNext (s : State) (r : Nat) : s.leavesBody (.stopNext r) = false := rfl

/-- The same for an instruction whose false guard has no effect. -/
theorem issue_of_issues {s : State} {f : Form} (h : s.Issues f) (body : State → Res Done) {d : Done}
    (hb : body s = .ok d) (hl : s.thr.walking = true → s.leavesBody d.flow = false) :
    issue f body s = .next (d.st.retire f true s.thr.pc d.flow d.opens) :=
  issueWith_of_issues h _ body hb hl

/-- An effect that always completes and falls through. -/
theorem pureOp_of_issues {s : State} {f : Form} (h : s.Issues f) (eff : State → State) :
    pureOp f eff s = .next (s.after f (eff s)) :=
  issue_of_issues h _ (d := { st := eff s }) rfl (fun _ => rfl)

/-- An effect that completes and falls through. -/
theorem issue_seq {s : State} {f : Form} (h : s.Issues f) (body : State → Res Done) {t : State}
    (hb : body s = .ok { st := t }) : issue f body s = .next (s.after f t) :=
  issue_of_issues h body (d := { st := t }) hb (fun _ => rfl)

/-- A form that traps in its own effect takes the trap. -/
theorem issue_trap {s : State} {f : Form} (h : s.Issues f) (body : State → Res Done) {tr : Trap}
    (hb : body s = .error (.trap tr)) : issue f body s = .next (s.takeTrap tr) := by
  have hr : (s.thr.walking && f.owReg s.thr.ow.index) = false := by
    cases hp : s.thr.walking
    · simp
    · simp [(h.walker hp).2]
  simp [issue, issueWith, h.gate_eq, hb, hr]

/-- A form whose effect must wait leaves its slot waiting. -/
theorem issue_wait {s : State} {f : Form} (h : s.Issues f) (body : State → Res Done) {t : State}
    (hb : body s = .error (.wait t)) : issue f body s = .next t.stall := by
  have hr : (s.thr.walking && f.owReg s.thr.ow.index) = false := by
    cases hp : s.thr.walking
    · simp
    · simp [(h.walker hp).2]
  simp [issue, issueWith, h.gate_eq, hb, hr]

end Sys2Proof.Machine
end

