-- ==== Sys2Proof/Laws/Memory.lean ====
section
/-!
SUPPORT. Sparse data reads back what was put and keeps its canonical form; every operation on main memory keeps memory's.
-/
namespace Sys2Proof.Machine

/-! ### Sparse data -/

@[simp] theorem NMap.get_nil {α : Type} (d : α) (k : Nat) : NMap.get d [] k = d := rfl

theorem NMap.get_drop_same {α : Type} (d : α) (m : NMap α) (k : Nat) : NMap.get d (NMap.drop m k) k = d := by
  induction m with
  | nil => rfl
  | cons c r ih =>
    by_cases h : c.1 = k
    · simpa [NMap.drop, h] using ih
    · simpa [NMap.drop, NMap.get, h] using ih

theorem NMap.get_drop_other {α : Type} (d : α) (m : NMap α) {j k : Nat} (h : k ≠ j) :
    NMap.get d (NMap.drop m j) k = NMap.get d m k := by
  induction m with
  | nil => rfl
  | cons c r ih =>
    by_cases hc : c.1 = j
    · simpa [NMap.drop, NMap.get, hc, Ne.symm h] using ih
    · by_cases hk : c.1 = k
      · simp [NMap.drop, NMap.get, hk, h]
      · simpa [NMap.drop, NMap.get, hc, hk] using ih

theorem NMap.get_insert {α : Type} (d v : α) (m : NMap α) (j k : Nat) (hm : ∀ c ∈ m, c.1 ≠ j) :
    NMap.get d (NMap.insert j v m) k = if k = j then v else NMap.get d m k := by
  induction m with
  | nil =>
    by_cases h : k = j
    · simp [NMap.insert, NMap.get, h]
    · simp [NMap.insert, NMap.get, h, Ne.symm h]
  | cons c r ih =>
    have hc : c.1 ≠ j := hm c (by simp)
    have := ih fun x hx => hm x (by simp [hx])
    unfold NMap.insert
    split
    · by_cases h : k = j
      · simp [NMap.get, h]
      · simp [NMap.get, h, Ne.symm h]
    · by_cases hk : c.1 = k
      · simp [NMap.get, hk, show k ≠ j by omega]
      · simp [NMap.get, hk, this]

theorem NMap.drop_ne {α : Type} (m : NMap α) (k : Nat) : ∀ c ∈ NMap.drop m k, c.1 ≠ k := by
  intro c hc
  simpa using (List.mem_filter.mp hc).2

/-- What a map holds after a put. -/
theorem NMap.get_put {α : Type} [DecidableEq α] (d v : α) (m : NMap α) (j k : Nat) :
    NMap.get d (NMap.put d m j v) k = if k = j then v else NMap.get d m k := by
  unfold NMap.put
  by_cases hv : v = d
  · by_cases hk : k = j
    · subst hk; simp [hv, NMap.get_drop_same]
    · simp [hv, hk, NMap.get_drop_other]
  · rw [if_neg hv, NMap.get_insert _ _ _ _ _ (NMap.drop_ne m j)]
    by_cases hk : k = j
    · simp [hk]
    · simp [hk, NMap.get_drop_other]

@[simp] theorem NMap.get_put_same {α : Type} [DecidableEq α] (d v : α) (m : NMap α) (k : Nat) :
    NMap.get d (NMap.put d m k v) k = v := by simp [NMap.get_put]

theorem NMap.get_put_other {α : Type} [DecidableEq α] (d v : α) (m : NMap α) {j k : Nat} (h : k ≠ j) :
    NMap.get d (NMap.put d m j v) k = NMap.get d m k := by simp [NMap.get_put, h]

/-- The canonical form, pair by pair. -/
theorem NMap.wf_iff {α : Type} [DecidableEq α] (d : α) (m : NMap α) :
    NMap.wf d m = true ↔ m.Pairwise (fun a b => a.1 < b.1) ∧ ∀ c ∈ m, c.2 ≠ d := by
  induction m with
  | nil => simp [NMap.wf]
  | cons c r ih =>
    cases r with
    | nil => simp [NMap.wf]
    | cons e r =>
      have step : NMap.wf d (c :: e :: r) = (decide (c.1 < e.1) && decide (c.2 ≠ d) && NMap.wf d (e :: r)) := by
        cases c; cases e; simp [NMap.wf]
      rw [step, Bool.and_eq_true, Bool.and_eq_true, ih, List.pairwise_cons]
      simp only [decide_eq_true_eq, List.mem_cons, List.pairwise_cons]
      constructor
      · rintro ⟨⟨h1, h2⟩, ⟨h3, h4⟩, h5⟩
        refine ⟨⟨?_, h3, h4⟩, ?_⟩
        · rintro x (rfl | hx)
          · exact h1
          · exact lt_trans h1 (h3 x hx)
        · rintro x (rfl | hx)
          · exact h2
          · exact h5 x hx
      · rintro ⟨⟨h1, h3, h4⟩, h5⟩
        exact ⟨⟨h1 e (.inl rfl), h5 c (.inl rfl)⟩, ⟨h3, h4⟩, fun x hx => h5 x (.inr hx)⟩

theorem NMap.mem_insert {α : Type} (k : Nat) (v : α) (m : NMap α) (c : Nat × α) :
    c ∈ NMap.insert k v m ↔ c = (k, v) ∨ c ∈ m := by
  induction m with
  | nil => simp [NMap.insert]
  | cons e r ih =>
    unfold NMap.insert
    split
    · simp
    · simp only [List.mem_cons, ih]; tauto

/-- Every put keeps the canonical form. -/
theorem NMap.wf_put {α : Type} [DecidableEq α] (d v : α) (m : NMap α) (k : Nat) (h : NMap.wf d m = true) :
    NMap.wf d (NMap.put d m k v) = true := by
  rw [NMap.wf_iff] at h ⊢
  have hp : (NMap.drop m k).Pairwise (fun a b => a.1 < b.1) := h.1.filter _
  have hd : ∀ c ∈ NMap.drop m k, c.2 ≠ d := fun c hc => h.2 c (List.mem_filter.mp hc).1
  unfold NMap.put
  split
  · exact ⟨hp, hd⟩
  · rename_i hv
    refine ⟨?_, ?_⟩
    · have hne := NMap.drop_ne m k
      revert hp hne
      generalize NMap.drop m k = l
      intro hp hne
      induction l with
      | nil => simp [NMap.insert]
      | cons e r ih =>
        unfold NMap.insert
        split
        · rename_i hk
          refine List.pairwise_cons.mpr ⟨?_, hp⟩
          rintro x hx
          rcases List.mem_cons.mp hx with rfl | hx
          · exact hk
          · exact lt_trans hk ((List.pairwise_cons.mp hp).1 x hx)
        · rename_i hk
          have hek : e.1 < k := lt_of_le_of_ne (Nat.le_of_not_lt hk) (hne e (by simp))
          refine List.pairwise_cons.mpr ⟨?_, ih (List.pairwise_cons.mp hp).2 fun c hc => hne c (by simp [hc])⟩
          intro x hx
          rcases (NMap.mem_insert k v r x).mp hx with rfl | hx
          · exact hek
          · exact (List.pairwise_cons.mp hp).1 x hx
    · intro c hc
      rcases (NMap.mem_insert k v _ c).mp hc with rfl | hc
      · exact hv
      · exact hd c hc

/-! ### Main memory -/

/-- A property that every step of a fold keeps, the fold keeps. -/
theorem foldl_keeps {α : Type} (p : State → Prop) (f : State → α → State) (hf : ∀ s x, p s → p (f s x)) (l : List α) (s : State)
    (h : p s) : p (l.foldl f s) := by
  induction l generalizing s with
  | nil => exact h
  | cons x r ih => exact ih (f s x) (hf s x h)

/-- The form is one of the listed memory alone. -/
theorem memOk_of_mem {s t : State} (h : s.memOk) (hm : t.mem = s.mem) : t.memOk := by
  unfold State.memOk at *
  rw [hm]; exact h

theorem rekey_memOk (s : State) (sec : Nat) (key : KeyVal) (h : s.memOk) : (s.rekey sec key).memOk := by
  unfold State.rekey
  simp only
  split
  · exact h
  · have : ∀ (l : List Nat) (g : Nat → Byte) (m : List Host.Cell), NMap.wf (0 : Byte) m = true →
        NMap.wf (0 : Byte) (l.foldl (fun m i => NMap.put 0 m (sec * 32 + i) (g i)) m) = true := by
      intro l g
      induction l with
      | nil => exact fun m hm => hm
      | cons i r ih => exact fun m hm => ih _ (NMap.wf_put _ _ _ _ hm)
    exact this _ _ _ h

theorem putMem_memOk (s : State) (k : Nat) (key : KeyVal) (v : Byte) (h : s.memOk) : (s.putMem k key v).memOk :=
  NMap.wf_put _ _ _ _ (rekey_memOk s (sectorOf k) key h)

theorem mem_setEngine (s : State) (e : BitVec 10) (v : Engine) : (s.setEngine e v).mem = s.mem := by
  unfold State.setEngine; split <;> rfl

theorem put_memOk (s : State) (l : Loc) (slot : Nat) (v : Byte) (h : s.memOk) : (s.put l slot v).memOk := by
  cases l with
  | mem k => exact putMem_memOk s k _ v h
  | cell c r b => dsimp only [State.put]; split <;> exact h
  | buf e b => simpa only [State.put, State.memOk, mem_setEngine] using h
  | _ => exact h

theorem clearPoison_mem (s : State) (l : List Loc) : (s.clearPoison l).mem = s.mem := by
  unfold State.clearPoison
  refine foldl_keeps (fun u => u.mem = s.mem) _ ?_ l s rfl
  intro u x hu
  dsimp only
  split
  · split <;> exact hu
  · split <;> exact hu
  · split
    · rw [mem_setEngine]; exact hu
    · exact hu
  · exact hu

/-- One write event keeps the form. -/
theorem putBytes_memOk (s : State) (bs : List SqByte) (h : s.memOk) : (s.putBytes bs).memOk := by
  unfold State.putBytes State.memOk
  rw [clearPoison_mem]
  exact foldl_keeps State.memOk _ (fun s b hs => put_memOk s b.loc b.key b.val hs) bs s h

theorem tableWrite_memOk (s : State) (pa : Nat) (v : Word) (h : s.memOk) : (s.tableWrite pa v).memOk := by
  unfold State.tableWrite
  refine foldl_keeps State.memOk _ ?_ _ s h
  intro s i hs
  dsimp only
  split
  · exact putMem_memOk _ _ _ _ hs
  · exact hs

/-- A walk's writes keep the form. -/
theorem commitLeaf_memOk (s : State) (cl : Option Nat) (root : BitVec 44) (vf : BitVec 6) (store : Bool) (x : XLeaf)
    (h : s.memOk) : (s.commitLeaf cl root vf store x).memOk := by
  have hw : ∀ e, (if e = x.entry then s else s.tableWrite x.slot e).memOk := by
    intro e
    split
    · exact h
    · exact tableWrite_memOk _ _ _ h
  unfold State.commitLeaf
  split
  · cases cl
    · exact hw _
    · exact hw _
  · cases cl
    · exact h
    · dsimp only
      split <;> exact h

/-- The fetch of code keeps the form. -/
theorem touchCode_memOk (s : State) (a : Word) (h : s.memOk) : (s.touchCode a).memOk := by
  unfold State.touchCode
  split
  · split
    · exact commitLeaf_memOk _ _ _ _ _ _ h
    · exact h
  · exact h

theorem touchRange_memOk (s : State) (a b : Word) (h : s.memOk) : (s.touchRange a b).memOk :=
  foldl_keeps State.memOk _ (fun s _ hs => touchCode_memOk s _ hs) _ s h

/-- Memory written by an agent other than a thread keeps the form. -/
theorem agentWrite_memOk (s t : State) (root : BitVec 44) (vf : BitVec 6) (a : Nat) (bs : List Byte) (h : s.memOk)
    (ht : s.agentWrite root vf a bs = some t) : t.memOk := by
  unfold State.agentWrite at ht
  split at ht
  · cases ht
  · rename_i u ls hl
    cases ht
    refine putBytes_memOk u _ ?_
    unfold State.agentLocs at hl
    split at hl
    · cases hl
    · split at hl
      · cases hl
      · dsimp only at hl
        split at hl
        · cases hl
        · cases hl
          exact foldl_keeps State.memOk _ (fun s x hs => commitLeaf_memOk s none root vf true x.2 hs) _ s h

end Sys2Proof.Machine
end

