-- ==== Sys2Proof/Laws/Num.lean ====
section
/-!
SUPPORT. The model's numbers as bit vectors: readings of a register at a width, and what an integer result writes.
-/
namespace Sys2Proof.Machine

/-- The widths of the integer size codes. -/
theorem szBits_cases (sz : BitVec 2) : szBits sz = 64 ∨ szBits sz = 32 ∨ szBits sz = 16 ∨ szBits sz = 8 := by
  revert sz; decide

/-- A width is positive. -/
theorem szBits_pos (sz : BitVec 2) : 0 < szBits sz := by rcases szBits_cases sz with h | h | h | h <;> omega

/-- No width exceeds a register. -/
theorem szBits_le (sz : BitVec 2) : szBits sz ≤ 64 := by rcases szBits_cases sz with h | h | h | h <;> omega

/-- The unsigned reading of a register. -/
theorem uval_eq (w : Nat) (v : Word) : uval w v = (v.setWidth w).toNat := by simp [uval]

/-- The signed reading of a register. -/
theorem sval_eq (w : Nat) (v : Word) (hw : 0 < w) : sval w v = (v.setWidth w).toInt := by
  have h2 : 2 ^ w = 2 * 2 ^ (w - 1) := by rw [← Nat.pow_succ', Nat.succ_eq_add_one, Nat.sub_add_cancel hw]
  simp only [sval, intValue, BitVec.toInt_eq_toNat_cond, BitVec.toNat_setWidth, true_and]
  by_cases hc : 2 ^ (w - 1) ≤ v.toNat % 2 ^ w
  · rw [if_pos hc, if_neg (by omega)]; push_cast; rfl
  · rw [if_neg hc, if_pos (by omega)]

/-- The bits of an integer at a width. -/
theorem wrapBits_eq (w : Nat) (r : Int) : wrapBits w r = (BitVec.ofInt w r).toNat := by
  simp [wrapBits, BitVec.toNat_ofInt]

/-- Sign extension to a register. -/
theorem sext64_toNat (w : Nat) (v : BitVec w) (hw : 0 < w) (hl : w ≤ 64) : sext64 w v.toNat = v.signExtend 64 := by
  have h2 : 2 ^ w = 2 * 2 ^ (w - 1) := by rw [← Nat.pow_succ', Nat.succ_eq_add_one, Nat.sub_add_cancel hw]
  have hb := v.isLt
  have hp : 2 ^ w ≤ 2 ^ 64 := Nat.pow_le_pow_right (by omega) hl
  apply BitVec.eq_of_toNat_eq
  rw [BitVec.toNat_signExtend, BitVec.msb_eq_decide]
  simp only [sext64, Nat.mod_eq_of_lt hb, hw, true_and, BitVec.toNat_ofNat, BitVec.toNat_setWidth, decide_eq_true_eq]
  by_cases hc : 2 ^ (w - 1) ≤ v.toNat
  · simp only [hc, if_true]; omega
  · simp only [hc, if_false]; omega

/-- What an integer result writes: reduced modulo 2^w and sign-extended (09 R208). -/
theorem aluOut_eq (sz : BitVec 2) (r : Int) :
    aluOut (szBits sz) r = (BitVec.ofInt (szBits sz) r).signExtend 64 := by
  rw [aluOut, wrapBits_eq, sext64_toNat _ _ (szBits_pos sz) (szBits_le sz)]

end Sys2Proof.Machine
end

