-- ==== Sys2Proof/Laws/PerInstr.lean ====
section
/-!
SUPPORT. Of every instruction: the LEN field of its first parcel names as many parcels as its encoding has, and a refused encoding
is no thread's.
-/
namespace Sys2Proof

/-- The LEN field of the first parcel of a thread instruction names the number of its parcels (02 R18). -/
def Laws.LengthCode.Statement (i : Instr) : Prop :=
  i.isThread = true → parcelsOfLen (lenOf ((encode i).headD 0)) = some (encode i).length

/-- The LEN field behind any upper bits. -/
theorem Laws.lenOf_append (a : BitVec 14) (hd : Hd) (opc : Nat) (l : BitVec 2) :
    lenOf (a ++ commonBits hd opc l) = l := by
  apply BitVec.eq_of_getLsbD_eq
  intro i hi
  unfold lenOf bitsOf commonBits
  rw [BitVec.getLsbD_extractLsb']
  show (decide (i < 2) && (a ++ ((hd.gp ++ hd.la ++ BitVec.ofNat 8 opc) ++ l)).getLsbD (0 + i)) = l.getLsbD i
  rw [BitVec.getLsbD_append, BitVec.getLsbD_append, if_pos (by omega), if_pos (by omega)]
  simp [hi]

theorem Laws.lenA (opc fn : Nat) (f : FA) :
    parcelsOfLen (lenOf ((Form.a opc fn f).parcels.headD 0)) = some (Form.a opc fn f).parcels.length := by
  show parcelsOfLen (lenOf ((f.sz ++ f.xa ++ f.xd) ++ commonBits f.hd opc 0)) = _
  rw [Laws.lenOf_append]; rfl
theorem Laws.lenB (opc fn : Nat) (f : FB) :
    parcelsOfLen (lenOf ((Form.b opc fn f).parcels.headD 0)) = some (Form.b opc fn f).parcels.length := by
  show parcelsOfLen (lenOf ((f.sz ++ f.xa ++ f.xd) ++ commonBits f.hd opc 1)) = _
  rw [Laws.lenOf_append]; rfl
theorem Laws.lenM (opc fn : Nat) (f : FM) :
    parcelsOfLen (lenOf ((Form.m opc fn f).parcels.headD 0)) = some (Form.m opc fn f).parcels.length := by
  show parcelsOfLen (lenOf ((f.scl ++ f.xa ++ f.xd) ++ commonBits f.hd opc 1)) = _
  rw [Laws.lenOf_append]; rfl
theorem Laws.lenE (opc fn : Nat) (f : FE) :
    parcelsOfLen (lenOf ((Form.e opc fn f).parcels.headD 0)) = some (Form.e opc fn f).parcels.length := by
  show parcelsOfLen (lenOf ((0#2 ++ f.xa ++ f.xd) ++ commonBits f.hd opc 0)) = _
  rw [Laws.lenOf_append]; rfl
theorem Laws.lenT (opc fn : Nat) (f : FT) :
    parcelsOfLen (lenOf ((Form.t opc fn f).parcels.headD 0)) = some (Form.t opc fn f).parcels.length := by
  show parcelsOfLen (lenOf ((0#2 ++ f.ta ++ f.td) ++ commonBits f.hd opc 1)) = _
  rw [Laws.lenOf_append]; rfl
theorem Laws.lenQ (opc fn : Nat) (f : FQ) :
    parcelsOfLen (lenOf ((Form.q opc fn f).parcels.headD 0)) = some (Form.q opc fn f).parcels.length := by
  show parcelsOfLen (lenOf ((f.ch ++ f.ta ++ f.td) ++ commonBits f.hd opc 2)) = _
  rw [Laws.lenOf_append]; rfl

/-! ### Instruction by instruction -/

theorem Laws.LengthCode.nop (f : FE) : Laws.LengthCode.Statement (.nop f) := fun _ => Laws.lenE _ _ f
theorem Laws.LengthCode.exitThread (f : FE) : Laws.LengthCode.Statement (.exitThread f) := fun _ => Laws.lenE _ _ f
theorem Laws.LengthCode.yieldSlot (f : FE) : Laws.LengthCode.Statement (.yieldSlot f) := fun _ => Laws.lenE _ _ f
theorem Laws.LengthCode.trap (f : FE) : Laws.LengthCode.Statement (.trap f) := fun _ => Laws.lenE _ _ f
theorem Laws.LengthCode.eret (f : FE) : Laws.LengthCode.Statement (.eret f) := fun _ => Laws.lenE _ _ f
theorem Laws.LengthCode.sysr (f : FE) : Laws.LengthCode.Statement (.sysr f) := fun _ => Laws.lenE _ _ f
theorem Laws.LengthCode.sysw (f : FE) : Laws.LengthCode.Statement (.sysw f) := fun _ => Laws.lenE _ _ f
theorem Laws.LengthCode.sysx (f : FE) : Laws.LengthCode.Statement (.sysx f) := fun _ => Laws.lenE _ _ f
theorem Laws.LengthCode.brk (f : FE) : Laws.LengthCode.Statement (.brk f) := fun _ => Laws.lenE _ _ f
theorem Laws.LengthCode.tstamp (f : FE) : Laws.LengthCode.Statement (.tstamp f) := fun _ => Laws.lenE _ _ f
theorem Laws.LengthCode.evt (f : FE) : Laws.LengthCode.Statement (.evt f) := fun _ => Laws.lenE _ _ f
theorem Laws.LengthCode.br (f : FB) : Laws.LengthCode.Statement (.br f) := fun _ => Laws.lenB _ _ f
theorem Laws.LengthCode.brl (f : FB) : Laws.LengthCode.Statement (.brl f) := fun _ => Laws.lenB _ _ f
theorem Laws.LengthCode.ret (f : FB) : Laws.LengthCode.Statement (.ret f) := fun _ => Laws.lenB _ _ f
theorem Laws.LengthCode.jt (f : FB) : Laws.LengthCode.Statement (.jt f) := fun _ => Laws.lenB _ _ f
theorem Laws.LengthCode.jtl (f : FB) : Laws.LengthCode.Statement (.jtl f) := fun _ => Laws.lenB _ _ f
theorem Laws.LengthCode.loop (f : FB) : Laws.LengthCode.Statement (.loop f) := fun _ => Laws.lenB _ _ f
theorem Laws.LengthCode.loopx (f : FB) : Laws.LengthCode.Statement (.loopx f) := fun _ => Laws.lenB _ _ f
theorem Laws.LengthCode.lbrk (f : FB) : Laws.LengthCode.Statement (.lbrk f) := fun _ => Laws.lenB _ _ f
theorem Laws.LengthCode.add (f : FA) : Laws.LengthCode.Statement (.add f) := fun _ => Laws.lenA _ _ f
theorem Laws.LengthCode.sub (f : FA) : Laws.LengthCode.Statement (.sub f) := fun _ => Laws.lenA _ _ f
theorem Laws.LengthCode.mul (f : FA) : Laws.LengthCode.Statement (.mul f) := fun _ => Laws.lenA _ _ f
theorem Laws.LengthCode.mulh (f : FA) : Laws.LengthCode.Statement (.mulh f) := fun _ => Laws.lenA _ _ f
theorem Laws.LengthCode.mulhu (f : FA) : Laws.LengthCode.Statement (.mulhu f) := fun _ => Laws.lenA _ _ f
theorem Laws.LengthCode.div (f : FA) : Laws.LengthCode.Statement (.div f) := fun _ => Laws.lenA _ _ f
theorem Laws.LengthCode.divu (f : FA) : Laws.LengthCode.Statement (.divu f) := fun _ => Laws.lenA _ _ f
theorem Laws.LengthCode.rem (f : FA) : Laws.LengthCode.Statement (.rem f) := fun _ => Laws.lenA _ _ f
theorem Laws.LengthCode.remu (f : FA) : Laws.LengthCode.Statement (.remu f) := fun _ => Laws.lenA _ _ f
theorem Laws.LengthCode.and (f : FA) : Laws.LengthCode.Statement (.and f) := fun _ => Laws.lenA _ _ f
theorem Laws.LengthCode.or (f : FA) : Laws.LengthCode.Statement (.or f) := fun _ => Laws.lenA _ _ f
theorem Laws.LengthCode.xor (f : FA) : Laws.LengthCode.Statement (.xor f) := fun _ => Laws.lenA _ _ f
theorem Laws.LengthCode.andn (f : FA) : Laws.LengthCode.Statement (.andn f) := fun _ => Laws.lenA _ _ f
theorem Laws.LengthCode.shl (f : FA) : Laws.LengthCode.Statement (.shl f) := fun _ => Laws.lenA _ _ f
theorem Laws.LengthCode.shr (f : FA) : Laws.LengthCode.Statement (.shr f) := fun _ => Laws.lenA _ _ f
theorem Laws.LengthCode.sar (f : FA) : Laws.LengthCode.Statement (.sar f) := fun _ => Laws.lenA _ _ f
theorem Laws.LengthCode.min (f : FA) : Laws.LengthCode.Statement (.min f) := fun _ => Laws.lenA _ _ f
theorem Laws.LengthCode.minu (f : FA) : Laws.LengthCode.Statement (.minu f) := fun _ => Laws.lenA _ _ f
theorem Laws.LengthCode.max (f : FA) : Laws.LengthCode.Statement (.max f) := fun _ => Laws.lenA _ _ f
theorem Laws.LengthCode.maxu (f : FA) : Laws.LengthCode.Statement (.maxu f) := fun _ => Laws.lenA _ _ f
theorem Laws.LengthCode.clz (f : FA) : Laws.LengthCode.Statement (.clz f) := fun _ => Laws.lenA _ _ f
theorem Laws.LengthCode.ctz (f : FA) : Laws.LengthCode.Statement (.ctz f) := fun _ => Laws.lenA _ _ f
theorem Laws.LengthCode.popc (f : FA) : Laws.LengthCode.Statement (.popc f) := fun _ => Laws.lenA _ _ f
theorem Laws.LengthCode.brev (f : FA) : Laws.LengthCode.Statement (.brev f) := fun _ => Laws.lenA _ _ f
theorem Laws.LengthCode.exts (f : FA) : Laws.LengthCode.Statement (.exts f) := fun _ => Laws.lenA _ _ f
theorem Laws.LengthCode.extz (f : FA) : Laws.LengthCode.Statement (.extz f) := fun _ => Laws.lenA _ _ f
theorem Laws.LengthCode.ins (f : FA) : Laws.LengthCode.Statement (.ins f) := fun _ => Laws.lenA _ _ f
theorem Laws.LengthCode.sel (f : FA) : Laws.LengthCode.Statement (.sel f) := fun _ => Laws.lenA _ _ f
theorem Laws.LengthCode.ceq (f : FA) : Laws.LengthCode.Statement (.ceq f) := fun _ => Laws.lenA _ _ f
theorem Laws.LengthCode.cne (f : FA) : Laws.LengthCode.Statement (.cne f) := fun _ => Laws.lenA _ _ f
theorem Laws.LengthCode.clt (f : FA) : Laws.LengthCode.Statement (.clt f) := fun _ => Laws.lenA _ _ f
theorem Laws.LengthCode.cle (f : FA) : Laws.LengthCode.Statement (.cle f) := fun _ => Laws.lenA _ _ f
theorem Laws.LengthCode.cltu (f : FA) : Laws.LengthCode.Statement (.cltu f) := fun _ => Laws.lenA _ _ f
theorem Laws.LengthCode.cleu (f : FA) : Laws.LengthCode.Statement (.cleu f) := fun _ => Laws.lenA _ _ f
theorem Laws.LengthCode.pand (f : FA) : Laws.LengthCode.Statement (.pand f) := fun _ => Laws.lenA _ _ f
theorem Laws.LengthCode.por (f : FA) : Laws.LengthCode.Statement (.por f) := fun _ => Laws.lenA _ _ f
theorem Laws.LengthCode.pxor (f : FA) : Laws.LengthCode.Statement (.pxor f) := fun _ => Laws.lenA _ _ f
theorem Laws.LengthCode.pnot (f : FA) : Laws.LengthCode.Statement (.pnot f) := fun _ => Laws.lenA _ _ f
theorem Laws.LengthCode.pmov (f : FA) : Laws.LengthCode.Statement (.pmov f) := fun _ => Laws.lenA _ _ f
theorem Laws.LengthCode.pget (f : FA) : Laws.LengthCode.Statement (.pget f) := fun _ => Laws.lenA _ _ f
theorem Laws.LengthCode.movi (f : FB) : Laws.LengthCode.Statement (.movi f) := fun _ => Laws.lenB _ _ f
theorem Laws.LengthCode.movhi (f : FB) : Laws.LengthCode.Statement (.movhi f) := fun _ => Laws.lenB _ _ f
theorem Laws.LengthCode.addi (f : FB) : Laws.LengthCode.Statement (.addi f) := fun _ => Laws.lenB _ _ f
theorem Laws.LengthCode.ptrmk (f : FB) : Laws.LengthCode.Statement (.ptrmk f) := fun _ => Laws.lenB _ _ f
theorem Laws.LengthCode.ptrsp (f : FB) : Laws.LengthCode.Statement (.ptrsp f) := fun _ => Laws.lenB _ _ f
theorem Laws.LengthCode.ptrrk (f : FB) : Laws.LengthCode.Statement (.ptrrk f) := fun _ => Laws.lenB _ _ f
theorem Laws.LengthCode.ptroff (f : FB) : Laws.LengthCode.Statement (.ptroff f) := fun _ => Laws.lenB _ _ f
theorem Laws.LengthCode.pladr (f : FB) : Laws.LengthCode.Statement (.pladr f) := fun _ => Laws.lenB _ _ f
theorem Laws.LengthCode.fadd (f : FA) : Laws.LengthCode.Statement (.fadd f) := fun _ => Laws.lenA _ _ f
theorem Laws.LengthCode.fsub (f : FA) : Laws.LengthCode.Statement (.fsub f) := fun _ => Laws.lenA _ _ f
theorem Laws.LengthCode.fmul (f : FA) : Laws.LengthCode.Statement (.fmul f) := fun _ => Laws.lenA _ _ f
theorem Laws.LengthCode.fma (f : FA) : Laws.LengthCode.Statement (.fma f) := fun _ => Laws.lenA _ _ f
theorem Laws.LengthCode.fdiv (f : FA) : Laws.LengthCode.Statement (.fdiv f) := fun _ => Laws.lenA _ _ f
theorem Laws.LengthCode.fsqrt (f : FA) : Laws.LengthCode.Statement (.fsqrt f) := fun _ => Laws.lenA _ _ f
theorem Laws.LengthCode.frsq (f : FA) : Laws.LengthCode.Statement (.frsq f) := fun _ => Laws.lenA _ _ f
theorem Laws.LengthCode.fmin (f : FA) : Laws.LengthCode.Statement (.fmin f) := fun _ => Laws.lenA _ _ f
theorem Laws.LengthCode.fmax (f : FA) : Laws.LengthCode.Statement (.fmax f) := fun _ => Laws.lenA _ _ f
theorem Laws.LengthCode.fabs (f : FA) : Laws.LengthCode.Statement (.fabs f) := fun _ => Laws.lenA _ _ f
theorem Laws.LengthCode.fneg (f : FA) : Laws.LengthCode.Statement (.fneg f) := fun _ => Laws.lenA _ _ f
theorem Laws.LengthCode.fceq (f : FA) : Laws.LengthCode.Statement (.fceq f) := fun _ => Laws.lenA _ _ f
theorem Laws.LengthCode.fclt (f : FA) : Laws.LengthCode.Statement (.fclt f) := fun _ => Laws.lenA _ _ f
theorem Laws.LengthCode.fcle (f : FA) : Laws.LengthCode.Statement (.fcle f) := fun _ => Laws.lenA _ _ f
theorem Laws.LengthCode.fcvt (f : FA) : Laws.LengthCode.Statement (.fcvt f) := fun _ => Laws.lenA _ _ f
theorem Laws.LengthCode.fclass (f : FA) : Laws.LengthCode.Statement (.fclass f) := fun _ => Laws.lenA _ _ f
theorem Laws.LengthCode.ld (f : FM) : Laws.LengthCode.Statement (.ld f) := fun _ => Laws.lenM _ _ f
theorem Laws.LengthCode.ldz (f : FM) : Laws.LengthCode.Statement (.ldz f) := fun _ => Laws.lenM _ _ f
theorem Laws.LengthCode.st (f : FM) : Laws.LengthCode.Statement (.st f) := fun _ => Laws.lenM _ _ f
theorem Laws.LengthCode.pref (f : FM) : Laws.LengthCode.Statement (.pref f) := fun _ => Laws.lenM _ _ f
theorem Laws.LengthCode.ldf (f : FM) : Laws.LengthCode.Statement (.ldf f) := fun _ => Laws.lenM _ _ f
theorem Laws.LengthCode.ldfe (f : FM) : Laws.LengthCode.Statement (.ldfe f) := fun _ => Laws.lenM _ _ f
theorem Laws.LengthCode.ste (f : FM) : Laws.LengthCode.Statement (.ste f) := fun _ => Laws.lenM _ _ f
theorem Laws.LengthCode.stf (f : FM) : Laws.LengthCode.Statement (.stf f) := fun _ => Laws.lenM _ _ f
theorem Laws.LengthCode.feq (f : FM) : Laws.LengthCode.Statement (.feq f) := fun _ => Laws.lenM _ _ f
theorem Laws.LengthCode.aadd (f : FM) : Laws.LengthCode.Statement (.aadd f) := fun _ => Laws.lenM _ _ f
theorem Laws.LengthCode.amin (f : FM) : Laws.LengthCode.Statement (.amin f) := fun _ => Laws.lenM _ _ f
theorem Laws.LengthCode.amax (f : FM) : Laws.LengthCode.Statement (.amax f) := fun _ => Laws.lenM _ _ f
theorem Laws.LengthCode.aminu (f : FM) : Laws.LengthCode.Statement (.aminu f) := fun _ => Laws.lenM _ _ f
theorem Laws.LengthCode.amaxu (f : FM) : Laws.LengthCode.Statement (.amaxu f) := fun _ => Laws.lenM _ _ f
theorem Laws.LengthCode.aand (f : FM) : Laws.LengthCode.Statement (.aand f) := fun _ => Laws.lenM _ _ f
theorem Laws.LengthCode.aor (f : FM) : Laws.LengthCode.Statement (.aor f) := fun _ => Laws.lenM _ _ f
theorem Laws.LengthCode.axor (f : FM) : Laws.LengthCode.Statement (.axor f) := fun _ => Laws.lenM _ _ f
theorem Laws.LengthCode.axchg (f : FM) : Laws.LengthCode.Statement (.axchg f) := fun _ => Laws.lenM _ _ f
theorem Laws.LengthCode.acas (f : FM) : Laws.LengthCode.Statement (.acas f) := fun _ => Laws.lenM _ _ f
theorem Laws.LengthCode.afadd (f : FM) : Laws.LengthCode.Statement (.afadd f) := fun _ => Laws.lenM _ _ f
theorem Laws.LengthCode.ord (f : FE) : Laws.LengthCode.Statement (.ord f) := fun _ => Laws.lenE _ _ f
theorem Laws.LengthCode.fence (f : FE) : Laws.LengthCode.Statement (.fence f) := fun _ => Laws.lenE _ _ f
theorem Laws.LengthCode.qfence (f : FE) : Laws.LengthCode.Statement (.qfence f) := fun _ => Laws.lenE _ _ f
theorem Laws.LengthCode.enter (f : FA) : Laws.LengthCode.Statement (.enter f) := fun _ => Laws.lenA _ _ f
theorem Laws.LengthCode.leavef (f : FA) : Laws.LengthCode.Statement (.leavef f) := fun _ => Laws.lenA _ _ f
theorem Laws.LengthCode.spill (f : FA) : Laws.LengthCode.Statement (.spill f) := fun _ => Laws.lenA _ _ f
theorem Laws.LengthCode.vaadd (f : FT) : Laws.LengthCode.Statement (.vaadd f) := fun _ => Laws.lenT _ _ f
theorem Laws.LengthCode.vamin (f : FT) : Laws.LengthCode.Statement (.vamin f) := fun _ => Laws.lenT _ _ f
theorem Laws.LengthCode.vamax (f : FT) : Laws.LengthCode.Statement (.vamax f) := fun _ => Laws.lenT _ _ f
theorem Laws.LengthCode.vaxchg (f : FT) : Laws.LengthCode.Statement (.vaxchg f) := fun _ => Laws.lenT _ _ f
theorem Laws.LengthCode.vafadd (f : FT) : Laws.LengthCode.Statement (.vafadd f) := fun _ => Laws.lenT _ _ f
theorem Laws.LengthCode.spawn (f : FB) : Laws.LengthCode.Statement (.spawn f) := fun _ => Laws.lenB _ _ f
theorem Laws.LengthCode.cont (f : FB) : Laws.LengthCode.Statement (.cont f) := fun _ => Laws.lenB _ _ f
theorem Laws.LengthCode.park (f : FB) : Laws.LengthCode.Statement (.park f) := fun _ => Laws.lenB _ _ f
theorem Laws.LengthCode.gnew (f : FB) : Laws.LengthCode.Statement (.gnew f) := fun _ => Laws.lenB _ _ f
theorem Laws.LengthCode.joinGroup (f : FB) : Laws.LengthCode.Statement (.joinGroup f) := fun _ => Laws.lenB _ _ f
theorem Laws.LengthCode.leaveGroup (f : FB) : Laws.LengthCode.Statement (.leaveGroup f) := fun _ => Laws.lenB _ _ f
theorem Laws.LengthCode.gbar (f : FB) : Laws.LengthCode.Statement (.gbar f) := fun _ => Laws.lenB _ _ f
theorem Laws.LengthCode.grank (f : FB) : Laws.LengthCode.Statement (.grank f) := fun _ => Laws.lenB _ _ f
theorem Laws.LengthCode.gsize (f : FB) : Laws.LengthCode.Statement (.gsize f) := fun _ => Laws.lenB _ _ f
theorem Laws.LengthCode.launch (f : FB) : Laws.LengthCode.Statement (.launch f) := fun _ => Laws.lenB _ _ f
theorem Laws.LengthCode.plotgrow (f : FB) : Laws.LengthCode.Statement (.plotgrow f) := fun _ => Laws.lenB _ _ f
theorem Laws.LengthCode.plotinfo (f : FB) : Laws.LengthCode.Statement (.plotinfo f) := fun _ => Laws.lenB _ _ f
theorem Laws.LengthCode.tdset (f : FT) : Laws.LengthCode.Statement (.tdset f) := fun _ => Laws.lenT _ _ f
theorem Laws.LengthCode.tdget (f : FT) : Laws.LengthCode.Statement (.tdget f) := fun _ => Laws.lenT _ _ f
theorem Laws.LengthCode.tdld (f : FT) : Laws.LengthCode.Statement (.tdld f) := fun _ => Laws.lenT _ _ f
theorem Laws.LengthCode.tdst (f : FT) : Laws.LengthCode.Statement (.tdst f) := fun _ => Laws.lenT _ _ f
theorem Laws.LengthCode.tdmove (f : FT) : Laws.LengthCode.Statement (.tdmove f) := fun _ => Laws.lenT _ _ f
theorem Laws.LengthCode.tdsub (f : FT) : Laws.LengthCode.Statement (.tdsub f) := fun _ => Laws.lenT _ _ f
theorem Laws.LengthCode.edset (f : FT) : Laws.LengthCode.Statement (.edset f) := fun _ => Laws.lenT _ _ f
theorem Laws.LengthCode.edget (f : FT) : Laws.LengthCode.Statement (.edget f) := fun _ => Laws.lenT _ _ f
theorem Laws.LengthCode.vadd (f : FT) : Laws.LengthCode.Statement (.vadd f) := fun _ => Laws.lenT _ _ f
theorem Laws.LengthCode.vsub (f : FT) : Laws.LengthCode.Statement (.vsub f) := fun _ => Laws.lenT _ _ f
theorem Laws.LengthCode.vmul (f : FT) : Laws.LengthCode.Statement (.vmul f) := fun _ => Laws.lenT _ _ f
theorem Laws.LengthCode.vfma (f : FT) : Laws.LengthCode.Statement (.vfma f) := fun _ => Laws.lenT _ _ f
theorem Laws.LengthCode.vmin (f : FT) : Laws.LengthCode.Statement (.vmin f) := fun _ => Laws.lenT _ _ f
theorem Laws.LengthCode.vmax (f : FT) : Laws.LengthCode.Statement (.vmax f) := fun _ => Laws.lenT _ _ f
theorem Laws.LengthCode.vabs (f : FT) : Laws.LengthCode.Statement (.vabs f) := fun _ => Laws.lenT _ _ f
theorem Laws.LengthCode.vneg (f : FT) : Laws.LengthCode.Statement (.vneg f) := fun _ => Laws.lenT _ _ f
theorem Laws.LengthCode.vdiv (f : FT) : Laws.LengthCode.Statement (.vdiv f) := fun _ => Laws.lenT _ _ f
theorem Laws.LengthCode.vrcp (f : FT) : Laws.LengthCode.Statement (.vrcp f) := fun _ => Laws.lenT _ _ f
theorem Laws.LengthCode.vsqrt (f : FT) : Laws.LengthCode.Statement (.vsqrt f) := fun _ => Laws.lenT _ _ f
theorem Laws.LengthCode.vrsq (f : FT) : Laws.LengthCode.Statement (.vrsq f) := fun _ => Laws.lenT _ _ f
theorem Laws.LengthCode.vexp2 (f : FT) : Laws.LengthCode.Statement (.vexp2 f) := fun _ => Laws.lenT _ _ f
theorem Laws.LengthCode.vlog2 (f : FT) : Laws.LengthCode.Statement (.vlog2 f) := fun _ => Laws.lenT _ _ f
theorem Laws.LengthCode.vand (f : FT) : Laws.LengthCode.Statement (.vand f) := fun _ => Laws.lenT _ _ f
theorem Laws.LengthCode.vor (f : FT) : Laws.LengthCode.Statement (.vor f) := fun _ => Laws.lenT _ _ f
theorem Laws.LengthCode.vxor (f : FT) : Laws.LengthCode.Statement (.vxor f) := fun _ => Laws.lenT _ _ f
theorem Laws.LengthCode.vnot (f : FT) : Laws.LengthCode.Statement (.vnot f) := fun _ => Laws.lenT _ _ f
theorem Laws.LengthCode.vshl (f : FT) : Laws.LengthCode.Statement (.vshl f) := fun _ => Laws.lenT _ _ f
theorem Laws.LengthCode.vshr (f : FT) : Laws.LengthCode.Statement (.vshr f) := fun _ => Laws.lenT _ _ f
theorem Laws.LengthCode.vsar (f : FT) : Laws.LengthCode.Statement (.vsar f) := fun _ => Laws.lenT _ _ f
theorem Laws.LengthCode.vclz (f : FT) : Laws.LengthCode.Statement (.vclz f) := fun _ => Laws.lenT _ _ f
theorem Laws.LengthCode.vpopc (f : FT) : Laws.LengthCode.Statement (.vpopc f) := fun _ => Laws.lenT _ _ f
theorem Laws.LengthCode.vmov (f : FT) : Laws.LengthCode.Statement (.vmov f) := fun _ => Laws.lenT _ _ f
theorem Laws.LengthCode.vcvt (f : FT) : Laws.LengthCode.Statement (.vcvt f) := fun _ => Laws.lenT _ _ f
theorem Laws.LengthCode.vsel (f : FT) : Laws.LengthCode.Statement (.vsel f) := fun _ => Laws.lenT _ _ f
theorem Laws.LengthCode.vceq (f : FT) : Laws.LengthCode.Statement (.vceq f) := fun _ => Laws.lenT _ _ f
theorem Laws.LengthCode.vcne (f : FT) : Laws.LengthCode.Statement (.vcne f) := fun _ => Laws.lenT _ _ f
theorem Laws.LengthCode.vclt (f : FT) : Laws.LengthCode.Statement (.vclt f) := fun _ => Laws.lenT _ _ f
theorem Laws.LengthCode.vcle (f : FT) : Laws.LengthCode.Statement (.vcle f) := fun _ => Laws.lenT _ _ f
theorem Laws.LengthCode.vadds (f : FT) : Laws.LengthCode.Statement (.vadds f) := fun _ => Laws.lenT _ _ f
theorem Laws.LengthCode.vmuls (f : FT) : Laws.LengthCode.Statement (.vmuls f) := fun _ => Laws.lenT _ _ f
theorem Laws.LengthCode.vfmas (f : FT) : Laws.LengthCode.Statement (.vfmas f) := fun _ => Laws.lenT _ _ f
theorem Laws.LengthCode.vmins (f : FT) : Laws.LengthCode.Statement (.vmins f) := fun _ => Laws.lenT _ _ f
theorem Laws.LengthCode.vmaxs (f : FT) : Laws.LengthCode.Statement (.vmaxs f) := fun _ => Laws.lenT _ _ f
theorem Laws.LengthCode.vbcast (f : FT) : Laws.LengthCode.Statement (.vbcast f) := fun _ => Laws.lenT _ _ f
theorem Laws.LengthCode.viota (f : FT) : Laws.LengthCode.Statement (.viota f) := fun _ => Laws.lenT _ _ f
theorem Laws.LengthCode.vperm (f : FT) : Laws.LengthCode.Statement (.vperm f) := fun _ => Laws.lenT _ _ f
theorem Laws.LengthCode.vrot (f : FT) : Laws.LengthCode.Statement (.vrot f) := fun _ => Laws.lenT _ _ f
theorem Laws.LengthCode.vxch (f : FT) : Laws.LengthCode.Statement (.vxch f) := fun _ => Laws.lenT _ _ f
theorem Laws.LengthCode.vredc (f : FT) : Laws.LengthCode.Statement (.vredc f) := fun _ => Laws.lenT _ _ f
theorem Laws.LengthCode.vscanc (f : FT) : Laws.LengthCode.Statement (.vscanc f) := fun _ => Laws.lenT _ _ f
theorem Laws.LengthCode.vdotc (f : FT) : Laws.LengthCode.Statement (.vdotc f) := fun _ => Laws.lenT _ _ f
theorem Laws.LengthCode.vlut (f : FT) : Laws.LengthCode.Statement (.vlut f) := fun _ => Laws.lenT _ _ f
theorem Laws.LengthCode.ppset (f : FT) : Laws.LengthCode.Statement (.ppset f) := fun _ => Laws.lenT _ _ f
theorem Laws.LengthCode.ppand (f : FT) : Laws.LengthCode.Statement (.ppand f) := fun _ => Laws.lenT _ _ f
theorem Laws.LengthCode.ppor (f : FT) : Laws.LengthCode.Statement (.ppor f) := fun _ => Laws.lenT _ _ f
theorem Laws.LengthCode.ppnot (f : FT) : Laws.LengthCode.Statement (.ppnot f) := fun _ => Laws.lenT _ _ f
theorem Laws.LengthCode.ppcnt (f : FT) : Laws.LengthCode.Statement (.ppcnt f) := fun _ => Laws.lenT _ _ f
theorem Laws.LengthCode.ppany (f : FT) : Laws.LengthCode.Statement (.ppany f) := fun _ => Laws.lenT _ _ f
theorem Laws.LengthCode.ppall (f : FT) : Laws.LengthCode.Statement (.ppall f) := fun _ => Laws.lenT _ _ f
theorem Laws.LengthCode.feset (f : FT) : Laws.LengthCode.Statement (.feset f) := fun _ => Laws.lenT _ _ f
theorem Laws.LengthCode.feclr (f : FT) : Laws.LengthCode.Statement (.feclr f) := fun _ => Laws.lenT _ _ f
theorem Laws.LengthCode.scroll (f : FT) : Laws.LengthCode.Statement (.scroll f) := fun _ => Laws.lenT _ _ f
theorem Laws.LengthCode.scrollx (f : FT) : Laws.LengthCode.Statement (.scrollx f) := fun _ => Laws.lenT _ _ f
theorem Laws.LengthCode.plcopy (f : FT) : Laws.LengthCode.Statement (.plcopy f) := fun _ => Laws.lenT _ _ f
theorem Laws.LengthCode.plfill (f : FT) : Laws.LengthCode.Statement (.plfill f) := fun _ => Laws.lenT _ _ f
theorem Laws.LengthCode.nredr (f : FT) : Laws.LengthCode.Statement (.nredr f) := fun _ => Laws.lenT _ _ f
theorem Laws.LengthCode.nredc (f : FT) : Laws.LengthCode.Statement (.nredc f) := fun _ => Laws.lenT _ _ f
theorem Laws.LengthCode.nredx (f : FT) : Laws.LengthCode.Statement (.nredx f) := fun _ => Laws.lenT _ _ f
theorem Laws.LengthCode.nbcr (f : FT) : Laws.LengthCode.Statement (.nbcr f) := fun _ => Laws.lenT _ _ f
theorem Laws.LengthCode.nbcc (f : FT) : Laws.LengthCode.Statement (.nbcc f) := fun _ => Laws.lenT _ _ f
theorem Laws.LengthCode.dred (f : FT) : Laws.LengthCode.Statement (.dred f) := fun _ => Laws.lenT _ _ f
theorem Laws.LengthCode.wld (f : FQ) : Laws.LengthCode.Statement (.wld f) := fun _ => Laws.lenQ _ _ f
theorem Laws.LengthCode.wswap (f : FQ) : Laws.LengthCode.Statement (.wswap f) := fun _ => Laws.lenQ _ _ f
theorem Laws.LengthCode.mstream (f : FQ) : Laws.LengthCode.Statement (.mstream f) := fun _ => Laws.lenQ _ _ f
theorem Laws.LengthCode.accz (f : FQ) : Laws.LengthCode.Statement (.accz f) := fun _ => Laws.lenQ _ _ f
theorem Laws.LengthCode.accrd (f : FQ) : Laws.LengthCode.Statement (.accrd f) := fun _ => Laws.lenQ _ _ f
theorem Laws.LengthCode.accnrm (f : FQ) : Laws.LengthCode.Statement (.accnrm f) := fun _ => Laws.lenQ _ _ f
theorem Laws.LengthCode.cpin (f : FQ) : Laws.LengthCode.Statement (.cpin f) := fun _ => Laws.lenQ _ _ f
theorem Laws.LengthCode.cpout (f : FQ) : Laws.LengthCode.Statement (.cpout f) := fun _ => Laws.lenQ _ _ f
theorem Laws.LengthCode.cpg (f : FQ) : Laws.LengthCode.Statement (.cpg f) := fun _ => Laws.lenQ _ _ f
theorem Laws.LengthCode.cps (f : FQ) : Laws.LengthCode.Statement (.cps f) := fun _ => Laws.lenQ _ _ f
theorem Laws.LengthCode.cpp (f : FQ) : Laws.LengthCode.Statement (.cpp f) := fun _ => Laws.lenQ _ _ f
theorem Laws.LengthCode.cpm (f : FQ) : Laws.LengthCode.Statement (.cpm f) := fun _ => Laws.lenQ _ _ f
theorem Laws.LengthCode.seal (f : FQ) : Laws.LengthCode.Statement (.seal f) := fun _ => Laws.lenQ _ _ f
theorem Laws.LengthCode.waitb (f : FQ) : Laws.LengthCode.Statement (.waitb f) := fun _ => Laws.lenQ _ _ f
theorem Laws.LengthCode.wptr (f : FQ) : Laws.LengthCode.Statement (.wptr f) := fun _ => Laws.lenQ _ _ f
theorem Laws.LengthCode.cpstat (f : FQ) : Laws.LengthCode.Statement (.cpstat f) := fun _ => Laws.lenQ _ _ f
theorem Laws.LengthCode.bkload (f : FQ) : Laws.LengthCode.Statement (.bkload f) := fun _ => Laws.lenQ _ _ f
theorem Laws.LengthCode.bkact (f : FQ) : Laws.LengthCode.Statement (.bkact f) := fun _ => Laws.lenQ _ _ f
theorem Laws.LengthCode.bkcall (f : FQ) : Laws.LengthCode.Statement (.bkcall f) := fun _ => Laws.lenQ _ _ f
theorem Laws.LengthCode.bkwait (f : FQ) : Laws.LengthCode.Statement (.bkwait f) := fun _ => Laws.lenQ _ _ f
theorem Laws.LengthCode.bkstat (f : FQ) : Laws.LengthCode.Statement (.bkstat f) := fun _ => Laws.lenQ _ _ f
theorem Laws.LengthCode.owloop (f : FQ) : Laws.LengthCode.Statement (.owloop f) := fun _ => Laws.lenQ _ _ f
theorem Laws.LengthCode.owwin (f : FQ) : Laws.LengthCode.Statement (.owwin f) := fun _ => Laws.lenQ _ _ f
theorem Laws.LengthCode.owdecl (f : FQ) : Laws.LengthCode.Statement (.owdecl f) := fun _ => Laws.lenQ _ _ f
theorem Laws.LengthCode.owchk (f : FQ) : Laws.LengthCode.Statement (.owchk f) := fun _ => Laws.lenQ _ _ f
theorem Laws.LengthCode.owstat (f : FQ) : Laws.LengthCode.Statement (.owstat f) := fun _ => Laws.lenQ _ _ f
theorem Laws.LengthCode.pwrhint (f : FE) : Laws.LengthCode.Statement (.pwrhint f) := fun _ => Laws.lenE _ _ f
theorem Laws.LengthCode.chgrd (f : FE) : Laws.LengthCode.Statement (.chgrd f) := fun _ => Laws.lenE _ _ f
theorem Laws.LengthCode.bli (f : FBk) : Laws.LengthCode.Statement (.bli f) := nofun
theorem Laws.LengthCode.baddi (f : FBk) : Laws.LengthCode.Statement (.baddi f) := nofun
theorem Laws.LengthCode.badd (f : FBk) : Laws.LengthCode.Statement (.badd f) := nofun
theorem Laws.LengthCode.bsub (f : FBk) : Laws.LengthCode.Statement (.bsub f) := nofun
theorem Laws.LengthCode.bmul (f : FBk) : Laws.LengthCode.Statement (.bmul f) := nofun
theorem Laws.LengthCode.bbz (f : FBk) : Laws.LengthCode.Statement (.bbz f) := nofun
theorem Laws.LengthCode.bbnz (f : FBk) : Laws.LengthCode.Statement (.bbnz f) := nofun
theorem Laws.LengthCode.bloop (f : FBk) : Laws.LengthCode.Statement (.bloop f) := nofun
theorem Laws.LengthCode.bza (f : FBk) : Laws.LengthCode.Statement (.bza f) := nofun
theorem Laws.LengthCode.bmac (f : FBk) : Laws.LengthCode.Statement (.bmac f) := nofun
theorem Laws.LengthCode.bfmt (f : FBk) : Laws.LengthCode.Statement (.bfmt f) := nofun
theorem Laws.LengthCode.bscl (f : FBk) : Laws.LengthCode.Statement (.bscl f) := nofun
theorem Laws.LengthCode.brda (f : FBk) : Laws.LengthCode.Statement (.brda f) := nofun
theorem Laws.LengthCode.bsend (f : FBk) : Laws.LengthCode.Statement (.bsend f) := nofun
theorem Laws.LengthCode.brd (f : FBk) : Laws.LengthCode.Statement (.brd f) := nofun
theorem Laws.LengthCode.bwr (f : FBk) : Laws.LengthCode.Statement (.bwr f) := nofun
theorem Laws.LengthCode.bsig (f : FBk) : Laws.LengthCode.Statement (.bsig f) := nofun
theorem Laws.LengthCode.bwait (f : FBk) : Laws.LengthCode.Statement (.bwait f) := nofun
theorem Laws.LengthCode.bnop : Laws.LengthCode.Statement .bnop := nofun
theorem Laws.LengthCode.bhalt : Laws.LengthCode.Statement .bhalt := nofun
theorem Laws.LengthCode.feTimeout : Laws.LengthCode.Statement .feTimeout := nofun
theorem Laws.LengthCode.aggregatorRmw : Laws.LengthCode.Statement .aggregatorRmw := nofun
theorem Laws.LengthCode.scrollUnitStep : Laws.LengthCode.Statement .scrollUnitStep := nofun
theorem Laws.LengthCode.planeOpComplete : Laws.LengthCode.Statement .planeOpComplete := nofun
theorem Laws.LengthCode.reductionRoot : Laws.LengthCode.Statement .reductionRoot := nofun
theorem Laws.LengthCode.dredCombine : Laws.LengthCode.Statement .dredCombine := nofun
theorem Laws.LengthCode.dredTimeout : Laws.LengthCode.Statement .dredTimeout := nofun
theorem Laws.LengthCode.copyBurst : Laws.LengthCode.Statement .copyBurst := nofun
theorem Laws.LengthCode.copySlackDecay : Laws.LengthCode.Statement .copySlackDecay := nofun
theorem Laws.LengthCode.cpgSectorArrival : Laws.LengthCode.Statement .cpgSectorArrival := nofun
theorem Laws.LengthCode.engineProgramWrite : Laws.LengthCode.Statement .engineProgramWrite := nofun
theorem Laws.LengthCode.engineActWrite : Laws.LengthCode.Statement .engineActWrite := nofun
theorem Laws.LengthCode.engineCallStart : Laws.LengthCode.Statement .engineCallStart := nofun
theorem Laws.LengthCode.callComplete : Laws.LengthCode.Statement .callComplete := nofun
theorem Laws.LengthCode.callFaultReport : Laws.LengthCode.Statement .callFaultReport := nofun
theorem Laws.LengthCode.bsendDelivery : Laws.LengthCode.Statement .bsendDelivery := nofun
theorem Laws.LengthCode.bankTimeout : Laws.LengthCode.Statement .bankTimeout := nofun
theorem Laws.LengthCode.hintExpiry : Laws.LengthCode.Statement .hintExpiry := nofun
theorem Laws.LengthCode.loadComplete : Laws.LengthCode.Statement .loadComplete := nofun
theorem Laws.LengthCode.storeLeavesQueue : Laws.LengthCode.Statement .storeLeavesQueue := nofun
theorem Laws.LengthCode.pageWalk : Laws.LengthCode.Statement .pageWalk := nofun
theorem Laws.LengthCode.loggedFaultTrap : Laws.LengthCode.Statement .loggedFaultTrap := nofun
theorem Laws.LengthCode.lateTrap : Laws.LengthCode.Statement .lateTrap := nofun
theorem Laws.LengthCode.packetArrival : Laws.LengthCode.Statement .packetArrival := nofun
theorem Laws.LengthCode.itemTerminate : Laws.LengthCode.Statement .itemTerminate := nofun
theorem Laws.LengthCode.itemEnd : Laws.LengthCode.Statement .itemEnd := nofun
theorem Laws.LengthCode.launchRingRead : Laws.LengthCode.Statement .launchRingRead := nofun
theorem Laws.LengthCode.ringReset : Laws.LengthCode.Statement .ringReset := nofun
theorem Laws.LengthCode.queueConfig : Laws.LengthCode.Statement .queueConfig := nofun
theorem Laws.LengthCode.dispatchItem : Laws.LengthCode.Statement .dispatchItem := nofun
theorem Laws.LengthCode.priorityAging : Laws.LengthCode.Statement .priorityAging := nofun
theorem Laws.LengthCode.parkCheck : Laws.LengthCode.Statement .parkCheck := nofun
theorem Laws.LengthCode.replicaAccept : Laws.LengthCode.Statement .replicaAccept := nofun
theorem Laws.LengthCode.startTimeout : Laws.LengthCode.Statement .startTimeout := nofun
theorem Laws.LengthCode.peerTimeout : Laws.LengthCode.Statement .peerTimeout := nofun
theorem Laws.LengthCode.partitionReset : Laws.LengthCode.Statement .partitionReset := nofun
theorem Laws.LengthCode.preemptRequest : Laws.LengthCode.Statement .preemptRequest := nofun
theorem Laws.LengthCode.drainExpiry : Laws.LengthCode.Statement .drainExpiry := nofun
theorem Laws.LengthCode.saveItem : Laws.LengthCode.Statement .saveItem := nofun
theorem Laws.LengthCode.flushItem : Laws.LengthCode.Statement .flushItem := nofun
theorem Laws.LengthCode.tlbinvVa : Laws.LengthCode.Statement .tlbinvVa := nofun
theorem Laws.LengthCode.tlbinvAll : Laws.LengthCode.Statement .tlbinvAll := nofun
theorem Laws.LengthCode.ptbaseWrite : Laws.LengthCode.Statement .ptbaseWrite := nofun
theorem Laws.LengthCode.latecntWrite : Laws.LengthCode.Statement .latecntWrite := nofun
theorem Laws.LengthCode.opldrop : Laws.LengthCode.Statement .opldrop := nofun
theorem Laws.LengthCode.keySlotLoad : Laws.LengthCode.Statement .keySlotLoad := nofun
theorem Laws.LengthCode.eccScrub : Laws.LengthCode.Statement .eccScrub := nofun
theorem Laws.LengthCode.parityError : Laws.LengthCode.Statement .parityError := nofun
theorem Laws.LengthCode.railctlWrite : Laws.LengthCode.Statement .railctlWrite := nofun
theorem Laws.LengthCode.clctlWrite : Laws.LengthCode.Statement .clctlWrite := nofun
theorem Laws.LengthCode.vfenergyWrite : Laws.LengthCode.Statement .vfenergyWrite := nofun
theorem Laws.LengthCode.dvfsRequest : Laws.LengthCode.Statement .dvfsRequest := nofun
theorem Laws.LengthCode.railRampDone : Laws.LengthCode.Statement .railRampDone := nofun
theorem Laws.LengthCode.clockHop : Laws.LengthCode.Statement .clockHop := nofun
theorem Laws.LengthCode.droopDetect : Laws.LengthCode.Statement .droopDetect := nofun
theorem Laws.LengthCode.droopEnd : Laws.LengthCode.Statement .droopEnd := nofun
theorem Laws.LengthCode.chargeCycle : Laws.LengthCode.Statement .chargeCycle := nofun
theorem Laws.LengthCode.clusterSample : Laws.LengthCode.Statement .clusterSample := nofun
theorem Laws.LengthCode.thermalThreshold : Laws.LengthCode.Statement .thermalThreshold := nofun
theorem Laws.LengthCode.ptpAdjust : Laws.LengthCode.Statement .ptpAdjust := nofun
theorem Laws.LengthCode.timeResync : Laws.LengthCode.Statement .timeResync := nofun
theorem Laws.LengthCode.pcSample : Laws.LengthCode.Statement .pcSample := nofun
theorem Laws.LengthCode.watermarkStep : Laws.LengthCode.Statement .watermarkStep := nofun
theorem Laws.LengthCode.haltSlot : Laws.LengthCode.Statement .haltSlot := nofun
theorem Laws.LengthCode.resumeSlot : Laws.LengthCode.Statement .resumeSlot := nofun
theorem Laws.LengthCode.stepSlot : Laws.LengthCode.Statement .stepSlot := nofun
theorem Laws.LengthCode.dbgRead : Laws.LengthCode.Statement .dbgRead := nofun
theorem Laws.LengthCode.dbgWrite : Laws.LengthCode.Statement .dbgWrite := nofun
theorem Laws.LengthCode.dbgSample : Laws.LengthCode.Statement .dbgSample := nofun
theorem Laws.LengthCode.droplog : Laws.LengthCode.Statement .droplog := nofun
theorem Laws.LengthCode.registerWrite : Laws.LengthCode.Statement .registerWrite := nofun
theorem Laws.LengthCode.linkRetrain : Laws.LengthCode.Statement .linkRetrain := nofun
theorem Laws.LengthCode.coldStart : Laws.LengthCode.Statement .coldStart := nofun
theorem Laws.LengthCode.warmStart : Laws.LengthCode.Statement .warmStart := nofun
theorem Laws.LengthCode.startWatchdog : Laws.LengthCode.Statement .startWatchdog := nofun
theorem Laws.LengthCode.imageUpdate : Laws.LengthCode.Statement .imageUpdate := nofun
theorem Laws.LengthCode.illegalEncoding : Laws.LengthCode.Statement .illegalEncoding := nofun
theorem Laws.LengthCode.bankIllegal : Laws.LengthCode.Statement .bankIllegal := nofun
theorem Laws.LengthCode.peerAccess : Laws.LengthCode.Statement .peerAccess := nofun
theorem Laws.LengthCode.hostAccess : Laws.LengthCode.Statement .hostAccess := nofun
theorem Laws.LengthCode.rdmaTransfer : Laws.LengthCode.Statement .rdmaTransfer := nofun
theorem Laws.LengthCode.systemCoreAccess : Laws.LengthCode.Statement .systemCoreAccess := nofun
theorem Laws.LengthCode.replicatedPacket : Laws.LengthCode.Statement .replicatedPacket := nofun
theorem Laws.LengthCode.hostAttach : Laws.LengthCode.Statement .hostAttach := nofun
theorem Laws.LengthCode.ptpLockChange : Laws.LengthCode.Statement .ptpLockChange := nofun
theorem Laws.LengthCode.inputPowerLoss : Laws.LengthCode.Statement .inputPowerLoss := nofun
theorem Laws.LengthCode.coolantFlowLow : Laws.LengthCode.Statement .coolantFlowLow := nofun
theorem Laws.LengthCode.flitCrcReplay : Laws.LengthCode.Statement .flitCrcReplay := nofun
theorem Laws.LengthCode.mergeCounterRead : Laws.LengthCode.Statement .mergeCounterRead := nofun
theorem Laws.LengthCode.faultRingSpace : Laws.LengthCode.Statement .faultRingSpace := nofun
theorem Laws.LengthCode.clusterRecalibration : Laws.LengthCode.Statement .clusterRecalibration := nofun
theorem Laws.LengthCode.linkRetirement : Laws.LengthCode.Statement .linkRetirement := nofun
theorem Laws.LengthCode.enginePartitionAssign : Laws.LengthCode.Statement .enginePartitionAssign := nofun

end Sys2Proof
end

