-- ==== Sys2Proof/Laws/Shape.lean ====
section
/-!
SUPPORT. Every thread instruction is one effect inside the checks of its issue.
-/
namespace Sys2Proof.Machine

/-- What an instruction does where its guard is false (02 R24). -/
def offEffect (i : Instr) (s : State) : Done :=
  match i with
  | .loop f | .loopx f => { st := s, flow := .skip (parcelTarget s.thr.pc f.imm32) }
  | .owloop f => { st := s, flow := .skip (parcelTarget s.thr.pc f.imm32) }
  | .ord _ => { st := s.prefixed 0 0 }
  | _ => { st := s }

/-- The instruction is an effect of its own inside `issueWith` at its form. -/
def Shaped (i : Instr) : Prop := ∃ body, ∀ s, exec i s = issueWith i.form (offEffect i) body s

theorem shape_nop f : Shaped (.nop f) := ⟨_, fun s => by show execNop f s = _; unfold execNop pureOp issue; exact rfl⟩
theorem shape_exitThread f : Shaped (.exitThread f) :=
  ⟨_, fun s => by show execExitThread f s = _; unfold execExitThread issue; exact rfl⟩
theorem shape_yieldSlot f : Shaped (.yieldSlot f) :=
  ⟨_, fun s => by show execYieldSlot f s = _; unfold execYieldSlot issue; exact rfl⟩
theorem shape_trap f : Shaped (.trap f) := ⟨_, fun s => by show execTrap f s = _; unfold execTrap issue; exact rfl⟩
theorem shape_eret f : Shaped (.eret f) := ⟨_, fun s => by show execEret f s = _; unfold execEret issue; exact rfl⟩
theorem shape_sysr f : Shaped (.sysr f) := ⟨_, fun s => by show execSysr f s = _; unfold execSysr pureOp issue; exact rfl⟩
theorem shape_sysw f : Shaped (.sysw f) := ⟨_, fun s => by show execSysw f s = _; unfold execSysw issue; exact rfl⟩
theorem shape_sysx f : Shaped (.sysx f) := ⟨_, fun s => by show execSysx f s = _; unfold execSysx issue; exact rfl⟩
theorem shape_brk f : Shaped (.brk f) := ⟨_, fun s => by show execBrk f s = _; unfold execBrk issue; exact rfl⟩
theorem shape_tstamp f : Shaped (.tstamp f) := ⟨_, fun s => by show execTstamp f s = _; unfold execTstamp pureOp issue; exact rfl⟩
theorem shape_evt f : Shaped (.evt f) := ⟨_, fun s => by show execEvt f s = _; unfold execEvt pureOp issue; exact rfl⟩
theorem shape_br f : Shaped (.br f) := ⟨_, fun s => by show execBr f s = _; unfold execBr issue; exact rfl⟩
theorem shape_brl f : Shaped (.brl f) := ⟨_, fun s => by show execBrl f s = _; unfold execBrl issue; exact rfl⟩
theorem shape_ret f : Shaped (.ret f) := ⟨_, fun s => by show execRet f s = _; unfold execRet issue; exact rfl⟩
theorem shape_jt f : Shaped (.jt f) := ⟨_, fun s => by show execJt f s = _; unfold execJt issue; exact rfl⟩
theorem shape_jtl f : Shaped (.jtl f) := ⟨_, fun s => by show execJtl f s = _; unfold execJtl issue; exact rfl⟩
theorem shape_loop f : Shaped (.loop f) := ⟨_, fun s => by show execLoop f s = _; unfold execLoop; exact rfl⟩
theorem shape_loopx f : Shaped (.loopx f) := ⟨_, fun s => by show execLoopx f s = _; unfold execLoopx; exact rfl⟩
theorem shape_lbrk f : Shaped (.lbrk f) := ⟨_, fun s => by show execLbrk f s = _; unfold execLbrk issue; exact rfl⟩
theorem shape_add f : Shaped (.add f) := ⟨_, fun s => by show execAdd f s = _; unfold execAdd ialu pureOp issue; exact rfl⟩
theorem shape_sub f : Shaped (.sub f) := ⟨_, fun s => by show execSub f s = _; unfold execSub ialu pureOp issue; exact rfl⟩
theorem shape_mul f : Shaped (.mul f) := ⟨_, fun s => by show execMul f s = _; unfold execMul ialu pureOp issue; exact rfl⟩
theorem shape_mulh f : Shaped (.mulh f) := ⟨_, fun s => by show execMulh f s = _; unfold execMulh ialu pureOp issue; exact rfl⟩
theorem shape_mulhu f : Shaped (.mulhu f) :=
  ⟨_, fun s => by show execMulhu f s = _; unfold execMulhu ialu pureOp issue; exact rfl⟩
theorem shape_div f : Shaped (.div f) := ⟨_, fun s => by show execDiv f s = _; unfold execDiv ialu pureOp issue; exact rfl⟩
theorem shape_divu f : Shaped (.divu f) := ⟨_, fun s => by show execDivu f s = _; unfold execDivu ialu pureOp issue; exact rfl⟩
theorem shape_rem f : Shaped (.rem f) := ⟨_, fun s => by show execRem f s = _; unfold execRem ialu pureOp issue; exact rfl⟩
theorem shape_remu f : Shaped (.remu f) := ⟨_, fun s => by show execRemu f s = _; unfold execRemu ialu pureOp issue; exact rfl⟩
theorem shape_and f : Shaped (.and f) := ⟨_, fun s => by show execAnd f s = _; unfold execAnd ialu pureOp issue; exact rfl⟩
theorem shape_or f : Shaped (.or f) := ⟨_, fun s => by show execOr f s = _; unfold execOr ialu pureOp issue; exact rfl⟩
theorem shape_xor f : Shaped (.xor f) := ⟨_, fun s => by show execXor f s = _; unfold execXor ialu pureOp issue; exact rfl⟩
theorem shape_andn f : Shaped (.andn f) := ⟨_, fun s => by show execAndn f s = _; unfold execAndn ialu pureOp issue; exact rfl⟩
theorem shape_shl f : Shaped (.shl f) := ⟨_, fun s => by show execShl f s = _; unfold execShl ialu pureOp issue; exact rfl⟩
theorem shape_shr f : Shaped (.shr f) := ⟨_, fun s => by show execShr f s = _; unfold execShr ialu pureOp issue; exact rfl⟩
theorem shape_sar f : Shaped (.sar f) := ⟨_, fun s => by show execSar f s = _; unfold execSar ialu pureOp issue; exact rfl⟩
theorem shape_min f : Shaped (.min f) := ⟨_, fun s => by show execMin f s = _; unfold execMin ialu pureOp issue; exact rfl⟩
theorem shape_minu f : Shaped (.minu f) := ⟨_, fun s => by show execMinu f s = _; unfold execMinu ialu pureOp issue; exact rfl⟩
theorem shape_max f : Shaped (.max f) := ⟨_, fun s => by show execMax f s = _; unfold execMax ialu pureOp issue; exact rfl⟩
theorem shape_maxu f : Shaped (.maxu f) := ⟨_, fun s => by show execMaxu f s = _; unfold execMaxu ialu pureOp issue; exact rfl⟩
theorem shape_clz f : Shaped (.clz f) := ⟨_, fun s => by show execClz f s = _; unfold execClz ialu pureOp issue; exact rfl⟩
theorem shape_ctz f : Shaped (.ctz f) := ⟨_, fun s => by show execCtz f s = _; unfold execCtz ialu pureOp issue; exact rfl⟩
theorem shape_popc f : Shaped (.popc f) := ⟨_, fun s => by show execPopc f s = _; unfold execPopc ialu pureOp issue; exact rfl⟩
theorem shape_brev f : Shaped (.brev f) := ⟨_, fun s => by show execBrev f s = _; unfold execBrev ialu pureOp issue; exact rfl⟩
theorem shape_exts f : Shaped (.exts f) := ⟨_, fun s => by show execExts f s = _; unfold execExts ialu pureOp issue; exact rfl⟩
theorem shape_extz f : Shaped (.extz f) := ⟨_, fun s => by show execExtz f s = _; unfold execExtz ialu pureOp issue; exact rfl⟩
theorem shape_ins f : Shaped (.ins f) := ⟨_, fun s => by show execIns f s = _; unfold execIns pureOp issue; exact rfl⟩
theorem shape_sel f : Shaped (.sel f) := ⟨_, fun s => by show execSel f s = _; unfold execSel pureOp issue; exact rfl⟩
theorem shape_ceq f : Shaped (.ceq f) := ⟨_, fun s => by show execCeq f s = _; unfold execCeq icmp pureOp issue; exact rfl⟩
theorem shape_cne f : Shaped (.cne f) := ⟨_, fun s => by show execCne f s = _; unfold execCne icmp pureOp issue; exact rfl⟩
theorem shape_clt f : Shaped (.clt f) := ⟨_, fun s => by show execClt f s = _; unfold execClt icmp pureOp issue; exact rfl⟩
theorem shape_cle f : Shaped (.cle f) := ⟨_, fun s => by show execCle f s = _; unfold execCle icmp pureOp issue; exact rfl⟩
theorem shape_cltu f : Shaped (.cltu f) := ⟨_, fun s => by show execCltu f s = _; unfold execCltu icmp pureOp issue; exact rfl⟩
theorem shape_cleu f : Shaped (.cleu f) := ⟨_, fun s => by show execCleu f s = _; unfold execCleu icmp pureOp issue; exact rfl⟩
theorem shape_pand f : Shaped (.pand f) := ⟨_, fun s => by show execPand f s = _; unfold execPand plogic pureOp issue; exact rfl⟩
theorem shape_por f : Shaped (.por f) := ⟨_, fun s => by show execPor f s = _; unfold execPor plogic pureOp issue; exact rfl⟩
theorem shape_pxor f : Shaped (.pxor f) := ⟨_, fun s => by show execPxor f s = _; unfold execPxor plogic pureOp issue; exact rfl⟩
theorem shape_pnot f : Shaped (.pnot f) := ⟨_, fun s => by show execPnot f s = _; unfold execPnot plogic pureOp issue; exact rfl⟩
theorem shape_pmov f : Shaped (.pmov f) := ⟨_, fun s => by show execPmov f s = _; unfold execPmov plogic pureOp issue; exact rfl⟩
theorem shape_pget f : Shaped (.pget f) := ⟨_, fun s => by show execPget f s = _; unfold execPget icmp pureOp issue; exact rfl⟩
theorem shape_movi f : Shaped (.movi f) := ⟨_, fun s => by show execMovi f s = _; unfold execMovi pureOp issue; exact rfl⟩
theorem shape_movhi f : Shaped (.movhi f) := ⟨_, fun s => by show execMovhi f s = _; unfold execMovhi pureOp issue; exact rfl⟩
theorem shape_addi f : Shaped (.addi f) := ⟨_, fun s => by show execAddi f s = _; unfold execAddi pureOp issue; exact rfl⟩
theorem shape_ptrmk f : Shaped (.ptrmk f) := ⟨_, fun s => by show execPtrmk f s = _; unfold execPtrmk issue; exact rfl⟩
theorem shape_ptrsp f : Shaped (.ptrsp f) := ⟨_, fun s => by show execPtrsp f s = _; unfold execPtrsp issue; exact rfl⟩
theorem shape_ptrrk f : Shaped (.ptrrk f) := ⟨_, fun s => by show execPtrrk f s = _; unfold execPtrrk issue; exact rfl⟩
theorem shape_ptroff f : Shaped (.ptroff f) := ⟨_, fun s => by show execPtroff f s = _; unfold execPtroff pureOp issue; exact rfl⟩
theorem shape_pladr f : Shaped (.pladr f) := ⟨_, fun s => by show execPladr f s = _; unfold execPladr issue; exact rfl⟩
theorem shape_fadd f : Shaped (.fadd f) := ⟨_, fun s => by show execFadd f s = _; unfold execFadd falu pureOp issue; exact rfl⟩
theorem shape_fsub f : Shaped (.fsub f) := ⟨_, fun s => by show execFsub f s = _; unfold execFsub falu pureOp issue; exact rfl⟩
theorem shape_fmul f : Shaped (.fmul f) := ⟨_, fun s => by show execFmul f s = _; unfold execFmul falu pureOp issue; exact rfl⟩
theorem shape_fma f : Shaped (.fma f) := ⟨_, fun s => by show execFma f s = _; unfold execFma falu pureOp issue; exact rfl⟩
theorem shape_fdiv f : Shaped (.fdiv f) := ⟨_, fun s => by show execFdiv f s = _; unfold execFdiv falu pureOp issue; exact rfl⟩
theorem shape_fsqrt f : Shaped (.fsqrt f) :=
  ⟨_, fun s => by show execFsqrt f s = _; unfold execFsqrt falu pureOp issue; exact rfl⟩
theorem shape_frsq f : Shaped (.frsq f) := ⟨_, fun s => by show execFrsq f s = _; unfold execFrsq falu pureOp issue; exact rfl⟩
theorem shape_fmin f : Shaped (.fmin f) := ⟨_, fun s => by show execFmin f s = _; unfold execFmin falu pureOp issue; exact rfl⟩
theorem shape_fmax f : Shaped (.fmax f) := ⟨_, fun s => by show execFmax f s = _; unfold execFmax falu pureOp issue; exact rfl⟩
theorem shape_fabs f : Shaped (.fabs f) := ⟨_, fun s => by show execFabs f s = _; unfold execFabs pureOp issue; exact rfl⟩
theorem shape_fneg f : Shaped (.fneg f) := ⟨_, fun s => by show execFneg f s = _; unfold execFneg pureOp issue; exact rfl⟩
theorem shape_fceq f : Shaped (.fceq f) := ⟨_, fun s => by show execFceq f s = _; unfold execFceq fcmp pureOp issue; exact rfl⟩
theorem shape_fclt f : Shaped (.fclt f) := ⟨_, fun s => by show execFclt f s = _; unfold execFclt fcmp pureOp issue; exact rfl⟩
theorem shape_fcle f : Shaped (.fcle f) := ⟨_, fun s => by show execFcle f s = _; unfold execFcle fcmp pureOp issue; exact rfl⟩
theorem shape_fcvt f : Shaped (.fcvt f) := ⟨_, fun s => by show execFcvt f s = _; unfold execFcvt pureOp issue; exact rfl⟩
theorem shape_fclass f : Shaped (.fclass f) := ⟨_, fun s => by show execFclass f s = _; unfold execFclass pureOp issue; exact rfl⟩
theorem shape_ld f : Shaped (.ld f) := ⟨_, fun s => by show execLd f s = _; unfold execLd loadForm issue; exact rfl⟩
theorem shape_ldz f : Shaped (.ldz f) := ⟨_, fun s => by show execLdz f s = _; unfold execLdz loadForm issue; exact rfl⟩
theorem shape_st f : Shaped (.st f) := ⟨_, fun s => by show execSt f s = _; unfold execSt issue; exact rfl⟩
theorem shape_pref f : Shaped (.pref f) := ⟨_, fun s => by show execPref f s = _; unfold execPref pureOp issue; exact rfl⟩
theorem shape_ldf f : Shaped (.ldf f) := ⟨_, fun s => by show execLdf f s = _; unfold execLdf tagLoad issue; exact rfl⟩
theorem shape_ldfe f : Shaped (.ldfe f) := ⟨_, fun s => by show execLdfe f s = _; unfold execLdfe tagLoad issue; exact rfl⟩
theorem shape_ste f : Shaped (.ste f) := ⟨_, fun s => by show execSte f s = _; unfold execSte issue; exact rfl⟩
theorem shape_stf f : Shaped (.stf f) := ⟨_, fun s => by show execStf f s = _; unfold execStf issue; exact rfl⟩
theorem shape_feq f : Shaped (.feq f) := ⟨_, fun s => by show execFeq f s = _; unfold execFeq tagLoad issue; exact rfl⟩
theorem shape_aadd f : Shaped (.aadd f) := ⟨_, fun s => by show execAadd f s = _; unfold execAadd atomForm issue; exact rfl⟩
theorem shape_amin f : Shaped (.amin f) := ⟨_, fun s => by show execAmin f s = _; unfold execAmin atomForm issue; exact rfl⟩
theorem shape_amax f : Shaped (.amax f) := ⟨_, fun s => by show execAmax f s = _; unfold execAmax atomForm issue; exact rfl⟩
theorem shape_aminu f : Shaped (.aminu f) := ⟨_, fun s => by show execAminu f s = _; unfold execAminu atomForm issue; exact rfl⟩
theorem shape_amaxu f : Shaped (.amaxu f) := ⟨_, fun s => by show execAmaxu f s = _; unfold execAmaxu atomForm issue; exact rfl⟩
theorem shape_aand f : Shaped (.aand f) := ⟨_, fun s => by show execAand f s = _; unfold execAand atomForm issue; exact rfl⟩
theorem shape_aor f : Shaped (.aor f) := ⟨_, fun s => by show execAor f s = _; unfold execAor atomForm issue; exact rfl⟩
theorem shape_axor f : Shaped (.axor f) := ⟨_, fun s => by show execAxor f s = _; unfold execAxor atomForm issue; exact rfl⟩
theorem shape_axchg f : Shaped (.axchg f) := ⟨_, fun s => by show execAxchg f s = _; unfold execAxchg atomForm issue; exact rfl⟩
theorem shape_acas f : Shaped (.acas f) := ⟨_, fun s => by show execAcas f s = _; unfold execAcas atomForm issue; exact rfl⟩
theorem shape_afadd f : Shaped (.afadd f) := ⟨_, fun s => by show execAfadd f s = _; unfold execAfadd atomForm issue; exact rfl⟩
theorem shape_ord f : Shaped (.ord f) := ⟨_, fun s => by show execOrd f s = _; unfold execOrd; exact rfl⟩
theorem shape_fence f : Shaped (.fence f) := ⟨_, fun s => by show execFence f s = _; unfold execFence issue; exact rfl⟩
theorem shape_qfence f : Shaped (.qfence f) := ⟨_, fun s => by show execQfence f s = _; unfold execQfence issue; exact rfl⟩
theorem shape_enter f : Shaped (.enter f) := ⟨_, fun s => by show execEnter f s = _; unfold execEnter issue; exact rfl⟩
theorem shape_leavef f : Shaped (.leavef f) := ⟨_, fun s => by show execLeavef f s = _; unfold execLeavef issue; exact rfl⟩
theorem shape_spill f : Shaped (.spill f) := ⟨_, fun s => by show execSpill f s = _; unfold execSpill issue; exact rfl⟩
theorem shape_vaadd f : Shaped (.vaadd f) := ⟨_, fun s => by show execVaadd f s = _; unfold execVaadd vatomForm issue; exact rfl⟩
theorem shape_vamin f : Shaped (.vamin f) := ⟨_, fun s => by show execVamin f s = _; unfold execVamin vatomForm issue; exact rfl⟩
theorem shape_vamax f : Shaped (.vamax f) := ⟨_, fun s => by show execVamax f s = _; unfold execVamax vatomForm issue; exact rfl⟩
theorem shape_vaxchg f : Shaped (.vaxchg f) :=
  ⟨_, fun s => by show execVaxchg f s = _; unfold execVaxchg vatomForm issue; exact rfl⟩
theorem shape_vafadd f : Shaped (.vafadd f) :=
  ⟨_, fun s => by show execVafadd f s = _; unfold execVafadd vatomForm issue; exact rfl⟩
theorem shape_spawn f : Shaped (.spawn f) := ⟨_, fun s => by show execSpawn f s = _; unfold execSpawn issue; exact rfl⟩
theorem shape_cont f : Shaped (.cont f) := ⟨_, fun s => by show execCont f s = _; unfold execCont issue; exact rfl⟩
theorem shape_park f : Shaped (.park f) := ⟨_, fun s => by show execPark f s = _; unfold execPark issue; exact rfl⟩
theorem shape_gnew f : Shaped (.gnew f) := ⟨_, fun s => by show execGnew f s = _; unfold execGnew issue; exact rfl⟩
theorem shape_joinGroup f : Shaped (.joinGroup f) :=
  ⟨_, fun s => by show execJoinGroup f s = _; unfold execJoinGroup issue; exact rfl⟩
theorem shape_leaveGroup f : Shaped (.leaveGroup f) :=
  ⟨_, fun s => by show execLeaveGroup f s = _; unfold execLeaveGroup issue; exact rfl⟩
theorem shape_gbar f : Shaped (.gbar f) := ⟨_, fun s => by show execGbar f s = _; unfold execGbar issue; exact rfl⟩
theorem shape_grank f : Shaped (.grank f) := ⟨_, fun s => by show execGrank f s = _; unfold execGrank issue; exact rfl⟩
theorem shape_gsize f : Shaped (.gsize f) := ⟨_, fun s => by show execGsize f s = _; unfold execGsize issue; exact rfl⟩
theorem shape_launch f : Shaped (.launch f) := ⟨_, fun s => by show execLaunch f s = _; unfold execLaunch issue; exact rfl⟩
theorem shape_plotgrow f : Shaped (.plotgrow f) :=
  ⟨_, fun s => by show execPlotgrow f s = _; unfold execPlotgrow issue; exact rfl⟩
theorem shape_plotinfo f : Shaped (.plotinfo f) :=
  ⟨_, fun s => by show execPlotinfo f s = _; unfold execPlotinfo pureOp issue; exact rfl⟩
theorem shape_tdset f : Shaped (.tdset f) := ⟨_, fun s => by show execTdset f s = _; unfold execTdset issue; exact rfl⟩
theorem shape_tdget f : Shaped (.tdget f) := ⟨_, fun s => by show execTdget f s = _; unfold execTdget pureOp issue; exact rfl⟩
theorem shape_tdld f : Shaped (.tdld f) := ⟨_, fun s => by show execTdld f s = _; unfold execTdld issue; exact rfl⟩
theorem shape_tdst f : Shaped (.tdst f) := ⟨_, fun s => by show execTdst f s = _; unfold execTdst issue; exact rfl⟩
theorem shape_tdmove f : Shaped (.tdmove f) := ⟨_, fun s => by show execTdmove f s = _; unfold execTdmove issue; exact rfl⟩
theorem shape_tdsub f : Shaped (.tdsub f) := ⟨_, fun s => by show execTdsub f s = _; unfold execTdsub issue; exact rfl⟩
theorem shape_edset f : Shaped (.edset f) := ⟨_, fun s => by show execEdset f s = _; unfold execEdset pureOp issue; exact rfl⟩
theorem shape_edget f : Shaped (.edget f) := ⟨_, fun s => by show execEdget f s = _; unfold execEdget pureOp issue; exact rfl⟩
theorem shape_vadd f : Shaped (.vadd f) :=
  ⟨_, fun s => by show execVadd f s = _; unfold execVadd arithForm ewise issue; exact rfl⟩
theorem shape_vsub f : Shaped (.vsub f) :=
  ⟨_, fun s => by show execVsub f s = _; unfold execVsub arithForm ewise issue; exact rfl⟩
theorem shape_vmul f : Shaped (.vmul f) :=
  ⟨_, fun s => by show execVmul f s = _; unfold execVmul arithForm ewise issue; exact rfl⟩
theorem shape_vfma f : Shaped (.vfma f) :=
  ⟨_, fun s => by show execVfma f s = _; unfold execVfma arithForm ewise issue; exact rfl⟩
theorem shape_vmin f : Shaped (.vmin f) := ⟨_, fun s => by show execVmin f s = _; unfold execVmin ewise issue; exact rfl⟩
theorem shape_vmax f : Shaped (.vmax f) := ⟨_, fun s => by show execVmax f s = _; unfold execVmax ewise issue; exact rfl⟩
theorem shape_vabs f : Shaped (.vabs f) := ⟨_, fun s => by show execVabs f s = _; unfold execVabs signForm ewise issue; exact rfl⟩
theorem shape_vneg f : Shaped (.vneg f) := ⟨_, fun s => by show execVneg f s = _; unfold execVneg signForm ewise issue; exact rfl⟩
theorem shape_vdiv f : Shaped (.vdiv f) := ⟨_, fun s => by show execVdiv f s = _; unfold execVdiv ewise issue; exact rfl⟩
theorem shape_vrcp f : Shaped (.vrcp f) := ⟨_, fun s => by show execVrcp f s = _; unfold execVrcp funForm ewise issue; exact rfl⟩
theorem shape_vsqrt f : Shaped (.vsqrt f) :=
  ⟨_, fun s => by show execVsqrt f s = _; unfold execVsqrt funForm ewise issue; exact rfl⟩
theorem shape_vrsq f : Shaped (.vrsq f) := ⟨_, fun s => by show execVrsq f s = _; unfold execVrsq funForm ewise issue; exact rfl⟩
theorem shape_vexp2 f : Shaped (.vexp2 f) :=
  ⟨_, fun s => by show execVexp2 f s = _; unfold execVexp2 funForm ewise issue; exact rfl⟩
theorem shape_vlog2 f : Shaped (.vlog2 f) :=
  ⟨_, fun s => by show execVlog2 f s = _; unfold execVlog2 funForm ewise issue; exact rfl⟩
theorem shape_vand f : Shaped (.vand f) := ⟨_, fun s => by show execVand f s = _; unfold execVand bitForm ewise issue; exact rfl⟩
theorem shape_vor f : Shaped (.vor f) := ⟨_, fun s => by show execVor f s = _; unfold execVor bitForm ewise issue; exact rfl⟩
theorem shape_vxor f : Shaped (.vxor f) := ⟨_, fun s => by show execVxor f s = _; unfold execVxor bitForm ewise issue; exact rfl⟩
theorem shape_vnot f : Shaped (.vnot f) := ⟨_, fun s => by show execVnot f s = _; unfold execVnot bitForm ewise issue; exact rfl⟩
theorem shape_vshl f : Shaped (.vshl f) := ⟨_, fun s => by show execVshl f s = _; unfold execVshl ewise issue; exact rfl⟩
theorem shape_vshr f : Shaped (.vshr f) := ⟨_, fun s => by show execVshr f s = _; unfold execVshr bitForm ewise issue; exact rfl⟩
theorem shape_vsar f : Shaped (.vsar f) := ⟨_, fun s => by show execVsar f s = _; unfold execVsar bitForm ewise issue; exact rfl⟩
theorem shape_vclz f : Shaped (.vclz f) := ⟨_, fun s => by show execVclz f s = _; unfold execVclz bitForm ewise issue; exact rfl⟩
theorem shape_vpopc f : Shaped (.vpopc f) :=
  ⟨_, fun s => by show execVpopc f s = _; unfold execVpopc bitForm ewise issue; exact rfl⟩
theorem shape_vmov f : Shaped (.vmov f) := ⟨_, fun s => by show execVmov f s = _; unfold execVmov ewise issue; exact rfl⟩
theorem shape_vcvt f : Shaped (.vcvt f) := ⟨_, fun s => by show execVcvt f s = _; unfold execVcvt issue; exact rfl⟩
theorem shape_vsel f : Shaped (.vsel f) := ⟨_, fun s => by show execVsel f s = _; unfold execVsel issue; exact rfl⟩
theorem shape_vceq f : Shaped (.vceq f) := ⟨_, fun s => by show execVceq f s = _; unfold execVceq cmpForm ewise issue; exact rfl⟩
theorem shape_vcne f : Shaped (.vcne f) := ⟨_, fun s => by show execVcne f s = _; unfold execVcne cmpForm ewise issue; exact rfl⟩
theorem shape_vclt f : Shaped (.vclt f) := ⟨_, fun s => by show execVclt f s = _; unfold execVclt cmpForm ewise issue; exact rfl⟩
theorem shape_vcle f : Shaped (.vcle f) := ⟨_, fun s => by show execVcle f s = _; unfold execVcle cmpForm ewise issue; exact rfl⟩
theorem shape_vadds f : Shaped (.vadds f) := ⟨_, fun s => by show execVadds f s = _; unfold execVadds scalarForm issue; exact rfl⟩
theorem shape_vmuls f : Shaped (.vmuls f) := ⟨_, fun s => by show execVmuls f s = _; unfold execVmuls scalarForm issue; exact rfl⟩
theorem shape_vfmas f : Shaped (.vfmas f) := ⟨_, fun s => by show execVfmas f s = _; unfold execVfmas scalarForm issue; exact rfl⟩
theorem shape_vmins f : Shaped (.vmins f) := ⟨_, fun s => by show execVmins f s = _; unfold execVmins scalarForm issue; exact rfl⟩
theorem shape_vmaxs f : Shaped (.vmaxs f) := ⟨_, fun s => by show execVmaxs f s = _; unfold execVmaxs scalarForm issue; exact rfl⟩
theorem shape_vbcast f : Shaped (.vbcast f) := ⟨_, fun s => by show execVbcast f s = _; unfold execVbcast issue; exact rfl⟩
theorem shape_viota f : Shaped (.viota f) := ⟨_, fun s => by show execViota f s = _; unfold execViota issue; exact rfl⟩
theorem shape_vperm f : Shaped (.vperm f) := ⟨_, fun s => by show execVperm f s = _; unfold execVperm moveForm issue; exact rfl⟩
theorem shape_vrot f : Shaped (.vrot f) := ⟨_, fun s => by show execVrot f s = _; unfold execVrot moveForm issue; exact rfl⟩
theorem shape_vxch f : Shaped (.vxch f) := ⟨_, fun s => by show execVxch f s = _; unfold execVxch moveForm issue; exact rfl⟩
theorem shape_vredc f : Shaped (.vredc f) := ⟨_, fun s => by show execVredc f s = _; unfold execVredc issue; exact rfl⟩
theorem shape_vscanc f : Shaped (.vscanc f) := ⟨_, fun s => by show execVscanc f s = _; unfold execVscanc issue; exact rfl⟩
theorem shape_vdotc f : Shaped (.vdotc f) := ⟨_, fun s => by show execVdotc f s = _; unfold execVdotc issue; exact rfl⟩
theorem shape_vlut f : Shaped (.vlut f) := ⟨_, fun s => by show execVlut f s = _; unfold execVlut issue; exact rfl⟩
theorem shape_ppset f : Shaped (.ppset f) := ⟨_, fun s => by show execPpset f s = _; unfold execPpset predForm issue; exact rfl⟩
theorem shape_ppand f : Shaped (.ppand f) := ⟨_, fun s => by show execPpand f s = _; unfold execPpand predForm issue; exact rfl⟩
theorem shape_ppor f : Shaped (.ppor f) := ⟨_, fun s => by show execPpor f s = _; unfold execPpor predForm issue; exact rfl⟩
theorem shape_ppnot f : Shaped (.ppnot f) := ⟨_, fun s => by show execPpnot f s = _; unfold execPpnot predForm issue; exact rfl⟩
theorem shape_ppcnt f : Shaped (.ppcnt f) := ⟨_, fun s => by show execPpcnt f s = _; unfold execPpcnt countForm issue; exact rfl⟩
theorem shape_ppany f : Shaped (.ppany f) := ⟨_, fun s => by show execPpany f s = _; unfold execPpany countForm issue; exact rfl⟩
theorem shape_ppall f : Shaped (.ppall f) := ⟨_, fun s => by show execPpall f s = _; unfold execPpall countForm issue; exact rfl⟩
theorem shape_feset f : Shaped (.feset f) := ⟨_, fun s => by show execFeset f s = _; unfold execFeset tagForm issue; exact rfl⟩
theorem shape_feclr f : Shaped (.feclr f) := ⟨_, fun s => by show execFeclr f s = _; unfold execFeclr tagForm issue; exact rfl⟩
theorem shape_scroll f : Shaped (.scroll f) :=
  ⟨_, fun s => by show execScroll f s = _; unfold execScroll scrollForm issue; exact rfl⟩
theorem shape_scrollx f : Shaped (.scrollx f) :=
  ⟨_, fun s => by show execScrollx f s = _; unfold execScrollx scrollForm issue; exact rfl⟩
theorem shape_plcopy f : Shaped (.plcopy f) := ⟨_, fun s => by show execPlcopy f s = _; unfold execPlcopy issue; exact rfl⟩
theorem shape_plfill f : Shaped (.plfill f) := ⟨_, fun s => by show execPlfill f s = _; unfold execPlfill issue; exact rfl⟩
theorem shape_nredr f : Shaped (.nredr f) := ⟨_, fun s => by show execNredr f s = _; unfold execNredr reduceForm issue; exact rfl⟩
theorem shape_nredc f : Shaped (.nredc f) := ⟨_, fun s => by show execNredc f s = _; unfold execNredc reduceForm issue; exact rfl⟩
theorem shape_nredx f : Shaped (.nredx f) := ⟨_, fun s => by show execNredx f s = _; unfold execNredx reduceForm issue; exact rfl⟩
theorem shape_nbcr f : Shaped (.nbcr f) := ⟨_, fun s => by show execNbcr f s = _; unfold execNbcr bcastForm issue; exact rfl⟩
theorem shape_nbcc f : Shaped (.nbcc f) := ⟨_, fun s => by show execNbcc f s = _; unfold execNbcc bcastForm issue; exact rfl⟩
theorem shape_dred f : Shaped (.dred f) := ⟨_, fun s => by show execDred f s = _; unfold execDred issue; exact rfl⟩
theorem shape_wld f : Shaped (.wld f) := ⟨_, fun s => by show execWld f s = _; unfold execWld issue; exact rfl⟩
theorem shape_wswap f : Shaped (.wswap f) := ⟨_, fun s => by show execWswap f s = _; unfold execWswap issue; exact rfl⟩
theorem shape_mstream f : Shaped (.mstream f) := ⟨_, fun s => by show execMstream f s = _; unfold execMstream issue; exact rfl⟩
theorem shape_accz f : Shaped (.accz f) := ⟨_, fun s => by show execAccz f s = _; unfold execAccz accForm issue; exact rfl⟩
theorem shape_accrd f : Shaped (.accrd f) := ⟨_, fun s => by show execAccrd f s = _; unfold execAccrd issue; exact rfl⟩
theorem shape_accnrm f : Shaped (.accnrm f) :=
  ⟨_, fun s => by show execAccnrm f s = _; unfold execAccnrm accForm issue; exact rfl⟩
theorem shape_cpin f : Shaped (.cpin f) := ⟨_, fun s => by show execCpin f s = _; unfold execCpin cpioForm issue; exact rfl⟩
theorem shape_cpout f : Shaped (.cpout f) := ⟨_, fun s => by show execCpout f s = _; unfold execCpout cpioForm issue; exact rfl⟩
theorem shape_cpg f : Shaped (.cpg f) := ⟨_, fun s => by show execCpg f s = _; unfold execCpg gatherForm issue; exact rfl⟩
theorem shape_cps f : Shaped (.cps f) := ⟨_, fun s => by show execCps f s = _; unfold execCps gatherForm issue; exact rfl⟩
theorem shape_cpp f : Shaped (.cpp f) := ⟨_, fun s => by show execCpp f s = _; unfold execCpp issue; exact rfl⟩
theorem shape_cpm f : Shaped (.cpm f) := ⟨_, fun s => by show execCpm f s = _; unfold execCpm issue; exact rfl⟩
theorem shape_seal f : Shaped (.seal f) := ⟨_, fun s => by show execSeal f s = _; unfold execSeal issue; exact rfl⟩
theorem shape_waitb f : Shaped (.waitb f) := ⟨_, fun s => by show execWaitb f s = _; unfold execWaitb issue; exact rfl⟩
theorem shape_wptr f : Shaped (.wptr f) := ⟨_, fun s => by show execWptr f s = _; unfold execWptr pureOp issue; exact rfl⟩
theorem shape_cpstat f : Shaped (.cpstat f) := ⟨_, fun s => by show execCpstat f s = _; unfold execCpstat pureOp issue; exact rfl⟩
theorem shape_bkload f : Shaped (.bkload f) := ⟨_, fun s => by show execBkload f s = _; unfold execBkload issue; exact rfl⟩
theorem shape_bkact f : Shaped (.bkact f) := ⟨_, fun s => by show execBkact f s = _; unfold execBkact issue; exact rfl⟩
theorem shape_bkcall f : Shaped (.bkcall f) := ⟨_, fun s => by show execBkcall f s = _; unfold execBkcall issue; exact rfl⟩
theorem shape_bkwait f : Shaped (.bkwait f) := ⟨_, fun s => by show execBkwait f s = _; unfold execBkwait issue; exact rfl⟩
theorem shape_bkstat f : Shaped (.bkstat f) := ⟨_, fun s => by show execBkstat f s = _; unfold execBkstat issue; exact rfl⟩
theorem shape_owloop f : Shaped (.owloop f) := ⟨_, fun s => by show execOwloop f s = _; unfold execOwloop; exact rfl⟩
theorem shape_owwin f : Shaped (.owwin f) := ⟨_, fun s => by show execOwwin f s = _; unfold execOwwin issue; exact rfl⟩
theorem shape_owdecl f : Shaped (.owdecl f) := ⟨_, fun s => by show execOwdecl f s = _; unfold execOwdecl issue; exact rfl⟩
theorem shape_owchk f : Shaped (.owchk f) := ⟨_, fun s => by show execOwchk f s = _; unfold execOwchk issue; exact rfl⟩
theorem shape_owstat f : Shaped (.owstat f) := ⟨_, fun s => by show execOwstat f s = _; unfold execOwstat pureOp issue; exact rfl⟩
theorem shape_pwrhint f : Shaped (.pwrhint f) :=
  ⟨_, fun s => by show execPwrhint f s = _; unfold execPwrhint pureOp issue; exact rfl⟩
theorem shape_chgrd f : Shaped (.chgrd f) := ⟨_, fun s => by show execChgrd f s = _; unfold execChgrd pureOp issue; exact rfl⟩

/-- Every thread instruction has this shape. -/
theorem exec_shape : ∀ i : Instr, i.isThread = true → Shaped i
  | .nop f, _ => shape_nop f
  | .exitThread f, _ => shape_exitThread f
  | .yieldSlot f, _ => shape_yieldSlot f
  | .trap f, _ => shape_trap f
  | .eret f, _ => shape_eret f
  | .sysr f, _ => shape_sysr f
  | .sysw f, _ => shape_sysw f
  | .sysx f, _ => shape_sysx f
  | .brk f, _ => shape_brk f
  | .tstamp f, _ => shape_tstamp f
  | .evt f, _ => shape_evt f
  | .br f, _ => shape_br f
  | .brl f, _ => shape_brl f
  | .ret f, _ => shape_ret f
  | .jt f, _ => shape_jt f
  | .jtl f, _ => shape_jtl f
  | .loop f, _ => shape_loop f
  | .loopx f, _ => shape_loopx f
  | .lbrk f, _ => shape_lbrk f
  | .add f, _ => shape_add f
  | .sub f, _ => shape_sub f
  | .mul f, _ => shape_mul f
  | .mulh f, _ => shape_mulh f
  | .mulhu f, _ => shape_mulhu f
  | .div f, _ => shape_div f
  | .divu f, _ => shape_divu f
  | .rem f, _ => shape_rem f
  | .remu f, _ => shape_remu f
  | .and f, _ => shape_and f
  | .or f, _ => shape_or f
  | .xor f, _ => shape_xor f
  | .andn f, _ => shape_andn f
  | .shl f, _ => shape_shl f
  | .shr f, _ => shape_shr f
  | .sar f, _ => shape_sar f
  | .min f, _ => shape_min f
  | .minu f, _ => shape_minu f
  | .max f, _ => shape_max f
  | .maxu f, _ => shape_maxu f
  | .clz f, _ => shape_clz f
  | .ctz f, _ => shape_ctz f
  | .popc f, _ => shape_popc f
  | .brev f, _ => shape_brev f
  | .exts f, _ => shape_exts f
  | .extz f, _ => shape_extz f
  | .ins f, _ => shape_ins f
  | .sel f, _ => shape_sel f
  | .ceq f, _ => shape_ceq f
  | .cne f, _ => shape_cne f
  | .clt f, _ => shape_clt f
  | .cle f, _ => shape_cle f
  | .cltu f, _ => shape_cltu f
  | .cleu f, _ => shape_cleu f
  | .pand f, _ => shape_pand f
  | .por f, _ => shape_por f
  | .pxor f, _ => shape_pxor f
  | .pnot f, _ => shape_pnot f
  | .pmov f, _ => shape_pmov f
  | .pget f, _ => shape_pget f
  | .movi f, _ => shape_movi f
  | .movhi f, _ => shape_movhi f
  | .addi f, _ => shape_addi f
  | .ptrmk f, _ => shape_ptrmk f
  | .ptrsp f, _ => shape_ptrsp f
  | .ptrrk f, _ => shape_ptrrk f
  | .ptroff f, _ => shape_ptroff f
  | .pladr f, _ => shape_pladr f
  | .fadd f, _ => shape_fadd f
  | .fsub f, _ => shape_fsub f
  | .fmul f, _ => shape_fmul f
  | .fma f, _ => shape_fma f
  | .fdiv f, _ => shape_fdiv f
  | .fsqrt f, _ => shape_fsqrt f
  | .frsq f, _ => shape_frsq f
  | .fmin f, _ => shape_fmin f
  | .fmax f, _ => shape_fmax f
  | .fabs f, _ => shape_fabs f
  | .fneg f, _ => shape_fneg f
  | .fceq f, _ => shape_fceq f
  | .fclt f, _ => shape_fclt f
  | .fcle f, _ => shape_fcle f
  | .fcvt f, _ => shape_fcvt f
  | .fclass f, _ => shape_fclass f
  | .ld f, _ => shape_ld f
  | .ldz f, _ => shape_ldz f
  | .st f, _ => shape_st f
  | .pref f, _ => shape_pref f
  | .ldf f, _ => shape_ldf f
  | .ldfe f, _ => shape_ldfe f
  | .ste f, _ => shape_ste f
  | .stf f, _ => shape_stf f
  | .feq f, _ => shape_feq f
  | .aadd f, _ => shape_aadd f
  | .amin f, _ => shape_amin f
  | .amax f, _ => shape_amax f
  | .aminu f, _ => shape_aminu f
  | .amaxu f, _ => shape_amaxu f
  | .aand f, _ => shape_aand f
  | .aor f, _ => shape_aor f
  | .axor f, _ => shape_axor f
  | .axchg f, _ => shape_axchg f
  | .acas f, _ => shape_acas f
  | .afadd f, _ => shape_afadd f
  | .ord f, _ => shape_ord f
  | .fence f, _ => shape_fence f
  | .qfence f, _ => shape_qfence f
  | .enter f, _ => shape_enter f
  | .leavef f, _ => shape_leavef f
  | .spill f, _ => shape_spill f
  | .vaadd f, _ => shape_vaadd f
  | .vamin f, _ => shape_vamin f
  | .vamax f, _ => shape_vamax f
  | .vaxchg f, _ => shape_vaxchg f
  | .vafadd f, _ => shape_vafadd f
  | .spawn f, _ => shape_spawn f
  | .cont f, _ => shape_cont f
  | .park f, _ => shape_park f
  | .gnew f, _ => shape_gnew f
  | .joinGroup f, _ => shape_joinGroup f
  | .leaveGroup f, _ => shape_leaveGroup f
  | .gbar f, _ => shape_gbar f
  | .grank f, _ => shape_grank f
  | .gsize f, _ => shape_gsize f
  | .launch f, _ => shape_launch f
  | .plotgrow f, _ => shape_plotgrow f
  | .plotinfo f, _ => shape_plotinfo f
  | .tdset f, _ => shape_tdset f
  | .tdget f, _ => shape_tdget f
  | .tdld f, _ => shape_tdld f
  | .tdst f, _ => shape_tdst f
  | .tdmove f, _ => shape_tdmove f
  | .tdsub f, _ => shape_tdsub f
  | .edset f, _ => shape_edset f
  | .edget f, _ => shape_edget f
  | .vadd f, _ => shape_vadd f
  | .vsub f, _ => shape_vsub f
  | .vmul f, _ => shape_vmul f
  | .vfma f, _ => shape_vfma f
  | .vmin f, _ => shape_vmin f
  | .vmax f, _ => shape_vmax f
  | .vabs f, _ => shape_vabs f
  | .vneg f, _ => shape_vneg f
  | .vdiv f, _ => shape_vdiv f
  | .vrcp f, _ => shape_vrcp f
  | .vsqrt f, _ => shape_vsqrt f
  | .vrsq f, _ => shape_vrsq f
  | .vexp2 f, _ => shape_vexp2 f
  | .vlog2 f, _ => shape_vlog2 f
  | .vand f, _ => shape_vand f
  | .vor f, _ => shape_vor f
  | .vxor f, _ => shape_vxor f
  | .vnot f, _ => shape_vnot f
  | .vshl f, _ => shape_vshl f
  | .vshr f, _ => shape_vshr f
  | .vsar f, _ => shape_vsar f
  | .vclz f, _ => shape_vclz f
  | .vpopc f, _ => shape_vpopc f
  | .vmov f, _ => shape_vmov f
  | .vcvt f, _ => shape_vcvt f
  | .vsel f, _ => shape_vsel f
  | .vceq f, _ => shape_vceq f
  | .vcne f, _ => shape_vcne f
  | .vclt f, _ => shape_vclt f
  | .vcle f, _ => shape_vcle f
  | .vadds f, _ => shape_vadds f
  | .vmuls f, _ => shape_vmuls f
  | .vfmas f, _ => shape_vfmas f
  | .vmins f, _ => shape_vmins f
  | .vmaxs f, _ => shape_vmaxs f
  | .vbcast f, _ => shape_vbcast f
  | .viota f, _ => shape_viota f
  | .vperm f, _ => shape_vperm f
  | .vrot f, _ => shape_vrot f
  | .vxch f, _ => shape_vxch f
  | .vredc f, _ => shape_vredc f
  | .vscanc f, _ => shape_vscanc f
  | .vdotc f, _ => shape_vdotc f
  | .vlut f, _ => shape_vlut f
  | .ppset f, _ => shape_ppset f
  | .ppand f, _ => shape_ppand f
  | .ppor f, _ => shape_ppor f
  | .ppnot f, _ => shape_ppnot f
  | .ppcnt f, _ => shape_ppcnt f
  | .ppany f, _ => shape_ppany f
  | .ppall f, _ => shape_ppall f
  | .feset f, _ => shape_feset f
  | .feclr f, _ => shape_feclr f
  | .scroll f, _ => shape_scroll f
  | .scrollx f, _ => shape_scrollx f
  | .plcopy f, _ => shape_plcopy f
  | .plfill f, _ => shape_plfill f
  | .nredr f, _ => shape_nredr f
  | .nredc f, _ => shape_nredc f
  | .nredx f, _ => shape_nredx f
  | .nbcr f, _ => shape_nbcr f
  | .nbcc f, _ => shape_nbcc f
  | .dred f, _ => shape_dred f
  | .wld f, _ => shape_wld f
  | .wswap f, _ => shape_wswap f
  | .mstream f, _ => shape_mstream f
  | .accz f, _ => shape_accz f
  | .accrd f, _ => shape_accrd f
  | .accnrm f, _ => shape_accnrm f
  | .cpin f, _ => shape_cpin f
  | .cpout f, _ => shape_cpout f
  | .cpg f, _ => shape_cpg f
  | .cps f, _ => shape_cps f
  | .cpp f, _ => shape_cpp f
  | .cpm f, _ => shape_cpm f
  | .seal f, _ => shape_seal f
  | .waitb f, _ => shape_waitb f
  | .wptr f, _ => shape_wptr f
  | .cpstat f, _ => shape_cpstat f
  | .bkload f, _ => shape_bkload f
  | .bkact f, _ => shape_bkact f
  | .bkcall f, _ => shape_bkcall f
  | .bkwait f, _ => shape_bkwait f
  | .bkstat f, _ => shape_bkstat f
  | .owloop f, _ => shape_owloop f
  | .owwin f, _ => shape_owwin f
  | .owdecl f, _ => shape_owdecl f
  | .owchk f, _ => shape_owchk f
  | .owstat f, _ => shape_owstat f
  | .pwrhint f, _ => shape_pwrhint f
  | .chgrd f, _ => shape_chgrd f
  | .bli _, h => Bool.noConfusion h
  | .baddi _, h => Bool.noConfusion h
  | .badd _, h => Bool.noConfusion h
  | .bsub _, h => Bool.noConfusion h
  | .bmul _, h => Bool.noConfusion h
  | .bbz _, h => Bool.noConfusion h
  | .bbnz _, h => Bool.noConfusion h
  | .bloop _, h => Bool.noConfusion h
  | .bza _, h => Bool.noConfusion h
  | .bmac _, h => Bool.noConfusion h
  | .bfmt _, h => Bool.noConfusion h
  | .bscl _, h => Bool.noConfusion h
  | .brda _, h => Bool.noConfusion h
  | .bsend _, h => Bool.noConfusion h
  | .brd _, h => Bool.noConfusion h
  | .bwr _, h => Bool.noConfusion h
  | .bsig _, h => Bool.noConfusion h
  | .bwait _, h => Bool.noConfusion h
  | .bnop, h => Bool.noConfusion h
  | .bhalt, h => Bool.noConfusion h
  | .feTimeout, h => Bool.noConfusion h
  | .aggregatorRmw, h => Bool.noConfusion h
  | .scrollUnitStep, h => Bool.noConfusion h
  | .planeOpComplete, h => Bool.noConfusion h
  | .reductionRoot, h => Bool.noConfusion h
  | .dredCombine, h => Bool.noConfusion h
  | .dredTimeout, h => Bool.noConfusion h
  | .copyBurst, h => Bool.noConfusion h
  | .copySlackDecay, h => Bool.noConfusion h
  | .cpgSectorArrival, h => Bool.noConfusion h
  | .engineProgramWrite, h => Bool.noConfusion h
  | .engineActWrite, h => Bool.noConfusion h
  | .engineCallStart, h => Bool.noConfusion h
  | .callComplete, h => Bool.noConfusion h
  | .callFaultReport, h => Bool.noConfusion h
  | .bsendDelivery, h => Bool.noConfusion h
  | .bankTimeout, h => Bool.noConfusion h
  | .hintExpiry, h => Bool.noConfusion h
  | .loadComplete, h => Bool.noConfusion h
  | .storeLeavesQueue, h => Bool.noConfusion h
  | .pageWalk, h => Bool.noConfusion h
  | .loggedFaultTrap, h => Bool.noConfusion h
  | .lateTrap, h => Bool.noConfusion h
  | .packetArrival, h => Bool.noConfusion h
  | .itemTerminate, h => Bool.noConfusion h
  | .itemEnd, h => Bool.noConfusion h
  | .launchRingRead, h => Bool.noConfusion h
  | .ringReset, h => Bool.noConfusion h
  | .queueConfig, h => Bool.noConfusion h
  | .dispatchItem, h => Bool.noConfusion h
  | .priorityAging, h => Bool.noConfusion h
  | .parkCheck, h => Bool.noConfusion h
  | .replicaAccept, h => Bool.noConfusion h
  | .startTimeout, h => Bool.noConfusion h
  | .peerTimeout, h => Bool.noConfusion h
  | .partitionReset, h => Bool.noConfusion h
  | .preemptRequest, h => Bool.noConfusion h
  | .drainExpiry, h => Bool.noConfusion h
  | .saveItem, h => Bool.noConfusion h
  | .flushItem, h => Bool.noConfusion h
  | .tlbinvVa, h => Bool.noConfusion h
  | .tlbinvAll, h => Bool.noConfusion h
  | .ptbaseWrite, h => Bool.noConfusion h
  | .latecntWrite, h => Bool.noConfusion h
  | .opldrop, h => Bool.noConfusion h
  | .keySlotLoad, h => Bool.noConfusion h
  | .eccScrub, h => Bool.noConfusion h
  | .parityError, h => Bool.noConfusion h
  | .railctlWrite, h => Bool.noConfusion h
  | .clctlWrite, h => Bool.noConfusion h
  | .vfenergyWrite, h => Bool.noConfusion h
  | .dvfsRequest, h => Bool.noConfusion h
  | .railRampDone, h => Bool.noConfusion h
  | .clockHop, h => Bool.noConfusion h
  | .droopDetect, h => Bool.noConfusion h
  | .droopEnd, h => Bool.noConfusion h
  | .chargeCycle, h => Bool.noConfusion h
  | .clusterSample, h => Bool.noConfusion h
  | .thermalThreshold, h => Bool.noConfusion h
  | .ptpAdjust, h => Bool.noConfusion h
  | .timeResync, h => Bool.noConfusion h
  | .pcSample, h => Bool.noConfusion h
  | .watermarkStep, h => Bool.noConfusion h
  | .haltSlot, h => Bool.noConfusion h
  | .resumeSlot, h => Bool.noConfusion h
  | .stepSlot, h => Bool.noConfusion h
  | .dbgRead, h => Bool.noConfusion h
  | .dbgWrite, h => Bool.noConfusion h
  | .dbgSample, h => Bool.noConfusion h
  | .droplog, h => Bool.noConfusion h
  | .registerWrite, h => Bool.noConfusion h
  | .linkRetrain, h => Bool.noConfusion h
  | .coldStart, h => Bool.noConfusion h
  | .warmStart, h => Bool.noConfusion h
  | .startWatchdog, h => Bool.noConfusion h
  | .imageUpdate, h => Bool.noConfusion h
  | .illegalEncoding, h => Bool.noConfusion h
  | .bankIllegal, h => Bool.noConfusion h
  | .peerAccess, h => Bool.noConfusion h
  | .hostAccess, h => Bool.noConfusion h
  | .rdmaTransfer, h => Bool.noConfusion h
  | .systemCoreAccess, h => Bool.noConfusion h
  | .replicatedPacket, h => Bool.noConfusion h
  | .hostAttach, h => Bool.noConfusion h
  | .ptpLockChange, h => Bool.noConfusion h
  | .inputPowerLoss, h => Bool.noConfusion h
  | .coolantFlowLow, h => Bool.noConfusion h
  | .flitCrcReplay, h => Bool.noConfusion h
  | .mergeCounterRead, h => Bool.noConfusion h
  | .faultRingSpace, h => Bool.noConfusion h
  | .clusterRecalibration, h => Bool.noConfusion h
  | .linkRetirement, h => Bool.noConfusion h
  | .enginePartitionAssign, h => Bool.noConfusion h

end Sys2Proof.Machine
end

