-- ==== Sys2Proof/Laws/State.lean ====
section
/-!
SUPPORT. What an update of one part of the state leaves as it was, field by field, and what it sets.
-/
namespace Sys2Proof.Machine

/-! ### `withThr` -/

@[simp] theorem withThr_turns (s : State) (t : Thread) : (s.withThr t).turns = s.turns := rfl
@[simp] theorem withThr_input (s : State) (t : Thread) : (s.withThr t).input = s.input := rfl
@[simp] theorem withThr_stepNo (s : State) (t : Thread) : (s.withThr t).stepNo = s.stepNo := rfl
@[simp] theorem withThr_uid (s : State) (t : Thread) : (s.withThr t).uid = s.uid := rfl
@[simp] theorem withThr_opNo (s : State) (t : Thread) : (s.withThr t).opNo = s.opNo := rfl
@[simp] theorem withThr_cur (s : State) (t : Thread) : (s.withThr t).cur = s.cur := rfl
@[simp] theorem withThr_slots (s : State) (t : Thread) : (s.withThr t).slots = s.slots := rfl
@[simp] theorem withThr_curE (s : State) (t : Thread) : (s.withThr t).curE = s.curE := rfl
@[simp] theorem withThr_eng (s : State) (t : Thread) : (s.withThr t).eng = s.eng := rfl
@[simp] theorem withThr_engines (s : State) (t : Thread) : (s.withThr t).engines = s.engines := rfl
@[simp] theorem withThr_mem (s : State) (t : Thread) : (s.withThr t).mem = s.mem := rfl
@[simp] theorem withThr_memKey (s : State) (t : Thread) : (s.withThr t).memKey = s.memKey := rfl
@[simp] theorem withThr_baseKey (s : State) (t : Thread) : (s.withThr t).baseKey = s.baseKey := rfl
@[simp] theorem withThr_poison (s : State) (t : Thread) : (s.withThr t).poison = s.poison := rfl
@[simp] theorem withThr_extMem (s : State) (t : Thread) : (s.withThr t).extMem = s.extMem := rfl
@[simp] theorem withThr_extKey (s : State) (t : Thread) : (s.withThr t).extKey = s.extKey := rfl
@[simp] theorem withThr_keySlots (s : State) (t : Thread) : (s.withThr t).keySlots = s.keySlots := rfl
@[simp] theorem withThr_draws (s : State) (t : Thread) : (s.withThr t).draws = s.draws := rfl
@[simp] theorem withThr_eccCorr (s : State) (t : Thread) : (s.withThr t).eccCorr = s.eccCorr := rfl
@[simp] theorem withThr_l2tlb (s : State) (t : Thread) : (s.withThr t).l2tlb = s.l2tlb := rfl
@[simp] theorem withThr_walkCache (s : State) (t : Thread) : (s.withThr t).walkCache = s.walkCache := rfl
@[simp] theorem withThr_rows (s : State) (t : Thread) : (s.withThr t).rows = s.rows := rfl
@[simp] theorem withThr_units (s : State) (t : Thread) : (s.withThr t).units = s.units := rfl
@[simp] theorem withThr_voids (s : State) (t : Thread) : (s.withThr t).voids = s.voids := rfl
@[simp] theorem withThr_clusters (s : State) (t : Thread) : (s.withThr t).clusters = s.clusters := rfl
@[simp] theorem withThr_feq (s : State) (t : Thread) : (s.withThr t).feq = s.feq := rfl
@[simp] theorem withThr_cmdq (s : State) (t : Thread) : (s.withThr t).cmdq = s.cmdq := rfl
@[simp] theorem withThr_calls (s : State) (t : Thread) : (s.withThr t).calls = s.calls := rfl
@[simp] theorem withThr_sends (s : State) (t : Thread) : (s.withThr t).sends = s.sends := rfl
@[simp] theorem withThr_netCycles (s : State) (t : Thread) : (s.withThr t).netCycles = s.netCycles := rfl
@[simp] theorem withThr_netPart (s : State) (t : Thread) : (s.withThr t).netPart = s.netPart := rfl
@[simp] theorem withThr_flights (s : State) (t : Thread) : (s.withThr t).flights = s.flights := rfl
@[simp] theorem withThr_flightNo (s : State) (t : Thread) : (s.withThr t).flightNo = s.flightNo := rfl
@[simp] theorem withThr_portPart (s : State) (t : Thread) : (s.withThr t).portPart = s.portPart := rfl
@[simp] theorem withThr_qps (s : State) (t : Thread) : (s.withThr t).qps = s.qps := rfl
@[simp] theorem withThr_isolation (s : State) (t : Thread) : (s.withThr t).isolation = s.isolation := rfl
@[simp] theorem withThr_links (s : State) (t : Thread) : (s.withThr t).links = s.links := rfl
@[simp] theorem withThr_portsRetired (s : State) (t : Thread) : (s.withThr t).portsRetired = s.portsRetired := rfl
@[simp] theorem withThr_deviceId (s : State) (t : Thread) : (s.withThr t).deviceId = s.deviceId := rfl
@[simp] theorem withThr_domain (s : State) (t : Thread) : (s.withThr t).domain = s.domain := rfl
@[simp] theorem withThr_parts (s : State) (t : Thread) : (s.withThr t).parts = s.parts := rfl
@[simp] theorem withThr_rings (s : State) (t : Thread) : (s.withThr t).rings = s.rings := rfl
@[simp] theorem withThr_queues (s : State) (t : Thread) : (s.withThr t).queues = s.queues := rfl
@[simp] theorem withThr_launches (s : State) (t : Thread) : (s.withThr t).launches = s.launches := rfl
@[simp] theorem withThr_launchId (s : State) (t : Thread) : (s.withThr t).launchId = s.launchId := rfl
@[simp] theorem withThr_seq (s : State) (t : Thread) : (s.withThr t).seq = s.seq := rfl
@[simp] theorem withThr_parked (s : State) (t : Thread) : (s.withThr t).parked = s.parked := rfl
@[simp] theorem withThr_saved (s : State) (t : Thread) : (s.withThr t).saved = s.saved := rfl
@[simp] theorem withThr_groups (s : State) (t : Thread) : (s.withThr t).groups = s.groups := rfl
@[simp] theorem withThr_gLast (s : State) (t : Thread) : (s.withThr t).gLast = s.gLast := rfl
@[simp] theorem withThr_early (s : State) (t : Thread) : (s.withThr t).early = s.early := rfl
@[simp] theorem withThr_msix (s : State) (t : Thread) : (s.withThr t).msix = s.msix := rfl
@[simp] theorem withThr_reports (s : State) (t : Thread) : (s.withThr t).reports = s.reports := rfl
@[simp] theorem withThr_power (s : State) (t : Thread) : (s.withThr t).power = s.power := rfl
@[simp] theorem withThr_time (s : State) (t : Thread) : (s.withThr t).time = s.time := rfl
@[simp] theorem withThr_dieTime (s : State) (t : Thread) : (s.withThr t).dieTime = s.dieTime := rfl
@[simp] theorem withThr_timeOffset (s : State) (t : Thread) : (s.withThr t).timeOffset = s.timeOffset := rfl
@[simp] theorem withThr_halfRate (s : State) (t : Thread) : (s.withThr t).halfRate = s.halfRate := rfl
@[simp] theorem withThr_slewPart (s : State) (t : Thread) : (s.withThr t).slewPart = s.slewPart := rfl
@[simp] theorem withThr_lockState (s : State) (t : Thread) : (s.withThr t).lockState = s.lockState := rfl
@[simp] theorem withThr_ptpPort (s : State) (t : Thread) : (s.withThr t).ptpPort = s.ptpPort := rfl
@[simp] theorem withThr_traces (s : State) (t : Thread) : (s.withThr t).traces = s.traces := rfl
@[simp] theorem withThr_events (s : State) (t : Thread) : (s.withThr t).events = s.events := rfl
@[simp] theorem withThr_evts (s : State) (t : Thread) : (s.withThr t).evts = s.evts := rfl
@[simp] theorem withThr_waitns (s : State) (t : Thread) : (s.withThr t).waitns = s.waitns := rfl
@[simp] theorem withThr_waitMark (s : State) (t : Thread) : (s.withThr t).waitMark = s.waitMark := rfl
@[simp] theorem withThr_dbg (s : State) (t : Thread) : (s.withThr t).dbg = s.dbg := rfl
@[simp] theorem withThr_boot (s : State) (t : Thread) : (s.withThr t).boot = s.boot := rfl
@[simp] theorem withThr_thr (s : State) (t : Thread) : (s.withThr t).thr = t := rfl
@[simp] theorem withThr_withThr (s : State) (t u : Thread) : (s.withThr t).withThr u = s.withThr u := rfl
@[simp] theorem withThr_self (s : State) : s.withThr s.thr = s := rfl

/-! ### `withRoot` -/

@[simp] theorem withRoot_turns (s : State) (r : BitVec 44) : (s.withRoot r).turns = s.turns := rfl
@[simp] theorem withRoot_input (s : State) (r : BitVec 44) : (s.withRoot r).input = s.input := rfl
@[simp] theorem withRoot_stepNo (s : State) (r : BitVec 44) : (s.withRoot r).stepNo = s.stepNo := rfl
@[simp] theorem withRoot_uid (s : State) (r : BitVec 44) : (s.withRoot r).uid = s.uid := rfl
@[simp] theorem withRoot_opNo (s : State) (r : BitVec 44) : (s.withRoot r).opNo = s.opNo := rfl
@[simp] theorem withRoot_cur (s : State) (r : BitVec 44) : (s.withRoot r).cur = s.cur := rfl
@[simp] theorem withRoot_slots (s : State) (r : BitVec 44) : (s.withRoot r).slots = s.slots := rfl
@[simp] theorem withRoot_curE (s : State) (r : BitVec 44) : (s.withRoot r).curE = s.curE := rfl
@[simp] theorem withRoot_eng (s : State) (r : BitVec 44) : (s.withRoot r).eng = s.eng := rfl
@[simp] theorem withRoot_engines (s : State) (r : BitVec 44) : (s.withRoot r).engines = s.engines := rfl
@[simp] theorem withRoot_mem (s : State) (r : BitVec 44) : (s.withRoot r).mem = s.mem := rfl
@[simp] theorem withRoot_memKey (s : State) (r : BitVec 44) : (s.withRoot r).memKey = s.memKey := rfl
@[simp] theorem withRoot_baseKey (s : State) (r : BitVec 44) : (s.withRoot r).baseKey = s.baseKey := rfl
@[simp] theorem withRoot_poison (s : State) (r : BitVec 44) : (s.withRoot r).poison = s.poison := rfl
@[simp] theorem withRoot_extMem (s : State) (r : BitVec 44) : (s.withRoot r).extMem = s.extMem := rfl
@[simp] theorem withRoot_extKey (s : State) (r : BitVec 44) : (s.withRoot r).extKey = s.extKey := rfl
@[simp] theorem withRoot_keySlots (s : State) (r : BitVec 44) : (s.withRoot r).keySlots = s.keySlots := rfl
@[simp] theorem withRoot_draws (s : State) (r : BitVec 44) : (s.withRoot r).draws = s.draws := rfl
@[simp] theorem withRoot_eccCorr (s : State) (r : BitVec 44) : (s.withRoot r).eccCorr = s.eccCorr := rfl
@[simp] theorem withRoot_l2tlb (s : State) (r : BitVec 44) : (s.withRoot r).l2tlb = s.l2tlb := rfl
@[simp] theorem withRoot_walkCache (s : State) (r : BitVec 44) : (s.withRoot r).walkCache = s.walkCache := rfl
@[simp] theorem withRoot_rows (s : State) (r : BitVec 44) : (s.withRoot r).rows = s.rows := rfl
@[simp] theorem withRoot_units (s : State) (r : BitVec 44) : (s.withRoot r).units = s.units := rfl
@[simp] theorem withRoot_voids (s : State) (r : BitVec 44) : (s.withRoot r).voids = s.voids := rfl
@[simp] theorem withRoot_clusters (s : State) (r : BitVec 44) : (s.withRoot r).clusters = s.clusters := rfl
@[simp] theorem withRoot_feq (s : State) (r : BitVec 44) : (s.withRoot r).feq = s.feq := rfl
@[simp] theorem withRoot_cmdq (s : State) (r : BitVec 44) : (s.withRoot r).cmdq = s.cmdq := rfl
@[simp] theorem withRoot_calls (s : State) (r : BitVec 44) : (s.withRoot r).calls = s.calls := rfl
@[simp] theorem withRoot_sends (s : State) (r : BitVec 44) : (s.withRoot r).sends = s.sends := rfl
@[simp] theorem withRoot_netCycles (s : State) (r : BitVec 44) : (s.withRoot r).netCycles = s.netCycles := rfl
@[simp] theorem withRoot_netPart (s : State) (r : BitVec 44) : (s.withRoot r).netPart = s.netPart := rfl
@[simp] theorem withRoot_flights (s : State) (r : BitVec 44) : (s.withRoot r).flights = s.flights := rfl
@[simp] theorem withRoot_flightNo (s : State) (r : BitVec 44) : (s.withRoot r).flightNo = s.flightNo := rfl
@[simp] theorem withRoot_portPart (s : State) (r : BitVec 44) : (s.withRoot r).portPart = s.portPart := rfl
@[simp] theorem withRoot_qps (s : State) (r : BitVec 44) : (s.withRoot r).qps = s.qps := rfl
@[simp] theorem withRoot_isolation (s : State) (r : BitVec 44) : (s.withRoot r).isolation = s.isolation := rfl
@[simp] theorem withRoot_links (s : State) (r : BitVec 44) : (s.withRoot r).links = s.links := rfl
@[simp] theorem withRoot_portsRetired (s : State) (r : BitVec 44) : (s.withRoot r).portsRetired = s.portsRetired := rfl
@[simp] theorem withRoot_deviceId (s : State) (r : BitVec 44) : (s.withRoot r).deviceId = s.deviceId := rfl
@[simp] theorem withRoot_domain (s : State) (r : BitVec 44) : (s.withRoot r).domain = s.domain := rfl
@[simp] theorem withRoot_parts (s : State) (r : BitVec 44) : (s.withRoot r).parts = s.parts := rfl
@[simp] theorem withRoot_rings (s : State) (r : BitVec 44) : (s.withRoot r).rings = s.rings := rfl
@[simp] theorem withRoot_queues (s : State) (r : BitVec 44) : (s.withRoot r).queues = s.queues := rfl
@[simp] theorem withRoot_launches (s : State) (r : BitVec 44) : (s.withRoot r).launches = s.launches := rfl
@[simp] theorem withRoot_launchId (s : State) (r : BitVec 44) : (s.withRoot r).launchId = s.launchId := rfl
@[simp] theorem withRoot_seq (s : State) (r : BitVec 44) : (s.withRoot r).seq = s.seq := rfl
@[simp] theorem withRoot_parked (s : State) (r : BitVec 44) : (s.withRoot r).parked = s.parked := rfl
@[simp] theorem withRoot_saved (s : State) (r : BitVec 44) : (s.withRoot r).saved = s.saved := rfl
@[simp] theorem withRoot_groups (s : State) (r : BitVec 44) : (s.withRoot r).groups = s.groups := rfl
@[simp] theorem withRoot_gLast (s : State) (r : BitVec 44) : (s.withRoot r).gLast = s.gLast := rfl
@[simp] theorem withRoot_early (s : State) (r : BitVec 44) : (s.withRoot r).early = s.early := rfl
@[simp] theorem withRoot_msix (s : State) (r : BitVec 44) : (s.withRoot r).msix = s.msix := rfl
@[simp] theorem withRoot_reports (s : State) (r : BitVec 44) : (s.withRoot r).reports = s.reports := rfl
@[simp] theorem withRoot_power (s : State) (r : BitVec 44) : (s.withRoot r).power = s.power := rfl
@[simp] theorem withRoot_time (s : State) (r : BitVec 44) : (s.withRoot r).time = s.time := rfl
@[simp] theorem withRoot_dieTime (s : State) (r : BitVec 44) : (s.withRoot r).dieTime = s.dieTime := rfl
@[simp] theorem withRoot_timeOffset (s : State) (r : BitVec 44) : (s.withRoot r).timeOffset = s.timeOffset := rfl
@[simp] theorem withRoot_halfRate (s : State) (r : BitVec 44) : (s.withRoot r).halfRate = s.halfRate := rfl
@[simp] theorem withRoot_slewPart (s : State) (r : BitVec 44) : (s.withRoot r).slewPart = s.slewPart := rfl
@[simp] theorem withRoot_lockState (s : State) (r : BitVec 44) : (s.withRoot r).lockState = s.lockState := rfl
@[simp] theorem withRoot_ptpPort (s : State) (r : BitVec 44) : (s.withRoot r).ptpPort = s.ptpPort := rfl
@[simp] theorem withRoot_traces (s : State) (r : BitVec 44) : (s.withRoot r).traces = s.traces := rfl
@[simp] theorem withRoot_events (s : State) (r : BitVec 44) : (s.withRoot r).events = s.events := rfl
@[simp] theorem withRoot_evts (s : State) (r : BitVec 44) : (s.withRoot r).evts = s.evts := rfl
@[simp] theorem withRoot_waitns (s : State) (r : BitVec 44) : (s.withRoot r).waitns = s.waitns := rfl
@[simp] theorem withRoot_waitMark (s : State) (r : BitVec 44) : (s.withRoot r).waitMark = s.waitMark := rfl
@[simp] theorem withRoot_dbg (s : State) (r : BitVec 44) : (s.withRoot r).dbg = s.dbg := rfl
@[simp] theorem withRoot_boot (s : State) (r : BitVec 44) : (s.withRoot r).boot = s.boot := rfl
@[simp] theorem withRoot_self (s : State) : s.withRoot s.thr.root = s := rfl
@[simp] theorem withRoot_withRoot (s : State) (r q : BitVec 44) : (s.withRoot r).withRoot q = s.withRoot q := rfl
@[simp] theorem withRoot_root (s : State) (r : BitVec 44) : (s.withRoot r).thr.root = r := rfl

/-! ### `setRow` -/

@[simp] theorem setRow_turns (s : State) (c r : Nat) (v : Row) : (s.setRow c r v).turns = s.turns := rfl
@[simp] theorem setRow_input (s : State) (c r : Nat) (v : Row) : (s.setRow c r v).input = s.input := rfl
@[simp] theorem setRow_stepNo (s : State) (c r : Nat) (v : Row) : (s.setRow c r v).stepNo = s.stepNo := rfl
@[simp] theorem setRow_uid (s : State) (c r : Nat) (v : Row) : (s.setRow c r v).uid = s.uid := rfl
@[simp] theorem setRow_opNo (s : State) (c r : Nat) (v : Row) : (s.setRow c r v).opNo = s.opNo := rfl
@[simp] theorem setRow_cur (s : State) (c r : Nat) (v : Row) : (s.setRow c r v).cur = s.cur := rfl
@[simp] theorem setRow_thr (s : State) (c r : Nat) (v : Row) : (s.setRow c r v).thr = s.thr := rfl
@[simp] theorem setRow_slots (s : State) (c r : Nat) (v : Row) : (s.setRow c r v).slots = s.slots := rfl
@[simp] theorem setRow_curE (s : State) (c r : Nat) (v : Row) : (s.setRow c r v).curE = s.curE := rfl
@[simp] theorem setRow_eng (s : State) (c r : Nat) (v : Row) : (s.setRow c r v).eng = s.eng := rfl
@[simp] theorem setRow_engines (s : State) (c r : Nat) (v : Row) : (s.setRow c r v).engines = s.engines := rfl
@[simp] theorem setRow_mem (s : State) (c r : Nat) (v : Row) : (s.setRow c r v).mem = s.mem := rfl
@[simp] theorem setRow_memKey (s : State) (c r : Nat) (v : Row) : (s.setRow c r v).memKey = s.memKey := rfl
@[simp] theorem setRow_baseKey (s : State) (c r : Nat) (v : Row) : (s.setRow c r v).baseKey = s.baseKey := rfl
@[simp] theorem setRow_poison (s : State) (c r : Nat) (v : Row) : (s.setRow c r v).poison = s.poison := rfl
@[simp] theorem setRow_extMem (s : State) (c r : Nat) (v : Row) : (s.setRow c r v).extMem = s.extMem := rfl
@[simp] theorem setRow_extKey (s : State) (c r : Nat) (v : Row) : (s.setRow c r v).extKey = s.extKey := rfl
@[simp] theorem setRow_keySlots (s : State) (c r : Nat) (v : Row) : (s.setRow c r v).keySlots = s.keySlots := rfl
@[simp] theorem setRow_draws (s : State) (c r : Nat) (v : Row) : (s.setRow c r v).draws = s.draws := rfl
@[simp] theorem setRow_eccCorr (s : State) (c r : Nat) (v : Row) : (s.setRow c r v).eccCorr = s.eccCorr := rfl
@[simp] theorem setRow_l2tlb (s : State) (c r : Nat) (v : Row) : (s.setRow c r v).l2tlb = s.l2tlb := rfl
@[simp] theorem setRow_walkCache (s : State) (c r : Nat) (v : Row) : (s.setRow c r v).walkCache = s.walkCache := rfl
@[simp] theorem setRow_units (s : State) (c r : Nat) (v : Row) : (s.setRow c r v).units = s.units := rfl
@[simp] theorem setRow_voids (s : State) (c r : Nat) (v : Row) : (s.setRow c r v).voids = s.voids := rfl
@[simp] theorem setRow_clusters (s : State) (c r : Nat) (v : Row) : (s.setRow c r v).clusters = s.clusters := rfl
@[simp] theorem setRow_feq (s : State) (c r : Nat) (v : Row) : (s.setRow c r v).feq = s.feq := rfl
@[simp] theorem setRow_cmdq (s : State) (c r : Nat) (v : Row) : (s.setRow c r v).cmdq = s.cmdq := rfl
@[simp] theorem setRow_calls (s : State) (c r : Nat) (v : Row) : (s.setRow c r v).calls = s.calls := rfl
@[simp] theorem setRow_sends (s : State) (c r : Nat) (v : Row) : (s.setRow c r v).sends = s.sends := rfl
@[simp] theorem setRow_netCycles (s : State) (c r : Nat) (v : Row) : (s.setRow c r v).netCycles = s.netCycles := rfl
@[simp] theorem setRow_netPart (s : State) (c r : Nat) (v : Row) : (s.setRow c r v).netPart = s.netPart := rfl
@[simp] theorem setRow_flights (s : State) (c r : Nat) (v : Row) : (s.setRow c r v).flights = s.flights := rfl
@[simp] theorem setRow_flightNo (s : State) (c r : Nat) (v : Row) : (s.setRow c r v).flightNo = s.flightNo := rfl
@[simp] theorem setRow_portPart (s : State) (c r : Nat) (v : Row) : (s.setRow c r v).portPart = s.portPart := rfl
@[simp] theorem setRow_qps (s : State) (c r : Nat) (v : Row) : (s.setRow c r v).qps = s.qps := rfl
@[simp] theorem setRow_isolation (s : State) (c r : Nat) (v : Row) : (s.setRow c r v).isolation = s.isolation := rfl
@[simp] theorem setRow_links (s : State) (c r : Nat) (v : Row) : (s.setRow c r v).links = s.links := rfl
@[simp] theorem setRow_portsRetired (s : State) (c r : Nat) (v : Row) : (s.setRow c r v).portsRetired = s.portsRetired := rfl
@[simp] theorem setRow_deviceId (s : State) (c r : Nat) (v : Row) : (s.setRow c r v).deviceId = s.deviceId := rfl
@[simp] theorem setRow_domain (s : State) (c r : Nat) (v : Row) : (s.setRow c r v).domain = s.domain := rfl
@[simp] theorem setRow_parts (s : State) (c r : Nat) (v : Row) : (s.setRow c r v).parts = s.parts := rfl
@[simp] theorem setRow_rings (s : State) (c r : Nat) (v : Row) : (s.setRow c r v).rings = s.rings := rfl
@[simp] theorem setRow_queues (s : State) (c r : Nat) (v : Row) : (s.setRow c r v).queues = s.queues := rfl
@[simp] theorem setRow_launches (s : State) (c r : Nat) (v : Row) : (s.setRow c r v).launches = s.launches := rfl
@[simp] theorem setRow_launchId (s : State) (c r : Nat) (v : Row) : (s.setRow c r v).launchId = s.launchId := rfl
@[simp] theorem setRow_seq (s : State) (c r : Nat) (v : Row) : (s.setRow c r v).seq = s.seq := rfl
@[simp] theorem setRow_parked (s : State) (c r : Nat) (v : Row) : (s.setRow c r v).parked = s.parked := rfl
@[simp] theorem setRow_saved (s : State) (c r : Nat) (v : Row) : (s.setRow c r v).saved = s.saved := rfl
@[simp] theorem setRow_groups (s : State) (c r : Nat) (v : Row) : (s.setRow c r v).groups = s.groups := rfl
@[simp] theorem setRow_gLast (s : State) (c r : Nat) (v : Row) : (s.setRow c r v).gLast = s.gLast := rfl
@[simp] theorem setRow_early (s : State) (c r : Nat) (v : Row) : (s.setRow c r v).early = s.early := rfl
@[simp] theorem setRow_msix (s : State) (c r : Nat) (v : Row) : (s.setRow c r v).msix = s.msix := rfl
@[simp] theorem setRow_reports (s : State) (c r : Nat) (v : Row) : (s.setRow c r v).reports = s.reports := rfl
@[simp] theorem setRow_power (s : State) (c r : Nat) (v : Row) : (s.setRow c r v).power = s.power := rfl
@[simp] theorem setRow_time (s : State) (c r : Nat) (v : Row) : (s.setRow c r v).time = s.time := rfl
@[simp] theorem setRow_dieTime (s : State) (c r : Nat) (v : Row) : (s.setRow c r v).dieTime = s.dieTime := rfl
@[simp] theorem setRow_timeOffset (s : State) (c r : Nat) (v : Row) : (s.setRow c r v).timeOffset = s.timeOffset := rfl
@[simp] theorem setRow_halfRate (s : State) (c r : Nat) (v : Row) : (s.setRow c r v).halfRate = s.halfRate := rfl
@[simp] theorem setRow_slewPart (s : State) (c r : Nat) (v : Row) : (s.setRow c r v).slewPart = s.slewPart := rfl
@[simp] theorem setRow_lockState (s : State) (c r : Nat) (v : Row) : (s.setRow c r v).lockState = s.lockState := rfl
@[simp] theorem setRow_ptpPort (s : State) (c r : Nat) (v : Row) : (s.setRow c r v).ptpPort = s.ptpPort := rfl
@[simp] theorem setRow_traces (s : State) (c r : Nat) (v : Row) : (s.setRow c r v).traces = s.traces := rfl
@[simp] theorem setRow_events (s : State) (c r : Nat) (v : Row) : (s.setRow c r v).events = s.events := rfl
@[simp] theorem setRow_evts (s : State) (c r : Nat) (v : Row) : (s.setRow c r v).evts = s.evts := rfl
@[simp] theorem setRow_waitns (s : State) (c r : Nat) (v : Row) : (s.setRow c r v).waitns = s.waitns := rfl
@[simp] theorem setRow_waitMark (s : State) (c r : Nat) (v : Row) : (s.setRow c r v).waitMark = s.waitMark := rfl
@[simp] theorem setRow_dbg (s : State) (c r : Nat) (v : Row) : (s.setRow c r v).dbg = s.dbg := rfl
@[simp] theorem setRow_boot (s : State) (c r : Nat) (v : Row) : (s.setRow c r v).boot = s.boot := rfl

/-! ### `setUnit` -/

@[simp] theorem setUnit_turns (s : State) (c : Nat) (v : MUnit) : (s.setUnit c v).turns = s.turns := rfl
@[simp] theorem setUnit_input (s : State) (c : Nat) (v : MUnit) : (s.setUnit c v).input = s.input := rfl
@[simp] theorem setUnit_stepNo (s : State) (c : Nat) (v : MUnit) : (s.setUnit c v).stepNo = s.stepNo := rfl
@[simp] theorem setUnit_uid (s : State) (c : Nat) (v : MUnit) : (s.setUnit c v).uid = s.uid := rfl
@[simp] theorem setUnit_opNo (s : State) (c : Nat) (v : MUnit) : (s.setUnit c v).opNo = s.opNo := rfl
@[simp] theorem setUnit_cur (s : State) (c : Nat) (v : MUnit) : (s.setUnit c v).cur = s.cur := rfl
@[simp] theorem setUnit_thr (s : State) (c : Nat) (v : MUnit) : (s.setUnit c v).thr = s.thr := rfl
@[simp] theorem setUnit_slots (s : State) (c : Nat) (v : MUnit) : (s.setUnit c v).slots = s.slots := rfl
@[simp] theorem setUnit_curE (s : State) (c : Nat) (v : MUnit) : (s.setUnit c v).curE = s.curE := rfl
@[simp] theorem setUnit_eng (s : State) (c : Nat) (v : MUnit) : (s.setUnit c v).eng = s.eng := rfl
@[simp] theorem setUnit_engines (s : State) (c : Nat) (v : MUnit) : (s.setUnit c v).engines = s.engines := rfl
@[simp] theorem setUnit_mem (s : State) (c : Nat) (v : MUnit) : (s.setUnit c v).mem = s.mem := rfl
@[simp] theorem setUnit_memKey (s : State) (c : Nat) (v : MUnit) : (s.setUnit c v).memKey = s.memKey := rfl
@[simp] theorem setUnit_baseKey (s : State) (c : Nat) (v : MUnit) : (s.setUnit c v).baseKey = s.baseKey := rfl
@[simp] theorem setUnit_poison (s : State) (c : Nat) (v : MUnit) : (s.setUnit c v).poison = s.poison := rfl
@[simp] theorem setUnit_extMem (s : State) (c : Nat) (v : MUnit) : (s.setUnit c v).extMem = s.extMem := rfl
@[simp] theorem setUnit_extKey (s : State) (c : Nat) (v : MUnit) : (s.setUnit c v).extKey = s.extKey := rfl
@[simp] theorem setUnit_keySlots (s : State) (c : Nat) (v : MUnit) : (s.setUnit c v).keySlots = s.keySlots := rfl
@[simp] theorem setUnit_draws (s : State) (c : Nat) (v : MUnit) : (s.setUnit c v).draws = s.draws := rfl
@[simp] theorem setUnit_eccCorr (s : State) (c : Nat) (v : MUnit) : (s.setUnit c v).eccCorr = s.eccCorr := rfl
@[simp] theorem setUnit_l2tlb (s : State) (c : Nat) (v : MUnit) : (s.setUnit c v).l2tlb = s.l2tlb := rfl
@[simp] theorem setUnit_walkCache (s : State) (c : Nat) (v : MUnit) : (s.setUnit c v).walkCache = s.walkCache := rfl
@[simp] theorem setUnit_rows (s : State) (c : Nat) (v : MUnit) : (s.setUnit c v).rows = s.rows := rfl
@[simp] theorem setUnit_voids (s : State) (c : Nat) (v : MUnit) : (s.setUnit c v).voids = s.voids := rfl
@[simp] theorem setUnit_clusters (s : State) (c : Nat) (v : MUnit) : (s.setUnit c v).clusters = s.clusters := rfl
@[simp] theorem setUnit_feq (s : State) (c : Nat) (v : MUnit) : (s.setUnit c v).feq = s.feq := rfl
@[simp] theorem setUnit_cmdq (s : State) (c : Nat) (v : MUnit) : (s.setUnit c v).cmdq = s.cmdq := rfl
@[simp] theorem setUnit_calls (s : State) (c : Nat) (v : MUnit) : (s.setUnit c v).calls = s.calls := rfl
@[simp] theorem setUnit_sends (s : State) (c : Nat) (v : MUnit) : (s.setUnit c v).sends = s.sends := rfl
@[simp] theorem setUnit_netCycles (s : State) (c : Nat) (v : MUnit) : (s.setUnit c v).netCycles = s.netCycles := rfl
@[simp] theorem setUnit_netPart (s : State) (c : Nat) (v : MUnit) : (s.setUnit c v).netPart = s.netPart := rfl
@[simp] theorem setUnit_flights (s : State) (c : Nat) (v : MUnit) : (s.setUnit c v).flights = s.flights := rfl
@[simp] theorem setUnit_flightNo (s : State) (c : Nat) (v : MUnit) : (s.setUnit c v).flightNo = s.flightNo := rfl
@[simp] theorem setUnit_portPart (s : State) (c : Nat) (v : MUnit) : (s.setUnit c v).portPart = s.portPart := rfl
@[simp] theorem setUnit_qps (s : State) (c : Nat) (v : MUnit) : (s.setUnit c v).qps = s.qps := rfl
@[simp] theorem setUnit_isolation (s : State) (c : Nat) (v : MUnit) : (s.setUnit c v).isolation = s.isolation := rfl
@[simp] theorem setUnit_links (s : State) (c : Nat) (v : MUnit) : (s.setUnit c v).links = s.links := rfl
@[simp] theorem setUnit_portsRetired (s : State) (c : Nat) (v : MUnit) : (s.setUnit c v).portsRetired = s.portsRetired := rfl
@[simp] theorem setUnit_deviceId (s : State) (c : Nat) (v : MUnit) : (s.setUnit c v).deviceId = s.deviceId := rfl
@[simp] theorem setUnit_domain (s : State) (c : Nat) (v : MUnit) : (s.setUnit c v).domain = s.domain := rfl
@[simp] theorem setUnit_parts (s : State) (c : Nat) (v : MUnit) : (s.setUnit c v).parts = s.parts := rfl
@[simp] theorem setUnit_rings (s : State) (c : Nat) (v : MUnit) : (s.setUnit c v).rings = s.rings := rfl
@[simp] theorem setUnit_queues (s : State) (c : Nat) (v : MUnit) : (s.setUnit c v).queues = s.queues := rfl
@[simp] theorem setUnit_launches (s : State) (c : Nat) (v : MUnit) : (s.setUnit c v).launches = s.launches := rfl
@[simp] theorem setUnit_launchId (s : State) (c : Nat) (v : MUnit) : (s.setUnit c v).launchId = s.launchId := rfl
@[simp] theorem setUnit_seq (s : State) (c : Nat) (v : MUnit) : (s.setUnit c v).seq = s.seq := rfl
@[simp] theorem setUnit_parked (s : State) (c : Nat) (v : MUnit) : (s.setUnit c v).parked = s.parked := rfl
@[simp] theorem setUnit_saved (s : State) (c : Nat) (v : MUnit) : (s.setUnit c v).saved = s.saved := rfl
@[simp] theorem setUnit_groups (s : State) (c : Nat) (v : MUnit) : (s.setUnit c v).groups = s.groups := rfl
@[simp] theorem setUnit_gLast (s : State) (c : Nat) (v : MUnit) : (s.setUnit c v).gLast = s.gLast := rfl
@[simp] theorem setUnit_early (s : State) (c : Nat) (v : MUnit) : (s.setUnit c v).early = s.early := rfl
@[simp] theorem setUnit_msix (s : State) (c : Nat) (v : MUnit) : (s.setUnit c v).msix = s.msix := rfl
@[simp] theorem setUnit_reports (s : State) (c : Nat) (v : MUnit) : (s.setUnit c v).reports = s.reports := rfl
@[simp] theorem setUnit_power (s : State) (c : Nat) (v : MUnit) : (s.setUnit c v).power = s.power := rfl
@[simp] theorem setUnit_time (s : State) (c : Nat) (v : MUnit) : (s.setUnit c v).time = s.time := rfl
@[simp] theorem setUnit_dieTime (s : State) (c : Nat) (v : MUnit) : (s.setUnit c v).dieTime = s.dieTime := rfl
@[simp] theorem setUnit_timeOffset (s : State) (c : Nat) (v : MUnit) : (s.setUnit c v).timeOffset = s.timeOffset := rfl
@[simp] theorem setUnit_halfRate (s : State) (c : Nat) (v : MUnit) : (s.setUnit c v).halfRate = s.halfRate := rfl
@[simp] theorem setUnit_slewPart (s : State) (c : Nat) (v : MUnit) : (s.setUnit c v).slewPart = s.slewPart := rfl
@[simp] theorem setUnit_lockState (s : State) (c : Nat) (v : MUnit) : (s.setUnit c v).lockState = s.lockState := rfl
@[simp] theorem setUnit_ptpPort (s : State) (c : Nat) (v : MUnit) : (s.setUnit c v).ptpPort = s.ptpPort := rfl
@[simp] theorem setUnit_traces (s : State) (c : Nat) (v : MUnit) : (s.setUnit c v).traces = s.traces := rfl
@[simp] theorem setUnit_events (s : State) (c : Nat) (v : MUnit) : (s.setUnit c v).events = s.events := rfl
@[simp] theorem setUnit_evts (s : State) (c : Nat) (v : MUnit) : (s.setUnit c v).evts = s.evts := rfl
@[simp] theorem setUnit_waitns (s : State) (c : Nat) (v : MUnit) : (s.setUnit c v).waitns = s.waitns := rfl
@[simp] theorem setUnit_waitMark (s : State) (c : Nat) (v : MUnit) : (s.setUnit c v).waitMark = s.waitMark := rfl
@[simp] theorem setUnit_dbg (s : State) (c : Nat) (v : MUnit) : (s.setUnit c v).dbg = s.dbg := rfl
@[simp] theorem setUnit_boot (s : State) (c : Nat) (v : MUnit) : (s.setUnit c v).boot = s.boot := rfl

/-! ### `setCluster` -/

@[simp] theorem setCluster_turns (s : State) (c : Nat) (v : Cluster) : (s.setCluster c v).turns = s.turns := rfl
@[simp] theorem setCluster_input (s : State) (c : Nat) (v : Cluster) : (s.setCluster c v).input = s.input := rfl
@[simp] theorem setCluster_stepNo (s : State) (c : Nat) (v : Cluster) : (s.setCluster c v).stepNo = s.stepNo := rfl
@[simp] theorem setCluster_uid (s : State) (c : Nat) (v : Cluster) : (s.setCluster c v).uid = s.uid := rfl
@[simp] theorem setCluster_opNo (s : State) (c : Nat) (v : Cluster) : (s.setCluster c v).opNo = s.opNo := rfl
@[simp] theorem setCluster_cur (s : State) (c : Nat) (v : Cluster) : (s.setCluster c v).cur = s.cur := rfl
@[simp] theorem setCluster_thr (s : State) (c : Nat) (v : Cluster) : (s.setCluster c v).thr = s.thr := rfl
@[simp] theorem setCluster_slots (s : State) (c : Nat) (v : Cluster) : (s.setCluster c v).slots = s.slots := rfl
@[simp] theorem setCluster_curE (s : State) (c : Nat) (v : Cluster) : (s.setCluster c v).curE = s.curE := rfl
@[simp] theorem setCluster_eng (s : State) (c : Nat) (v : Cluster) : (s.setCluster c v).eng = s.eng := rfl
@[simp] theorem setCluster_engines (s : State) (c : Nat) (v : Cluster) : (s.setCluster c v).engines = s.engines := rfl
@[simp] theorem setCluster_mem (s : State) (c : Nat) (v : Cluster) : (s.setCluster c v).mem = s.mem := rfl
@[simp] theorem setCluster_memKey (s : State) (c : Nat) (v : Cluster) : (s.setCluster c v).memKey = s.memKey := rfl
@[simp] theorem setCluster_baseKey (s : State) (c : Nat) (v : Cluster) : (s.setCluster c v).baseKey = s.baseKey := rfl
@[simp] theorem setCluster_poison (s : State) (c : Nat) (v : Cluster) : (s.setCluster c v).poison = s.poison := rfl
@[simp] theorem setCluster_extMem (s : State) (c : Nat) (v : Cluster) : (s.setCluster c v).extMem = s.extMem := rfl
@[simp] theorem setCluster_extKey (s : State) (c : Nat) (v : Cluster) : (s.setCluster c v).extKey = s.extKey := rfl
@[simp] theorem setCluster_keySlots (s : State) (c : Nat) (v : Cluster) : (s.setCluster c v).keySlots = s.keySlots := rfl
@[simp] theorem setCluster_draws (s : State) (c : Nat) (v : Cluster) : (s.setCluster c v).draws = s.draws := rfl
@[simp] theorem setCluster_eccCorr (s : State) (c : Nat) (v : Cluster) : (s.setCluster c v).eccCorr = s.eccCorr := rfl
@[simp] theorem setCluster_l2tlb (s : State) (c : Nat) (v : Cluster) : (s.setCluster c v).l2tlb = s.l2tlb := rfl
@[simp] theorem setCluster_walkCache (s : State) (c : Nat) (v : Cluster) : (s.setCluster c v).walkCache = s.walkCache := rfl
@[simp] theorem setCluster_rows (s : State) (c : Nat) (v : Cluster) : (s.setCluster c v).rows = s.rows := rfl
@[simp] theorem setCluster_units (s : State) (c : Nat) (v : Cluster) : (s.setCluster c v).units = s.units := rfl
@[simp] theorem setCluster_voids (s : State) (c : Nat) (v : Cluster) : (s.setCluster c v).voids = s.voids := rfl
@[simp] theorem setCluster_feq (s : State) (c : Nat) (v : Cluster) : (s.setCluster c v).feq = s.feq := rfl
@[simp] theorem setCluster_cmdq (s : State) (c : Nat) (v : Cluster) : (s.setCluster c v).cmdq = s.cmdq := rfl
@[simp] theorem setCluster_calls (s : State) (c : Nat) (v : Cluster) : (s.setCluster c v).calls = s.calls := rfl
@[simp] theorem setCluster_sends (s : State) (c : Nat) (v : Cluster) : (s.setCluster c v).sends = s.sends := rfl
@[simp] theorem setCluster_netCycles (s : State) (c : Nat) (v : Cluster) : (s.setCluster c v).netCycles = s.netCycles := rfl
@[simp] theorem setCluster_netPart (s : State) (c : Nat) (v : Cluster) : (s.setCluster c v).netPart = s.netPart := rfl
@[simp] theorem setCluster_flights (s : State) (c : Nat) (v : Cluster) : (s.setCluster c v).flights = s.flights := rfl
@[simp] theorem setCluster_flightNo (s : State) (c : Nat) (v : Cluster) : (s.setCluster c v).flightNo = s.flightNo := rfl
@[simp] theorem setCluster_portPart (s : State) (c : Nat) (v : Cluster) : (s.setCluster c v).portPart = s.portPart := rfl
@[simp] theorem setCluster_qps (s : State) (c : Nat) (v : Cluster) : (s.setCluster c v).qps = s.qps := rfl
@[simp] theorem setCluster_isolation (s : State) (c : Nat) (v : Cluster) : (s.setCluster c v).isolation = s.isolation := rfl
@[simp] theorem setCluster_links (s : State) (c : Nat) (v : Cluster) : (s.setCluster c v).links = s.links := rfl
@[simp] theorem setCluster_portsRetired (s : State) (c : Nat) (v : Cluster) : (s.setCluster c v).portsRetired = s.portsRetired := rfl
@[simp] theorem setCluster_deviceId (s : State) (c : Nat) (v : Cluster) : (s.setCluster c v).deviceId = s.deviceId := rfl
@[simp] theorem setCluster_domain (s : State) (c : Nat) (v : Cluster) : (s.setCluster c v).domain = s.domain := rfl
@[simp] theorem setCluster_parts (s : State) (c : Nat) (v : Cluster) : (s.setCluster c v).parts = s.parts := rfl
@[simp] theorem setCluster_rings (s : State) (c : Nat) (v : Cluster) : (s.setCluster c v).rings = s.rings := rfl
@[simp] theorem setCluster_queues (s : State) (c : Nat) (v : Cluster) : (s.setCluster c v).queues = s.queues := rfl
@[simp] theorem setCluster_launches (s : State) (c : Nat) (v : Cluster) : (s.setCluster c v).launches = s.launches := rfl
@[simp] theorem setCluster_launchId (s : State) (c : Nat) (v : Cluster) : (s.setCluster c v).launchId = s.launchId := rfl
@[simp] theorem setCluster_seq (s : State) (c : Nat) (v : Cluster) : (s.setCluster c v).seq = s.seq := rfl
@[simp] theorem setCluster_parked (s : State) (c : Nat) (v : Cluster) : (s.setCluster c v).parked = s.parked := rfl
@[simp] theorem setCluster_saved (s : State) (c : Nat) (v : Cluster) : (s.setCluster c v).saved = s.saved := rfl
@[simp] theorem setCluster_groups (s : State) (c : Nat) (v : Cluster) : (s.setCluster c v).groups = s.groups := rfl
@[simp] theorem setCluster_gLast (s : State) (c : Nat) (v : Cluster) : (s.setCluster c v).gLast = s.gLast := rfl
@[simp] theorem setCluster_early (s : State) (c : Nat) (v : Cluster) : (s.setCluster c v).early = s.early := rfl
@[simp] theorem setCluster_msix (s : State) (c : Nat) (v : Cluster) : (s.setCluster c v).msix = s.msix := rfl
@[simp] theorem setCluster_reports (s : State) (c : Nat) (v : Cluster) : (s.setCluster c v).reports = s.reports := rfl
@[simp] theorem setCluster_power (s : State) (c : Nat) (v : Cluster) : (s.setCluster c v).power = s.power := rfl
@[simp] theorem setCluster_time (s : State) (c : Nat) (v : Cluster) : (s.setCluster c v).time = s.time := rfl
@[simp] theorem setCluster_dieTime (s : State) (c : Nat) (v : Cluster) : (s.setCluster c v).dieTime = s.dieTime := rfl
@[simp] theorem setCluster_timeOffset (s : State) (c : Nat) (v : Cluster) : (s.setCluster c v).timeOffset = s.timeOffset := rfl
@[simp] theorem setCluster_halfRate (s : State) (c : Nat) (v : Cluster) : (s.setCluster c v).halfRate = s.halfRate := rfl
@[simp] theorem setCluster_slewPart (s : State) (c : Nat) (v : Cluster) : (s.setCluster c v).slewPart = s.slewPart := rfl
@[simp] theorem setCluster_lockState (s : State) (c : Nat) (v : Cluster) : (s.setCluster c v).lockState = s.lockState := rfl
@[simp] theorem setCluster_ptpPort (s : State) (c : Nat) (v : Cluster) : (s.setCluster c v).ptpPort = s.ptpPort := rfl
@[simp] theorem setCluster_traces (s : State) (c : Nat) (v : Cluster) : (s.setCluster c v).traces = s.traces := rfl
@[simp] theorem setCluster_events (s : State) (c : Nat) (v : Cluster) : (s.setCluster c v).events = s.events := rfl
@[simp] theorem setCluster_evts (s : State) (c : Nat) (v : Cluster) : (s.setCluster c v).evts = s.evts := rfl
@[simp] theorem setCluster_waitns (s : State) (c : Nat) (v : Cluster) : (s.setCluster c v).waitns = s.waitns := rfl
@[simp] theorem setCluster_waitMark (s : State) (c : Nat) (v : Cluster) : (s.setCluster c v).waitMark = s.waitMark := rfl
@[simp] theorem setCluster_dbg (s : State) (c : Nat) (v : Cluster) : (s.setCluster c v).dbg = s.dbg := rfl
@[simp] theorem setCluster_boot (s : State) (c : Nat) (v : Cluster) : (s.setCluster c v).boot = s.boot := rfl

/-! ### `mapQueue` -/

@[simp] theorem mapQueue_turns (s : State) (q : Nat) (f : Queue → Queue) : (s.mapQueue q f).turns = s.turns := rfl
@[simp] theorem mapQueue_input (s : State) (q : Nat) (f : Queue → Queue) : (s.mapQueue q f).input = s.input := rfl
@[simp] theorem mapQueue_stepNo (s : State) (q : Nat) (f : Queue → Queue) : (s.mapQueue q f).stepNo = s.stepNo := rfl
@[simp] theorem mapQueue_uid (s : State) (q : Nat) (f : Queue → Queue) : (s.mapQueue q f).uid = s.uid := rfl
@[simp] theorem mapQueue_opNo (s : State) (q : Nat) (f : Queue → Queue) : (s.mapQueue q f).opNo = s.opNo := rfl
@[simp] theorem mapQueue_cur (s : State) (q : Nat) (f : Queue → Queue) : (s.mapQueue q f).cur = s.cur := rfl
@[simp] theorem mapQueue_thr (s : State) (q : Nat) (f : Queue → Queue) : (s.mapQueue q f).thr = s.thr := rfl
@[simp] theorem mapQueue_slots (s : State) (q : Nat) (f : Queue → Queue) : (s.mapQueue q f).slots = s.slots := rfl
@[simp] theorem mapQueue_curE (s : State) (q : Nat) (f : Queue → Queue) : (s.mapQueue q f).curE = s.curE := rfl
@[simp] theorem mapQueue_eng (s : State) (q : Nat) (f : Queue → Queue) : (s.mapQueue q f).eng = s.eng := rfl
@[simp] theorem mapQueue_engines (s : State) (q : Nat) (f : Queue → Queue) : (s.mapQueue q f).engines = s.engines := rfl
@[simp] theorem mapQueue_mem (s : State) (q : Nat) (f : Queue → Queue) : (s.mapQueue q f).mem = s.mem := rfl
@[simp] theorem mapQueue_memKey (s : State) (q : Nat) (f : Queue → Queue) : (s.mapQueue q f).memKey = s.memKey := rfl
@[simp] theorem mapQueue_baseKey (s : State) (q : Nat) (f : Queue → Queue) : (s.mapQueue q f).baseKey = s.baseKey := rfl
@[simp] theorem mapQueue_poison (s : State) (q : Nat) (f : Queue → Queue) : (s.mapQueue q f).poison = s.poison := rfl
@[simp] theorem mapQueue_extMem (s : State) (q : Nat) (f : Queue → Queue) : (s.mapQueue q f).extMem = s.extMem := rfl
@[simp] theorem mapQueue_extKey (s : State) (q : Nat) (f : Queue → Queue) : (s.mapQueue q f).extKey = s.extKey := rfl
@[simp] theorem mapQueue_keySlots (s : State) (q : Nat) (f : Queue → Queue) : (s.mapQueue q f).keySlots = s.keySlots := rfl
@[simp] theorem mapQueue_draws (s : State) (q : Nat) (f : Queue → Queue) : (s.mapQueue q f).draws = s.draws := rfl
@[simp] theorem mapQueue_eccCorr (s : State) (q : Nat) (f : Queue → Queue) : (s.mapQueue q f).eccCorr = s.eccCorr := rfl
@[simp] theorem mapQueue_l2tlb (s : State) (q : Nat) (f : Queue → Queue) : (s.mapQueue q f).l2tlb = s.l2tlb := rfl
@[simp] theorem mapQueue_walkCache (s : State) (q : Nat) (f : Queue → Queue) : (s.mapQueue q f).walkCache = s.walkCache := rfl
@[simp] theorem mapQueue_rows (s : State) (q : Nat) (f : Queue → Queue) : (s.mapQueue q f).rows = s.rows := rfl
@[simp] theorem mapQueue_units (s : State) (q : Nat) (f : Queue → Queue) : (s.mapQueue q f).units = s.units := rfl
@[simp] theorem mapQueue_voids (s : State) (q : Nat) (f : Queue → Queue) : (s.mapQueue q f).voids = s.voids := rfl
@[simp] theorem mapQueue_clusters (s : State) (q : Nat) (f : Queue → Queue) : (s.mapQueue q f).clusters = s.clusters := rfl
@[simp] theorem mapQueue_feq (s : State) (q : Nat) (f : Queue → Queue) : (s.mapQueue q f).feq = s.feq := rfl
@[simp] theorem mapQueue_cmdq (s : State) (q : Nat) (f : Queue → Queue) : (s.mapQueue q f).cmdq = s.cmdq := rfl
@[simp] theorem mapQueue_calls (s : State) (q : Nat) (f : Queue → Queue) : (s.mapQueue q f).calls = s.calls := rfl
@[simp] theorem mapQueue_sends (s : State) (q : Nat) (f : Queue → Queue) : (s.mapQueue q f).sends = s.sends := rfl
@[simp] theorem mapQueue_netCycles (s : State) (q : Nat) (f : Queue → Queue) : (s.mapQueue q f).netCycles = s.netCycles := rfl
@[simp] theorem mapQueue_netPart (s : State) (q : Nat) (f : Queue → Queue) : (s.mapQueue q f).netPart = s.netPart := rfl
@[simp] theorem mapQueue_flights (s : State) (q : Nat) (f : Queue → Queue) : (s.mapQueue q f).flights = s.flights := rfl
@[simp] theorem mapQueue_flightNo (s : State) (q : Nat) (f : Queue → Queue) : (s.mapQueue q f).flightNo = s.flightNo := rfl
@[simp] theorem mapQueue_portPart (s : State) (q : Nat) (f : Queue → Queue) : (s.mapQueue q f).portPart = s.portPart := rfl
@[simp] theorem mapQueue_qps (s : State) (q : Nat) (f : Queue → Queue) : (s.mapQueue q f).qps = s.qps := rfl
@[simp] theorem mapQueue_isolation (s : State) (q : Nat) (f : Queue → Queue) : (s.mapQueue q f).isolation = s.isolation := rfl
@[simp] theorem mapQueue_links (s : State) (q : Nat) (f : Queue → Queue) : (s.mapQueue q f).links = s.links := rfl
@[simp] theorem mapQueue_portsRetired (s : State) (q : Nat) (f : Queue → Queue) : (s.mapQueue q f).portsRetired = s.portsRetired := rfl
@[simp] theorem mapQueue_deviceId (s : State) (q : Nat) (f : Queue → Queue) : (s.mapQueue q f).deviceId = s.deviceId := rfl
@[simp] theorem mapQueue_domain (s : State) (q : Nat) (f : Queue → Queue) : (s.mapQueue q f).domain = s.domain := rfl
@[simp] theorem mapQueue_parts (s : State) (q : Nat) (f : Queue → Queue) : (s.mapQueue q f).parts = s.parts := rfl
@[simp] theorem mapQueue_rings (s : State) (q : Nat) (f : Queue → Queue) : (s.mapQueue q f).rings = s.rings := rfl
@[simp] theorem mapQueue_launches (s : State) (q : Nat) (f : Queue → Queue) : (s.mapQueue q f).launches = s.launches := rfl
@[simp] theorem mapQueue_launchId (s : State) (q : Nat) (f : Queue → Queue) : (s.mapQueue q f).launchId = s.launchId := rfl
@[simp] theorem mapQueue_seq (s : State) (q : Nat) (f : Queue → Queue) : (s.mapQueue q f).seq = s.seq := rfl
@[simp] theorem mapQueue_parked (s : State) (q : Nat) (f : Queue → Queue) : (s.mapQueue q f).parked = s.parked := rfl
@[simp] theorem mapQueue_saved (s : State) (q : Nat) (f : Queue → Queue) : (s.mapQueue q f).saved = s.saved := rfl
@[simp] theorem mapQueue_groups (s : State) (q : Nat) (f : Queue → Queue) : (s.mapQueue q f).groups = s.groups := rfl
@[simp] theorem mapQueue_gLast (s : State) (q : Nat) (f : Queue → Queue) : (s.mapQueue q f).gLast = s.gLast := rfl
@[simp] theorem mapQueue_early (s : State) (q : Nat) (f : Queue → Queue) : (s.mapQueue q f).early = s.early := rfl
@[simp] theorem mapQueue_msix (s : State) (q : Nat) (f : Queue → Queue) : (s.mapQueue q f).msix = s.msix := rfl
@[simp] theorem mapQueue_reports (s : State) (q : Nat) (f : Queue → Queue) : (s.mapQueue q f).reports = s.reports := rfl
@[simp] theorem mapQueue_power (s : State) (q : Nat) (f : Queue → Queue) : (s.mapQueue q f).power = s.power := rfl
@[simp] theorem mapQueue_time (s : State) (q : Nat) (f : Queue → Queue) : (s.mapQueue q f).time = s.time := rfl
@[simp] theorem mapQueue_dieTime (s : State) (q : Nat) (f : Queue → Queue) : (s.mapQueue q f).dieTime = s.dieTime := rfl
@[simp] theorem mapQueue_timeOffset (s : State) (q : Nat) (f : Queue → Queue) : (s.mapQueue q f).timeOffset = s.timeOffset := rfl
@[simp] theorem mapQueue_halfRate (s : State) (q : Nat) (f : Queue → Queue) : (s.mapQueue q f).halfRate = s.halfRate := rfl
@[simp] theorem mapQueue_slewPart (s : State) (q : Nat) (f : Queue → Queue) : (s.mapQueue q f).slewPart = s.slewPart := rfl
@[simp] theorem mapQueue_lockState (s : State) (q : Nat) (f : Queue → Queue) : (s.mapQueue q f).lockState = s.lockState := rfl
@[simp] theorem mapQueue_ptpPort (s : State) (q : Nat) (f : Queue → Queue) : (s.mapQueue q f).ptpPort = s.ptpPort := rfl
@[simp] theorem mapQueue_traces (s : State) (q : Nat) (f : Queue → Queue) : (s.mapQueue q f).traces = s.traces := rfl
@[simp] theorem mapQueue_events (s : State) (q : Nat) (f : Queue → Queue) : (s.mapQueue q f).events = s.events := rfl
@[simp] theorem mapQueue_evts (s : State) (q : Nat) (f : Queue → Queue) : (s.mapQueue q f).evts = s.evts := rfl
@[simp] theorem mapQueue_waitns (s : State) (q : Nat) (f : Queue → Queue) : (s.mapQueue q f).waitns = s.waitns := rfl
@[simp] theorem mapQueue_waitMark (s : State) (q : Nat) (f : Queue → Queue) : (s.mapQueue q f).waitMark = s.waitMark := rfl
@[simp] theorem mapQueue_dbg (s : State) (q : Nat) (f : Queue → Queue) : (s.mapQueue q f).dbg = s.dbg := rfl
@[simp] theorem mapQueue_boot (s : State) (q : Nat) (f : Queue → Queue) : (s.mapQueue q f).boot = s.boot := rfl

/-! ### `mapLaunch` -/

@[simp] theorem mapLaunch_turns (s : State) (k : Nat) (f : Launch → Launch) : (s.mapLaunch k f).turns = s.turns := rfl
@[simp] theorem mapLaunch_input (s : State) (k : Nat) (f : Launch → Launch) : (s.mapLaunch k f).input = s.input := rfl
@[simp] theorem mapLaunch_stepNo (s : State) (k : Nat) (f : Launch → Launch) : (s.mapLaunch k f).stepNo = s.stepNo := rfl
@[simp] theorem mapLaunch_uid (s : State) (k : Nat) (f : Launch → Launch) : (s.mapLaunch k f).uid = s.uid := rfl
@[simp] theorem mapLaunch_opNo (s : State) (k : Nat) (f : Launch → Launch) : (s.mapLaunch k f).opNo = s.opNo := rfl
@[simp] theorem mapLaunch_cur (s : State) (k : Nat) (f : Launch → Launch) : (s.mapLaunch k f).cur = s.cur := rfl
@[simp] theorem mapLaunch_thr (s : State) (k : Nat) (f : Launch → Launch) : (s.mapLaunch k f).thr = s.thr := rfl
@[simp] theorem mapLaunch_slots (s : State) (k : Nat) (f : Launch → Launch) : (s.mapLaunch k f).slots = s.slots := rfl
@[simp] theorem mapLaunch_curE (s : State) (k : Nat) (f : Launch → Launch) : (s.mapLaunch k f).curE = s.curE := rfl
@[simp] theorem mapLaunch_eng (s : State) (k : Nat) (f : Launch → Launch) : (s.mapLaunch k f).eng = s.eng := rfl
@[simp] theorem mapLaunch_engines (s : State) (k : Nat) (f : Launch → Launch) : (s.mapLaunch k f).engines = s.engines := rfl
@[simp] theorem mapLaunch_mem (s : State) (k : Nat) (f : Launch → Launch) : (s.mapLaunch k f).mem = s.mem := rfl
@[simp] theorem mapLaunch_memKey (s : State) (k : Nat) (f : Launch → Launch) : (s.mapLaunch k f).memKey = s.memKey := rfl
@[simp] theorem mapLaunch_baseKey (s : State) (k : Nat) (f : Launch → Launch) : (s.mapLaunch k f).baseKey = s.baseKey := rfl
@[simp] theorem mapLaunch_poison (s : State) (k : Nat) (f : Launch → Launch) : (s.mapLaunch k f).poison = s.poison := rfl
@[simp] theorem mapLaunch_extMem (s : State) (k : Nat) (f : Launch → Launch) : (s.mapLaunch k f).extMem = s.extMem := rfl
@[simp] theorem mapLaunch_extKey (s : State) (k : Nat) (f : Launch → Launch) : (s.mapLaunch k f).extKey = s.extKey := rfl
@[simp] theorem mapLaunch_keySlots (s : State) (k : Nat) (f : Launch → Launch) : (s.mapLaunch k f).keySlots = s.keySlots := rfl
@[simp] theorem mapLaunch_draws (s : State) (k : Nat) (f : Launch → Launch) : (s.mapLaunch k f).draws = s.draws := rfl
@[simp] theorem mapLaunch_eccCorr (s : State) (k : Nat) (f : Launch → Launch) : (s.mapLaunch k f).eccCorr = s.eccCorr := rfl
@[simp] theorem mapLaunch_l2tlb (s : State) (k : Nat) (f : Launch → Launch) : (s.mapLaunch k f).l2tlb = s.l2tlb := rfl
@[simp] theorem mapLaunch_walkCache (s : State) (k : Nat) (f : Launch → Launch) : (s.mapLaunch k f).walkCache = s.walkCache := rfl
@[simp] theorem mapLaunch_rows (s : State) (k : Nat) (f : Launch → Launch) : (s.mapLaunch k f).rows = s.rows := rfl
@[simp] theorem mapLaunch_units (s : State) (k : Nat) (f : Launch → Launch) : (s.mapLaunch k f).units = s.units := rfl
@[simp] theorem mapLaunch_voids (s : State) (k : Nat) (f : Launch → Launch) : (s.mapLaunch k f).voids = s.voids := rfl
@[simp] theorem mapLaunch_clusters (s : State) (k : Nat) (f : Launch → Launch) : (s.mapLaunch k f).clusters = s.clusters := rfl
@[simp] theorem mapLaunch_feq (s : State) (k : Nat) (f : Launch → Launch) : (s.mapLaunch k f).feq = s.feq := rfl
@[simp] theorem mapLaunch_cmdq (s : State) (k : Nat) (f : Launch → Launch) : (s.mapLaunch k f).cmdq = s.cmdq := rfl
@[simp] theorem mapLaunch_calls (s : State) (k : Nat) (f : Launch → Launch) : (s.mapLaunch k f).calls = s.calls := rfl
@[simp] theorem mapLaunch_sends (s : State) (k : Nat) (f : Launch → Launch) : (s.mapLaunch k f).sends = s.sends := rfl
@[simp] theorem mapLaunch_netCycles (s : State) (k : Nat) (f : Launch → Launch) : (s.mapLaunch k f).netCycles = s.netCycles := rfl
@[simp] theorem mapLaunch_netPart (s : State) (k : Nat) (f : Launch → Launch) : (s.mapLaunch k f).netPart = s.netPart := rfl
@[simp] theorem mapLaunch_flights (s : State) (k : Nat) (f : Launch → Launch) : (s.mapLaunch k f).flights = s.flights := rfl
@[simp] theorem mapLaunch_flightNo (s : State) (k : Nat) (f : Launch → Launch) : (s.mapLaunch k f).flightNo = s.flightNo := rfl
@[simp] theorem mapLaunch_portPart (s : State) (k : Nat) (f : Launch → Launch) : (s.mapLaunch k f).portPart = s.portPart := rfl
@[simp] theorem mapLaunch_qps (s : State) (k : Nat) (f : Launch → Launch) : (s.mapLaunch k f).qps = s.qps := rfl
@[simp] theorem mapLaunch_isolation (s : State) (k : Nat) (f : Launch → Launch) : (s.mapLaunch k f).isolation = s.isolation := rfl
@[simp] theorem mapLaunch_links (s : State) (k : Nat) (f : Launch → Launch) : (s.mapLaunch k f).links = s.links := rfl
@[simp] theorem mapLaunch_portsRetired (s : State) (k : Nat) (f : Launch → Launch) : (s.mapLaunch k f).portsRetired = s.portsRetired := rfl
@[simp] theorem mapLaunch_deviceId (s : State) (k : Nat) (f : Launch → Launch) : (s.mapLaunch k f).deviceId = s.deviceId := rfl
@[simp] theorem mapLaunch_domain (s : State) (k : Nat) (f : Launch → Launch) : (s.mapLaunch k f).domain = s.domain := rfl
@[simp] theorem mapLaunch_parts (s : State) (k : Nat) (f : Launch → Launch) : (s.mapLaunch k f).parts = s.parts := rfl
@[simp] theorem mapLaunch_rings (s : State) (k : Nat) (f : Launch → Launch) : (s.mapLaunch k f).rings = s.rings := rfl
@[simp] theorem mapLaunch_queues (s : State) (k : Nat) (f : Launch → Launch) : (s.mapLaunch k f).queues = s.queues := rfl
@[simp] theorem mapLaunch_launchId (s : State) (k : Nat) (f : Launch → Launch) : (s.mapLaunch k f).launchId = s.launchId := rfl
@[simp] theorem mapLaunch_seq (s : State) (k : Nat) (f : Launch → Launch) : (s.mapLaunch k f).seq = s.seq := rfl
@[simp] theorem mapLaunch_parked (s : State) (k : Nat) (f : Launch → Launch) : (s.mapLaunch k f).parked = s.parked := rfl
@[simp] theorem mapLaunch_saved (s : State) (k : Nat) (f : Launch → Launch) : (s.mapLaunch k f).saved = s.saved := rfl
@[simp] theorem mapLaunch_groups (s : State) (k : Nat) (f : Launch → Launch) : (s.mapLaunch k f).groups = s.groups := rfl
@[simp] theorem mapLaunch_gLast (s : State) (k : Nat) (f : Launch → Launch) : (s.mapLaunch k f).gLast = s.gLast := rfl
@[simp] theorem mapLaunch_early (s : State) (k : Nat) (f : Launch → Launch) : (s.mapLaunch k f).early = s.early := rfl
@[simp] theorem mapLaunch_msix (s : State) (k : Nat) (f : Launch → Launch) : (s.mapLaunch k f).msix = s.msix := rfl
@[simp] theorem mapLaunch_reports (s : State) (k : Nat) (f : Launch → Launch) : (s.mapLaunch k f).reports = s.reports := rfl
@[simp] theorem mapLaunch_power (s : State) (k : Nat) (f : Launch → Launch) : (s.mapLaunch k f).power = s.power := rfl
@[simp] theorem mapLaunch_time (s : State) (k : Nat) (f : Launch → Launch) : (s.mapLaunch k f).time = s.time := rfl
@[simp] theorem mapLaunch_dieTime (s : State) (k : Nat) (f : Launch → Launch) : (s.mapLaunch k f).dieTime = s.dieTime := rfl
@[simp] theorem mapLaunch_timeOffset (s : State) (k : Nat) (f : Launch → Launch) : (s.mapLaunch k f).timeOffset = s.timeOffset := rfl
@[simp] theorem mapLaunch_halfRate (s : State) (k : Nat) (f : Launch → Launch) : (s.mapLaunch k f).halfRate = s.halfRate := rfl
@[simp] theorem mapLaunch_slewPart (s : State) (k : Nat) (f : Launch → Launch) : (s.mapLaunch k f).slewPart = s.slewPart := rfl
@[simp] theorem mapLaunch_lockState (s : State) (k : Nat) (f : Launch → Launch) : (s.mapLaunch k f).lockState = s.lockState := rfl
@[simp] theorem mapLaunch_ptpPort (s : State) (k : Nat) (f : Launch → Launch) : (s.mapLaunch k f).ptpPort = s.ptpPort := rfl
@[simp] theorem mapLaunch_traces (s : State) (k : Nat) (f : Launch → Launch) : (s.mapLaunch k f).traces = s.traces := rfl
@[simp] theorem mapLaunch_events (s : State) (k : Nat) (f : Launch → Launch) : (s.mapLaunch k f).events = s.events := rfl
@[simp] theorem mapLaunch_evts (s : State) (k : Nat) (f : Launch → Launch) : (s.mapLaunch k f).evts = s.evts := rfl
@[simp] theorem mapLaunch_waitns (s : State) (k : Nat) (f : Launch → Launch) : (s.mapLaunch k f).waitns = s.waitns := rfl
@[simp] theorem mapLaunch_waitMark (s : State) (k : Nat) (f : Launch → Launch) : (s.mapLaunch k f).waitMark = s.waitMark := rfl
@[simp] theorem mapLaunch_dbg (s : State) (k : Nat) (f : Launch → Launch) : (s.mapLaunch k f).dbg = s.dbg := rfl
@[simp] theorem mapLaunch_boot (s : State) (k : Nat) (f : Launch → Launch) : (s.mapLaunch k f).boot = s.boot := rfl

/-! ### `mapTrace` -/

@[simp] theorem mapTrace_turns (s : State) (v : Nat) (f : TraceV → TraceV) : (s.mapTrace v f).turns = s.turns := rfl
@[simp] theorem mapTrace_input (s : State) (v : Nat) (f : TraceV → TraceV) : (s.mapTrace v f).input = s.input := rfl
@[simp] theorem mapTrace_stepNo (s : State) (v : Nat) (f : TraceV → TraceV) : (s.mapTrace v f).stepNo = s.stepNo := rfl
@[simp] theorem mapTrace_uid (s : State) (v : Nat) (f : TraceV → TraceV) : (s.mapTrace v f).uid = s.uid := rfl
@[simp] theorem mapTrace_opNo (s : State) (v : Nat) (f : TraceV → TraceV) : (s.mapTrace v f).opNo = s.opNo := rfl
@[simp] theorem mapTrace_cur (s : State) (v : Nat) (f : TraceV → TraceV) : (s.mapTrace v f).cur = s.cur := rfl
@[simp] theorem mapTrace_thr (s : State) (v : Nat) (f : TraceV → TraceV) : (s.mapTrace v f).thr = s.thr := rfl
@[simp] theorem mapTrace_slots (s : State) (v : Nat) (f : TraceV → TraceV) : (s.mapTrace v f).slots = s.slots := rfl
@[simp] theorem mapTrace_curE (s : State) (v : Nat) (f : TraceV → TraceV) : (s.mapTrace v f).curE = s.curE := rfl
@[simp] theorem mapTrace_eng (s : State) (v : Nat) (f : TraceV → TraceV) : (s.mapTrace v f).eng = s.eng := rfl
@[simp] theorem mapTrace_engines (s : State) (v : Nat) (f : TraceV → TraceV) : (s.mapTrace v f).engines = s.engines := rfl
@[simp] theorem mapTrace_mem (s : State) (v : Nat) (f : TraceV → TraceV) : (s.mapTrace v f).mem = s.mem := rfl
@[simp] theorem mapTrace_memKey (s : State) (v : Nat) (f : TraceV → TraceV) : (s.mapTrace v f).memKey = s.memKey := rfl
@[simp] theorem mapTrace_baseKey (s : State) (v : Nat) (f : TraceV → TraceV) : (s.mapTrace v f).baseKey = s.baseKey := rfl
@[simp] theorem mapTrace_poison (s : State) (v : Nat) (f : TraceV → TraceV) : (s.mapTrace v f).poison = s.poison := rfl
@[simp] theorem mapTrace_extMem (s : State) (v : Nat) (f : TraceV → TraceV) : (s.mapTrace v f).extMem = s.extMem := rfl
@[simp] theorem mapTrace_extKey (s : State) (v : Nat) (f : TraceV → TraceV) : (s.mapTrace v f).extKey = s.extKey := rfl
@[simp] theorem mapTrace_keySlots (s : State) (v : Nat) (f : TraceV → TraceV) : (s.mapTrace v f).keySlots = s.keySlots := rfl
@[simp] theorem mapTrace_draws (s : State) (v : Nat) (f : TraceV → TraceV) : (s.mapTrace v f).draws = s.draws := rfl
@[simp] theorem mapTrace_eccCorr (s : State) (v : Nat) (f : TraceV → TraceV) : (s.mapTrace v f).eccCorr = s.eccCorr := rfl
@[simp] theorem mapTrace_l2tlb (s : State) (v : Nat) (f : TraceV → TraceV) : (s.mapTrace v f).l2tlb = s.l2tlb := rfl
@[simp] theorem mapTrace_walkCache (s : State) (v : Nat) (f : TraceV → TraceV) : (s.mapTrace v f).walkCache = s.walkCache := rfl
@[simp] theorem mapTrace_rows (s : State) (v : Nat) (f : TraceV → TraceV) : (s.mapTrace v f).rows = s.rows := rfl
@[simp] theorem mapTrace_units (s : State) (v : Nat) (f : TraceV → TraceV) : (s.mapTrace v f).units = s.units := rfl
@[simp] theorem mapTrace_voids (s : State) (v : Nat) (f : TraceV → TraceV) : (s.mapTrace v f).voids = s.voids := rfl
@[simp] theorem mapTrace_clusters (s : State) (v : Nat) (f : TraceV → TraceV) : (s.mapTrace v f).clusters = s.clusters := rfl
@[simp] theorem mapTrace_feq (s : State) (v : Nat) (f : TraceV → TraceV) : (s.mapTrace v f).feq = s.feq := rfl
@[simp] theorem mapTrace_cmdq (s : State) (v : Nat) (f : TraceV → TraceV) : (s.mapTrace v f).cmdq = s.cmdq := rfl
@[simp] theorem mapTrace_calls (s : State) (v : Nat) (f : TraceV → TraceV) : (s.mapTrace v f).calls = s.calls := rfl
@[simp] theorem mapTrace_sends (s : State) (v : Nat) (f : TraceV → TraceV) : (s.mapTrace v f).sends = s.sends := rfl
@[simp] theorem mapTrace_netCycles (s : State) (v : Nat) (f : TraceV → TraceV) : (s.mapTrace v f).netCycles = s.netCycles := rfl
@[simp] theorem mapTrace_netPart (s : State) (v : Nat) (f : TraceV → TraceV) : (s.mapTrace v f).netPart = s.netPart := rfl
@[simp] theorem mapTrace_flights (s : State) (v : Nat) (f : TraceV → TraceV) : (s.mapTrace v f).flights = s.flights := rfl
@[simp] theorem mapTrace_flightNo (s : State) (v : Nat) (f : TraceV → TraceV) : (s.mapTrace v f).flightNo = s.flightNo := rfl
@[simp] theorem mapTrace_portPart (s : State) (v : Nat) (f : TraceV → TraceV) : (s.mapTrace v f).portPart = s.portPart := rfl
@[simp] theorem mapTrace_qps (s : State) (v : Nat) (f : TraceV → TraceV) : (s.mapTrace v f).qps = s.qps := rfl
@[simp] theorem mapTrace_isolation (s : State) (v : Nat) (f : TraceV → TraceV) : (s.mapTrace v f).isolation = s.isolation := rfl
@[simp] theorem mapTrace_links (s : State) (v : Nat) (f : TraceV → TraceV) : (s.mapTrace v f).links = s.links := rfl
@[simp] theorem mapTrace_portsRetired (s : State) (v : Nat) (f : TraceV → TraceV) : (s.mapTrace v f).portsRetired = s.portsRetired := rfl
@[simp] theorem mapTrace_deviceId (s : State) (v : Nat) (f : TraceV → TraceV) : (s.mapTrace v f).deviceId = s.deviceId := rfl
@[simp] theorem mapTrace_domain (s : State) (v : Nat) (f : TraceV → TraceV) : (s.mapTrace v f).domain = s.domain := rfl
@[simp] theorem mapTrace_parts (s : State) (v : Nat) (f : TraceV → TraceV) : (s.mapTrace v f).parts = s.parts := rfl
@[simp] theorem mapTrace_rings (s : State) (v : Nat) (f : TraceV → TraceV) : (s.mapTrace v f).rings = s.rings := rfl
@[simp] theorem mapTrace_queues (s : State) (v : Nat) (f : TraceV → TraceV) : (s.mapTrace v f).queues = s.queues := rfl
@[simp] theorem mapTrace_launches (s : State) (v : Nat) (f : TraceV → TraceV) : (s.mapTrace v f).launches = s.launches := rfl
@[simp] theorem mapTrace_launchId (s : State) (v : Nat) (f : TraceV → TraceV) : (s.mapTrace v f).launchId = s.launchId := rfl
@[simp] theorem mapTrace_seq (s : State) (v : Nat) (f : TraceV → TraceV) : (s.mapTrace v f).seq = s.seq := rfl
@[simp] theorem mapTrace_parked (s : State) (v : Nat) (f : TraceV → TraceV) : (s.mapTrace v f).parked = s.parked := rfl
@[simp] theorem mapTrace_saved (s : State) (v : Nat) (f : TraceV → TraceV) : (s.mapTrace v f).saved = s.saved := rfl
@[simp] theorem mapTrace_groups (s : State) (v : Nat) (f : TraceV → TraceV) : (s.mapTrace v f).groups = s.groups := rfl
@[simp] theorem mapTrace_gLast (s : State) (v : Nat) (f : TraceV → TraceV) : (s.mapTrace v f).gLast = s.gLast := rfl
@[simp] theorem mapTrace_early (s : State) (v : Nat) (f : TraceV → TraceV) : (s.mapTrace v f).early = s.early := rfl
@[simp] theorem mapTrace_msix (s : State) (v : Nat) (f : TraceV → TraceV) : (s.mapTrace v f).msix = s.msix := rfl
@[simp] theorem mapTrace_reports (s : State) (v : Nat) (f : TraceV → TraceV) : (s.mapTrace v f).reports = s.reports := rfl
@[simp] theorem mapTrace_power (s : State) (v : Nat) (f : TraceV → TraceV) : (s.mapTrace v f).power = s.power := rfl
@[simp] theorem mapTrace_time (s : State) (v : Nat) (f : TraceV → TraceV) : (s.mapTrace v f).time = s.time := rfl
@[simp] theorem mapTrace_dieTime (s : State) (v : Nat) (f : TraceV → TraceV) : (s.mapTrace v f).dieTime = s.dieTime := rfl
@[simp] theorem mapTrace_timeOffset (s : State) (v : Nat) (f : TraceV → TraceV) : (s.mapTrace v f).timeOffset = s.timeOffset := rfl
@[simp] theorem mapTrace_halfRate (s : State) (v : Nat) (f : TraceV → TraceV) : (s.mapTrace v f).halfRate = s.halfRate := rfl
@[simp] theorem mapTrace_slewPart (s : State) (v : Nat) (f : TraceV → TraceV) : (s.mapTrace v f).slewPart = s.slewPart := rfl
@[simp] theorem mapTrace_lockState (s : State) (v : Nat) (f : TraceV → TraceV) : (s.mapTrace v f).lockState = s.lockState := rfl
@[simp] theorem mapTrace_ptpPort (s : State) (v : Nat) (f : TraceV → TraceV) : (s.mapTrace v f).ptpPort = s.ptpPort := rfl
@[simp] theorem mapTrace_events (s : State) (v : Nat) (f : TraceV → TraceV) : (s.mapTrace v f).events = s.events := rfl
@[simp] theorem mapTrace_evts (s : State) (v : Nat) (f : TraceV → TraceV) : (s.mapTrace v f).evts = s.evts := rfl
@[simp] theorem mapTrace_waitns (s : State) (v : Nat) (f : TraceV → TraceV) : (s.mapTrace v f).waitns = s.waitns := rfl
@[simp] theorem mapTrace_waitMark (s : State) (v : Nat) (f : TraceV → TraceV) : (s.mapTrace v f).waitMark = s.waitMark := rfl
@[simp] theorem mapTrace_dbg (s : State) (v : Nat) (f : TraceV → TraceV) : (s.mapTrace v f).dbg = s.dbg := rfl
@[simp] theorem mapTrace_boot (s : State) (v : Nat) (f : TraceV → TraceV) : (s.mapTrace v f).boot = s.boot := rfl

/-! ### `setDbg` -/

@[simp] theorem setDbg_turns (s : State) (d : Dbg) : (s.setDbg d).turns = s.turns := rfl
@[simp] theorem setDbg_input (s : State) (d : Dbg) : (s.setDbg d).input = s.input := rfl
@[simp] theorem setDbg_stepNo (s : State) (d : Dbg) : (s.setDbg d).stepNo = s.stepNo := rfl
@[simp] theorem setDbg_uid (s : State) (d : Dbg) : (s.setDbg d).uid = s.uid := rfl
@[simp] theorem setDbg_opNo (s : State) (d : Dbg) : (s.setDbg d).opNo = s.opNo := rfl
@[simp] theorem setDbg_cur (s : State) (d : Dbg) : (s.setDbg d).cur = s.cur := rfl
@[simp] theorem setDbg_thr (s : State) (d : Dbg) : (s.setDbg d).thr = s.thr := rfl
@[simp] theorem setDbg_slots (s : State) (d : Dbg) : (s.setDbg d).slots = s.slots := rfl
@[simp] theorem setDbg_curE (s : State) (d : Dbg) : (s.setDbg d).curE = s.curE := rfl
@[simp] theorem setDbg_eng (s : State) (d : Dbg) : (s.setDbg d).eng = s.eng := rfl
@[simp] theorem setDbg_engines (s : State) (d : Dbg) : (s.setDbg d).engines = s.engines := rfl
@[simp] theorem setDbg_mem (s : State) (d : Dbg) : (s.setDbg d).mem = s.mem := rfl
@[simp] theorem setDbg_memKey (s : State) (d : Dbg) : (s.setDbg d).memKey = s.memKey := rfl
@[simp] theorem setDbg_baseKey (s : State) (d : Dbg) : (s.setDbg d).baseKey = s.baseKey := rfl
@[simp] theorem setDbg_poison (s : State) (d : Dbg) : (s.setDbg d).poison = s.poison := rfl
@[simp] theorem setDbg_extMem (s : State) (d : Dbg) : (s.setDbg d).extMem = s.extMem := rfl
@[simp] theorem setDbg_extKey (s : State) (d : Dbg) : (s.setDbg d).extKey = s.extKey := rfl
@[simp] theorem setDbg_keySlots (s : State) (d : Dbg) : (s.setDbg d).keySlots = s.keySlots := rfl
@[simp] theorem setDbg_draws (s : State) (d : Dbg) : (s.setDbg d).draws = s.draws := rfl
@[simp] theorem setDbg_eccCorr (s : State) (d : Dbg) : (s.setDbg d).eccCorr = s.eccCorr := rfl
@[simp] theorem setDbg_l2tlb (s : State) (d : Dbg) : (s.setDbg d).l2tlb = s.l2tlb := rfl
@[simp] theorem setDbg_walkCache (s : State) (d : Dbg) : (s.setDbg d).walkCache = s.walkCache := rfl
@[simp] theorem setDbg_rows (s : State) (d : Dbg) : (s.setDbg d).rows = s.rows := rfl
@[simp] theorem setDbg_units (s : State) (d : Dbg) : (s.setDbg d).units = s.units := rfl
@[simp] theorem setDbg_voids (s : State) (d : Dbg) : (s.setDbg d).voids = s.voids := rfl
@[simp] theorem setDbg_clusters (s : State) (d : Dbg) : (s.setDbg d).clusters = s.clusters := rfl
@[simp] theorem setDbg_feq (s : State) (d : Dbg) : (s.setDbg d).feq = s.feq := rfl
@[simp] theorem setDbg_cmdq (s : State) (d : Dbg) : (s.setDbg d).cmdq = s.cmdq := rfl
@[simp] theorem setDbg_calls (s : State) (d : Dbg) : (s.setDbg d).calls = s.calls := rfl
@[simp] theorem setDbg_sends (s : State) (d : Dbg) : (s.setDbg d).sends = s.sends := rfl
@[simp] theorem setDbg_netCycles (s : State) (d : Dbg) : (s.setDbg d).netCycles = s.netCycles := rfl
@[simp] theorem setDbg_netPart (s : State) (d : Dbg) : (s.setDbg d).netPart = s.netPart := rfl
@[simp] theorem setDbg_flights (s : State) (d : Dbg) : (s.setDbg d).flights = s.flights := rfl
@[simp] theorem setDbg_flightNo (s : State) (d : Dbg) : (s.setDbg d).flightNo = s.flightNo := rfl
@[simp] theorem setDbg_portPart (s : State) (d : Dbg) : (s.setDbg d).portPart = s.portPart := rfl
@[simp] theorem setDbg_qps (s : State) (d : Dbg) : (s.setDbg d).qps = s.qps := rfl
@[simp] theorem setDbg_isolation (s : State) (d : Dbg) : (s.setDbg d).isolation = s.isolation := rfl
@[simp] theorem setDbg_links (s : State) (d : Dbg) : (s.setDbg d).links = s.links := rfl
@[simp] theorem setDbg_portsRetired (s : State) (d : Dbg) : (s.setDbg d).portsRetired = s.portsRetired := rfl
@[simp] theorem setDbg_deviceId (s : State) (d : Dbg) : (s.setDbg d).deviceId = s.deviceId := rfl
@[simp] theorem setDbg_domain (s : State) (d : Dbg) : (s.setDbg d).domain = s.domain := rfl
@[simp] theorem setDbg_parts (s : State) (d : Dbg) : (s.setDbg d).parts = s.parts := rfl
@[simp] theorem setDbg_rings (s : State) (d : Dbg) : (s.setDbg d).rings = s.rings := rfl
@[simp] theorem setDbg_queues (s : State) (d : Dbg) : (s.setDbg d).queues = s.queues := rfl
@[simp] theorem setDbg_launches (s : State) (d : Dbg) : (s.setDbg d).launches = s.launches := rfl
@[simp] theorem setDbg_launchId (s : State) (d : Dbg) : (s.setDbg d).launchId = s.launchId := rfl
@[simp] theorem setDbg_seq (s : State) (d : Dbg) : (s.setDbg d).seq = s.seq := rfl
@[simp] theorem setDbg_parked (s : State) (d : Dbg) : (s.setDbg d).parked = s.parked := rfl
@[simp] theorem setDbg_saved (s : State) (d : Dbg) : (s.setDbg d).saved = s.saved := rfl
@[simp] theorem setDbg_groups (s : State) (d : Dbg) : (s.setDbg d).groups = s.groups := rfl
@[simp] theorem setDbg_gLast (s : State) (d : Dbg) : (s.setDbg d).gLast = s.gLast := rfl
@[simp] theorem setDbg_early (s : State) (d : Dbg) : (s.setDbg d).early = s.early := rfl
@[simp] theorem setDbg_msix (s : State) (d : Dbg) : (s.setDbg d).msix = s.msix := rfl
@[simp] theorem setDbg_reports (s : State) (d : Dbg) : (s.setDbg d).reports = s.reports := rfl
@[simp] theorem setDbg_power (s : State) (d : Dbg) : (s.setDbg d).power = s.power := rfl
@[simp] theorem setDbg_time (s : State) (d : Dbg) : (s.setDbg d).time = s.time := rfl
@[simp] theorem setDbg_dieTime (s : State) (d : Dbg) : (s.setDbg d).dieTime = s.dieTime := rfl
@[simp] theorem setDbg_timeOffset (s : State) (d : Dbg) : (s.setDbg d).timeOffset = s.timeOffset := rfl
@[simp] theorem setDbg_halfRate (s : State) (d : Dbg) : (s.setDbg d).halfRate = s.halfRate := rfl
@[simp] theorem setDbg_slewPart (s : State) (d : Dbg) : (s.setDbg d).slewPart = s.slewPart := rfl
@[simp] theorem setDbg_lockState (s : State) (d : Dbg) : (s.setDbg d).lockState = s.lockState := rfl
@[simp] theorem setDbg_ptpPort (s : State) (d : Dbg) : (s.setDbg d).ptpPort = s.ptpPort := rfl
@[simp] theorem setDbg_traces (s : State) (d : Dbg) : (s.setDbg d).traces = s.traces := rfl
@[simp] theorem setDbg_events (s : State) (d : Dbg) : (s.setDbg d).events = s.events := rfl
@[simp] theorem setDbg_evts (s : State) (d : Dbg) : (s.setDbg d).evts = s.evts := rfl
@[simp] theorem setDbg_waitns (s : State) (d : Dbg) : (s.setDbg d).waitns = s.waitns := rfl
@[simp] theorem setDbg_waitMark (s : State) (d : Dbg) : (s.setDbg d).waitMark = s.waitMark := rfl
@[simp] theorem setDbg_boot (s : State) (d : Dbg) : (s.setDbg d).boot = s.boot := rfl

/-! ### `setEngine` -/

@[simp] theorem setEngine_turns (s : State) (e : BitVec 10) (v : Engine) : (s.setEngine e v).turns = s.turns := by unfold State.setEngine; split <;> rfl
@[simp] theorem setEngine_input (s : State) (e : BitVec 10) (v : Engine) : (s.setEngine e v).input = s.input := by unfold State.setEngine; split <;> rfl
@[simp] theorem setEngine_stepNo (s : State) (e : BitVec 10) (v : Engine) : (s.setEngine e v).stepNo = s.stepNo := by unfold State.setEngine; split <;> rfl
@[simp] theorem setEngine_uid (s : State) (e : BitVec 10) (v : Engine) : (s.setEngine e v).uid = s.uid := by unfold State.setEngine; split <;> rfl
@[simp] theorem setEngine_opNo (s : State) (e : BitVec 10) (v : Engine) : (s.setEngine e v).opNo = s.opNo := by unfold State.setEngine; split <;> rfl
@[simp] theorem setEngine_cur (s : State) (e : BitVec 10) (v : Engine) : (s.setEngine e v).cur = s.cur := by unfold State.setEngine; split <;> rfl
@[simp] theorem setEngine_thr (s : State) (e : BitVec 10) (v : Engine) : (s.setEngine e v).thr = s.thr := by unfold State.setEngine; split <;> rfl
@[simp] theorem setEngine_slots (s : State) (e : BitVec 10) (v : Engine) : (s.setEngine e v).slots = s.slots := by unfold State.setEngine; split <;> rfl
@[simp] theorem setEngine_curE (s : State) (e : BitVec 10) (v : Engine) : (s.setEngine e v).curE = s.curE := by unfold State.setEngine; split <;> rfl
@[simp] theorem setEngine_mem (s : State) (e : BitVec 10) (v : Engine) : (s.setEngine e v).mem = s.mem := by unfold State.setEngine; split <;> rfl
@[simp] theorem setEngine_memKey (s : State) (e : BitVec 10) (v : Engine) : (s.setEngine e v).memKey = s.memKey := by unfold State.setEngine; split <;> rfl
@[simp] theorem setEngine_baseKey (s : State) (e : BitVec 10) (v : Engine) : (s.setEngine e v).baseKey = s.baseKey := by unfold State.setEngine; split <;> rfl
@[simp] theorem setEngine_poison (s : State) (e : BitVec 10) (v : Engine) : (s.setEngine e v).poison = s.poison := by unfold State.setEngine; split <;> rfl
@[simp] theorem setEngine_extMem (s : State) (e : BitVec 10) (v : Engine) : (s.setEngine e v).extMem = s.extMem := by unfold State.setEngine; split <;> rfl
@[simp] theorem setEngine_extKey (s : State) (e : BitVec 10) (v : Engine) : (s.setEngine e v).extKey = s.extKey := by unfold State.setEngine; split <;> rfl
@[simp] theorem setEngine_keySlots (s : State) (e : BitVec 10) (v : Engine) : (s.setEngine e v).keySlots = s.keySlots := by unfold State.setEngine; split <;> rfl
@[simp] theorem setEngine_draws (s : State) (e : BitVec 10) (v : Engine) : (s.setEngine e v).draws = s.draws := by unfold State.setEngine; split <;> rfl
@[simp] theorem setEngine_eccCorr (s : State) (e : BitVec 10) (v : Engine) : (s.setEngine e v).eccCorr = s.eccCorr := by unfold State.setEngine; split <;> rfl
@[simp] theorem setEngine_l2tlb (s : State) (e : BitVec 10) (v : Engine) : (s.setEngine e v).l2tlb = s.l2tlb := by unfold State.setEngine; split <;> rfl
@[simp] theorem setEngine_walkCache (s : State) (e : BitVec 10) (v : Engine) : (s.setEngine e v).walkCache = s.walkCache := by unfold State.setEngine; split <;> rfl
@[simp] theorem setEngine_rows (s : State) (e : BitVec 10) (v : Engine) : (s.setEngine e v).rows = s.rows := by unfold State.setEngine; split <;> rfl
@[simp] theorem setEngine_units (s : State) (e : BitVec 10) (v : Engine) : (s.setEngine e v).units = s.units := by unfold State.setEngine; split <;> rfl
@[simp] theorem setEngine_voids (s : State) (e : BitVec 10) (v : Engine) : (s.setEngine e v).voids = s.voids := by unfold State.setEngine; split <;> rfl
@[simp] theorem setEngine_clusters (s : State) (e : BitVec 10) (v : Engine) : (s.setEngine e v).clusters = s.clusters := by unfold State.setEngine; split <;> rfl
@[simp] theorem setEngine_feq (s : State) (e : BitVec 10) (v : Engine) : (s.setEngine e v).feq = s.feq := by unfold State.setEngine; split <;> rfl
@[simp] theorem setEngine_cmdq (s : State) (e : BitVec 10) (v : Engine) : (s.setEngine e v).cmdq = s.cmdq := by unfold State.setEngine; split <;> rfl
@[simp] theorem setEngine_calls (s : State) (e : BitVec 10) (v : Engine) : (s.setEngine e v).calls = s.calls := by unfold State.setEngine; split <;> rfl
@[simp] theorem setEngine_sends (s : State) (e : BitVec 10) (v : Engine) : (s.setEngine e v).sends = s.sends := by unfold State.setEngine; split <;> rfl
@[simp] theorem setEngine_netCycles (s : State) (e : BitVec 10) (v : Engine) : (s.setEngine e v).netCycles = s.netCycles := by unfold State.setEngine; split <;> rfl
@[simp] theorem setEngine_netPart (s : State) (e : BitVec 10) (v : Engine) : (s.setEngine e v).netPart = s.netPart := by unfold State.setEngine; split <;> rfl
@[simp] theorem setEngine_flights (s : State) (e : BitVec 10) (v : Engine) : (s.setEngine e v).flights = s.flights := by unfold State.setEngine; split <;> rfl
@[simp] theorem setEngine_flightNo (s : State) (e : BitVec 10) (v : Engine) : (s.setEngine e v).flightNo = s.flightNo := by unfold State.setEngine; split <;> rfl
@[simp] theorem setEngine_portPart (s : State) (e : BitVec 10) (v : Engine) : (s.setEngine e v).portPart = s.portPart := by unfold State.setEngine; split <;> rfl
@[simp] theorem setEngine_qps (s : State) (e : BitVec 10) (v : Engine) : (s.setEngine e v).qps = s.qps := by unfold State.setEngine; split <;> rfl
@[simp] theorem setEngine_isolation (s : State) (e : BitVec 10) (v : Engine) : (s.setEngine e v).isolation = s.isolation := by unfold State.setEngine; split <;> rfl
@[simp] theorem setEngine_links (s : State) (e : BitVec 10) (v : Engine) : (s.setEngine e v).links = s.links := by unfold State.setEngine; split <;> rfl
@[simp] theorem setEngine_portsRetired (s : State) (e : BitVec 10) (v : Engine) : (s.setEngine e v).portsRetired = s.portsRetired := by unfold State.setEngine; split <;> rfl
@[simp] theorem setEngine_deviceId (s : State) (e : BitVec 10) (v : Engine) : (s.setEngine e v).deviceId = s.deviceId := by unfold State.setEngine; split <;> rfl
@[simp] theorem setEngine_domain (s : State) (e : BitVec 10) (v : Engine) : (s.setEngine e v).domain = s.domain := by unfold State.setEngine; split <;> rfl
@[simp] theorem setEngine_parts (s : State) (e : BitVec 10) (v : Engine) : (s.setEngine e v).parts = s.parts := by unfold State.setEngine; split <;> rfl
@[simp] theorem setEngine_rings (s : State) (e : BitVec 10) (v : Engine) : (s.setEngine e v).rings = s.rings := by unfold State.setEngine; split <;> rfl
@[simp] theorem setEngine_queues (s : State) (e : BitVec 10) (v : Engine) : (s.setEngine e v).queues = s.queues := by unfold State.setEngine; split <;> rfl
@[simp] theorem setEngine_launches (s : State) (e : BitVec 10) (v : Engine) : (s.setEngine e v).launches = s.launches := by unfold State.setEngine; split <;> rfl
@[simp] theorem setEngine_launchId (s : State) (e : BitVec 10) (v : Engine) : (s.setEngine e v).launchId = s.launchId := by unfold State.setEngine; split <;> rfl
@[simp] theorem setEngine_seq (s : State) (e : BitVec 10) (v : Engine) : (s.setEngine e v).seq = s.seq := by unfold State.setEngine; split <;> rfl
@[simp] theorem setEngine_parked (s : State) (e : BitVec 10) (v : Engine) : (s.setEngine e v).parked = s.parked := by unfold State.setEngine; split <;> rfl
@[simp] theorem setEngine_saved (s : State) (e : BitVec 10) (v : Engine) : (s.setEngine e v).saved = s.saved := by unfold State.setEngine; split <;> rfl
@[simp] theorem setEngine_groups (s : State) (e : BitVec 10) (v : Engine) : (s.setEngine e v).groups = s.groups := by unfold State.setEngine; split <;> rfl
@[simp] theorem setEngine_gLast (s : State) (e : BitVec 10) (v : Engine) : (s.setEngine e v).gLast = s.gLast := by unfold State.setEngine; split <;> rfl
@[simp] theorem setEngine_early (s : State) (e : BitVec 10) (v : Engine) : (s.setEngine e v).early = s.early := by unfold State.setEngine; split <;> rfl
@[simp] theorem setEngine_msix (s : State) (e : BitVec 10) (v : Engine) : (s.setEngine e v).msix = s.msix := by unfold State.setEngine; split <;> rfl
@[simp] theorem setEngine_reports (s : State) (e : BitVec 10) (v : Engine) : (s.setEngine e v).reports = s.reports := by unfold State.setEngine; split <;> rfl
@[simp] theorem setEngine_power (s : State) (e : BitVec 10) (v : Engine) : (s.setEngine e v).power = s.power := by unfold State.setEngine; split <;> rfl
@[simp] theorem setEngine_time (s : State) (e : BitVec 10) (v : Engine) : (s.setEngine e v).time = s.time := by unfold State.setEngine; split <;> rfl
@[simp] theorem setEngine_dieTime (s : State) (e : BitVec 10) (v : Engine) : (s.setEngine e v).dieTime = s.dieTime := by unfold State.setEngine; split <;> rfl
@[simp] theorem setEngine_timeOffset (s : State) (e : BitVec 10) (v : Engine) : (s.setEngine e v).timeOffset = s.timeOffset := by unfold State.setEngine; split <;> rfl
@[simp] theorem setEngine_halfRate (s : State) (e : BitVec 10) (v : Engine) : (s.setEngine e v).halfRate = s.halfRate := by unfold State.setEngine; split <;> rfl
@[simp] theorem setEngine_slewPart (s : State) (e : BitVec 10) (v : Engine) : (s.setEngine e v).slewPart = s.slewPart := by unfold State.setEngine; split <;> rfl
@[simp] theorem setEngine_lockState (s : State) (e : BitVec 10) (v : Engine) : (s.setEngine e v).lockState = s.lockState := by unfold State.setEngine; split <;> rfl
@[simp] theorem setEngine_ptpPort (s : State) (e : BitVec 10) (v : Engine) : (s.setEngine e v).ptpPort = s.ptpPort := by unfold State.setEngine; split <;> rfl
@[simp] theorem setEngine_traces (s : State) (e : BitVec 10) (v : Engine) : (s.setEngine e v).traces = s.traces := by unfold State.setEngine; split <;> rfl
@[simp] theorem setEngine_events (s : State) (e : BitVec 10) (v : Engine) : (s.setEngine e v).events = s.events := by unfold State.setEngine; split <;> rfl
@[simp] theorem setEngine_evts (s : State) (e : BitVec 10) (v : Engine) : (s.setEngine e v).evts = s.evts := by unfold State.setEngine; split <;> rfl
@[simp] theorem setEngine_waitns (s : State) (e : BitVec 10) (v : Engine) : (s.setEngine e v).waitns = s.waitns := by unfold State.setEngine; split <;> rfl
@[simp] theorem setEngine_waitMark (s : State) (e : BitVec 10) (v : Engine) : (s.setEngine e v).waitMark = s.waitMark := by unfold State.setEngine; split <;> rfl
@[simp] theorem setEngine_dbg (s : State) (e : BitVec 10) (v : Engine) : (s.setEngine e v).dbg = s.dbg := by unfold State.setEngine; split <;> rfl
@[simp] theorem setEngine_boot (s : State) (e : BitVec 10) (v : Engine) : (s.setEngine e v).boot = s.boot := by unfold State.setEngine; split <;> rfl

/-! ### `setThread` -/

@[simp] theorem setThread_turns (s : State) (k : SlotNo) (t : Thread) : (s.setThread k t).turns = s.turns := by unfold State.setThread; split <;> rfl
@[simp] theorem setThread_input (s : State) (k : SlotNo) (t : Thread) : (s.setThread k t).input = s.input := by unfold State.setThread; split <;> rfl
@[simp] theorem setThread_stepNo (s : State) (k : SlotNo) (t : Thread) : (s.setThread k t).stepNo = s.stepNo := by unfold State.setThread; split <;> rfl
@[simp] theorem setThread_uid (s : State) (k : SlotNo) (t : Thread) : (s.setThread k t).uid = s.uid := by unfold State.setThread; split <;> rfl
@[simp] theorem setThread_opNo (s : State) (k : SlotNo) (t : Thread) : (s.setThread k t).opNo = s.opNo := by unfold State.setThread; split <;> rfl
@[simp] theorem setThread_cur (s : State) (k : SlotNo) (t : Thread) : (s.setThread k t).cur = s.cur := by unfold State.setThread; split <;> rfl
@[simp] theorem setThread_curE (s : State) (k : SlotNo) (t : Thread) : (s.setThread k t).curE = s.curE := by unfold State.setThread; split <;> rfl
@[simp] theorem setThread_eng (s : State) (k : SlotNo) (t : Thread) : (s.setThread k t).eng = s.eng := by unfold State.setThread; split <;> rfl
@[simp] theorem setThread_engines (s : State) (k : SlotNo) (t : Thread) : (s.setThread k t).engines = s.engines := by unfold State.setThread; split <;> rfl
@[simp] theorem setThread_mem (s : State) (k : SlotNo) (t : Thread) : (s.setThread k t).mem = s.mem := by unfold State.setThread; split <;> rfl
@[simp] theorem setThread_memKey (s : State) (k : SlotNo) (t : Thread) : (s.setThread k t).memKey = s.memKey := by unfold State.setThread; split <;> rfl
@[simp] theorem setThread_baseKey (s : State) (k : SlotNo) (t : Thread) : (s.setThread k t).baseKey = s.baseKey := by unfold State.setThread; split <;> rfl
@[simp] theorem setThread_poison (s : State) (k : SlotNo) (t : Thread) : (s.setThread k t).poison = s.poison := by unfold State.setThread; split <;> rfl
@[simp] theorem setThread_extMem (s : State) (k : SlotNo) (t : Thread) : (s.setThread k t).extMem = s.extMem := by unfold State.setThread; split <;> rfl
@[simp] theorem setThread_extKey (s : State) (k : SlotNo) (t : Thread) : (s.setThread k t).extKey = s.extKey := by unfold State.setThread; split <;> rfl
@[simp] theorem setThread_keySlots (s : State) (k : SlotNo) (t : Thread) : (s.setThread k t).keySlots = s.keySlots := by unfold State.setThread; split <;> rfl
@[simp] theorem setThread_draws (s : State) (k : SlotNo) (t : Thread) : (s.setThread k t).draws = s.draws := by unfold State.setThread; split <;> rfl
@[simp] theorem setThread_eccCorr (s : State) (k : SlotNo) (t : Thread) : (s.setThread k t).eccCorr = s.eccCorr := by unfold State.setThread; split <;> rfl
@[simp] theorem setThread_l2tlb (s : State) (k : SlotNo) (t : Thread) : (s.setThread k t).l2tlb = s.l2tlb := by unfold State.setThread; split <;> rfl
@[simp] theorem setThread_walkCache (s : State) (k : SlotNo) (t : Thread) : (s.setThread k t).walkCache = s.walkCache := by unfold State.setThread; split <;> rfl
@[simp] theorem setThread_rows (s : State) (k : SlotNo) (t : Thread) : (s.setThread k t).rows = s.rows := by unfold State.setThread; split <;> rfl
@[simp] theorem setThread_units (s : State) (k : SlotNo) (t : Thread) : (s.setThread k t).units = s.units := by unfold State.setThread; split <;> rfl
@[simp] theorem setThread_voids (s : State) (k : SlotNo) (t : Thread) : (s.setThread k t).voids = s.voids := by unfold State.setThread; split <;> rfl
@[simp] theorem setThread_clusters (s : State) (k : SlotNo) (t : Thread) : (s.setThread k t).clusters = s.clusters := by unfold State.setThread; split <;> rfl
@[simp] theorem setThread_feq (s : State) (k : SlotNo) (t : Thread) : (s.setThread k t).feq = s.feq := by unfold State.setThread; split <;> rfl
@[simp] theorem setThread_cmdq (s : State) (k : SlotNo) (t : Thread) : (s.setThread k t).cmdq = s.cmdq := by unfold State.setThread; split <;> rfl
@[simp] theorem setThread_calls (s : State) (k : SlotNo) (t : Thread) : (s.setThread k t).calls = s.calls := by unfold State.setThread; split <;> rfl
@[simp] theorem setThread_sends (s : State) (k : SlotNo) (t : Thread) : (s.setThread k t).sends = s.sends := by unfold State.setThread; split <;> rfl
@[simp] theorem setThread_netCycles (s : State) (k : SlotNo) (t : Thread) : (s.setThread k t).netCycles = s.netCycles := by unfold State.setThread; split <;> rfl
@[simp] theorem setThread_netPart (s : State) (k : SlotNo) (t : Thread) : (s.setThread k t).netPart = s.netPart := by unfold State.setThread; split <;> rfl
@[simp] theorem setThread_flights (s : State) (k : SlotNo) (t : Thread) : (s.setThread k t).flights = s.flights := by unfold State.setThread; split <;> rfl
@[simp] theorem setThread_flightNo (s : State) (k : SlotNo) (t : Thread) : (s.setThread k t).flightNo = s.flightNo := by unfold State.setThread; split <;> rfl
@[simp] theorem setThread_portPart (s : State) (k : SlotNo) (t : Thread) : (s.setThread k t).portPart = s.portPart := by unfold State.setThread; split <;> rfl
@[simp] theorem setThread_qps (s : State) (k : SlotNo) (t : Thread) : (s.setThread k t).qps = s.qps := by unfold State.setThread; split <;> rfl
@[simp] theorem setThread_isolation (s : State) (k : SlotNo) (t : Thread) : (s.setThread k t).isolation = s.isolation := by unfold State.setThread; split <;> rfl
@[simp] theorem setThread_links (s : State) (k : SlotNo) (t : Thread) : (s.setThread k t).links = s.links := by unfold State.setThread; split <;> rfl
@[simp] theorem setThread_portsRetired (s : State) (k : SlotNo) (t : Thread) : (s.setThread k t).portsRetired = s.portsRetired := by unfold State.setThread; split <;> rfl
@[simp] theorem setThread_deviceId (s : State) (k : SlotNo) (t : Thread) : (s.setThread k t).deviceId = s.deviceId := by unfold State.setThread; split <;> rfl
@[simp] theorem setThread_domain (s : State) (k : SlotNo) (t : Thread) : (s.setThread k t).domain = s.domain := by unfold State.setThread; split <;> rfl
@[simp] theorem setThread_parts (s : State) (k : SlotNo) (t : Thread) : (s.setThread k t).parts = s.parts := by unfold State.setThread; split <;> rfl
@[simp] theorem setThread_rings (s : State) (k : SlotNo) (t : Thread) : (s.setThread k t).rings = s.rings := by unfold State.setThread; split <;> rfl
@[simp] theorem setThread_queues (s : State) (k : SlotNo) (t : Thread) : (s.setThread k t).queues = s.queues := by unfold State.setThread; split <;> rfl
@[simp] theorem setThread_launches (s : State) (k : SlotNo) (t : Thread) : (s.setThread k t).launches = s.launches := by unfold State.setThread; split <;> rfl
@[simp] theorem setThread_launchId (s : State) (k : SlotNo) (t : Thread) : (s.setThread k t).launchId = s.launchId := by unfold State.setThread; split <;> rfl
@[simp] theorem setThread_seq (s : State) (k : SlotNo) (t : Thread) : (s.setThread k t).seq = s.seq := by unfold State.setThread; split <;> rfl
@[simp] theorem setThread_parked (s : State) (k : SlotNo) (t : Thread) : (s.setThread k t).parked = s.parked := by unfold State.setThread; split <;> rfl
@[simp] theorem setThread_saved (s : State) (k : SlotNo) (t : Thread) : (s.setThread k t).saved = s.saved := by unfold State.setThread; split <;> rfl
@[simp] theorem setThread_groups (s : State) (k : SlotNo) (t : Thread) : (s.setThread k t).groups = s.groups := by unfold State.setThread; split <;> rfl
@[simp] theorem setThread_gLast (s : State) (k : SlotNo) (t : Thread) : (s.setThread k t).gLast = s.gLast := by unfold State.setThread; split <;> rfl
@[simp] theorem setThread_early (s : State) (k : SlotNo) (t : Thread) : (s.setThread k t).early = s.early := by unfold State.setThread; split <;> rfl
@[simp] theorem setThread_msix (s : State) (k : SlotNo) (t : Thread) : (s.setThread k t).msix = s.msix := by unfold State.setThread; split <;> rfl
@[simp] theorem setThread_reports (s : State) (k : SlotNo) (t : Thread) : (s.setThread k t).reports = s.reports := by unfold State.setThread; split <;> rfl
@[simp] theorem setThread_power (s : State) (k : SlotNo) (t : Thread) : (s.setThread k t).power = s.power := by unfold State.setThread; split <;> rfl
@[simp] theorem setThread_time (s : State) (k : SlotNo) (t : Thread) : (s.setThread k t).time = s.time := by unfold State.setThread; split <;> rfl
@[simp] theorem setThread_dieTime (s : State) (k : SlotNo) (t : Thread) : (s.setThread k t).dieTime = s.dieTime := by unfold State.setThread; split <;> rfl
@[simp] theorem setThread_timeOffset (s : State) (k : SlotNo) (t : Thread) : (s.setThread k t).timeOffset = s.timeOffset := by unfold State.setThread; split <;> rfl
@[simp] theorem setThread_halfRate (s : State) (k : SlotNo) (t : Thread) : (s.setThread k t).halfRate = s.halfRate := by unfold State.setThread; split <;> rfl
@[simp] theorem setThread_slewPart (s : State) (k : SlotNo) (t : Thread) : (s.setThread k t).slewPart = s.slewPart := by unfold State.setThread; split <;> rfl
@[simp] theorem setThread_lockState (s : State) (k : SlotNo) (t : Thread) : (s.setThread k t).lockState = s.lockState := by unfold State.setThread; split <;> rfl
@[simp] theorem setThread_ptpPort (s : State) (k : SlotNo) (t : Thread) : (s.setThread k t).ptpPort = s.ptpPort := by unfold State.setThread; split <;> rfl
@[simp] theorem setThread_traces (s : State) (k : SlotNo) (t : Thread) : (s.setThread k t).traces = s.traces := by unfold State.setThread; split <;> rfl
@[simp] theorem setThread_events (s : State) (k : SlotNo) (t : Thread) : (s.setThread k t).events = s.events := by unfold State.setThread; split <;> rfl
@[simp] theorem setThread_evts (s : State) (k : SlotNo) (t : Thread) : (s.setThread k t).evts = s.evts := by unfold State.setThread; split <;> rfl
@[simp] theorem setThread_waitns (s : State) (k : SlotNo) (t : Thread) : (s.setThread k t).waitns = s.waitns := by unfold State.setThread; split <;> rfl
@[simp] theorem setThread_waitMark (s : State) (k : SlotNo) (t : Thread) : (s.setThread k t).waitMark = s.waitMark := by unfold State.setThread; split <;> rfl
@[simp] theorem setThread_dbg (s : State) (k : SlotNo) (t : Thread) : (s.setThread k t).dbg = s.dbg := by unfold State.setThread; split <;> rfl
@[simp] theorem setThread_boot (s : State) (k : SlotNo) (t : Thread) : (s.setThread k t).boot = s.boot := by unfold State.setThread; split <;> rfl

end Sys2Proof.Machine
end

