-- ==== Sys2Proof/Laws/Trap.lean ====
section
/-!
SUPPORT. What the shared operations of every instruction can change: an event, taking a trap, a debugger's stop, the retirement
of an instruction and its issue.
-/
namespace Sys2Proof.Machine

/-- An event changes the queue of events alone. -/
theorem emit_frame (s : State) (kind src vf payload : Nat) (st : Option (BitVec 384)) :
    ∃ ev, s.emit kind src vf payload st = { s with events := ev } := by
  unfold State.emit
  split
  · exact ⟨_, rfl⟩
  · exact ⟨s.events, rfl⟩

theorem emitItem_frame (s : State) (kind payload : Nat) : ∃ ev, s.emitItem kind payload = { s with events := ev } := by
  unfold State.emitItem
  split
  · exact emit_frame ..
  · exact ⟨s.events, rfl⟩

theorem emitSlot_frame (s : State) (k : SlotNo) (kind payload : Nat) : ∃ ev, s.emitSlot k kind payload = { s with events := ev } := by
  unfold State.emitSlot
  split
  · exact emit_frame ..
  · exact ⟨s.events, rfl⟩

/-- What a slot that leaves its queues changes. -/
theorem leaveQueues_frame (s : State) : ∃ cl q,
    s.leaveQueues = { s with clusters := cl, feq := q, thr := { s.thr with waiting := false, granted := none, growing := none } } := by
  unfold State.leaveQueues
  split
  · exact ⟨s.clusters, _, rfl⟩
  · exact ⟨_, _, rfl⟩

/-- Entering a trap changes the thread, the queues that its slot waited in and the events; nothing else (20 R384). -/
theorem enterTrap_frame (s : State) (t : Trap) : ∃ thr cl q ev,
    s.enterTrap t = { s with thr := thr, clusters := cl, feq := q, events := ev } := by
  obtain ⟨cl, q, hq⟩ := leaveQueues_frame s
  unfold State.enterTrap
  generalize s.leaveQueues = u at *
  dsimp only
  split
  · exact ⟨_, cl, q, s.events, by rw [hq]; rfl⟩
  · generalize hx : u.withThr (u.thr.trapRegs t u.thr.here) = x
    obtain ⟨ev, he⟩ := emitItem_frame x 0x10 t.cause.toNat
    rw [he]
    split
    · exact ⟨_, cl, q, ev, by rw [← hx, hq]; rfl⟩
    · exact ⟨_, cl, q, ev, by rw [← hx, hq]; rfl⟩

/-- So does taking one, or waiting to take it. -/
theorem takeTrap_frame (s : State) (t : Trap) : ∃ thr cl q ev,
    s.takeTrap t = { s with thr := thr, clusters := cl, feq := q, events := ev } := by
  unfold State.takeTrap
  split
  · obtain ⟨cl, q, hq⟩ := leaveQueues_frame s
    exact ⟨_, cl, q, s.events, by rw [hq]; rfl⟩
  · exact enterTrap_frame s t

/-- A debugger's stop changes what a trap does, and the slot's debug registers (23 R441). -/
theorem debugStop_frame (s : State) (r : Nat) : ∃ thr cl q ev d,
    s.debugStop r = { s with thr := thr, clusters := cl, feq := q, events := ev, dbg := d } := by
  obtain ⟨cl, q, hq⟩ := leaveQueues_frame s
  unfold State.debugStop State.leaveEvery
  generalize s.leaveQueues = u at *
  dsimp only
  generalize hx : ({ (State.withThr _ _) with thr := _, dbg := _ } : State) = x
  obtain ⟨ev, he⟩ := emitItem_frame x 0x3F r
  exact ⟨_, cl, _, ev, _, by rw [he, ← hx, hq]; rfl⟩

/-- A stop before an instruction takes back at most a long access that waits for what may never come (17 R363). -/
theorem stopHere_frame (s : State) (r : Nat) : ∃ thr cl q ev d,
    s.stopHere r = { s with thr := thr, clusters := cl, feq := q, events := ev, dbg := d } := by
  have hr : ∃ q thr, s.rewound = { s with feq := q, thr := thr } := by
    unfold State.rewound
    split
    · split
      · exact ⟨_, _, rfl⟩
      · exact ⟨s.feq, s.thr, rfl⟩
    · exact ⟨s.feq, s.thr, rfl⟩
  obtain ⟨q, thr, hq⟩ := hr
  unfold State.stopHere
  dsimp only
  split
  · exact ⟨_, s.clusters, q, s.events, s.dbg, by rw [hq]; rfl⟩
  · obtain ⟨thr', cl, q', ev, d, h⟩ := debugStop_frame s.rewound r
    exact ⟨thr', cl, q', ev, d, by rw [h, hq]⟩

@[simp] theorem takeTrap_mem (s : State) (t : Trap) : (s.takeTrap t).mem = s.mem := by
  obtain ⟨_, _, _, _, h⟩ := takeTrap_frame s t
  rw [h]

@[simp] theorem debugStop_mem (s : State) (r : Nat) : (s.debugStop r).mem = s.mem := by
  obtain ⟨_, _, _, _, _, h⟩ := debugStop_frame s r
  rw [h]

@[simp] theorem stopHere_mem (s : State) (r : Nat) : (s.stopHere r).mem = s.mem := by
  obtain ⟨_, _, _, _, _, h⟩ := stopHere_frame s r
  rw [h]

/-! ### Retirement and issue keep main memory -/


@[simp] theorem setX_mem (s : State) (n : BitVec 6) (v : Word) : (s.setX n v).mem = s.mem := rfl

/-- Elements written leave main memory as it is. -/
@[simp] theorem writeElems_mem (s : State) (p : Place) (ws : List EWrite) : (s.writeElems p ws).mem = s.mem := by
  unfold State.writeElems
  dsimp only
  refine foldl_keeps (fun u => u.mem = s.mem) _ ?_ _ _ (foldl_keeps (fun u => u.mem = s.mem) _ ?_ _ s rfl)
  · intro u x hu
    split <;> exact hu
  · intro u x hu
    exact hu

@[simp] theorem walkIterEnd_mem (s : State) : s.walkIterEnd.mem = s.mem := by
  unfold State.walkIterEnd State.setCover
  dsimp only
  split <;> simp

@[simp] theorem backEdge_mem (s : State) (a : Word) (n : Nat) : (s.backEdge a n).mem = s.mem := by
  induction n generalizing s with
  | zero => rfl
  | succ n ih =>
    unfold State.backEdge
    split
    · rfl
    · split
      · rfl
      · split
        · rfl
        · split
          · by_cases hl : (‹Loop›).walker = true
            · simp [hl]
            · by_cases hx : (‹Loop›).indexed = true
              · simp [hl, hx]
              · simp [hl, hx]
          · rw [ih]
            by_cases hl : (‹Loop›).walker = true
            · simp [hl]
            · simp [hl]

/-- What follows an instruction keeps memory's form. -/
theorem fallTo_memOk (s : State) (a : Word) (h : s.memOk) : (s.fallTo a).memOk := by
  unfold State.fallTo
  split
  · exact h
  · split
    · have ht := touchRange_memOk s a (‹Loop›).stop h
      dsimp only
      split
      · exact ht
      · exact memOk_of_mem ht (backEdge_mem ..)
    · exact h

/-- Standing at the next instruction keeps memory's form. -/
theorem atNext_memOk (s : State) (h : s.memOk) : s.atNext.memOk := by
  unfold State.atNext
  split
  · exact h
  · exact memOk_of_mem (touchRange_memOk s _ _ h) rfl

@[simp] theorem issued_mem (s : State) : s.issued.mem = s.mem := by
  unfold State.issued
  dsimp only
  refine foldl_keeps (fun u => u.mem = s.mem) _ ?_ _ s rfl
  intro u k hu
  split
  · rw [setThread_mem]; exact hu
  · exact hu

@[simp] theorem retired_mem (s : State) (f : Form) (on opens : Bool) (pc : Word) (flow : Flow) :
    (s.retired f on opens pc flow).mem = s.mem := by
  simp only [State.retired, issued_mem]

/-- The retirement of an instruction keeps memory's form. -/
theorem retire_memOk (s : State) (f : Form) (on : Bool) (pc : Word) (flow : Flow) (opens : Bool) (h : s.memOk) :
    (s.retire f on pc flow opens).memOk := by
  have hv : (s.retired f on opens pc flow).memOk := memOk_of_mem h (retired_mem ..)
  unfold State.retire
  generalize s.retired f on opens pc flow = v at *
  generalize pc + BitVec.ofNat 64 (4 * f.len) = next
  unfold State.follow
  cases flow with
  | seq => exact fallTo_memOk _ _ hv
  | turn => exact fallTo_memOk _ _ hv
  | jump a => exact hv
  | skip a => exact fallTo_memOk _ _ hv
  | trapNext t =>
    dsimp only
    split
    · exact memOk_of_mem (atNext_memOk _ (fallTo_memOk v next hv)) rfl
    · exact memOk_of_mem (atNext_memOk _ (fallTo_memOk v next hv)) (takeTrap_mem ..)
  | stopNext r =>
    dsimp only
    split
    · exact memOk_of_mem (atNext_memOk _ (fallTo_memOk v next hv)) rfl
    · exact memOk_of_mem (atNext_memOk _ (fallTo_memOk v next hv)) (debugStop_mem ..)
  | set => exact hv

/-- An instruction keeps memory's form where its effect does, on a true guard and on a false one. -/
theorem issueWith_memOk (f : Form) (off : State → Done) (body : State → Res Done) (s t : State) (h : s.memOk)
    (ho : (off s).st.memOk) (hb : ∀ d, body s = .ok d → d.st.memOk) (hw : ∀ u, body s = .error (.wait u) → u.memOk)
    (ht : issueWith f off body s = .next t) : t.memOk := by
  unfold issueWith at ht
  cases hg : s.gate f <;> rw [hg] at ht
  · rcases hr : body s with (_ | u | _) | d <;> simp only [hr] at ht <;> (repeat' split at ht) <;> cases ht
    all_goals first
      | exact memOk_of_mem h (takeTrap_mem ..)
      | exact memOk_of_mem h (stopHere_mem ..)
      | exact memOk_of_mem (hw u hr) rfl
      | exact retire_memOk _ _ _ _ _ _ (hb d hr)
  · cases ht; exact retire_memOk _ _ _ _ _ _ ho
  · cases ht; exact memOk_of_mem h (takeTrap_mem ..)
  · cases ht; exact h
  · cases ht; exact memOk_of_mem h (stopHere_mem ..)

/-- An event answers a next state. -/
theorem event_next (f : State → Option State) (s : State) : event f s = .next ((f s).getD s) := rfl

/-- An event that keeps memory's form where it happens keeps it. -/
theorem event_memOk (f : State → Option State) (s t : State) (h : s.memOk) (hf : ∀ u, f s = some u → u.memOk)
    (ht : event f s = .next t) : t.memOk := by
  cases ht
  cases hc : f s with
  | none => exact h
  | some u => exact hf u hc

end Sys2Proof.Machine
end

