-- ==== Sys2Proof/Tests/Slice0.lean ====
section
/-!
SUPPORT. The author's own tests: ill-formed terms that the field checks refuse, words of the spec that decode to what they
stand for, single steps on small states, and for every statement with hypotheses states and operands that meet them.
-/
namespace Sys2Proof.Tests
set_option Elab.async false

/-! ### Terms -/

/-- An unguarded first parcel. -/
def gp : Hd := ⟨7, 0⟩
/-- One with LA 2. -/
def la2 : Hd := ⟨7, 2⟩
def fa : FA := ⟨gp, 0, 1, 2, 0, 0, 3⟩
def fb : FB := ⟨gp, 0, 0, 0, 0, 0, 0⟩
def fm : FM := ⟨gp, 0, 1, 2, 0, 3, 0, 8⟩
def fe : FE := ⟨gp, 0, 0, 0, 0⟩
def ft : FT := ⟨gp, 2, 1, 0, 0, 0, 0, 0, 0, 0, 0, 0⟩
def fq : FQ := ⟨gp, 0, 0, 0, 0, 0, 0, 0, 0, 0, 0, 0, 0, 0, 0, 0, 0⟩
def fk : FBk := ⟨0, 0, 0, 0⟩

/-- Every term of the list is refused. -/
def refuses (l : List Instr) : Bool := l.all fun i => !i.wf
/-- Every term of the list is well formed. -/
def accepts (l : List Instr) : Bool := l.all fun i => i.wf

/-! ### Ill-formed terms (02 R31, R33, R36 and the entries of the families) -/

/-- LA outside the long-latency class. -/
theorem test_wf_lookahead :
    refuses [.add { fa with hd := la2 }, .st { fm with hd := la2 }, .movi { fb with hd := la2 }, .nop { fe with hd := la2 },
      .vadd { ft with hd := la2 }, .cpin { fq with hd := la2 }, .ste { fm with hd := la2, size := 2 }] = true
    ∧ accepts [.div { fa with hd := la2 }, .ld { fm with hd := la2 }, .aadd { fm with hd := la2 }, .fsqrt { fa with hd := la2, xb := 0 },
      .sysr { fe with hd := la2, sysn := 0x000 }, .ppany { ft with hd := la2, td := 0, xs := 3 },
      .nredx { ft with hd := la2, td := 0, xs := 3 }, .wptr { fq with hd := la2 }, .bkstat { fq with hd := la2 }] = true := by decide

/-- Format A: the second operand is a register or an immediate, and fields that a form does not use are zero. -/
theorem test_wf_format_a :
    refuses [.add { fa with imm := 1 }, .add { fa with ib := 1 }, .clz fa, .clz { fa with xb := 0, ib := 1 },
      .sel { fa with imm := 16 }, .sel { fa with ib := 1 }, .ceq { fa with xd := 8 }, .pand { fa with xd := 3, xa := 8 },
      .pand { fa with xd := 3, xb := 9 }, .pand { fa with sz := 1 }, .pnot fa, .pnot { fa with xb := 0, xa := 8 }, .pget { fa with sz := 1 },
      .fadd { fa with sz := 2 }, .fadd { fa with ib := 1, xb := 0 }, .fceq { fa with xd := 8 }, .fsqrt fa, .fabs fa] = true
    ∧ accepts [.add fa, .add { fa with ib := 1, imm := 0xFFFF, xb := 0 }, .clz { fa with xb := 0 }, .sel { fa with imm := 15 },
      .ceq { fa with xd := 7 }, .pand { fa with xa := 7, xb := 7, xd := 7 }, .fma fa, .fceq { fa with xd := 7 }] = true := by decide

/-- FCVT: its codes; the stack forms: their immediates and the registers of a mask. -/
theorem test_wf_fcvt_and_stack :
    refuses [.fcvt { fa with xb := 0, imm := 0x0106 }, .fcvt { fa with xb := 0, ib := 1, imm := 0x0103 },
      .fcvt { fa with xb := 0, ib := 1, imm := 0x010B }, .fcvt { fa with xb := 0, ib := 1, imm := 0x1506 },
      .fcvt { fa with xb := 0, ib := 1, imm := 0x4106 }, .fcvt { fa with xb := 0, ib := 1, imm := 0x0066 },
      .enter { fa with xa := 0, xd := 0, xb := 0, ib := 1, imm := 0 }, .enter { fa with xa := 0, xd := 0, xb := 0, ib := 1, imm := 24 },
      .enter { fa with xa := 0, xd := 0, xb := 0, ib := 1, imm := 0x8000 }, .enter { fa with xa := 0, xb := 0, ib := 1, imm := 32 },
      .leavef { fa with xa := 0, xd := 0, xb := 1 }, .spill { fa with xd := 60, xb := 0, ib := 1, imm := 16 },
      .spill { fa with xb := 0, imm := 1 }, .spill { fa with sz := 1, xb := 0, ib := 1, imm := 1 }] = true
    ∧ accepts [.fcvt { fa with xb := 0, ib := 1, imm := 0x3106 }, .enter { fa with xa := 0, xd := 0, xb := 0, ib := 1, imm := 32752 },
      .enter { fa with xa := 0, xd := 0, xb := 0, ib := 1, imm := 16 }, .leavef { fa with xa := 0, xd := 0, xb := 0 },
      .spill { fa with xd := 60, xb := 0, ib := 1, imm := 9 }] = true := by decide

/-- Format B: branches and loops, immediates, scheduling. -/
theorem test_wf_format_b :
    refuses [.br { fb with xd := 1 }, .br { fb with sz := 1 }, .brl { fb with imm16 := 1 }, .ret { fb with imm32 := 4 }, .jt { fb with xd := 1 },
      .loop { fb with imm32 := 4 }, .loop { fb with xd := 3, imm32 := 9 }, .loopx { fb with imm32 := 0xFFFFFFFF }, .lbrk { fb with xa := 1 },
      .movi { fb with sz := 1 }, .movi { fb with xa := 1 }, .addi { fb with xb := 1 }, .ptrmk { fb with xb := 1 },
      .ptrsp { fb with imm16 := 16 }, .ptrrk { fb with imm32 := 1 }, .ptroff { fb with imm16 := 1 }, .pladr { fb with sz := 1 },
      .spawn { fb with imm16 := 64 }, .cont { fb with xb := 1 }, .park { fb with xd := 1 }, .gnew { fb with imm16 := 0 },
      .gnew { fb with imm16 := 4097 }, .gnew { fb with imm16 := 4, imm32 := 0x8100 }, .joinGroup { fb with imm16 := 1 },
      .leaveGroup { fb with xd := 1 }, .gbar { fb with xa := 1 }, .launch { fb with imm32 := 1 }, .plotinfo { fb with imm32 := 2 }] = true
    ∧ accepts [.loop { fb with imm32 := 5 }, .loopx { fb with imm32 := 5, imm16 := 0xFFFF }, .ptrsp { fb with imm16 := 15 },
      .spawn { fb with imm16 := 63 }, .gnew { fb with imm16 := 4096, imm32 := 0x8000 }, .gnew { fb with imm16 := 1 },
      .plotinfo { fb with imm32 := 1 }, .pladr { fb with imm32 := 0x1FFF }] = true := by decide

/-- Format M: the index, the size, the alignment code, the pair. -/
theorem test_wf_format_m :
    refuses [.ld { fm with scl := 1 }, .ld { fm with size := 5 }, .ld { fm with at' := 1, size := 2 }, .ld { fm with at' := 2 },
      .ld { fm with at' := 3 }, .ld { fm with size := 4, xd := 3 }, .pref { fm with size := 0 }, .pref { fm with xd := 0, size := 1 },
      .ldf fm, .ldf { fm with size := 2, at' := 1 }, .aadd { fm with size := 1 }, .aadd { fm with scl := 1, xb := 3 },
      .aadd { fm with at' := 1 }, .afadd fm] = true
    ∧ accepts [.ld { fm with scl := 3, xb := 4 }, .ld { fm with at' := 1 }, .st { fm with at' := 2, size := 4 },
      .pref { fm with xd := 0, size := 0 }, .ldf { fm with size := 2 }, .aadd fm, .afadd { fm with size := 2 }] = true := by decide

/-- Format E: system registers, order codes, hints. -/
theorem test_wf_format_e :
    refuses [.nop { fe with xa := 1 }, .nop { fe with imm12 := 1 }, .trap { fe with sysn := 256 }, .brk { fe with xd := 1 },
      .sysr { fe with sysn := 0x0FF }, .sysr { fe with xa := 1 }, .sysw { fe with sysn := 0x000 }, .sysw { fe with xd := 1, sysn := 0x243 },
      .sysx { fe with sysn := 0x000 }, .tstamp { fe with sysn := 1 }, .evt { fe with sysn := 0x7F }, .evt { fe with sysn := 0x100 },
      .ord { fe with sysn := 5 }, .ord { fe with sysn := 0x20 }, .fence { fe with sysn := 0x40 }, .qfence { fe with sysn := 1 },
      .pwrhint { fe with sysn := 4 }, .chgrd { fe with sysn := 3 }] = true
    ∧ accepts [.trap { fe with sysn := 255 }, .sysr { fe with sysn := 0x000 }, .sysw { fe with sysn := 0x241 }, .evt { fe with sysn := 0x80 },
      .ord { fe with sysn := 0x1C }, .qfence fe, .pwrhint { fe with sysn := 3 }, .chgrd { fe with sysn := 2 }] = true := by decide

/-- Format T: unused fields, codes, the four registers of a descriptor. -/
theorem test_wf_format_t :
    refuses [.vadd { ft with xs := 1 }, .vadd { ft with imm18 := 1 }, .vadd { ft with rnd := 5 }, .vadd { ft with wa := 9 },
      .vadd { ft with wb := 15 }, .vabs { ft with tb := 1 }, .vmin { ft with sat := 1 }, .tdset { ft with ta := 0, xs := 5 },
      .tdset { ft with ta := 0, xs := 0 }, .tdset { ft with ta := 0, td := 0, xs := 4 }, .tdget { ft with td := 1, xs := 4 },
      .tdmove { ft with td := 0 }, .edset { ft with ta := 0, td := 0, xs := 1 }, .vbcast ft, .vrot { ft with tb := 1 },
      .vxch { ft with imm18 := 1024 }, .vredc { ft with imm18 := 3 }, .vscanc { ft with imm18 := 3 }, .vdotc { ft with imm18 := 2 },
      .ppset ft, .ppset { ft with ta := 0, imm18 := 2 }, .ppcnt { ft with td := 1 }, .feset { ft with ta := 1 }, .scrollx { ft with imm18 := 8 },
      .plcopy { ft with tc := 1 }, .plfill ft, .nredr { ft with imm18 := 3 }, .nredx { ft with td := 0, imm18 := 3 }, .nbcr { ft with sat := 1 },
      .dred { ft with tc := 1 }, .vaadd { ft with wa := 1 }] = true
    ∧ accepts [.vadd { ft with rnd := 4, wa := 8, wb := 8, sat := 1, edg := 7 }, .tdset { ft with ta := 0, xs := 60 }, .vxch { ft with imm18 := 512 },
      .vrot { ft with imm18 := 1 }, .vscanc { ft with imm18 := 6 }, .scrollx { ft with imm18 := 7, xs := 5 }, .vfma { ft with tb := 3 },
      .edset { ft with ta := 0, td := 0, edg := 7, xs := 1 }, .nredr { ft with imm18 := 2 }] = true := by decide

/-- Format Q: unused fields, exponents, end offsets, the walker's immediates. -/
theorem test_wf_format_q :
    refuses [.wld { fq with td := 1 }, .wswap { fq with tb := 1 }, .mstream { fq with imm32 := 1 }, .accz { fq with imm32 := 2048 },
      .accz { fq with imm32 := 1, flg := 1 }, .accz { fq with flg := 2 }, .accrd { fq with flg := 5 }, .accnrm { fq with imm32 := 0xFFFFF7FF },
      .cpin { fq with tb := 1 }, .cpg { fq with xa := 1 }, .cpp { fq with tb := 1 }, .cpm { fq with imm32 := 1 }, .seal { fq with ch := 1 },
      .waitb { fq with imm32 := 16 }, .wptr { fq with xa := 1 }, .bkload { fq with flg := 2 }, .bkact { fq with td := 1 },
      .bkcall { fq with flg := 4 }, .bkwait { fq with flg := 1, xa := 1 }, .bkwait { fq with flg := 2 }, .bkstat { fq with xb := 1 },
      .owloop { fq with imm32 := 4 }, .owwin { fq with imm32 := 0x82 }, .owwin { fq with imm32 := 1 }, .owwin { fq with imm32 := 13 },
      .owdecl { fq with imm32 := 8 }, .owchk { fq with flg := 1 }, .owstat { fq with imm32 := 2 }] = true
    ∧ accepts [.accz { fq with imm32 := 2047 }, .accz { fq with imm32 := 0xFFFFF800 }, .accrd { fq with flg := 4 }, .waitb { fq with imm32 := 15 },
      .bkcall { fq with flg := 3 }, .bkwait { fq with flg := 1 }, .bkwait { fq with xa := 1 }, .owloop { fq with imm32 := 5 },
      .owwin { fq with imm32 := 0x7C }, .owwin { fq with imm32 := 2 }, .owdecl { fq with imm32 := 7 }, .owstat { fq with imm32 := 1 }] = true := by decide

/-- Bank words: unused fields, accumulators a0 to a7. -/
theorem test_wf_bank :
    refuses [.bli { fk with rt := 1 }, .bli { fk with rs := 1 }, .baddi { fk with rt := 1 }, .badd { fk with imm14 := 1 },
      .bsub { fk with imm14 := 1 }, .bmul { fk with imm14 := 1 }, .bbz { fk with rd := 1 }, .bbnz { fk with rt := 1 }, .bloop { fk with rs := 1 },
      .bza { fk with rd := 8 }, .bmac { fk with rd := 8 }, .bfmt { fk with rd := 1 }, .bscl { fk with rd := 1 }, .brda { fk with rs := 8 },
      .bsend { fk with rs := 8 }, .brd { fk with rt := 1 }, .bwr { fk with rd := 1 }, .bsig { fk with rd := 1 }, .bwait { fk with rd := 1 }] = true
    ∧ accepts [.bza { fk with rd := 7, rt := 2 }, .bmac ⟨1, 8, 4, 7⟩, .bsend ⟨0x3FFF, 3, 7, 0⟩, .bnop, .bhalt] = true := by decide

/-! ### Words written out from the spec's encodings -/

/-- These parcels are one instruction, and this one. -/
def reads (ps : List Parcel) (i : Instr) : Bool := decode ps == .ok (i, ps.length)
/-- CTRL (02 R42, R28): format E, OPC 0x00. -/
theorem test_decode_ctrl :
    (reads [0x0001C000, 0x00000000] (.nop ⟨gp, 0, 0, 0, 0⟩)
      && reads [0x0001C000, 0x00001000] (.exitThread ⟨gp, 0, 0, 0, 0⟩)
      && reads [0x0001C000, 0x00002000] (.yieldSlot ⟨gp, 0, 0, 0, 0⟩)
      && reads [0x0001C000, 0x000030A5] (.trap ⟨gp, 0, 0, 0, 165⟩)
      && reads [0x0001C000, 0x00004000] (.eret ⟨gp, 0, 0, 0, 0⟩)
      && reads [0x0085C000, 0x00005000] (.sysr ⟨gp, 0, 33, 0, 0⟩)
      && reads [0x1201C000, 0x00006241] (.sysw ⟨gp, 18, 0, 0, 577⟩)
      && reads [0x1285C000, 0x00007102] (.sysx ⟨gp, 18, 33, 0, 258⟩)
      && reads [0x0001C000, 0x0000805A] (.brk ⟨gp, 0, 0, 0, 90⟩)
      && reads [0x0085C000, 0x00009000] (.tstamp ⟨gp, 0, 33, 0, 0⟩)
      && reads [0x1201C000, 0x0000A095] (.evt ⟨gp, 18, 0, 0, 149⟩)) = true := by decide

/-- BRANCH (02 R42, R26): format B, OPC 0x01. -/
theorem test_decode_branch :
    (reads [0x0001C005, 0x00000000, 0xFFFFFFF9] (.br ⟨gp, 0, 0, 0, 0, 0, 0xfffffff9⟩)
      && reads [0x00F9C005, 0x00000001, 0x00001234] (.brl ⟨gp, 0, 0, 62, 0, 0, 0x1234⟩)
      && reads [0x3E01C005, 0x00000002, 0x00000000] (.ret ⟨gp, 0, 62, 0, 0, 0, 0⟩)
      && reads [0x1201C005, 0x20004003, 0xFFFF0003] (.jt ⟨gp, 0, 18, 0, 0x8001, 0, 0xffff0003⟩)
      && reads [0x1285C005, 0x20004004, 0xFFFF0003] (.jtl ⟨gp, 0, 18, 33, 0x8001, 0, 0xffff0003⟩)
      && reads [0x1201C005, 0x00000005, 0x00000015] (.loop ⟨gp, 0, 18, 0, 0, 0, 21⟩)
      && reads [0x1285C005, 0x20008006, 0x00000016] (.loopx ⟨gp, 0, 18, 33, 0x8002, 0, 22⟩)
      && reads [0x0001C005, 0x00000007, 0x00000000] (.lbrk ⟨gp, 0, 0, 0, 0, 0, 0⟩)) = true := by decide

/-- IALU (02 R42, R25): format A, OPC 0x10. -/
theorem test_decode_ialu_1 :
    (reads [0x5285C040, 0x0000002A] (.add ⟨gp, 1, 18, 33, 0, 0, 42⟩)
      && reads [0xD285C040, 0x00E10840] (.sub ⟨gp, 3, 18, 33, 1, 0x8421, 0⟩)
      && reads [0x5285C040, 0x0100002A] (.mul ⟨gp, 1, 18, 33, 0, 0, 42⟩)
      && reads [0xD285C040, 0x01E10840] (.mulh ⟨gp, 3, 18, 33, 1, 0x8421, 0⟩)
      && reads [0x5285C040, 0x0200002A] (.mulhu ⟨gp, 1, 18, 33, 0, 0, 42⟩)
      && reads [0xD285C040, 0x02E10840] (.div ⟨gp, 3, 18, 33, 1, 0x8421, 0⟩)
      && reads [0x5285C040, 0x0300002A] (.divu ⟨gp, 1, 18, 33, 0, 0, 42⟩)
      && reads [0xD285C040, 0x03E10840] (.rem ⟨gp, 3, 18, 33, 1, 0x8421, 0⟩)
      && reads [0x5285C040, 0x0400002A] (.remu ⟨gp, 1, 18, 33, 0, 0, 42⟩)
      && reads [0xD285C040, 0x04E10840] (.and ⟨gp, 3, 18, 33, 1, 0x8421, 0⟩)
      && reads [0x5285C040, 0x0500002A] (.or ⟨gp, 1, 18, 33, 0, 0, 42⟩)
      && reads [0xD285C040, 0x05E10840] (.xor ⟨gp, 3, 18, 33, 1, 0x8421, 0⟩)) = true := by decide
/-- IALU, the next of them. -/
theorem test_decode_ialu_2 :
    (reads [0x5285C040, 0x0600002A] (.andn ⟨gp, 1, 18, 33, 0, 0, 42⟩)
      && reads [0xD285C040, 0x06E10840] (.shl ⟨gp, 3, 18, 33, 1, 0x8421, 0⟩)
      && reads [0x5285C040, 0x0700002A] (.shr ⟨gp, 1, 18, 33, 0, 0, 42⟩)
      && reads [0xD285C040, 0x07E10840] (.sar ⟨gp, 3, 18, 33, 1, 0x8421, 0⟩)
      && reads [0x5285C040, 0x0800002A] (.min ⟨gp, 1, 18, 33, 0, 0, 42⟩)
      && reads [0xD285C040, 0x08E10840] (.minu ⟨gp, 3, 18, 33, 1, 0x8421, 0⟩)
      && reads [0x5285C040, 0x0900002A] (.max ⟨gp, 1, 18, 33, 0, 0, 42⟩)
      && reads [0xD285C040, 0x09E10840] (.maxu ⟨gp, 3, 18, 33, 1, 0x8421, 0⟩)
      && reads [0x9285C040, 0x0A000000] (.clz ⟨gp, 2, 18, 33, 0, 0, 0⟩)
      && reads [0x9285C040, 0x0A800000] (.ctz ⟨gp, 2, 18, 33, 0, 0, 0⟩)
      && reads [0x9285C040, 0x0B000000] (.popc ⟨gp, 2, 18, 33, 0, 0, 0⟩)
      && reads [0x9285C040, 0x0B800000] (.brev ⟨gp, 2, 18, 33, 0, 0, 0⟩)) = true := by decide
/-- IALU, the next of them. -/
theorem test_decode_ialu_3 :
    (reads [0x5285C040, 0x0C00002A] (.exts ⟨gp, 1, 18, 33, 0, 0, 42⟩)
      && reads [0xD285C040, 0x0CE10840] (.extz ⟨gp, 3, 18, 33, 1, 0x8421, 0⟩)
      && reads [0x5285C040, 0x0D00002A] (.ins ⟨gp, 1, 18, 33, 0, 0, 42⟩)
      && reads [0x5285C040, 0x0D80036A] (.sel ⟨gp, 1, 18, 33, 0, 13, 42⟩)) = true := by decide

/-- ICMP (02 R42, R25): format A, OPC 0x11. -/
theorem test_decode_icmp :
    (reads [0x5215C044, 0x0000002A] (.ceq ⟨gp, 1, 18, 5, 0, 0, 42⟩)
      && reads [0xD215C044, 0x00E10840] (.cne ⟨gp, 3, 18, 5, 1, 0x8421, 0⟩)
      && reads [0x5215C044, 0x0100002A] (.clt ⟨gp, 1, 18, 5, 0, 0, 42⟩)
      && reads [0xD215C044, 0x01E10840] (.cle ⟨gp, 3, 18, 5, 1, 0x8421, 0⟩)
      && reads [0x5215C044, 0x0200002A] (.cltu ⟨gp, 1, 18, 5, 0, 0, 42⟩)
      && reads [0xD215C044, 0x02E10840] (.cleu ⟨gp, 3, 18, 5, 1, 0x8421, 0⟩)
      && reads [0x0615C044, 0x03000003] (.pand ⟨gp, 0, 6, 5, 0, 0, 3⟩)
      && reads [0x0615C044, 0x03800003] (.por ⟨gp, 0, 6, 5, 0, 0, 3⟩)
      && reads [0x0615C044, 0x04000003] (.pxor ⟨gp, 0, 6, 5, 0, 0, 3⟩)
      && reads [0x0615C044, 0x04800000] (.pnot ⟨gp, 0, 6, 5, 0, 0, 0⟩)
      && reads [0x0615C044, 0x05000000] (.pmov ⟨gp, 0, 6, 5, 0, 0, 0⟩)
      && reads [0x1215C044, 0x0580002A] (.pget ⟨gp, 0, 18, 5, 0, 0, 42⟩)) = true := by decide

/-- IMM (02 R42, R26): format B, OPC 0x12. -/
theorem test_decode_imm :
    (reads [0x0085C049, 0x00000000, 0x87654321] (.movi ⟨gp, 0, 0, 33, 0, 0, 0x87654321⟩)
      && reads [0x0085C049, 0x00000001, 0x87654321] (.movhi ⟨gp, 0, 0, 33, 0, 0, 0x87654321⟩)
      && reads [0x9285C049, 0x00000002, 0x87654321] (.addi ⟨gp, 2, 18, 33, 0, 0, 0x87654321⟩)
      && reads [0x1285C049, 0x200C8003, 0x87654321] (.ptrmk ⟨gp, 0, 18, 33, 0x8032, 0, 0x87654321⟩)
      && reads [0x1285C049, 0x0000C004, 0x00000000] (.ptrsp ⟨gp, 0, 18, 33, 3, 0, 0⟩)
      && reads [0x1285C049, 0x20006A05, 0x00000000] (.ptrrk ⟨gp, 0, 18, 33, 0x8001, 42, 0⟩)
      && reads [0x1285C049, 0x00002A06, 0x87654321] (.ptroff ⟨gp, 0, 18, 33, 0, 42, 0x87654321⟩)
      && reads [0x1285C049, 0x2004EA07, 0x00000011] (.pladr ⟨gp, 0, 18, 33, 0x8013, 42, 17⟩)) = true := by decide

/-- FALU (02 R42, R25): format A, OPC 0x20. -/
theorem test_decode_falu_1 :
    (reads [0x1285C080, 0x0000002A] (.fadd ⟨gp, 0, 18, 33, 0, 0, 42⟩)
      && reads [0x5285C080, 0x0080002A] (.fsub ⟨gp, 1, 18, 33, 0, 0, 42⟩)
      && reads [0x1285C080, 0x0100002A] (.fmul ⟨gp, 0, 18, 33, 0, 0, 42⟩)
      && reads [0x5285C080, 0x0180002A] (.fma ⟨gp, 1, 18, 33, 0, 0, 42⟩)
      && reads [0x1285C080, 0x0200002A] (.fdiv ⟨gp, 0, 18, 33, 0, 0, 42⟩)
      && reads [0x5285C080, 0x02800000] (.fsqrt ⟨gp, 1, 18, 33, 0, 0, 0⟩)
      && reads [0x5285C080, 0x03000000] (.frsq ⟨gp, 1, 18, 33, 0, 0, 0⟩)
      && reads [0x5285C080, 0x0380002A] (.fmin ⟨gp, 1, 18, 33, 0, 0, 42⟩)
      && reads [0x1285C080, 0x0400002A] (.fmax ⟨gp, 0, 18, 33, 0, 0, 42⟩)
      && reads [0x5285C080, 0x04800000] (.fabs ⟨gp, 1, 18, 33, 0, 0, 0⟩)
      && reads [0x5285C080, 0x05000000] (.fneg ⟨gp, 1, 18, 33, 0, 0, 0⟩)
      && reads [0x5215C080, 0x0580002A] (.fceq ⟨gp, 1, 18, 5, 0, 0, 42⟩)) = true := by decide
/-- FALU, the next of them. -/
theorem test_decode_falu_2 :
    (reads [0x5215C080, 0x0600002A] (.fclt ⟨gp, 1, 18, 5, 0, 0, 42⟩)
      && reads [0x5215C080, 0x0680002A] (.fcle ⟨gp, 1, 18, 5, 0, 0, 42⟩)
      && reads [0x1285C080, 0x074C4180] (.fcvt ⟨gp, 0, 18, 33, 1, 0x3106, 0⟩)
      && reads [0x5285C080, 0x07800000] (.fclass ⟨gp, 1, 18, 33, 0, 0, 0⟩)) = true := by decide

/-- MEM (02 R42, R27): format M, OPC 0x30. -/
theorem test_decode_mem :
    (reads [0xD289E4C1, 0x0000052A, 0xFEDCBA98] (.ld ⟨⟨7, 9⟩, 3, 18, 34, 2, 4, 42, 0xfedcba98⟩)
      && reads [0xD289E4C1, 0x00000D2A, 0xFEDCBA98] (.ldz ⟨⟨7, 9⟩, 3, 18, 34, 2, 4, 42, 0xfedcba98⟩)
      && reads [0x928700C1, 0x000012EA, 0xFEDCBA98] (.st ⟨⟨12, 0⟩, 2, 18, 33, 1, 3, 42, 0xfedcba98⟩)
      && reads [0x5285C0C1, 0x000018AA, 0xFEDCBA98] (.ldf ⟨gp, 1, 18, 33, 0, 2, 42, 0xfedcba98⟩)
      && reads [0x5285C0C1, 0x000020AA, 0xFEDCBA98] (.ldfe ⟨gp, 1, 18, 33, 0, 2, 42, 0xfedcba98⟩)
      && reads [0x5285C0C1, 0x000028AA, 0xFEDCBA98] (.ste ⟨gp, 1, 18, 33, 0, 2, 42, 0xfedcba98⟩)
      && reads [0x5285C0C1, 0x000030AA, 0xFEDCBA98] (.stf ⟨gp, 1, 18, 33, 0, 2, 42, 0xfedcba98⟩)
      && reads [0x5285C0C1, 0x000038AA, 0xFEDCBA98] (.feq ⟨gp, 1, 18, 33, 0, 2, 42, 0xfedcba98⟩)
      && reads [0x5201C0C1, 0x0000402A, 0x00000077] (.pref ⟨gp, 1, 18, 0, 0, 0, 42, 119⟩)) = true := by decide

/-- ATOM (02 R42, R27): format M, OPC 0x31. -/
theorem test_decode_atom :
    (reads [0x1285D4C5, 0x000000EA, 0xFEDCBA98] (.aadd ⟨⟨7, 5⟩, 0, 18, 33, 0, 3, 42, 0xfedcba98⟩)
      && reads [0x1285D4C5, 0x000008EA, 0xFEDCBA98] (.amin ⟨⟨7, 5⟩, 0, 18, 33, 0, 3, 42, 0xfedcba98⟩)
      && reads [0x1285D4C5, 0x000010EA, 0xFEDCBA98] (.amax ⟨⟨7, 5⟩, 0, 18, 33, 0, 3, 42, 0xfedcba98⟩)
      && reads [0x1285D4C5, 0x000018EA, 0xFEDCBA98] (.aminu ⟨⟨7, 5⟩, 0, 18, 33, 0, 3, 42, 0xfedcba98⟩)
      && reads [0x1285D4C5, 0x000020EA, 0xFEDCBA98] (.amaxu ⟨⟨7, 5⟩, 0, 18, 33, 0, 3, 42, 0xfedcba98⟩)
      && reads [0x1285D4C5, 0x000028EA, 0xFEDCBA98] (.aand ⟨⟨7, 5⟩, 0, 18, 33, 0, 3, 42, 0xfedcba98⟩)
      && reads [0x1285D4C5, 0x000030EA, 0xFEDCBA98] (.aor ⟨⟨7, 5⟩, 0, 18, 33, 0, 3, 42, 0xfedcba98⟩)
      && reads [0x1285D4C5, 0x000038EA, 0xFEDCBA98] (.axor ⟨⟨7, 5⟩, 0, 18, 33, 0, 3, 42, 0xfedcba98⟩)
      && reads [0x1285D4C5, 0x000040EA, 0xFEDCBA98] (.axchg ⟨⟨7, 5⟩, 0, 18, 33, 0, 3, 42, 0xfedcba98⟩)
      && reads [0x1285D4C5, 0x000048EA, 0xFEDCBA98] (.acas ⟨⟨7, 5⟩, 0, 18, 33, 0, 3, 42, 0xfedcba98⟩)
      && reads [0x1285D4C5, 0x000050AA, 0xFEDCBA98] (.afadd ⟨⟨7, 5⟩, 0, 18, 33, 0, 2, 42, 0xfedcba98⟩)) = true := by decide

/-- ORDER (02 R42, R28): format E, OPC 0x32. -/
theorem test_decode_order :
    (reads [0x0001C0C8, 0x0000001A] (.ord ⟨gp, 0, 0, 0, 26⟩)
      && reads [0x0001C0C8, 0x00001013] (.fence ⟨gp, 0, 0, 0, 19⟩)
      && reads [0x0001C0C8, 0x00002000] (.qfence ⟨gp, 0, 0, 0, 0⟩)) = true := by decide

/-- STACK (02 R42, R25): format A, OPC 0x33. -/
theorem test_decode_stack :
    (reads [0x0001C0CC, 0x005FFC00] (.enter ⟨gp, 0, 0, 0, 1, 0x7ff0, 0⟩)
      && reads [0x0001C0CC, 0x00800000] (.leavef ⟨gp, 0, 0, 0, 0, 0, 0⟩)
      && reads [0x1285C0CC, 0x01610840] (.spill ⟨gp, 0, 18, 33, 1, 0x8421, 0⟩)) = true := by decide

/-- VATOM (02 R42, R29): format T, OPC 0x34. -/
theorem test_decode_vatom :
    (reads [0x2155C0D1, 0x00500A93, 0x00000000] (.vaadd ⟨gp, 33, 21, 0, 0, 5, 0, 0, 42, 19, 0, 0⟩)
      && reads [0x2155C0D1, 0x00500A93, 0x00000001] (.vamin ⟨gp, 33, 21, 0, 0, 5, 0, 0, 42, 19, 0, 0⟩)
      && reads [0x2155C0D1, 0x00500A93, 0x00000002] (.vamax ⟨gp, 33, 21, 0, 0, 5, 0, 0, 42, 19, 0, 0⟩)
      && reads [0x2155C0D1, 0x00500A93, 0x00000003] (.vaxchg ⟨gp, 33, 21, 0, 0, 5, 0, 0, 42, 19, 0, 0⟩)
      && reads [0x2155C0D1, 0x00500A93, 0x00000004] (.vafadd ⟨gp, 33, 21, 0, 0, 5, 0, 0, 42, 19, 0, 0⟩)) = true := by decide

/-- SCHED (02 R42, R26): format B, OPC 0x40. -/
theorem test_decode_sched :
    (reads [0x1201C101, 0x000FC000, 0x00000000] (.spawn ⟨gp, 0, 18, 0, 63, 0, 0⟩)
      && reads [0x1201C101, 0x000A8001, 0x00000000] (.cont ⟨gp, 0, 18, 0, 42, 0, 0⟩)
      && reads [0x1201C101, 0x00002A02, 0xFFFFFFF0] (.park ⟨gp, 0, 18, 0, 0, 42, 0xfffffff0⟩)
      && reads [0x1285C101, 0x03FFC003, 0x00007F03] (.gnew ⟨gp, 0, 18, 33, 0xfff, 0, 0x7f03⟩)
      && reads [0x1285C101, 0x00000004, 0x00000000] (.joinGroup ⟨gp, 0, 18, 33, 0, 0, 0⟩)
      && reads [0x1201C101, 0x00000005, 0x00000000] (.leaveGroup ⟨gp, 0, 18, 0, 0, 0, 0⟩)
      && reads [0x0085C101, 0x00000006, 0x00000000] (.gbar ⟨gp, 0, 0, 33, 0, 0, 0⟩)
      && reads [0x0085C101, 0x00000007, 0x00000000] (.grank ⟨gp, 0, 0, 33, 0, 0, 0⟩)
      && reads [0x0085C101, 0x00000008, 0x00000000] (.gsize ⟨gp, 0, 0, 33, 0, 0, 0⟩)
      && reads [0x1285C101, 0x00000009, 0x00000000] (.launch ⟨gp, 0, 18, 33, 0, 0, 0⟩)
      && reads [0x1285C101, 0x0000000A, 0x00000000] (.plotgrow ⟨gp, 0, 18, 33, 0, 0, 0⟩)
      && reads [0x1285C101, 0x0000000B, 0x00000001] (.plotinfo ⟨gp, 0, 18, 33, 0, 0, 1⟩)) = true := by decide

/-- TDESC (02 R42, R29): format T, OPC 0x50. -/
theorem test_decode_tdesc :
    (reads [0x0055C141, 0x00000000, 0x00002400] (.tdset ⟨gp, 0, 21, 0, 0, 0, 0, 0, 0, 0, 0, 36⟩)
      && reads [0x2101C141, 0x00000000, 0x00002401] (.tdget ⟨gp, 33, 0, 0, 0, 0, 0, 0, 0, 0, 0, 36⟩)
      && reads [0x0055C141, 0x00000000, 0xAAAAA502] (.tdld ⟨gp, 0, 21, 0, 0, 0, 0, 0, 0, 0, 0x2aaaa, 37⟩)
      && reads [0x2101C141, 0x00000000, 0x55556503] (.tdst ⟨gp, 33, 0, 0, 0, 0, 0, 0, 0, 0, 0x15555, 37⟩)
      && reads [0x2155C141, 0x00000000, 0x00002504] (.tdmove ⟨gp, 33, 21, 0, 0, 0, 0, 0, 0, 0, 0, 37⟩)
      && reads [0x2155C141, 0x00000000, 0xAAAAA505] (.tdsub ⟨gp, 33, 21, 0, 0, 0, 0, 0, 0, 0, 0x2aaaa, 37⟩)
      && reads [0x0001C141, 0x00500000, 0x00002506] (.edset ⟨gp, 0, 0, 0, 0, 5, 0, 0, 0, 0, 0, 37⟩)
      && reads [0x0001C141, 0x00500000, 0x00002507] (.edget ⟨gp, 0, 0, 0, 0, 5, 0, 0, 0, 0, 0, 37⟩)) = true := by decide

/-- VARITH (02 R42, R29): format T, OPC 0x60. -/
theorem test_decode_varith_1 :
    (reads [0x2155C181, 0x06563A93, 0x00000000] (.vadd ⟨gp, 33, 21, 1, 4, 5, 6, 3, 42, 19, 0, 0⟩)
      && reads [0x2155C181, 0x06563A93, 0x00000001] (.vsub ⟨gp, 33, 21, 1, 4, 5, 6, 3, 42, 19, 0, 0⟩)
      && reads [0x2155C181, 0x06563A93, 0x00000002] (.vmul ⟨gp, 33, 21, 1, 4, 5, 6, 3, 42, 19, 0, 0⟩)
      && reads [0x2155C181, 0x06563A93, 0x00000003] (.vfma ⟨gp, 33, 21, 1, 4, 5, 6, 3, 42, 19, 0, 0⟩)
      && reads [0x2155C181, 0x00563A93, 0x00000004] (.vmin ⟨gp, 33, 21, 0, 0, 5, 6, 3, 42, 19, 0, 0⟩)
      && reads [0x2155C181, 0x00563A93, 0x00000005] (.vmax ⟨gp, 33, 21, 0, 0, 5, 6, 3, 42, 19, 0, 0⟩)
      && reads [0x2155C181, 0x04503A80, 0x00000006] (.vabs ⟨gp, 33, 21, 1, 0, 5, 0, 3, 42, 0, 0, 0⟩)
      && reads [0x2155C181, 0x04503A80, 0x00000007] (.vneg ⟨gp, 33, 21, 1, 0, 5, 0, 3, 42, 0, 0, 0⟩)
      && reads [0x2155C181, 0x06563A93, 0x00000008] (.vdiv ⟨gp, 33, 21, 1, 4, 5, 6, 3, 42, 19, 0, 0⟩)
      && reads [0x2155C181, 0x06503A80, 0x00000009] (.vrcp ⟨gp, 33, 21, 1, 4, 5, 0, 3, 42, 0, 0, 0⟩)
      && reads [0x2155C181, 0x02503A80, 0x0000000A] (.vsqrt ⟨gp, 33, 21, 0, 4, 5, 0, 3, 42, 0, 0, 0⟩)
      && reads [0x2155C181, 0x02503A80, 0x0000000B] (.vrsq ⟨gp, 33, 21, 0, 4, 5, 0, 3, 42, 0, 0, 0⟩)) = true := by decide
/-- VARITH, the next of them. -/
theorem test_decode_varith_2 :
    (reads [0x2155C181, 0x06503A80, 0x0000000C] (.vexp2 ⟨gp, 33, 21, 1, 4, 5, 0, 3, 42, 0, 0, 0⟩)
      && reads [0x2155C181, 0x02503A80, 0x0000000D] (.vlog2 ⟨gp, 33, 21, 0, 4, 5, 0, 3, 42, 0, 0, 0⟩)
      && reads [0x2155C181, 0x00563A93, 0x0000000E] (.vand ⟨gp, 33, 21, 0, 0, 5, 6, 3, 42, 19, 0, 0⟩)
      && reads [0x2155C181, 0x00563A93, 0x0000000F] (.vor ⟨gp, 33, 21, 0, 0, 5, 6, 3, 42, 19, 0, 0⟩)
      && reads [0x2155C181, 0x00563A93, 0x00000010] (.vxor ⟨gp, 33, 21, 0, 0, 5, 6, 3, 42, 19, 0, 0⟩)
      && reads [0x2155C181, 0x00503A80, 0x00000011] (.vnot ⟨gp, 33, 21, 0, 0, 5, 0, 3, 42, 0, 0, 0⟩)
      && reads [0x2155C181, 0x04563A93, 0x00000012] (.vshl ⟨gp, 33, 21, 1, 0, 5, 6, 3, 42, 19, 0, 0⟩)
      && reads [0x2155C181, 0x00563A93, 0x00000013] (.vshr ⟨gp, 33, 21, 0, 0, 5, 6, 3, 42, 19, 0, 0⟩)
      && reads [0x2155C181, 0x00563A93, 0x00000014] (.vsar ⟨gp, 33, 21, 0, 0, 5, 6, 3, 42, 19, 0, 0⟩)
      && reads [0x2155C181, 0x00503A80, 0x00000015] (.vclz ⟨gp, 33, 21, 0, 0, 5, 0, 3, 42, 0, 0, 0⟩)
      && reads [0x2155C181, 0x00503A80, 0x00000016] (.vpopc ⟨gp, 33, 21, 0, 0, 5, 0, 3, 42, 0, 0, 0⟩)
      && reads [0x2155C181, 0x00503A80, 0x00000017] (.vmov ⟨gp, 33, 21, 0, 0, 5, 0, 3, 42, 0, 0, 0⟩)) = true := by decide
/-- VARITH, the next of them. -/
theorem test_decode_varith_3 :
    (reads [0x2155C181, 0x06503A80, 0x00000018] (.vcvt ⟨gp, 33, 21, 1, 4, 5, 0, 3, 42, 0, 0, 0⟩)
      && reads [0x2155C181, 0x00563A93, 0x00000019] (.vsel ⟨gp, 33, 21, 0, 0, 5, 6, 3, 42, 19, 0, 0⟩)
      && reads [0x2155C181, 0x00563A93, 0x0000001A] (.vceq ⟨gp, 33, 21, 0, 0, 5, 6, 3, 42, 19, 0, 0⟩)
      && reads [0x2155C181, 0x00563A93, 0x0000001B] (.vcne ⟨gp, 33, 21, 0, 0, 5, 6, 3, 42, 19, 0, 0⟩)
      && reads [0x2155C181, 0x00563A93, 0x0000001C] (.vclt ⟨gp, 33, 21, 0, 0, 5, 6, 3, 42, 19, 0, 0⟩)
      && reads [0x2155C181, 0x00563A93, 0x0000001D] (.vcle ⟨gp, 33, 21, 0, 0, 5, 6, 3, 42, 19, 0, 0⟩)) = true := by decide

/-- VSCALAR (02 R42, R29): format T, OPC 0x61. -/
theorem test_decode_vscalar :
    (reads [0x2155C185, 0x06503A80, 0x00002500] (.vadds ⟨gp, 33, 21, 1, 4, 5, 0, 3, 42, 0, 0, 37⟩)
      && reads [0x2155C185, 0x06503A80, 0x00002501] (.vmuls ⟨gp, 33, 21, 1, 4, 5, 0, 3, 42, 0, 0, 37⟩)
      && reads [0x2155C185, 0x06563A93, 0x00002502] (.vfmas ⟨gp, 33, 21, 1, 4, 5, 6, 3, 42, 19, 0, 37⟩)
      && reads [0x2155C185, 0x00503A80, 0x00002503] (.vmins ⟨gp, 33, 21, 0, 0, 5, 0, 3, 42, 0, 0, 37⟩)
      && reads [0x2155C185, 0x00503A80, 0x00002504] (.vmaxs ⟨gp, 33, 21, 0, 0, 5, 0, 3, 42, 0, 0, 37⟩)
      && reads [0x0055C185, 0x00500A80, 0x00002505] (.vbcast ⟨gp, 0, 21, 0, 0, 5, 0, 0, 42, 0, 0, 37⟩)
      && reads [0x0055C185, 0x04500A80, 0x000AA506] (.viota ⟨gp, 0, 21, 1, 0, 5, 0, 0, 42, 0, 42, 37⟩)) = true := by decide

/-- VLANE (02 R42, R29): format T, OPC 0x62. -/
theorem test_decode_vlane :
    (reads [0x2155C189, 0x00563A93, 0x00000000] (.vperm ⟨gp, 33, 21, 0, 0, 5, 6, 3, 42, 19, 0, 0⟩)
      && reads [0x2155C189, 0x00503A80, 0x000AA501] (.vrot ⟨gp, 33, 21, 0, 0, 5, 0, 3, 42, 0, 42, 37⟩)
      && reads [0x2155C189, 0x00503A80, 0x00400002] (.vxch ⟨gp, 33, 21, 0, 0, 5, 0, 3, 42, 0, 256, 0⟩)
      && reads [0x2155C189, 0x06503A80, 0x00008003] (.vredc ⟨gp, 33, 21, 1, 4, 5, 0, 3, 42, 0, 2, 0⟩)
      && reads [0x2155C189, 0x06503A80, 0x00014004] (.vscanc ⟨gp, 33, 21, 1, 4, 5, 0, 3, 42, 0, 5, 0⟩)
      && reads [0x2155C189, 0x06563A93, 0x00004005] (.vdotc ⟨gp, 33, 21, 1, 4, 5, 6, 3, 42, 19, 1, 0⟩)
      && reads [0x2155C189, 0x00563A93, 0x00000006] (.vlut ⟨gp, 33, 21, 0, 0, 5, 6, 3, 42, 19, 0, 0⟩)) = true := by decide

/-- VPRED (02 R42, R29): format T, OPC 0x63. -/
theorem test_decode_vpred :
    (reads [0x0055C18D, 0x00500000, 0x00004000] (.ppset ⟨gp, 0, 21, 0, 0, 5, 0, 0, 0, 0, 1, 0⟩)
      && reads [0x2155C18D, 0x00563013, 0x00000001] (.ppand ⟨gp, 33, 21, 0, 0, 5, 6, 3, 0, 19, 0, 0⟩)
      && reads [0x2155C18D, 0x00563013, 0x00000002] (.ppor ⟨gp, 33, 21, 0, 0, 5, 6, 3, 0, 19, 0, 0⟩)
      && reads [0x2155C18D, 0x00503000, 0x00000003] (.ppnot ⟨gp, 33, 21, 0, 0, 5, 0, 3, 0, 0, 0, 0⟩)
      && reads [0x2101CD8D, 0x00500000, 0x00002504] (.ppcnt ⟨⟨7, 3⟩, 33, 0, 0, 0, 5, 0, 0, 0, 0, 0, 37⟩)
      && reads [0x2101C18D, 0x00500000, 0x00002505] (.ppany ⟨gp, 33, 0, 0, 0, 5, 0, 0, 0, 0, 0, 37⟩)
      && reads [0x2101C18D, 0x00500000, 0x00002506] (.ppall ⟨gp, 33, 0, 0, 0, 5, 0, 0, 0, 0, 0, 37⟩)
      && reads [0x0055C18D, 0x00500000, 0x00000007] (.feset ⟨gp, 0, 21, 0, 0, 5, 0, 0, 0, 0, 0, 0⟩)
      && reads [0x0055C18D, 0x00500000, 0x00000008] (.feclr ⟨gp, 0, 21, 0, 0, 5, 0, 0, 0, 0, 0, 0⟩)) = true := by decide

/-- PMOVE (02 R42, R29): format T, OPC 0x70. -/
theorem test_decode_pmove :
    (reads [0x2155C1C1, 0x00000000, 0xAAAA8000] (.scroll ⟨gp, 33, 21, 0, 0, 0, 0, 0, 0, 0, 0x2aaaa, 0⟩)
      && reads [0x2155C1C1, 0x00000000, 0x0001A501] (.scrollx ⟨gp, 33, 21, 0, 0, 0, 0, 0, 0, 0, 6, 37⟩)
      && reads [0x2155C1C1, 0x00503000, 0x00000002] (.plcopy ⟨gp, 33, 21, 0, 0, 5, 0, 3, 0, 0, 0, 0⟩)
      && reads [0x0055C1C1, 0x00500000, 0x00002503] (.plfill ⟨gp, 0, 21, 0, 0, 5, 0, 0, 0, 0, 0, 37⟩)) = true := by decide

/-- NET (02 R42, R29): format T, OPC 0x80. -/
theorem test_decode_net :
    (reads [0x2155C201, 0x04500A80, 0x00008000] (.nredr ⟨gp, 33, 21, 1, 0, 5, 0, 0, 42, 0, 2, 0⟩)
      && reads [0x2155C201, 0x04500A80, 0x00004001] (.nredc ⟨gp, 33, 21, 1, 0, 5, 0, 0, 42, 0, 1, 0⟩)
      && reads [0x2101C201, 0x04500A80, 0x0001A502] (.nredx ⟨gp, 33, 0, 1, 0, 5, 0, 0, 42, 0, 6, 37⟩)
      && reads [0x2155C201, 0x00500A80, 0x00000003] (.nbcr ⟨gp, 33, 21, 0, 0, 5, 0, 0, 42, 0, 0, 0⟩)
      && reads [0x2155C201, 0x00500A80, 0x00000004] (.nbcc ⟨gp, 33, 21, 0, 0, 5, 0, 0, 42, 0, 0, 0⟩)
      && reads [0x2155C201, 0x04000000, 0x00002505] (.dred ⟨gp, 33, 21, 1, 0, 0, 0, 0, 0, 0, 0, 37⟩)) = true := by decide

/-- MATRIX (02 R42, R30): format Q, OPC 0x90. -/
theorem test_decode_matrix :
    (reads [0x2101C242, 0x0000000A, 0x00000000, 0x00000007] (.wld ⟨gp, 0, 33, 0, 0, 0, 0, 0, 0, 10, 0, 0, 0, 0, 0, 0, 7⟩)
      && reads [0x2101C242, 0x00000000, 0x00000001, 0x00000000] (.wswap ⟨gp, 0, 33, 0, 0, 0, 0, 0, 0, 0, 0, 0, 0, 0, 0, 0, 0⟩)
      && reads [0x2155C242, 0x2B000D4A, 0x13A50002, 0x00000000] (.mstream ⟨gp, 0, 33, 21, 5, 3, 0, 0, 53, 10, 2, 1, 6, 37, 0, 0, 0⟩)
      && reads [0x0055C242, 0x00000000, 0x00000003, 0xFFFFFFE2] (.accz ⟨gp, 0, 0, 21, 0, 0, 0, 0, 0, 0, 0, 0, 0, 0, 0, 0, 0xffffffe2⟩)
      && reads [0x2155C242, 0x2B000D40, 0x0000C004, 0x00000000] (.accrd ⟨gp, 0, 33, 21, 5, 3, 0, 0, 53, 0, 0, 0, 0, 0, 12, 0, 0⟩)
      && reads [0x0055C242, 0x00000000, 0x00000005, 0x000007FF] (.accnrm ⟨gp, 0, 0, 21, 0, 0, 0, 0, 0, 0, 0, 0, 0, 0, 0, 0, 0x7ff⟩)) = true := by decide

/-- COPY (02 R42, R30): format Q, OPC 0xA0. -/
theorem test_decode_copy :
    (reads [0xA155C282, 0x03013000, 0x00000900, 0xFEDCBA98] (.cpin ⟨gp, 2, 33, 21, 0, 3, 0, 19, 0, 0, 0, 0, 0, 0, 0, 9, 0xfedcba98⟩)
      && reads [0xA155C282, 0x03013000, 0x00000901, 0xFEDCBA98] (.cpout ⟨gp, 2, 33, 21, 0, 3, 0, 19, 0, 0, 0, 0, 0, 0, 0, 9, 0xfedcba98⟩)
      && reads [0x8055C282, 0x00000D4A, 0x00000902, 0x00000000] (.cpg ⟨gp, 2, 0, 21, 0, 0, 0, 0, 53, 10, 0, 0, 0, 0, 0, 9, 0⟩)
      && reads [0xA101C282, 0x00000D4A, 0x00000903, 0x00000000] (.cps ⟨gp, 2, 33, 0, 0, 0, 0, 0, 53, 10, 0, 0, 0, 0, 0, 9, 0⟩)
      && reads [0xA155C282, 0x03000000, 0x00000904, 0x00000000] (.cpp ⟨gp, 2, 33, 21, 0, 3, 0, 0, 0, 0, 0, 0, 0, 0, 0, 9, 0⟩)
      && reads [0x8001C282, 0x00A93000, 0x00250905, 0x00000000] (.cpm ⟨gp, 2, 0, 0, 0, 0, 42, 19, 0, 0, 0, 0, 0, 37, 0, 9, 0⟩)
      && reads [0x0001C282, 0x00000000, 0x00250006, 0x00000000] (.seal ⟨gp, 0, 0, 0, 0, 0, 0, 0, 0, 0, 0, 0, 0, 37, 0, 0, 0⟩)
      && reads [0x0001C282, 0x00000000, 0x00000007, 0x0000000B] (.waitb ⟨gp, 0, 0, 0, 0, 0, 0, 0, 0, 0, 0, 0, 0, 0, 0, 0, 11⟩)
      && reads [0x8001CA82, 0x00000000, 0x00250008, 0x00000000] (.wptr ⟨⟨7, 2⟩, 2, 0, 0, 0, 0, 0, 0, 0, 0, 0, 0, 0, 37, 0, 0, 0⟩)
      && reads [0x8001C282, 0x00000000, 0x00250009, 0x00000000] (.cpstat ⟨gp, 2, 0, 0, 0, 0, 0, 0, 0, 0, 0, 0, 0, 37, 0, 0, 0⟩)) = true := by decide

/-- BANK (02 R42, R30): format Q, OPC 0xB0. -/
theorem test_decode_bank :
    (reads [0x0001C2C2, 0x00A93000, 0x00001000, 0x00000007] (.bkload ⟨gp, 0, 0, 0, 0, 0, 42, 19, 0, 0, 0, 0, 0, 0, 1, 0, 7⟩)
      && reads [0x0001C2C2, 0x00A93000, 0x00251001, 0x00000007] (.bkact ⟨gp, 0, 0, 0, 0, 0, 42, 19, 0, 0, 0, 0, 0, 37, 1, 0, 7⟩)
      && reads [0x0055C2C2, 0x00A93000, 0x00253002, 0x00000007] (.bkcall ⟨gp, 0, 0, 21, 0, 0, 42, 19, 0, 0, 0, 0, 0, 37, 3, 0, 7⟩)
      && reads [0x0001C2C2, 0x00013000, 0x00000003, 0x00000000] (.bkwait ⟨gp, 0, 0, 0, 0, 0, 0, 19, 0, 0, 0, 0, 0, 0, 0, 0, 0⟩)
      && reads [0x0001C2C2, 0x00013000, 0x00250004, 0x00000000] (.bkstat ⟨gp, 0, 0, 0, 0, 0, 0, 19, 0, 0, 0, 0, 0, 37, 0, 0, 0⟩)) = true := by decide

/-- WALK (02 R42, R30): format Q, OPC 0xC0. -/
theorem test_decode_walk :
    (reads [0x0055C302, 0x00013000, 0x00250000, 0x0000002B] (.owloop ⟨gp, 0, 0, 21, 0, 0, 0, 19, 0, 0, 0, 0, 0, 37, 0, 0, 43⟩)
      && reads [0x0001C302, 0x00A93000, 0x00000001, 0x0000007C] (.owwin ⟨gp, 0, 0, 0, 0, 0, 42, 19, 0, 0, 0, 0, 0, 0, 0, 0, 124⟩)
      && reads [0x0001C302, 0x00A93000, 0x00001002, 0x00000007] (.owdecl ⟨gp, 0, 0, 0, 0, 0, 42, 19, 0, 0, 0, 0, 0, 0, 1, 0, 7⟩)
      && reads [0x0001C302, 0x00A93000, 0x00250003, 0x00000007] (.owchk ⟨gp, 0, 0, 0, 0, 0, 42, 19, 0, 0, 0, 0, 0, 37, 0, 0, 7⟩)
      && reads [0x0001C302, 0x00000000, 0x00250004, 0x00000001] (.owstat ⟨gp, 0, 0, 0, 0, 0, 0, 0, 0, 0, 0, 0, 0, 37, 0, 0, 1⟩)) = true := by decide

/-- POWER (02 R42, R28): format E, OPC 0xD0. -/
theorem test_decode_power :
    (reads [0x1201C340, 0x00000003] (.pwrhint ⟨gp, 18, 0, 0, 3⟩)
      && reads [0x0085C340, 0x00001002] (.chgrd ⟨gp, 0, 33, 0, 2⟩)) = true := by decide

/-- The bank-engine words (02 R44, R45). -/
theorem test_decode_bank_words_1 :
    (decodeBank 0x00000000 == .bnop
      && decodeBank 0x00000001 == .bhalt
      && decodeBank 0xAAA802C2 == .bli ⟨0x2aaa, 0, 0, 11⟩
      && decodeBank 0xAAA81AC3 == .baddi ⟨0x2aaa, 0, 6, 11⟩
      && decodeBank 0x00035AC4 == .badd ⟨0x0, 13, 6, 11⟩
      && decodeBank 0x00035AC5 == .bsub ⟨0x0, 13, 6, 11⟩
      && decodeBank 0x00035AC6 == .bmul ⟨0x0, 13, 6, 11⟩
      && decodeBank 0xFFF41807 == .bbz ⟨0x3ffd, 0, 6, 0⟩
      && decodeBank 0xFFF41808 == .bbnz ⟨0x3ffd, 0, 6, 0⟩
      && decodeBank 0xFFFC02C9 == .bloop ⟨0x3fff, 0, 0, 11⟩) = true := by decide
/-- The rest of them. -/
theorem test_decode_bank_words_2 :
    (decodeBank 0xFFB3414A == .bza ⟨0x3fec, 13, 0, 5⟩
      && decodeBank 0x000F594B == .bmac ⟨0x3, 13, 6, 5⟩
      && decodeBank 0xAAA8000C == .bfmt ⟨0x2aaa, 0, 0, 0⟩
      && decodeBank 0x0007580D == .bscl ⟨0x1, 13, 6, 0⟩
      && decodeBank 0x00541ACE == .brda ⟨0x15, 0, 6, 11⟩
      && decodeBank 0x000F580F == .bsend ⟨0x3, 13, 6, 0⟩
      && decodeBank 0x00A81AD0 == .brd ⟨0x2a, 0, 6, 11⟩
      && decodeBank 0x00AB5811 == .bwr ⟨0x2a, 13, 6, 0⟩
      && decodeBank 0x00AB5812 == .bsig ⟨0x2a, 13, 6, 0⟩
      && decodeBank 0x00AB5813 == .bwait ⟨0x2a, 13, 6, 0⟩) = true := by decide

/-- An unassigned OPC decodes to the encoding that traps ILLEGAL_OP, a filler to none, a bad LEN or field to its cause (02 R18, R33-R35). -/
theorem test_decode_refusals :
    decode [0x0001C00C, 0] = .ok (.illegalEncoding, 2)
    ∧ decode [0xFFFFFFFF] = .error .filler
    ∧ decode [0x0001C000, 0x00100000] = .error .illegalField
    ∧ decodeBank 0x00000014 = .bankIllegal ∧ decodeBank 0x00000200 = .bankIllegal := by decide

/-! ### Small states -/

open Sys2Proof.Machine

/-- A leaf that maps a 64 KiB page for reading, writing and running, with A and D set (04 R95). -/
def page (va : Nat) : TLeaf := ⟨0, 0, 0, va, BitVec.ofNat 64 (va + 0x6F)⟩

/-- A running user thread: a plot of 16 by 16 cells and 64 rows, a handler, a stack, three pages. -/
def thread : Thread :=
  { phase := .running, src := { uid := 1 }, plotH := 16, plotW := 16, plotD := 64, pc := 0x10000, tvec := 0x10100
    stkbase := 0x2FF00, stklim := 0x20000, p := 0x80 }

/-- It runs in slot 0 of cluster 0. -/
def user : State :=
  State.setCluster { thr := thread, uid := 1 } 0 { ({} : Cluster) with tlb := [page 0x10000, page 0x20000, page 0x30000] }

/-- The same in its trap handler. -/
def kernel : State := user.withThr { user.thr with priv := true, epc := 0x10040, estat := 0x0001 }

/-- A state with registers written. -/
def regs (s : State) (l : List (BitVec 6 × Word)) : State := l.foldl (fun s r => s.setX r.1 r.2) s

/-- A state with tensor descriptors written. -/
def tens (s : State) (l : List (Nat × BitVec 256)) : State :=
  s.withThr { s.thr with t := l.foldl (fun v r => v.setIfInBounds r.1 r.2) s.thr.t }

/-- No window is open on what a form names (`State.noHazard`), as a test. -/
def clearB (s : State) (f : Form) : Bool :=
  s.thr.wins.all fun w => w.dests.all fun d => match d with
    | .reg n => n == 0 || !f.namesX.contains n
    | .pred n => n == 7 || !(f.hd.gp.setWidth 3 :: f.namesP).contains n

theorem noHazard_iff (s : State) (f : Form) : s.noHazard f ↔ clearB s f = true := by
  simp only [clearB, State.noHazard, List.all_eq_true]
  refine forall₂_congr fun w _ => forall₂_congr fun d _ => ?_
  cases d <;> simp

/-- The conditions of `State.AtGuard`, each of which can be decided. -/
abbrev guardP (s : State) (f : Form) : Prop :=
  (f.needsPriv = true → s.thr.priv = true) ∧ (s.thr.ord.isSome = true → ordable f.opc = true) ∧ clearB s f = true ∧ s.breakAt f = none

theorem atGuard_iff (s : State) (f : Form) : s.AtGuard f ↔ guardP s f :=
  ⟨fun h => ⟨h.mode, h.ordered, (noHazard_iff s f).1 h.windows, h.unbroken⟩, fun h => ⟨h.1, h.2.1, (noHazard_iff s f).2 h.2.2.1, h.2.2.2⟩⟩

/-- Those of `State.Behind`. -/
abbrev behindP (s : State) (f : Form) : Prop :=
  (0x30 ≤ f.opc → ∀ o ∈ s.thr.openOuts, acquires o.ord = false)
  ∧ (0x33 ≤ f.opc → ∀ o ∈ s.thr.openOuts, o.opc ≠ 0x31) ∧ (0x30 ≤ f.opc → s.thr.vatomOpen = false)
  ∧ (f.hd.la ≠ 0 → f.opc = 0x30 ∨ f.opc = 0x31 ∨ f.opc = 0x63 → s.thr.outs.length < 8)

/-- The first two as tests. -/
def guardB (s : State) (f : Form) : Bool := decide (guardP s f)
def behindB (s : State) (f : Form) : Bool := decide (behindP s f)

/-- Those of `State.Issues`. -/
abbrev issuesP (s : State) (f : Form) : Prop :=
  guardB s f = true ∧ s.guard f.hd = true ∧ (s.thr.walking = true → f.owEngine = false ∧ f.owReg s.thr.ow.index = false)
  ∧ (∀ w ∈ s.feq, w.slot = s.cur.toNat → w.out = 0) ∧ ((f.namesX ++ f.implicitX).any s.thr.pendingX = false) ∧ (f.opc = 0x30 ∧ f.fn = 8 ∨ behindB s f = true)

theorem issues_iff (s : State) (f : Form) : s.Issues f ↔ issuesP s f := by
  constructor
  · intro h
    refine ⟨decide_eq_true ((atGuard_iff s f).1 h.toAtGuard), h.guarded, h.walker, h.queued, List.any_eq_false.2 fun n hn => by simp [h.ready n hn], ?_⟩
    by_cases hp : f.opc = 0x30 ∧ f.fn = 8
    · exact .inl hp
    · have b := h.behind hp
      exact .inr (decide_eq_true ⟨b.acquired, b.exchanged, b.elements, b.room⟩)
  · rintro ⟨hg, hd, hw, hq, hr, hb⟩
    exact { toAtGuard := (atGuard_iff s f).2 (of_decide_eq_true hg), guarded := hd, walker := hw, queued := hq
            ready := fun n hn => by simpa using List.any_eq_false.1 hr n hn
            behind := fun hp => by
              have b : behindP s f := of_decide_eq_true (hb.resolve_left hp)
              exact ⟨b.1, b.2.1, b.2.2.1, b.2.2.2⟩ }

/-- The conditions of `State.Issues`, as a test. -/
def issuesB (s : State) (f : Form) : Bool := decide (issuesP s f)

theorem issuesB_iff (s : State) (f : Form) : s.Issues f ↔ issuesB s f = true := (issues_iff s f).trans decide_eq_true_iff.symm

theorem issues_of {s : State} {f : Form} (h : issuesB s f = true) : s.Issues f := (issues_iff s f).2 (of_decide_eq_true h)

/-- Those of `State.MayBegin`. -/
abbrev mayBeginP (s : State) (fps : List Fp) : Prop :=
  (match s.claim fps with
    | .ok () => true
    | _ => false) = true
  ∧ (∀ c ∈ (s.cluster s.cl).charges, c.begun = true) ∧ ((s.cluster s.cl).cap.toNat : Int) ≤ (s.cluster s.cl).balance.toInt

theorem mayBegin_iff (s : State) (fps : List Fp) : s.MayBegin fps ↔ mayBeginP s fps := by
  constructor
  · intro h; exact ⟨by rw [h.apart], h.unheld, h.charged⟩
  · rintro ⟨ha, hu, hc⟩
    refine ⟨?_, hu, hc⟩
    split at ha
    · assumption
    · simp at ha

/-- The conditions of `State.MayBegin`, as a test. -/
def mayBeginB (s : State) (fps : List Fp) : Bool := decide (mayBeginP s fps)

theorem mayBeginB_iff (s : State) (fps : List Fp) : s.MayBegin fps ↔ mayBeginB s fps = true :=
  (mayBegin_iff s fps).trans decide_eq_true_iff.symm

theorem mayBegin_of {s : State} {fps : List Fp} (h : mayBeginB s fps = true) : s.MayBegin fps :=
  (mayBegin_iff s fps).2 (of_decide_eq_true h)

/-- A step answers a next state of which a test holds. -/
def nextIs (o : Host.Outcome State Fault Refusal) (p : State → Bool) : Bool := match o with
  | .next t => p t
  | _ => false

/-! ### Witnesses: states and operands that meet the hypotheses of the statements -/

/-- The result is good, and a test holds of it. -/
def okAnd {α : Type} (r : Res α) (p : α → Bool) : Bool := match r with
  | .ok a => p a
  | _ => false
/-- The result is good. -/
def isOk {α : Type} (r : Res α) : Bool := okAnd r fun _ => true
/-- The result is this trap. -/
def trapIs {α : Type} (r : Res α) (t : Trap) : Bool := match r with
  | .error (.trap u) => u == t
  | _ => false

/-- The forms of format A of an OPC issue, at every width. -/
theorem issues_a (fn : Nat) (h : fn < 28) (sz : BitVec 2) :
    user.Issues (.a 0x10 fn { fa with sz := sz }) ∧ user.Issues (.a 0x11 fn { fa with sz := sz, xa := 1, xb := 3, xd := 2 }) ∧ user.Issues (.a 0x20 fn { fa with sz := sz }) := by
  have key : ∀ fn < 28, ∀ sz : BitVec 2, (issuesB user (.a 0x10 fn { fa with sz := sz })
      && issuesB user (.a 0x11 fn { fa with sz := sz, xa := 1, xb := 3, xd := 2 }) && issuesB user (.a 0x20 fn { fa with sz := sz })) = true := by
    decide +kernel
  have k := key fn h sz
  simp only [Bool.and_eq_true] at k
  exact ⟨issues_of k.1.1, issues_of k.1.2, issues_of k.2⟩

theorem witness_IntegerResults : ∀ fn < 28, ∀ sz : BitVec 2, user.Issues (.a 0x10 fn { fa with sz := sz }) :=
  fun fn h sz => (issues_a fn h sz).1

/-- The dividend least and the divisor −1, 0 and 7: every clause of the division. -/
theorem witness_IntegerResults_division :
    (regs user [(1, 0x80000000), (3, 0xFFFFFFFF)]).Issues (.a 0x10 5 { fa with sz := 1 }) ∧ (regs user [(1, 9)]).Issues (.a 0x10 5 fa)
    ∧ (regs user [(1, -9), (3, 7)]).Issues (.a 0x10 7 fa)
    ∧ ((regs user [(1, 0x80000000), (3, 0xFFFFFFFF)]).X 1).setWidth 32 = BitVec.intMin 32
    ∧ ((regs user [(1, 0x80000000), (3, 0xFFFFFFFF)]).opB { fa with sz := 1 }).setWidth 32 = BitVec.allOnes 32
    ∧ (regs user [(1, 9)]).opB fa = 0 ∧ (regs user [(1, -9), (3, 7)]).opB fa = 7 :=
  by simp only [issuesB_iff]; decide +kernel

/-- A field at the top of its word, one past it, and a count of a word of zeros. -/
theorem witness_IntegerResults_bits :
    (regs user [(1, 0)]).Issues (.a 0x10 20 { fa with xb := 0 }) ∧ (regs user [(3, 64 * 4 + 31)]).Issues (.a 0x10 24 { fa with sz := 1 })
    ∧ (regs user [(3, 64 * 4 + 32)]).Issues (.a 0x10 26 { fa with sz := 1 }) ∧ user.Issues (.a 0x10 27 { fa with imm := 15 })
    ∧ ((regs user [(3, 64 * 4 + 31)]).opB fa).toNat % 64 = 31 ∧ ((regs user [(3, 64 * 4 + 32)]).opB fa).toNat % 64 = 32 :=
  by simp only [issuesB_iff]; decide +kernel

theorem witness_RegistersAndCompares_registers : (user.thr.priv = false ∧ kernel.thr.priv = true) ∧ 56 ≤ (56 : BitVec 6).toNat ∧ (55 : BitVec 6).toNat < 56 := by decide

theorem witness_RegistersAndCompares_compares : ∀ fn < 12, ∀ sz : BitVec 2, user.Issues (.a 0x11 fn { fa with sz := sz, xa := 1, xb := 3, xd := 2 }) :=
  fun fn h sz => (issues_a fn (by omega) sz).2.1

theorem witness_ImmediateResults : user.Issues (.b 0x12 0 fb) ∧ user.Issues (.b 0x12 1 fb) ∧ ∀ sz : BitVec 2, user.Issues (.b 0x12 2 { fb with sz := sz }) := by
  have key : ∀ sz : BitVec 2, issuesB user (.b 0x12 2 { fb with sz := sz }) = true := by decide
  exact ⟨issues_of (by decide), issues_of (by decide), fun sz => issues_of (key sz)⟩

/-- Spaces on both sides of each limit, a rank of −1, 4095 and 4096, coordinates of 255 and 256. -/
theorem witness_ImmediateResults_pointers :
    (∀ fn < 8, user.Issues (.b 0x12 fn fb)) ∧ (∀ sp : BitVec 4, user.Issues (.b 0x12 3 { fb with imm16 := sp.setWidth 16 }))
    ∧ (regs user [(1, 2 * 2 ^ 60), (3, 4095)]).Issues (.b 0x12 5 { fb with xa := 1, xb := 3 })
    ∧ (regs user [(1, 2 * 2 ^ 60), (3, 4096)]).Issues (.b 0x12 5 { fb with xa := 1, xb := 3 })
    ∧ (regs user [(1, 2 * 2 ^ 60)]).Issues (.b 0x12 5 { fb with xa := 1, imm16 := 0xFFFF })
    ∧ (regs user [(1, 255), (3, 256)]).Issues (.b 0x12 7 { fb with xa := 1, xb := 3, imm16 := 1, imm32 := 8191 }) := by
  have k : ∀ fn < 8, issuesB user (.b 0x12 fn fb) = true := by decide
  have k' : ∀ sp : BitVec 4, issuesB user (.b 0x12 3 { fb with imm16 := sp.setWidth 16 }) = true := by decide
  exact ⟨fun fn h => issues_of (k fn h), fun sp => issues_of (k' sp), issues_of (by decide), issues_of (by decide), issues_of (by decide),
    issues_of (by decide)⟩

theorem witness_FloatResults : ∀ fn < 16, user.Issues (.a 0x20 fn { fa with sz := 0 }) ∧ user.Issues (.a 0x20 fn { fa with sz := 1 }) :=
  fun fn h => ⟨(issues_a fn (by omega) 0).2.2, (issues_a fn (by omega) 1).2.2⟩

/-- A quotient of 1 by 3, a zero divisor, and orders that are less, equal and greater. -/
theorem witness_ExactArithmetic :
    (3 : Nat) ≠ 0 ∧ (Val.fin false 1 0).cmp (.fin false 3 0) = some .lt ∧ (Val.fin false 0 0).cmp (.fin true 0 0) = some .eq
    ∧ (Val.fin false 3 0).cmp (.fin false 1 0) = some .gt ∧ (Val.fin false 1 0).div (.fin false 0 0) = .inf false := by decide

/-- Every format has a finite value below its largest: 3 · 2^−4, say, or its largest itself. -/
theorem witness_ExactArithmetic_round :
    ((List.range 32).filter fun c => (ffmt c).isSome).all (fun c => match ffmt c with
      | some F => F.value 1 != .nan && decide ((1 : Nat) < 2 ^ F.width)
      | none => false) = true ∧ (ffmt 8).isSome = true
    ∧ ratOf false 1 0 ≤ ratOf false fp32.maxFin.1 fp32.maxFin.2 := by
  refine ⟨by decide, by decide, ?_⟩
  norm_num [ratOf, FFmt.maxFin, fp32]

/-- Each kind of source with each kind of destination, a NaN, an infinity and a value out of range. -/
theorem witness_FloatConversions :
    let cvt (src dst : Nat) (sat : Bool) : FA := { fa with ib := 1, xb := 0, imm := BitVec.ofNat 16 (src + 32 * dst + if sat then 8192 else 0) }
    (∀ src < 11, ∀ dst < 11, ∀ sat, (regs user [(1, 0x7FC00000)]).Issues (.a 0x20 14 (cvt src dst sat)))
    ∧ (ffmt 8).isSome = true ∧ (intFmt 4).isSome = true ∧ (ffmt 4).isSome = false := by
  intro cvt
  have k : ∀ src < 11, ∀ dst < 11, ∀ sat : Bool, issuesB (regs user [(1, 0x7FC00000)]) (.a 0x20 14 (cvt src dst sat)) = true := by decide +kernel
  exact ⟨fun a h b h' c => issues_of (k a h b h' c), by decide, by decide, by decide⟩

theorem witness_FloatConversions_classes : (regs user [(1, 0x7FF8000000000000)]).Issues (.a 0x20 15 { fa with xb := 0 })
    ∧ (regs user [(1, 1)]).Issues (.a 0x20 15 { fa with xb := 0, sz := 1 }) := ⟨issues_of (by decide), issues_of (by decide)⟩
/-- A state whose thread is changed. -/
def with' (s : State) (f : Thread → Thread) : State := s.withThr (f s.thr)

/-- A false guard before an ADD, a LOOP, an OWLOOP and an ORD. -/
theorem witness_GuardAndIssue_guard :
    let off : Hd := ⟨8 + 7, 0⟩
    (∀ i ∈ [Instr.add { fa with hd := off }, .loop { fb with hd := off, imm32 := 9 }, .owloop { fq with hd := off, imm32 := 9 }, .ord { fe with hd := off }],
      i.isThread = true ∧ user.AtGuard i.form ∧ user.guard i.form.hd = false) := by
  intro off i h
  have k : ∀ i ∈ [Instr.add { fa with hd := off }, .loop { fb with hd := off, imm32 := 9 }, .owloop { fq with hd := off, imm32 := 9 },
      .ord { fe with hd := off }], (i.isThread && guardB user i.form && !user.guard i.form.hd) = true := by decide
  have := k i h
  simp only [Bool.and_eq_true, Bool.not_eq_true'] at this
  exact ⟨this.1.1, (atGuard_iff user i.form).2 (of_decide_eq_true this.1.2), this.2⟩

/-- ERET in user mode; an ADD after an ORD; an ADD in a window of x3; an ADD at a breakpoint. -/
theorem witness_GuardAndIssue_checks :
    let late := with' user fun t => { t with wins := [⟨[.reg 3], 2⟩] }
    let broken := with' user fun t => { t with bp := t.bp.set 0 0x10001 }
    ((Instr.eret fe).form.needsPriv = true ∧ user.thr.priv = false)
    ∧ ((with' user fun t => { t with ord := some ⟨1, 3, 0xFFF8⟩ }).thr.ord.isSome = true ∧ ordable (Instr.add fa).form.opc = false)
    ∧ ¬ late.noHazard (Instr.add fa).form
    ∧ broken.noHazard (Instr.add fa).form ∧ broken.breakAt (Instr.add fa).form = some 0 := by
  refine ⟨by decide, by decide, ?_, ?_, by decide⟩
  · rw [noHazard_iff]; decide
  · rw [noHazard_iff]; decide

/-- User mode with a vector and without one; an ORD's instruction; privileged mode; a logged access still open. -/
theorem witness_TrapEntry :
    (user.thr.openOuts = [] ∧ user.thr.priv = false ∧ user.thr.tvec ≠ 0)
    ∧ (with' user fun t => { t with tvec := 0, ord := some ⟨1, 3, 0xFFF8⟩ }).thr.tvec = 0
    ∧ (kernel.thr.openOuts = [] ∧ kernel.thr.priv = true ∧ kernel.thr.term = none) := by decide

/-- An outstanding 8-byte load of 0x20000 into x2. -/
def out1 : Out :=
  { no := 1, pc := 0x10000, opc := 0x30, fn := 0, ea := 0x20000, opB := 0, opE := 0, desc := 3
    edge := 0, dest := 2, pair := false, ord := none, fps := [], logged := false, faulted := none }
def loading : State := with' user fun t => { t with outs := [out1] }

theorem witness_TrapEntry_waits : loading.thr.openOuts ≠ [] := by decide

theorem witness_CompletionFrame : user.noWalkerLoop ∧ user.thr.loopStack = [] := ⟨by unfold State.noWalkerLoop; decide, by decide⟩

/-- An ADD that completes, and a PTRSP to space 5 that traps. -/
theorem witness_ScalarFrame :
    (Instr.add fa).form.opc ∈ [0x10, 0x11, 0x12, 0x20] ∧ (Instr.add fa).isThread = true ∧ user.Issues (Instr.add fa).form ∧ user.noWalkerLoop
    ∧ (∃ u, exec (.add fa) user = .next u) ∧ (∃ u, exec (.ptrsp { fb with imm16 := 5 }) user = .next u) :=
  ⟨by decide, by decide, issues_of (by decide), by unfold State.noWalkerLoop; decide, ⟨_, rfl⟩, ⟨_, rfl⟩⟩

/-- A loop that ends at 0x10008 with `n` iterations left. -/
def lp (stop : Word) (n : BitVec 32) (x : Bool) : Loop := ⟨0x10000, stop, n, 5, 4, x, false⟩
def looped (l : List Loop) : State := with' user fun t => { t with loops := l }

/-- Each clause of the back-edge: not at the end, at the end with 2 left and with 1 left, and the loop outside it. -/
theorem witness_LoopsAndBackEdges_edge :
    (let s := looped [lp 0x10010 2 true]; s.skipFiller 4096 (s.thr.pc + 8) = 0x10008 ∧ s.thr.loopStack ≠ [])
    ∧ (let s := looped [lp 0x10008 2 true]; s.skipFiller 4096 (s.thr.pc + 8) = 0x10008 ∧ s.thr.pendingX 5 = false)
    ∧ (looped [lp 0x10008 1 true, lp 0x10010 3 false]).thr.loopStack = [lp 0x10008 1 true, lp 0x10010 3 false]
    ∧ (looped [lp 0x10008 1 true, lp 0x10008 2 true]).thr.loopStack = [lp 0x10008 1 true, lp 0x10008 2 true]
    ∧ (looped [lp 0x10008 1 true]).thr.loopStack = [lp 0x10008 1 true] := by decide

/-- Counts of 0 and 1, a full loop stack, an LBRK with and without a loop. -/
theorem witness_LoopsAndBackEdges_loops :
    let f : FB := { fb with xa := 1, xd := 5, imm32 := 9 }
    user.Issues (.b 0x01 5 f) ∧ (regs user [(1, 1)]).Issues (.b 0x01 6 f) ∧ (user.X 1).setWidth 32 = (0 : BitVec 32)
    ∧ (regs user [(1, 1)]).X 1 = 1 ∧ (looped (List.replicate 4 (lp 0x10040 3 false))).Issues (.b 0x01 5 f)
    ∧ 4 ≤ (looped (List.replicate 4 (lp 0x10040 3 false))).thr.loopStack.length
    ∧ user.Issues (.b 0x01 7 fb) ∧ (looped [lp 0x10040 3 false]).Issues (.b 0x01 7 fb) :=
  by simp only [issuesB_iff]; decide +kernel

/-- The walker's loop over a body of 0x10000 to 0x10040. -/
def walking : State := with' (looped [{ lp 0x10040 3 false with walker := true }]) fun t => { t with ow := { t.ow with act := true, index := 5 } }

/-- A return to 2 modulo 4, a table index at the table's length and below it, an entry on an unmapped page; a target outside a walker's body. -/
theorem witness_Branches :
    let jt : FB := { fb with xa := 1, xd := 2, imm16 := 3, imm32 := 4 }
    (∀ fn < 5, (regs user [(1, 2)]).Issues (.b 0x01 fn jt)) ∧ (regs user [(1, 3)]).Issues (.b 0x01 4 jt)
    ∧ (user.parcelAt (user.thr.pc + 24)).isSome = true ∧ user.parcelAt 0x40000 = none
    ∧ user.thr.walking = false
    ∧ walking.Issues (.b 0x01 0 fb) ∧ walking.leavesBody (.jump (walking.thr.pc + 64)) = true
    ∧ walking.leavesBody (.jump (walking.thr.pc + 60)) = false := by
  intro jt
  have k : ∀ fn < 5, issuesB (regs user [(1, 2)]) (.b 0x01 fn jt) = true := by decide
  exact ⟨fun fn h => issues_of (k fn h), issues_of (by decide), by decide, by decide, by decide, issues_of (by decide), by decide, by decide⟩

/-! A group of two items: the thread of slot 0 at rank 0, and one in slot 1 whose plot lies beside it. -/

def grp : Group :=
  { gid := 7, record := 0x20000, root := 0, vf := 0, part := 0, cap := 4, next := 2, live := 2, phase := 0, arrived := 0
    xbase := 2, xrows := 1, broken := false, members := [⟨0, 1, false⟩, ⟨1, 2, false⟩] }
def grouped : State :=
  { with' user fun t => { t with groups := [⟨7, 0⟩] } with
      groups := [grp], slots := [(1, { thread with src := { uid := 2 }, col := 16, groups := [⟨7, 1⟩] })] }
/-- The same in a plot whose cluster is off. -/
def dark : State := user.setCluster 0 { user.cluster 0 with on := false }
/-- A page that may not be written, one whose A and D bits are clear, one to be copied at a store. -/
def readOnly : State := user.setCluster 0 { user.cluster 0 with tlb := [⟨0, 0, 0, 0x20000, 0x2002D⟩] }
def copied : State := user.setCluster 0 { user.cluster 0 with tlb := [⟨0, 0, 0, 0x20000, 0x2003F⟩] }

/-- Each check of R100 is the first to fail somewhere. -/
theorem witness_AccessChecks :
    (0 < (8 : Nat) ∧ ({} : Want).hostOk = true)
    ∧ ((bytesOf (5 * 2 ^ 60) 8).all fun a => !user.formOk .plain a) = true
    ∧ (user.formOk .plain (2 * 2 ^ 60) = true ∧ user.curGroup = none ∧ spaceOf (2 * 2 ^ 60) = 2)
    ∧ (grouped.curGroup = some grp ∧ (∀ m ∈ grp.members, (grouped.plotOfUid m.uid).isSome = true) ∧ rankOf (2 * 2 ^ 60 + 2 * 2 ^ 48) = 2
      ∧ trapIs (grouped.resolve {} (2 * 2 ^ 60 + 2 * 2 ^ 48) 4) ⟨0x0105, 2 * 2 ^ 60 + 2 * 2 ^ 48, 0⟩ = true)
    ∧ ((3 : Word).toNat % 8 ≠ 0 ∧ trapIs (user.resolve { align := 8 } 3 8) ⟨0x0103, 3, 0⟩ = true)
    ∧ (isOk (user.plotByte (2 ^ 60 + 16 * 2 ^ 21)) = true ∧ trapIs (user.resolve {} (2 ^ 60 + 16 * 2 ^ 21) 4) ⟨0x0201, 2 ^ 60 + 16 * 2 ^ 21, 0⟩ = true)
    ∧ (dark.isOff 0 = true ∧ trapIs (dark.resolve {} (2 ^ 60) 4) ⟨0x0202, 2 ^ 60, 0⟩ = true)
    ∧ (match user.leaves (some 0) 0 0 false [0x40000] [] with
      | .error _ => true
      | .ok _ => false) = true := by decide +kernel

theorem witness_AccessChecks_pages :
    (match user.leaves (some 0) 0 0 false [0x20000, 0x20001] [] with
      | .ok lv => (NMap.find lv 2).isSome
      | .error _ => false) = true
    ∧ trapIs (readOnly.resolve { store := true } 0x20000 4) ⟨0x0102, 0x20000, 0⟩ = true
    ∧ trapIs (copied.resolve { store := true } 0x20000 4) ⟨0x0107, 0x20000, 0⟩ = true := by decide +kernel
/-- Bytes put into main memory at a PA of the stripe over the device. -/
def poke (s : State) (pa n v : Nat) : State := s.placeBytes pa (leBytes n v)

/-- The sectors of the word at 0x20000 are poisoned. -/
def spoilt : State :=
  { user with poison := match user.resolve {} 0x20000 4 with
      | .ok r => (r.2.locs.map fun x => match x.1 with
          | .mem k => sectorOf k
          | _ => 0).eraseDups
      | .error _ => [] }

theorem witness_AccessChecks_poison :
    spoilt.poison.length = 1 ∧ trapIs (spoilt.resolve {} 0x20000 4) ⟨0x0106, 0x20000, 0⟩ = true
    ∧ isOk (spoilt.resolve { store := true, data := false } 0x20000 4) = true := by decide +kernel

/-- Two bytes of one sector under one key slot, a byte of a peer's, one of a cell and one of a void cell. -/
theorem witness_ByteWrites :
    let bs : List SqByte := [⟨.mem 64, 1, 0⟩, ⟨.mem 65, 2, 0⟩, ⟨.ext 3 64, 5, 0⟩, ⟨.cell 3 255 31, 3, 0⟩, ⟨.void, 4, 0⟩]
    (∀ b ∈ bs, b.loc.proper) ∧ (bs.map (·.loc)).Nodup
    ∧ (∀ mates : Loc → Loc → Prop, ∀ b ∈ bs, ∀ c ∈ bs, mates b.loc c.loc → b.key = c.key)
    ∧ (Loc.mem 66).proper ∧ (∀ b ∈ bs, b.loc ≠ .mem 66 ∧ b.key = 0)
    ∧ State.reset.memOk ∧ { user with voids := [7] }.isVoid 7 = true ∧ { user with voids := [7] }.isVoid 3 = false := by
  intro bs
  have key : ∀ b ∈ bs, b.key = 0 := by decide
  refine ⟨?_, by decide, fun _ b hb c hc _ => (key b hb).trans (key c hc).symm, ?_, by decide, rfl, by decide, by decide⟩
  · simp [bs, Loc.proper]
  · simp [Loc.proper]

/-- A byte pointer into the own plot (07 R168). -/
def own (r c p b : Nat) : Word := BitVec.ofNat 64 (2 ^ 60 + r * 2 ^ 21 + c * 2 ^ 13 + p * 32 + b)

/-- The walker's loop with one window, [0x20000, 0x20010). -/
def windowed : State :=
  with' walking fun t => { t with ow := { t.ow with wmask := 1, wins := t.ow.wins.set 0 { base := 0x20000, len := 16 } } }

/-- An access of each size in main memory and at the end of the plot, one that traps, one of a walker's window. -/
theorem witness_Loads :
    (∀ k < 5, (regs user [(1, own 15 15 63 16)]).Issues (.m 0x30 0 { fm with size := BitVec.ofNat 3 k, disp := 0 }))
    ∧ user.thr.walking = false ∧ user.thr.openOuts = [] ∧ (∀ e ∈ user.thr.sq, e.sc = false) ∧ user.isSc = false
    ∧ ((List.range 5).all fun k => [(0x20000 : Word), own 15 15 63 16].all fun a =>
        okAnd (user.resolve {} a (2 ^ k)) (fun r => isOk (r.1.claim r.2.fps true))) = true
    ∧ trapIs (user.resolve {} 0x40000 8) ⟨0x0101, 0x40000, 0x30⟩ = true
    ∧ user.Issues (.m 0x30 8 { fm with xd := 0, size := 0 })
    ∧ (regs windowed [(1, 0x20000)]).Issues (.m 0x30 0 { fm with xd := 40 }) ∧ windowed.thr.walking = true
    ∧ windowed.inWindow 0x20008 8 = some 0x20008 ∧ windowed.inWindow 0x20010 8 = none := by
  have k1 : ∀ k < 5, issuesB (regs user [(1, own 15 15 63 16)]) (.m 0x30 0 { fm with size := BitVec.ofNat 3 k, disp := 0 }) = true := by
    decide +kernel
  refine ⟨fun k h => issues_of (k1 k h), ?_⟩
  simp only [issuesB_iff]; decide +kernel

/-- A load with LA 2, of main memory and of an unmapped page; the outstanding load, behind a queued store, completes or takes its trap. -/
theorem witness_Loads_outstanding :
    let f : FM := { fm with hd := la2 }
    let v := loading.atSlot loading.input.slot
    let w : Want := { align := 0, watch := false, before := some out1.no }
    user.Issues (.m 0x30 0 f) ∧ f.hd.la ≠ 0 ∧ user.thr.walking = false
    ∧ ([(0x20000 : Word), 0x40000].all fun a => (match user.resolve {} a 8 with
        | .error (.stop _) => false
        | .error (.trap t) => t.cause != 0x0802
        | _ => true) && isOk (user.claim (ptrFp a 8 false) true)) = true
    ∧ v.thr.openOuts = [out1] ∧ out1.opc = 0x30 ∧ out1.fn.toNat < 3 ∧ out1.walked = false
    ∧ out1.root = v.thr.root ∧ v.thr.phase = .running ∧ v.curDbg.stopped = false
    ∧ v.thr.sq = [] ∧ v.thr.outs.Pairwise (fun a b => a.no < b.no)
    ∧ isOk (v.resolve w 0x20000 8) = true
    ∧ trapIs (v.resolve w 0x40000 8) ⟨0x0101, 0x40000, 0x30⟩ = true := by
  simp only [issuesB_iff]; decide +kernel

/-- A store of each size, one that traps. -/
theorem witness_Stores :
    (∀ k < 5, user.Issues (.m 0x30 2 { fm with size := BitVec.ofNat 3 k }) ∧
      okAnd (user.resolve { store := true, reads := false, data := false } 0x20000 (2 ^ k)) (fun r => isOk (r.1.storeClaims r.2 1)) = true)
    ∧ user.thr.walking = false ∧ trapIs (readOnly.resolve { store := true, reads := false, data := false } 0x20000 8) ⟨0x0102, 0x20000, 0⟩ = true := by
  have k1 : ∀ k < 5, (issuesB user (.m 0x30 2 { fm with size := BitVec.ofNat 3 k })
      && okAnd (user.resolve { store := true, reads := false, data := false } 0x20000 (2 ^ k)) (fun r => isOk (r.1.storeClaims r.2 1))) = true := by
    decide +kernel
  refine ⟨fun k h => ?_, rfl, by decide +kernel⟩
  have := k1 k h
  simp only [Bool.and_eq_true] at this
  exact ⟨issues_of this.1, this.2⟩

/-- A queued byte for this device, and one for a peer, which is up or not; one that a logged access holds back, one with an older open access. -/
theorem witness_Stores_leave :
    let e (peers : List Nat) : SqEntry := { no := 9, pc := 0x10000, ea := 0x20000, bytes := [⟨.mem 64, 7, 0⟩], fps := [], peers := peers }
    let q (e : SqEntry) (outs : List Out) : State := (with' user fun t => { t with sq := [e], outs := outs }).atSlot 0
    let late : SqEntry := { e [] with stuck := true }
    (∀ peers ∈ [[], [3]], (q (e peers) []).thr.sq.head? = some (e peers) ∧ (q (e peers) []).thr.sqStuck (e peers) = false)
    ∧ (q (e [3]) []).thr.openOuts = [] ∧ (q (e [3]) []).thr.term = none
    ∧ ((q (e [3]) []).peerUp 3 = true ∨ (q (e [3]) []).peerUp 3 = false)
    ∧ (∃ o ∈ (q (e []) [out1]).thr.openOuts, o.no < (e []).no) ∧ (q (e []) [out1]).savedPast (e []) = false
    ∧ (q late [{ out1 with logged := true, faulted := some ⟨0x0101, 0, 0⟩ }]).thr.sqStuck late = true := by
  intro e q late
  refine ⟨by decide, by decide, by decide, ?_, by decide, by decide, by decide⟩
  cases State.peerUp (q (e [3]) []) 3 <;> simp

/-- A word of the plot that is full, and one that is not. -/
def filled : State := user.setRow 0 0 { data := 0x55, full := 1 }
theorem witness_TaggedWords :
    let f : FM := { fm with size := 2, disp := 0 }
    let s := regs filled [(1, own 0 0 0 0)]
    (∀ fn, 3 ≤ fn → fn < 8 → s.Issues (.m 0x30 fn f)) ∧ s.thr.granted = none ∧ s.thr.openOuts = [] ∧ s.thr.sq = [] ∧ s.thr.released = true ∧ s.feq = []
    ∧ isOk (s.claim (ptrFp (own 0 0 0 0) 4 true) true) = true ∧ (∀ fn ∈ [3, 4, 7], s.Issues (.m 0x30 fn { f with hd := la2 }))
    ∧ (∀ store, ∀ b ∈ [0, 28], okAnd (s.resolve { kind := .tagged, store := store, reads := !store, align := 4 } (own 0 0 0 b) 4) (fun r =>
        isOk (r.1.claim (r.2.fps.map fun x => { x with write := true })) && r.2.word == some (0, 0, b / 4) && !r.1.isVoid 0
          && (r.1.row 0 0).full.getLsbD (b / 4) == decide (b = 0)) = true) := by
  intro f s
  have k : ∀ fn < 8, 3 ≤ fn → issuesB s (.m 0x30 fn f) = true := by decide +kernel
  have k2 : ∀ fn ∈ [3, 4, 7], issuesB s (.m 0x30 fn { f with hd := la2 }) = true := by decide +kernel
  exact ⟨fun fn h h' => issues_of (k fn h' h), by decide, by decide, by decide, by decide, by decide, by decide +kernel,
    fun fn h => issues_of (k2 fn h), by decide +kernel⟩

/-- A slot that waits in LDFE for the word that an STF fills, in the instruction or in a long access of it; a slot that was granted. -/
theorem witness_TaggedWords_handover :
    let f : FM := { fm with size := 2, disp := 0 }
    let x (out : Nat) : FeWait := ⟨1, 0, 0, 0, true, true, 0, out⟩
    let s (out : Nat) : State := { regs user [(1, own 0 0 0 0)] with
      feq := [x out], slots := [(1, { thread with src := { uid := 2 }, waiting := true, outs := [out1] })] }
    let bad : State := { s 0 with rows := NMap.put {} (s 0).rows 0 { data := 1, poison := true } }
    (∀ out ∈ [0, out1.no], (s out).Issues (.m 0x30 6 f)
      ∧ okAnd ((s out).resolve { kind := .tagged, store := true, reads := false, align := 4 } (own 0 0 0 0) 4) (fun r =>
        r.1 == s out && isOk (r.1.claim (r.2.fps.map fun x => { x with write := true })) && r.2.word == some (0, 0, 0) && !r.1.isVoid 0) = true
      ∧ (s out).thr.released = true ∧ (s out).ea f = own 0 0 0 0 ∧ (x out).slot ≠ (s out).cur.toNat)
    ∧ (∀ o ∈ ((s 0).thread 1).outs, o.no ≠ 0) ∧ ((s 0).thread 1).outs.find? (fun o => o.no = out1.no) = some out1
    ∧ ((s 0).row 0 0).poison = false ∧ (bad.row 0 0).poison = true ∧ bad.Issues (.m 0x30 6 f)
    ∧ ∀ fn < 6, 3 ≤ fn → (with' user fun t => { t with granted := some 9 }).Issues (.m 0x30 fn f) := by
  simp only [issuesB_iff]; decide +kernel

/-- A tagged read with LA 2 of a full word and of an empty one. -/
theorem witness_TaggedWords_performed :
    let o (fn : Nat) : Out := { out1 with fn := BitVec.ofNat 8 fn, ea := own 0 0 0 0 }
    ∀ base ∈ [user, filled], ∀ fn ∈ [3, 4, 7],
      let v := (with' base fun t => { t with outs := [o fn] }).atSlot 0
      v.thr.openOuts = [o fn] ∧ (o fn).fn ∈ [3#8, 4#8, 7#8] ∧ v.thr.sq = []
      ∧ (o fn).root = v.thr.root ∧ v.thr.phase = .running ∧ v.curDbg.stopped = false
      ∧ okAnd (v.resolve { kind := .tagged, align := 4, watch := false, before := some (o fn).no } (own 0 0 0 0) 4) (fun r =>
          r.2.word == some (0, 0, 0) && !r.1.isVoid 0 && r.1.feq == [] && (r.1.row 0 0).full.getLsbD 0 == decide (base ≠ user)) = true := by
  decide +kernel

/-- A slot that waits at a tagged form, whose wait expires. -/
theorem witness_TaggedWords_timeout :
    let s := user.placeBytes 0x10000 ((encode (.ldf { fm with size := 2, disp := 0 })).flatMap fun p => leBytes 4 p.toNat)
    let v := ({ s with feq := [⟨0, 0, 0, 0, true, false, 0, 0⟩] } : State).atSlot 0
    v.thr.fewait ≠ 0 ∧ v.thr.granted = none ∧ v.thr.phase = .running ∧ v.thr.trapDue = none ∧ v.waitingOut = none
    ∧ v.awaited ≠ none := by decide +kernel

/-- Every atomic, of 4 and of 8 bytes, in main memory and in the plot; one that traps MISALIGN. -/
theorem witness_Atomics :
    (∀ fn < 11, ∀ k, 2 ≤ k → k < 4 → ∀ hd ∈ [gp, la2], user.Issues (.m 0x31 fn { fm with hd := hd, size := BitVec.ofNat 3 k }))
    ∧ user.thr.released = true ∧ user.thr.sq = [] ∧ user.thr.openOuts = []
    ∧ ([(0x20000 : Word), own 1 2 3 8].all fun a => okAnd (user.resolve { kind := .atomic, store := true, align := 8 } a 8) fun _ =>
        isOk (user.claim (ptrFp a 8 true) true)) = true
    ∧ trapIs (user.resolve { kind := .atomic, store := true, align := 8 } 0x20004 8) ⟨0x0103, 0x20004, 0⟩ = true := by
  have k1 : ∀ fn < 11, ∀ k < 4, 2 ≤ k → ∀ hd ∈ [gp, la2], issuesB user (.m 0x31 fn { fm with hd := hd, size := BitVec.ofNat 3 k }) = true := by
    decide +kernel
  exact ⟨fun fn h k h1 h2 hd h3 => issues_of (k1 fn h k h2 h1 hd h3), by decide, by decide, by decide, by decide +kernel, by decide +kernel⟩

/-- An outstanding AADD of main memory. -/
theorem witness_Atomics_performed :
    let o : Out := { out1 with opc := 0x31, fn := 0, desc := 3 }
    let v := (with' user fun t => { t with outs := [o] }).atSlot 0
    v.thr.openOuts = [o] ∧ v.thr.sq = [] ∧ o.root = v.thr.root ∧ v.thr.phase = .running ∧ v.curDbg.stopped = false
    ∧ isOk (v.resolve { atomWant 0 8 false with before := some o.no } o.ea 8) = true := by
  decide +kernel

/-- A store in the queue. -/
def st1 : SqEntry := { no := 9, pc := 0x10000, ea := 0x20000, bytes := [⟨.mem 64, 7, 0⟩], fps := [], peers := [] }

/-- FENCE with nothing pending, with an outstanding load and, of the order SC, with a store in the queue; QFENCE without a bank command and with one. -/
theorem witness_OrderAndStack_order :
    user.Issues (.e 0x32 0 { fe with sysn := 0x1A }) ∧ user.Issues (.e 0x32 1 { fe with sysn := 0x1B }) ∧ loading.Issues (.e 0x32 1 { fe with sysn := 0x1B })
    ∧ (with' user fun t => { t with sq := [st1] }).Issues (.e 0x32 1 { fe with sysn := 0x1C })
    ∧ loading.thr.openOuts ≠ [] ∧ user.Issues (.e 0x32 2 fe) ∧ user.calls = [] ∧ user.cmdq = []
    ∧ (let c : State := { user with cmdq := [(0, [⟨1, 1, .call 0, [0], false⟩])] }
      c.Issues (.e 0x32 2 fe) ∧ ∃ q ∈ c.cmdq, ∃ c' ∈ q.2, c'.uid = c.thr.src.uid) :=
  ⟨issues_of (by decide), issues_of (by decide), issues_of (by decide), issues_of (by decide), by decide, issues_of (by decide), rfl, rfl, issues_of (by decide), by decide⟩

/-- A stack pointer that is aligned, one that is not, one at its limit; a SPILL of two registers. -/
theorem witness_OrderAndStack_stack :
    let f : FA := { fa with xa := 0, xd := 0, xb := 0, ib := 1, imm := 32 }
    let g : FA := { fa with xd := 60, xb := 0, ib := 1, imm := 9 }
    let s := regs user [(63, 0x2FF00), (61, 0x2FF20), (1, 0x20008)]
    s.Issues (.a 0x33 0 f) ∧ s.Issues (.a 0x33 1 { f with ib := 0, imm := 0 }) ∧ s.Issues (.a 0x33 2 g)
    ∧ (regs user [(63, 0x2FF08)]).Issues (.a 0x33 0 f) ∧ (regs user [(63, 0x20010)]).Issues (.a 0x33 0 f)
    ∧ ((0x20010 : Nat) : Int) - 32 < user.thr.stklim.toNat
    ∧ okAnd (s.resolve { store := true, reads := false, data := false, align := 8 } (s.X 63 - 16) 16) (fun r => isOk (r.1.storeClaims r.2 2)) = true
    ∧ okAnd (s.resolve { align := 8 } (s.X 61 - 16) 16) (fun r => isOk (r.1.claim r.2.fps true)) = true
    ∧ s.thr.openOuts = [] ∧ (∀ e ∈ s.thr.sq, e.sc = false)
    ∧ okAnd (s.resolveDoubles { store := true, reads := false, data := false, align := 8 } 0x20008 2)
        (fun r => isOk (r.1.storeClaims ⟨[], r.2.flatMap (·.fps), [], []⟩ 2)) = true :=
  by simp only [issuesB_iff]; decide +kernel

/-- The control forms in user mode and in a handler; ERET with an open access. -/
theorem witness_ThreadControl :
    (∀ fn ∈ [0, 1, 2, 3, 8, 9, 10], user.Issues (.e 0x00 fn fe)) ∧ kernel.Issues (.e 0x00 1 fe) ∧ kernel.thr.term = none
    ∧ user.thr.loopStack = [] ∧ user.thr.edgeDue = false ∧ user.thr.openOuts = [] ∧ kernel.Issues (.e 0x00 4 fe)
    ∧ (∀ ops ∈ [[], [{ no := 4, pc := 0, fps := [], work := .held, poison := false, whole := true }]],
      (with' { user with dbg := [(0, { attach := true })] } fun t => { t with ops := ops }).Issues (.e 0x00 8 fe))
    ∧ (with' kernel fun t => { t with outs := [out1] }).Issues (.e 0x00 4 fe) ∧ (with' kernel fun t => { t with outs := [out1] }).thr.openOuts ≠ [] := by
  simp only [issuesB_iff]; decide +kernel

/-- Every register that SYSR reads, every one that SYSW and SYSX write. -/
theorem witness_SystemRegisters :
    (∀ n < 0x601, (sysAccess n).isSome = true → kernel.Issues (.e 0x00 5 { fe with sysn := BitVec.ofNat 12 n })
      ∧ kernel.Issues (.e 0x00 6 { fe with sysn := BitVec.ofNat 12 n }) ∧ kernel.Issues (.e 0x00 7 { fe with sysn := BitVec.ofNat 12 n }))
    ∧ kernel.curDbg.stopped = false ∧ user.Issues (.e 0x00 7 { fe with sysn := 0x102 }) ∧ kernel.thr.openOuts = []
    ∧ (with' kernel fun t => { t with outs := [out1] }).Issues (.e 0x00 6 { fe with sysn := 0x240 })
    ∧ ((with' kernel fun t => { t with outs := [{ out1 with logged := true }] }).thr.outs.filter (·.logged))[0]? ≠ none := by
  have k : ∀ n < 0x601, (sysAccess n).isSome = true → (issuesB kernel (.e 0x00 5 { fe with sysn := BitVec.ofNat 12 n })
      && issuesB kernel (.e 0x00 6 { fe with sysn := BitVec.ofNat 12 n }) && issuesB kernel (.e 0x00 7 { fe with sysn := BitVec.ofNat 12 n })) = true := by
    decide +kernel
  refine ⟨fun n h h' => ?_, by decide, issues_of (by decide), by decide, issues_of (by decide), by decide⟩
  have := k n h h'
  simp only [Bool.and_eq_true] at this
  exact ⟨issues_of this.1.1, issues_of this.1.2, issues_of this.2⟩

/-- A number of no register, one that is only written and one that is only read; a thread in user mode, and what it may not reach. -/
theorem witness_SystemRegisters_map :
    let f (n : BitVec 12) : FE := { fe with sysn := n }
    let bad (i : Instr) : Bool := match decode (encode i) with
      | .error .illegalField => true
      | _ => false
    (∀ n ∈ [0x008, 0x228, 0x242], bad (.sysr (f n)) = true) ∧ (∀ n ∈ [0x000, 0x205], bad (.sysw (f n)) = true)
    ∧ (∀ n ∈ [0x228, 0x300], bad (.sysx (f n)) = true) ∧ user.thr.priv = false
    ∧ ∀ i ∈ [.sysr (f 0x205), .sysw (f 0x100), .sysx (f 0x523)], nextIs (exec i user) (fun t => t.thr.ecause == 0x0005) = true := by
  decide +kernel
/-! #### Memory, queues, groups -/

/-- A user thread with page tables in memory as well, one level each at 0, 0x1000, 0x2000 and 0x3000, which map the pages at 0x10000,
0x20000 and 0x30000 (04 R85-R87): agents translate through them. -/
def tabled : State :=
  let s := poke (poke (poke user 0 8 0x1001) 0x1000 8 0x2001) 0x2000 8 0x3001
  poke (poke (poke s 0x3008 8 0x1006F) 0x3010 8 0x2006F) 0x3018 8 0x3006F

/-- A continuation record (15 R314): code 0x10000, frame 0x20000, 4 by 4 rods, 64 rows. -/
def record (join rods : Nat) : Nat := 0x10000 + 0x20000 * 2 ^ 64 + join * 2 ^ 128 + rods * 2 ^ 192 + 4 * 2 ^ 200 + 64 * 2 ^ 208
/-- A record at 0x20000 and queue 3 of the partition, with room for so many records. -/
def spawning (join rods room : Nat) : State :=
  regs { poke user 0x20000 32 (record join rods) with queues := [(3, { enabled := true, capacity := room })] } [(1, 0x20000)]
/-- What the record of a state reads as. -/
def recordAt (s : State) (v : Nat) (p : State → Bool) : Bool :=
  okAnd (s.resolve { align := 32 } 0x20000 32) fun r => leNat (r.1.drained.getBytes r.2.locs) == v && r.1.thr.released && p r.1

/-- A record that fits, with and without a join counter; one whose rods are 0, one of 65; a queue that is not the partition's; a full one. -/
theorem witness_SpawnAndCont :
    let f : FB := { fb with xa := 1, imm16 := 3 }
    (∀ fn < 2, (spawning 0 4 2).Issues (.b 0x40 fn f)) ∧ (spawning 0x30000 64 2).Issues (.b 0x40 0 f) ∧ spaceOf ((spawning 0 4 2).X 1) = 0
    ∧ recordAt (spawning 0 4 2) (record 0 4) (fun s => s.queueFor 3 0 && s.queueRoomFor 3 && !s.queueFor 4 0) = true
    ∧ recordAt (spawning 0x30000 64 2) (record 0x30000 64) (fun s => s.queueFor 3 0 && isOk (s.joinAdd 0x30000 1 true)) = true
    ∧ recordAt (spawning 0 0 2) (record 0 0) (fun _ => true) = true ∧ recordAt (spawning 0 65 2) (record 0 65) (fun _ => true) = true
    ∧ recordAt (spawning 0 4 0) (record 0 4) (fun s => s.queueFor 3 0 && !s.queueRoomFor 3) = true
    ∧ trapIs ((spawning 0 4 2).resolve { align := 32 } 0x40000 32) ⟨0x0101, 0x40000, 0x30⟩ = true
    ∧ recordAt (spawning 0x40000 4 2) (record 0x40000 4) (fun s => s.queueFor 3 0 && trapIs (s.joinAdd 0x40000 1 true) ⟨0x0101, 0x40000, 0x30⟩) = true := by
  simp only [issuesB_iff]; decide +kernel

/-- A wait pointer off its alignment, one in memory with work still open and with none, and none at all. -/
theorem witness_ItemsIssued_park :
    let f : FB := { fb with xa := 1, xb := 2 }
    (regs user [(2, 0x20004)]).Issues (.b 0x40 2 f) ∧ (regs user [(2, 0x20008)]).Issues (.b 0x40 2 f) ∧ user.thr.tracedItem = false
    ∧ okAnd ((regs user [(2, 0x20008)]).resolve { align := 8 } 0x20008 8) (fun r => r.1.workDone) = true
    ∧ okAnd ((with' user fun t => { t with sq := [{ no := 1, pc := 0, ea := 0x20000, bytes := [], fps := [], peers := [] }] }).resolve { align := 8 } 0x20008 8) (fun r => !r.1.workDone) = true
    ∧ user.Issues (.b 0x40 2 f) ∧ user.X 2 = 0 ∧ user.workDone = true :=
  by simp only [issuesB_iff]; decide +kernel

/-- A launch packet (15 R308) of one item on queue 3, done record at 0x30000; `rods` its rods. -/
def packet (rods : Nat) : Nat :=
  0x10000 + 0x20000 * 2 ^ 64 + 1 * 2 ^ 128 + rods * 2 ^ 160 + 4 * 2 ^ 168 + 64 * 2 ^ 176 + 3 * 2 ^ 200 + 0x30000 * 2 ^ 288
def launching (rods : Nat) : State :=
  regs { poke tabled 0x20000 64 (packet rods) with queues := [(3, { enabled := true, capacity := 2 })] } [(1, 0x20000)]
/-- The packet of a state passes every check. -/
def packetValid (s : State) : Bool :=
  okAnd (s.resolve { align := 64 } 0x20000 64) fun r =>
    let s1 := r.1
    let l := packetOf (s1.launchId + 1) (s1.seq + 1) ((s1.launchRing.map fun c => c.ring.setWidth 8).getD 0) s1.thr.part s1.thr.vf s1.thr.root
      s1.deviceId (s1.getBytes r.2.locs)
    s1.thr.released && s1.doneOk l && s1.packetOk l (leNat (s1.getBytes r.2.locs) / 2 ^ 224 % 2 ^ 32) && s1.genOk l

theorem witness_ItemsIssued_launch :
    let f : FB := { fb with xa := 1, xd := 2 }
    (launching 64).Issues (.b 0x40 9 f) ∧ packetValid (launching 64) = true
    ∧ isOk ((launching 65).resolve { align := 64 } 0x20000 64) = true ∧ packetValid (launching 65) = false
    ∧ (regs user [(1, 2 ^ 60)]).Issues (.b 0x40 9 f) ∧ spaceOf (2 ^ 60) = 1 :=
  by simp only [issuesB_iff]; decide +kernel

/-- The place of a group record at 0x30000. -/
def atRecord (s : State) (p : State × Named → Bool) : Bool :=
  okAnd (s.resolve { store := true, reads := false, data := false, align := 64 } 0x30000 64) fun r => r.1.thr.released && p r
/-- The group record of `tabled` at 0x30000 with a group on it. -/
def joining (g : Group) : State := regs { tabled with groups := [{ g with record := 0x30000 }] } [(1, 0x30000)]
def lone : Group := { grp with members := [⟨0, 2, false⟩], next := 1, live := 1 }

/-- GNEW on a free record, on one taken, with banks as deep as the plot and deeper, and in 15 groups; JOIN before the group, of a new member,
of one that is in it, and of a full, a broken and a deeper one. -/
theorem witness_Groups_joined :
    let f : FB := { fb with xa := 1, xd := 2, imm16 := 2, imm32 := 0x102 }
    (regs tabled [(1, 0x30000)]).Issues (.b 0x40 3 f) ∧ (joining lone).Issues (.b 0x40 4 f) ∧ tabled.thr.tracedItem = false
    ∧ atRecord (regs tabled [(1, 0x30000)]) (fun r => leNat ((r.1.getBytes r.2.locs).take 2) == 0 && (r.1.groupAt r.2.locs).isNone) = true
    ∧ atRecord (poke tabled 0x30000 2 7) (fun r => leNat ((r.1.getBytes r.2.locs).take 2) != 0) = true
    ∧ atRecord (joining lone) (fun r => (r.1.groupAt r.2.locs).map (·.gid) == some 7) = true
    ∧ (joining lone).thr.groups = [] ∧ (with' (joining lone) fun t => { t with groups := [⟨7, 1⟩] }).thr.groups.find? (fun x => x.gid == 7) = some ⟨7, 1⟩
    ∧ lone.broken = false ∧ lone.next ≠ lone.cap ∧ lone.xbase + 2 * lone.xrows ≤ tabled.thr.plotD ∧ grp.next ≠ grp.cap
    ∧ (with' tabled fun t => { t with groups := List.replicate 15 ⟨9, 0⟩ }).thr.groups.length = 15 :=
  by simp only [issuesB_iff]; decide +kernel

/-- Each form without a group and in one; the barrier's first arrival and its last, a broken group, a departure; a LEAVE of the only member. -/
theorem witness_Groups_barrier :
    (∀ fn < 9, 5 ≤ fn → user.Issues (.b 0x40 fn fb) ∧ grouped.Issues (.b 0x40 fn fb)) ∧ user.thr.groups = []
    ∧ grouped.thr.groups = [⟨7, 0⟩] ∧ grouped.groups.find? (fun x => x.gid == 7) = some grp ∧ grouped.thr.released = true
    ∧ grouped.thr.arrived = none ∧ grp.broken = false ∧ grp.arrived + 1 < grp.live
    ∧ ({ grp with arrived := 1 } : Group).arrived + 1 = grp.live ∧ ({ grp with broken := true } : Group).broken = true
    ∧ (with' grouped fun t => { t with arrived := some (7, 5) }).Issues (.b 0x40 6 fb) ∧ grp.phase ≠ 5 ∧ lone.live = 1 := by
  simp only [issuesB_iff]; decide +kernel

/-- The partition has clusters 0 and 16. -/
def roomy : State := { user with parts := [(0, { cfg := some ⟨0, [0, 16], 0, [], 0, 0, 0⟩ })] }

/-- A plot that may grow by a row of rods, one that may not, one off the plane; extents of 64 and 65 rods; PLOTINFO's two answers. -/
theorem witness_DescriptorsAndPlots_plot :
    let f : FB := { fb with xa := 1, xd := 2 }
    (regs roomy [(1, 0x400405)]).Issues (.b 0x40 10 f) ∧ (regs roomy [(1, 0x404105)]).Issues (.b 0x40 10 f)
    ∧ (regs roomy [(1, 0x10400404)]).Issues (.b 0x40 10 f) ∧ (0x404105 : Nat) / 256 % 256 = 65 ∧ 0x400440 % 256 = 64
    ∧ roomy.mayGrow roomy.thr 20 16 64 = true ∧ user.mayGrow user.thr 20 16 64 = false ∧ (with' roomy fun t => { t with row := 1 }).thr.row.toNat + 256 = 257
    ∧ user.Issues (.b 0x40 11 f) ∧ user.Issues (.b 0x40 11 { f with imm32 := 1 }) ∧ user.voidCells user.thr.plot = []
    ∧ ({ user with voids := [5] } : State).voidCells user.thr.plot = [5] := by
  simp only [issuesB_iff]; decide +kernel

/-! #### Tensors -/

/-- A descriptor (07 R170): KIND, FMT, the first cell and the size of its rectangle, LAYER, DEPTH, LBR and LBC. -/
def desc (kind fmt row0 col0 h w layer depth lbr lbc : Nat) : BitVec 256 :=
  BitVec.ofNat 256 (kind + fmt * 2 ^ 4 + row0 * 2 ^ 9 + col0 * 2 ^ 17 + h * 2 ^ 25 + w * 2 ^ 34 + layer * 2 ^ 43 + depth * 2 ^ 51
    + lbr * 2 ^ 64 + lbc * 2 ^ 67)
/-- A plane of 2 by 2 cells, eight elements of 32 bits to a cell. -/
def plane (fmt layer : Nat) : BitVec 256 := desc 1 fmt 0 0 2 2 layer 1 0 3

/-- Sixteen descriptors: t1-t3 FP32, t4 a predicate plane, t5-t7 INT32, t8 one element to a cell, t9 a member's plane, t10 ACC48,
t11 UINT32, t12 a scale plane of UE8M0, t13 INT64 pointers, t14 a row, t15 a column, t16 INT32 one to a cell. -/
def tensors : State :=
  tens user [(1, plane 8 0), (2, plane 8 1), (3, plane 8 2), (4, desc 3 17 0 0 2 2 3 1 0 3), (5, plane 4 4), (6, plane 4 5), (7, plane 4 6),
    (8, desc 1 8 0 0 2 2 7 1 0 0), (9, desc 5 8 0 0 2 2 0 1 0 3), (10, desc 2 16 0 0 2 2 8 2 0 3), (11, plane 5 10),
    (12, desc 1 15 0 0 2 1 11 1 0 0), (13, desc 1 6 0 0 2 2 12 2 0 3), (14, desc 1 8 0 0 1 2 14 1 0 3), (15, desc 1 8 0 0 2 1 15 1 0 0),
    (16, desc 1 4 0 0 2 2 16 1 0 0)]
def T (n : Nat) : Ten := Ten.of (tensors.T (BitVec.ofNat 6 n))

/-- What the statements ask of a vector instruction that may begin, as a test. -/
def vectorB (s : State) (f : Form) (td : Ten) (srcs : List (Ten × BitVec 4)) (tc : Option Ten) (extra : List Ten) : Bool :=
  issuesB s f && okAnd (s.placesOf (td :: srcs.map (·.1))) (fun l => match l with
      | p :: _ => decide (p.plot.row + p.plot.h ≤ 256 ∧ p.plot.col + p.plot.w ≤ 256 ∧ p.plot.sbase + p.plot.d ≤ 256
          ∧ p.t.row0 + p.t.h ≤ p.plot.h ∧ p.t.col0 + p.t.w ≤ p.plot.w ∧ p.off + p.t.layer + p.t.depth ≤ p.plot.d
          ∧ p.t.fmt ≤ 17 ∧ p.t.fmt ≠ 16 ∧ p.t.lbr ≤ 5 ∧ p.t.lbc ≤ 5 ∧ p.t.depth % p.t.sr = 0)
      | [] => false)
  && isOk (s.powered (td :: srcs.map (·.1) ++ (extra ++ tc.toList)))
  && mayBeginB s (td.fp true ++ srcs.flatMap (fun x => x.1.fpWin s.thr.plot x.2) ++ (extra ++ tc.toList).flatMap fun t => t.fp false)

/-- What `State.vectorOp` asks of an instruction that begins. -/
def Begins (s : State) (f : Form) (td : Ten) (srcs : List (Ten × BitVec 4)) (tc : Option Ten) (extra : List Ten) : Prop :=
  s.Issues f ∧ ∃ dst ps, s.placesOf (td :: srcs.map (·.1)) = .ok (dst :: ps) ∧ s.powered (td :: srcs.map (·.1) ++ (extra ++ tc.toList)) = .ok ()
    ∧ dst.sound ∧ s.MayBegin (td.fp true ++ srcs.flatMap (fun x => x.1.fpWin s.thr.plot x.2) ++ (extra ++ tc.toList).flatMap fun t => t.fp false)

theorem begins_of {s : State} {f : Form} {td : Ten} {srcs : List (Ten × BitVec 4)} {tc : Option Ten} {extra : List Ten}
    (h : vectorB s f td srcs tc extra = true) : Begins s f td srcs tc extra := by
  simp only [vectorB, Bool.and_eq_true] at h
  obtain ⟨⟨⟨h1, h2⟩, h3⟩, h4⟩ := h
  refine ⟨issues_of h1, ?_⟩
  cases hp : s.placesOf (td :: srcs.map (·.1)) with
  | error e => simp [hp, okAnd] at h2
  | ok l =>
    cases l with
    | nil => simp [hp, okAnd] at h2
    | cons dst ps =>
      refine ⟨dst, ps, rfl, ?_, ?_, mayBegin_of h4⟩
      · revert h3
        simp only [isOk, okAnd]
        split
        · intro _; simp_all
        · intro h; simp at h
      · simp only [hp, okAnd, decide_eq_true_eq] at h2
        exact h2

/-- Sources fit, as a test (`fitsWith`). -/
def fitsB (cls : Nat → Bool) (fmt : Nat) (td : Ten) (srcs : List (Ten × BitVec 4)) (tc : Option Ten) : Bool :=
  (srcs.all fun x => x.1.data cls && x.1.fmt == fmt && x.1.conforms td && x.1.winOk x.2) && tc.all fun t => t.predFor td

theorem fits_of {cls : Nat → Bool} {fmt : Nat} {td : Ten} {srcs : List (Ten × BitVec 4)} {tc : Option Ten}
    (h : fitsB cls fmt td srcs tc = true) : fitsWith cls fmt td srcs tc := by
  simp only [fitsB, Bool.and_eq_true, List.all_eq_true, beq_iff_eq] at h
  refine ⟨fun x hx => ?_, fun t ht => ?_⟩
  · obtain ⟨⟨⟨a, b⟩, c⟩, d⟩ := h.1 x hx
    exact ⟨a, b, c, d⟩
  · subst ht; simpa using h.2

theorem begins_all {n : Nat} {s : State} {f : Nat → Form} {td : Ten} {srcs : List (Ten × BitVec 4)} {tc : Option Ten} {extra : List Ten}
    (h : ((List.range n).all fun k => vectorB s (f k) td srcs tc extra) = true) (k : Nat) (hk : k < n) : Begins s (f k) td srcs tc extra :=
  begins_of (List.all_eq_true.1 h k (List.mem_range.2 hk))
/-- t3 from t1 and t2. -/
def tv : FT := ⟨gp, 1, 3, 0, 0, 0, 0, 0, 0, 2, 0, 0⟩
/-- t7 from t5 and t6. -/
def ti : FT := ⟨gp, 5, 7, 0, 0, 0, 0, 0, 0, 6, 0, 0⟩

/-- Tensors of a group's thread: t9 is then the plane of the member of rank 0. -/
def grouping : State := { grouped with thr := { grouped.thr with t := tensors.thr.t } }

/-- A pointer tensor with a pointer into the plot, operands in INT32; and operands that do not fit. -/
theorem witness_PlaneAtomics_issue :
    let s : State := { tensors with rows := NMap.put {} tensors.rows (0 * 256 + 12) { data := BitVec.ofNat 256 (own 8 8 0 0).toNat } }
    (∀ fn < 5, s.Issues (.t 0x34 fn { tv with ta := 5, tb := 13, td := 7, tc := 4 })) ∧ ((T 5).kind = 1 ∧ (T 5).fmt ∈ [4, 5, 6])
    ∧ ((T 13).kind = 1 ∧ (T 13).fmt = 6 ∧ (T 13).conforms (T 5) = true) ∧ ((T 7).kind = 1 ∧ (T 7).fmt = (T 5).fmt ∧ (T 7).conforms (T 5) = true)
    ∧ (T 4).predFor (T 5) = true ∧ isOk (s.placesOf [T 7]) = true ∧ isOk (s.powered [T 5, T 13, T 7, T 4]) = true
    ∧ s.thr.released = true ∧ s.thr.sq = [] ∧ s.thr.openOuts = [] ∧ s.elem ⟨T 13, s.thr.plot, 0⟩ 0 0 0 0 = (own 8 8 0 0).toNat
    ∧ s.MayBegin ((T 7).fp true ++ (T 5).fp false ++ (T 13).fp false ++ (T 4).fp false
        ++ targetFp 4 (own 8 8 0 0 :: List.replicate 31 (0 : Word)))
    ∧ (T 1).fmt ∉ [4, 5, 6] := by
  simp only [issuesB_iff, mayBeginB_iff]; decide +kernel

/-- A plane op in progress, named 4. -/
def opOf (w : Work) : PlaneOp := { no := 4, pc := 0x10000, fps := [], work := w, poison := false }

/-- A VATOM in progress with two requests for one word, and one whose first pointer is not mapped. -/
def vatomOp (a : Word) : PlaneOp := opOf (.vatom 0 4 0 none [⟨0, a, 1, false⟩, ⟨1, a, 2, false⟩] 0)
def vatoming (a : Word) : State := { with' user fun t => { t with ops := [vatomOp a] } with input := { unit := 4 } }

theorem witness_PlaneAtomics_rmw :
    ((vatoming 0x20000).atSlot 0).opNamed 4 = some (vatomOp 0x20000) ∧ (vatomOp 0x20000).root = user.thr.root ∧ ([(⟨0, 0x20000, 1, false⟩ : VElem), ⟨1, 0x20000, 2, false⟩].map (·.idx)).Nodup
    ∧ isOk (((vatoming 0x20000).atSlot 0).resolve (atomWant 0 4 false) 0x20000 4) = true
    ∧ trapIs (((vatoming 0x40000).atSlot 0).resolve (atomWant 0 4 false) 0x40000 4) ⟨0x0101, 0x40000, 0x30⟩ = true
    ∧ ((vatoming 0x40000).atSlot 0).thr.term = none := by
  decide +kernel

/-- No cell of a state with the clusters of `user` and no void list is void. -/
theorem live_cells (s : State) (h : s.clusters = user.clusters) (h' : s.voids = []) (c : Nat) : s.isVoid c = false := by
  have k : user.clusters = [(0, { ({} : Cluster) with tlb := [page 0x10000, page 0x20000, page 0x30000] })] := by decide +kernel
  simp only [State.isVoid, h', State.isOff, State.cluster, h, k, NMap.get]
  split <;> rfl

/-- The same two requests with a plane that takes the old values. -/
theorem witness_PlaneAtomics_old :
    let left : List VElem := [⟨0, 0x20000, 1, false⟩, ⟨1, 0x20000, 2, false⟩]
    let o : PlaneOp := opOf (.vatom 0 4 (tensors.T 7) none left 0)
    let x := State.atSlot { with' tensors fun t => { t with ops := [o] } with input := { unit := 4 } } 0
    x.opNamed 4 = some o ∧ o.root = x.thr.root ∧ tensors.T 7 ≠ 0 ∧ isOk (x.resolve (atomWant 0 4 false) 0x20000 4) = true
    ∧ okAnd (x.placeAs none (T 7)) (fun p => p == ⟨T 7, user.thr.plot, 0⟩) = true ∧ Place.sound ⟨T 7, user.thr.plot, 0⟩
    ∧ (∀ u ∈ left, u.idx < (T 7).slices * ((T 7).rows * (T 7).cols)) ∧ ∀ p d i j, x.elemVoid p d i j = false := by
  intro left o x
  refine ⟨by decide +kernel, by decide +kernel, by decide +kernel, by decide +kernel, by decide +kernel, by unfold Place.sound; decide +kernel,
    by decide +kernel, fun p d i j => live_cells x (by decide +kernel) (by decide +kernel) _⟩

/-- The descriptor t1 in x4 to x7, one with FMT 18 and one that leaves the plot; a descriptor in memory at 0x20000. -/
def held (d : BitVec 256) : State :=
  regs (poke tensors 0x20000 32 (plane 8 2).toNat) [(4, d.extractLsb' 0 64), (5, d.extractLsb' 64 64), (6, d.extractLsb' 128 64), (7, d.extractLsb' 192 64),
    (8, 0x20000), (9, 0x0000000000010001), (10, 0xFF00), (11, 0x0001000100000000)]

theorem witness_DescriptorsAndPlots_desc :
    (∀ fn < 8, (held (plane 8 2)).Issues (.t 0x50 fn { tv with td := 3, ta := 1, tb := 0, xs := 4, edg := 1 }))
    ∧ (descOk (plane 8 2) = true ∧ descOk (plane 18 2) = false ∧ descOk (desc 1 8 15 0 2 2 0 1 0 3) = true ∧ ¬ (15 + 2 ≤ user.thr.plotH))
    ∧ ((held (plane 8 2)).X 7 ++ (held (plane 8 2)).X 6 ++ (held (plane 8 2)).X 5 ++ (held (plane 8 2)).X 4 : BitVec 256) = plane 8 2
    ∧ okAnd ((held 0).resolve {} 0x20000 32) (fun r => r.1 == held 0 && isOk (r.1.claim r.2.fps true)) = true
    ∧ okAnd ((held 0).resolve { watch := false } 0x20000 32) (fun r => r.1 == held 0) = true
    ∧ isOk ((held 0).resolve { watch := false } 0x20008 32) = true
    ∧ okAnd ((held 0).resolve { store := true, reads := false, data := false } 0x20000 32) (fun r => isOk (r.1.storeClaims r.2 1)) = true
    ∧ isOk ((held 0).resolve { store := true, reads := false, data := false, watch := false } 0x20000 32) = true
    ∧ (((held 0).X 9).extractLsb' 0 16).toInt = 1 ∧ (((held 0).X 10).extractLsb' 0 16).toInt < 0 := by
  simp only [issuesB_iff]; decide +kernel

/-- FP32 planes with and without a predicate plane, through a window, and a member's plane; INT32 planes; operands that do not fit. -/
theorem witness_VectorArithmetic :
    (∀ fn < 9, Begins tensors (.t 0x60 fn { tv with tc := 4, wa := 3 }) (T 3) [(T 1, 3), (T 2, 0)] (some (T 4)) [])
    ∧ (∀ fn < 9, Begins tensors (.t 0x60 fn { tv with wa := 8 }) (T 3) [(T 1, 8)] none [])
    ∧ Begins grouping (.t 0x60 0 { tv with ta := 9 }) (T 3) [(T 9, 0), (T 2, 0)] none []
    ∧ (∀ fn < 9, Begins tensors (.t 0x60 fn ti) (T 7) [(T 5, 0), (T 6, 0)] none [])
    ∧ ((T 3).data fmtFI = true ∧ (T 3).fmt = (T 1).fmt ∧ fitsWith fmtFI (T 1).fmt (T 3) [(T 1, 3), (T 2, 0)] (some (T 4)))
    ∧ ((T 7).data fmtFI = true ∧ (T 7).fmt = (T 5).fmt ∧ fitsWith fmtFI (T 5).fmt (T 7) [(T 5, 0), (T 6, 0)] none)
    ∧ (T 3).fmt ≠ (T 5).fmt :=
  ⟨begins_all (by decide +kernel), begins_all (by decide +kernel), begins_of (by decide +kernel), begins_all (by decide +kernel),
    ⟨by decide +kernel, by decide +kernel, fits_of (by decide +kernel)⟩, ⟨by decide +kernel, by decide +kernel, fits_of (by decide +kernel)⟩, by decide +kernel⟩

theorem witness_VectorArithmetic_scalars :
    (∀ fn < 5, Begins tensors (.t 0x61 fn { tv with tb := 0, xs := 5 }) (T 3) [(T 1, 0)] none [])
    ∧ (∀ fn < 5, Begins tensors (.t 0x61 fn { ti with tb := 0, xs := 5 }) (T 7) [(T 5, 0)] none [])
    ∧ Begins tensors (.t 0x61 2 { tv with xs := 5 }) (T 3) [(T 1, 0), (T 2, 0)] none []
    ∧ (∀ fn < 7, Begins tensors (.t 0x61 fn { ti with tb := 0, ta := 0, tc := 4, xs := 5 }) (T 7) [] (some (T 4)) [])
    ∧ fitsWith fmtI (T 7).fmt (T 7) [] (some (T 4)) ∧ (T 7).data fmtI = true :=
  ⟨begins_all (by decide +kernel), begins_all (by decide +kernel), begins_of (by decide +kernel), begins_all (by decide +kernel), fits_of (by decide +kernel),
    by decide +kernel⟩

theorem witness_VectorFunctions :
    (∀ fn < 23, Begins tensors (.t 0x60 fn { tv with tb := 0 }) (T 3) [(T 1, 0)] none [])
    ∧ (∀ fn < 23, Begins tensors (.t 0x60 fn ti) (T 7) [(T 5, 0), (T 6, 0)] none [])
    ∧ (∀ fn < 23, Begins tensors (.t 0x60 fn { ti with tb := 0 }) (T 7) [(T 5, 0)] none [])
    ∧ ((T 3).data fmtF' = true ∧ (T 3).data fmtF = true ∧ fitsWith fmtF' (T 1).fmt (T 3) [(T 1, 0)] none ∧ fitsWith fmtF (T 1).fmt (T 3) [(T 1, 0)] none)
    ∧ ((T 7).data fmtI = true ∧ fitsWith fmtI (T 5).fmt (T 7) [(T 5, 0), (T 6, 0)] none ∧ fitsWith fmtI (T 5).fmt (T 7) [(T 5, 0)] none) :=
  ⟨begins_all (by decide +kernel), begins_all (by decide +kernel), begins_all (by decide +kernel),
    ⟨by decide +kernel, by decide +kernel, fits_of (by decide +kernel), fits_of (by decide +kernel)⟩,
    ⟨by decide +kernel, fits_of (by decide +kernel), fits_of (by decide +kernel)⟩⟩

/-- VMOV, VSEL with a predicate plane, the compares into one, VCVT between formats and with a scale on each side, and to BLK4. -/
def scaled : State := tens tensors [(17, setFld (plane 4 18) 70 6 12), (18, desc 1 14 0 0 2 2 19 1 0 3)]
def S (n : Nat) : Ten := Ten.of (scaled.T (BitVec.ofNat 6 n))
theorem witness_VectorFunctions_moves :
    Begins tensors (.t 0x60 23 { tv with tb := 0 }) (T 3) [(T 1, 0)] none [] ∧ fitsWith fmtX (T 1).fmt (T 3) [(T 1, 0)] none
    ∧ Begins tensors (.t 0x60 25 { tv with tc := 4 }) (T 3) [(T 1, 0), (T 2, 0)] none [T 4] ∧ fitsWith fmtX (T 3).fmt (T 3) [(T 1, 0), (T 2, 0)] (some (T 4))
    ∧ (∀ fn < 30, Begins tensors (.t 0x60 fn { tv with td := 4 }) (T 4) [(T 1, 0), (T 2, 0)] none [])
    ∧ ((T 4).data fmtP = true ∧ fitsWith fmtFI (T 1).fmt (T 4) [(T 1, 0), (T 2, 0)] none)
    ∧ Begins scaled (.t 0x60 24 ⟨gp, 17, 3, 0, 0, 0, 0, 0, 12, 0, 0, 0⟩) (S 3) [(S 17, 0)] none [S 12, S 12]
    ∧ ((S 3).data fmtX = true ∧ (S 17).data fmtX = true ∧ (S 17).fmt ≠ 14 ∧ (S 17).conforms (S 3) = true ∧ (S 17).scale = 12)
    ∧ ((S 12).kind = 1 ∧ (S 12).fmt = 15 ∧ (S 12).rows = (S 17).rows ∧ (S 12).cols = ((S 17).cols + 16 * 2 ^ (S 17).sblk - 1) / (16 * 2 ^ (S 17).sblk)
      ∧ (S 12).slices = 1)
    ∧ scaled.Issues (.t 0x60 24 { tv with td := 18 }) ∧ (S 18).fmt = 14 :=
  ⟨begins_of (by decide +kernel), fits_of (by decide +kernel), begins_of (by decide +kernel), fits_of (by decide +kernel), begins_all (by decide +kernel),
    ⟨by decide +kernel, fits_of (by decide +kernel)⟩, begins_of (by decide +kernel), by decide +kernel, by decide +kernel, issues_of (by decide +kernel),
    by decide +kernel⟩

/-- Each lane form on operands that fit it; a source of one element to a cell for VREDC and VDOTC. -/
theorem witness_LanesAndPredicates_lanes :
    Begins tensors (.t 0x62 0 { tv with tb := 5 }) (T 3) [(T 1, 0), (T 5, 0)] none []
    ∧ ((T 5).data fmtI = true ∧ (T 5).conforms (T 3) = true ∧ fitsWith fmtX (T 3).fmt (T 3) [(T 1, 0)] none)
    ∧ (∀ fn < 5, Begins tensors (.t 0x62 fn { tv with tb := 0, xs := 5, imm18 := 7 }) (T 3) [(T 1, 0)] none []) ∧ 7 < (T 3).ebr * (T 3).ebc
    ∧ Begins tensors (.t 0x62 6 { tv with ta := 5, tb := 2 }) (T 3) [(T 5, 0), (T 2, 0)] none []
    ∧ ((T 2).fmt = (T 3).fmt ∧ (T 3).conforms (T 5) = true ∧ (T 2).h = (T 3).h ∧ (T 2).w = (T 3).w)
    ∧ Begins tensors (.t 0x62 3 { tv with tb := 0, td := 8, imm18 := 2 }) (T 8) [(T 1, 0)] none []
    ∧ ((T 8).ebr * (T 8).ebc = 1 ∧ (T 8).h = (T 1).h ∧ (T 8).w = (T 1).w ∧ (T 8).slices = (T 1).slices ∧ (T 8).fmt = (T 1).fmt)
    ∧ Begins tensors (.t 0x62 4 { tv with tb := 0, imm18 := 4 }) (T 3) [(T 1, 0)] none []
    ∧ Begins tensors (.t 0x62 5 { tv with td := 8, imm18 := 1 }) (T 8) [(T 1, 0), (T 2, 0)] none []
    ∧ Begins tensors (.t 0x62 5 { ti with td := 16 }) (T 16) [(T 5, 0), (T 6, 0)] none [] ∧ (T 16).data (fun c => c = 4 || c = 6) = true :=
  ⟨begins_of (by decide +kernel), ⟨by decide +kernel, by decide +kernel, fits_of (by decide +kernel)⟩, begins_all (by decide +kernel), by decide +kernel,
    begins_of (by decide +kernel), by decide +kernel, begins_of (by decide +kernel), by decide +kernel, begins_of (by decide +kernel),
    begins_of (by decide +kernel), begins_of (by decide +kernel), by decide +kernel⟩

/-- The logic forms, the counts with LA 0 and 3 and at a poisoned row, and the tags. -/
def badRow : State := { tensors with rows := NMap.put {} tensors.rows (0 * 256 + 3) { data := 1, poison := true } }
theorem witness_LanesAndPredicates_predicates :
    (∀ fn < 4, Begins tensors (.t 0x63 fn { tv with td := 4, ta := 4, tb := 4 }) (T 4) [(T 4, 0), (T 4, 0)] none [])
    ∧ Begins tensors (.t 0x63 0 { tv with td := 4, ta := 0, tb := 0 }) (T 4) [] none [] ∧ (T 4).data fmtP = true
    ∧ (∀ fn, 4 ≤ fn → fn < 7 → tensors.Issues (.t 0x63 fn { tv with td := 0, ta := 4, tb := 0, xs := 5 })
      ∧ tensors.Issues (.t 0x63 fn { tv with hd := la2, td := 0, ta := 4, tb := 0, xs := 5 }))
    ∧ okAnd (tensors.placesOf [T 4]) (fun l => l.length == 1) = true ∧ isOk (tensors.powered [T 4]) = true ∧ tensors.MayBegin ((T 4).fp false)
    ∧ (okAnd (badRow.placesOf [T 4]) fun l => match l with
        | [p] => (((T 4).grid.filter fun x => inBound (badRow.E 0) x.2.1 x.2.2).find? fun x => badRow.elemPoison p 0 x.1 x.2.1 x.2.2) == some (0, 0, 0)
        | _ => false) = true
    ∧ Begins tensors (.t 0x63 7 { tv with ta := 0, tb := 0 }) (T 3) [] none [] ∧ Begins tensors (.t 0x63 8 { tv with ta := 0, tb := 0 }) (T 3) [] none []
    ∧ (T 3).data fmtX = true ∧ tensors.thr.released = true ∧ tensors.feq = [] := by
  have k : ∀ fn < 7, 4 ≤ fn → (issuesB tensors (.t 0x63 fn { tv with td := 0, ta := 4, tb := 0, xs := 5 })
      && issuesB tensors (.t 0x63 fn { tv with hd := la2, td := 0, ta := 4, tb := 0, xs := 5 })) = true := by decide +kernel
  refine ⟨begins_all (by decide +kernel), begins_of (by decide +kernel), by decide +kernel, fun fn h h' => ?_, by decide +kernel, by decide +kernel,
    mayBegin_of (by decide +kernel), by decide +kernel, begins_of (by decide +kernel), begins_of (by decide +kernel), by decide +kernel, by decide +kernel,
    by decide +kernel⟩
  have := k fn h' h
  simp only [Bool.and_eq_true] at this
  exact ⟨issues_of this.1, issues_of this.2⟩
/-! #### Scrolls, the network -/

/-- A scroll of t1, of t1 under the frame of t2, under SPILL beyond it, of a member's plane; with and without a register. -/
theorem witness_Scrolls_issue :
    let f : FT := { tv with td := 1, ta := 0, tb := 0, imm18 := 0x1FE01 }
    let g : FT := { tv with td := 1, ta := 2, tb := 0, xs := 5, imm18 := 6 }
    tensors.Issues (.t 0x70 0 f) ∧ tensors.Issues (.t 0x70 1 g) ∧ (T 1).own = true ∧ (T 2).own = true ∧ (T 9).own = false
    ∧ isOk (tensors.powered [T 1, T 1]) = true ∧ tensors.MayBegin ((T 1).fp true)
    ∧ isOk (tensors.powered [T 1, (T 1).swept tensors.thr.plot 0 3]) = true
    ∧ tensors.MayBegin ((T 1).fp true ++ ((T 1).swept tensors.thr.plot 0 3).fp true) ∧ (6 : BitVec 18).extractLsb' 0 2 = 2 :=
  by simp only [issuesB_iff, mayBeginB_iff]; decide +kernel

/-- A scroll of a 2 by 2 frame in progress, in each mode, with a row and with columns left, a hole in the frame; and one that has ended. -/
def scrollOp (mode : BitVec 2) (carry : Bool) (dy dx : Int) : PlaneOp :=
  { opOf (.scroll ⟨plane 8 0, plane 8 0, mode, carry, dy, dx⟩) with dest := 5, destVal := 9 }
def scrolling (o : PlaneOp) : State := { with' { user with voids := [256] } fun t => { t with ops := [o] } with input := { unit := 4 } }
theorem witness_Scrolls_step :
    ([(0 : BitVec 2), 1, 2, 3].all fun m => [true, false].all fun c => [((1 : Int), (0 : Int)), (0, -2), (-1, 0)].all fun v =>
      let s := scrolling (scrollOp m c v.1 v.2)
      ((s.atSlot s.input.slot).opNamed s.input.unit == some (scrollOp m c v.1 v.2)) && !(s.atSlot s.input.slot).scrollStands) = true
    ∧ (let t := Ten.of (plane 8 0); t.row0 + t.h ≤ user.thr.plot.h ∧ t.col0 + t.w ≤ user.thr.plot.w ∧ user.thr.plot.row + user.thr.plot.h ≤ 256
      ∧ user.thr.plot.col + user.thr.plot.w ≤ 256 ∧ user.thr.plot.sbase + t.layer + t.depth ≤ 256)
    ∧ (scrolling (scrollOp 0 false 1 0)).isVoid 256 = true
    ∧ ({ scrolling (scrollOp 0 false 1 0) with dbg := [(0, { stopped := true })] }.atSlot 0).scrollStands = true := by
  decide +kernel

/-- An op that has read a poisoned row, in the handler's mode and in user mode, and a scroll's end; one whose cycles have not passed. -/
theorem witness_PlaneMoves_complete :
    let o : PlaneOp := { opOf .held with poison := true, dest := 60, destVal := 9 }
    let busy : State := (scrolling o).setCluster 0 { (scrolling o).cluster 0 with charges := [{ slot := 0, cost := 1, cycles := 2, begun := true, op := 4 }] }
    (∀ p ∈ [o, { o with priv := true }, scrollOp 2 true 0 0],
      ((scrolling p).atSlot 0).opNamed (scrolling p).input.unit = some p ∧ p.untilLoopEnds = false
      ∧ ¬ ∃ c ∈ (((scrolling p).atSlot 0).cluster 0).charges, c.op = p.no)
    ∧ o.work = .held ∧ ((busy.atSlot 0).cluster 0).on = true ∧ ∃ c ∈ ((busy.atSlot 0).cluster 0).charges, c.op = o.no := by
  decide +kernel

/-- PLCOPY of planes and of accumulators, whole blocks as INT64, one whose bound cuts a block; PLFILL of a plane and a predicate plane. -/
theorem witness_PlaneMoves_copies :
    Begins tensors (.t 0x70 2 { tv with tb := 0, wa := 5 }) (T 3) [(T 1, 5)] none []
    ∧ ((T 3).own = true ∧ (T 1).own = true ∧ (T 3).fmt = (T 1).fmt ∧ (T 3).lbr = (T 1).lbr ∧ (T 3).h = (T 1).h ∧ (T 3).depth = (T 1).depth)
    ∧ Begins tensors (.t 0x70 2 { tv with td := 10, ta := 10, tb := 0 }) { T 10 with fmt := 6, kind := 1 } [({ T 10 with fmt := 6, kind := 1 }, 0)] none []
    ∧ (T 10).fmt = 16 ∧ (T 10).cutsBlock (tensors.E 0) = false ∧ (T 10).cutsBlock (BitVec.ofNat 64 (5 * 2 ^ 48 + 2 * 2 ^ 16)) = true
    ∧ Begins tensors (.t 0x70 3 { tv with ta := 0, tb := 0, xs := 5 }) (T 3) [] none [] ∧ (T 3).kind = 1
    ∧ Begins tensors (.t 0x70 3 { tv with td := 4, ta := 0, tb := 0, xs := 5 }) (T 4) [] none [] ∧ (T 4).kind = 3 :=
  ⟨begins_of (by decide +kernel), by decide +kernel, begins_of (by decide +kernel), by decide +kernel, by decide +kernel, by decide +kernel,
    begins_of (by decide +kernel), by decide +kernel, begins_of (by decide +kernel), by decide +kernel⟩

/-- Tensors of the network: t20 a row for each column of t1, t21 a column for each row. -/
def netted : State := tens tensors [(20, desc 1 8 0 0 1 2 20 1 0 3), (21, desc 1 8 0 0 2 1 21 1 0 0)]
def N (n : Nat) : Ten := Ten.of (netted.T (BitVec.ofNat 6 n))

/-- NREDR into a column, NREDC into a row, NREDX into a register; sources and results that do not fit. -/
theorem witness_NetworkForms_issue :
    (∀ fn < 3, netted.Issues (.t 0x80 fn { tv with td := 21, tb := 0, tc := 4, xs := 5 }))
    ∧ ((N 1).kind = 1 ∧ (N 1).fmt ∈ [8, 9, 10, 4] ∧ (N 4).predFor (N 1) = true)
    ∧ ((N 21).kind = 1 ∧ (N 21).slices = (N 1).slices ∧ (N 21).fmt = 8 ∧ (N 21).h = (N 1).h ∧ (N 21).lbr = (N 1).lbr ∧ (N 21).w = 1 ∧ (N 21).lbc = 0)
    ∧ ((N 20).slices = (N 1).slices ∧ (N 20).w = (N 1).w ∧ (N 20).lbc = (N 1).lbc ∧ (N 20).h = 1 ∧ (N 20).lbr = 0)
    ∧ isOk (netted.powered [N 21, N 1, N 4]) = true ∧ netted.MayBegin ((N 21).fp true ++ (N 1).fp false ++ (N 4).fp false)
    ∧ netted.MayBegin ((N 1).fp false ++ (N 4).fp false) ∧ (N 12).fmt ∉ [8, 9, 10, 4] := by
  simp only [issuesB_iff, mayBeginB_iff]; decide +kernel

/-- A reduction at its root, of each form and operation, in FP32 and in INT32. -/
def reduceOp (fn fmt : Nat) (imm : BitVec 18) : PlaneOp :=
  { opOf (.reduce fn (desc 1 (if fmt = 4 then 6 else 8) 0 0 2 1 21 1 0 0) (plane fmt 0) 0 0xFFFF0000FFFF0000 true imm) with dest := 5 }
theorem witness_NetworkForms_root :
    ((List.range 3).all fun fn => [(8 : Nat), 4].all fun fmt => [(0 : BitVec 18), 1, 6].all fun imm =>
      let s := scrolling (reduceOp fn fmt imm)
      (s.atSlot s.input.slot).opNamed s.input.unit == some (reduceOp fn fmt imm)) = true
    ∧ (Ten.of (plane 8 0)).fmt ∈ [8, 9, 10, 4] ∧ (Ten.of (plane 4 0)).fmt ∈ [8, 9, 10, 4]
    ∧ (⟨Ten.of (desc 1 8 0 0 2 1 21 1 0 0), user.thr.plot, 0⟩ : Place).sound ∧ (⟨Ten.of (desc 1 6 0 0 2 1 21 1 0 0), user.thr.plot, 0⟩ : Place).sound := by
  refine ⟨by decide +kernel, by decide, by decide, ?_, ?_⟩
  · unfold Place.sound; decide +kernel
  · unfold Place.sound; decide +kernel

theorem witness_NetworkForms_broadcasts :
    Begins netted (.t 0x80 3 { tv with ta := 21, tb := 0 }) (N 3) [(N 21, 0)] none []
    ∧ ((N 3).kind = 1 ∧ (N 21).kind = 1 ∧ (N 3).fmt = (N 21).fmt ∧ (N 3).slices = (N 21).slices ∧ (N 21).w = 1 ∧ (N 21).lbc = 0 ∧ (N 3).h = (N 21).h)
    ∧ Begins netted (.t 0x80 4 { tv with ta := 20, tb := 0, tc := 4 }) (N 3) [(N 20, 0)] (some (N 4)) []
    ∧ ((N 20).h = 1 ∧ (N 20).lbr = 0 ∧ (N 3).w = (N 20).w ∧ (N 3).lbc = (N 20).lbc ∧ (N 4).predFor (N 3) = true) ∧ (N 1).w ≠ 1 :=
  ⟨begins_of (by decide +kernel), by decide +kernel, begins_of (by decide +kernel), by decide +kernel, by decide +kernel⟩

/-- A DRED of one participant, one whose context is 0, one with four before it. -/
theorem witness_DeviceReductions_issue :
    let f : FT := { tv with tb := 0, xs := 5 }
    (regs tensors [(5, 1)]).Issues (.t 0x80 5 f) ∧ tensors.Issues (.t 0x80 5 f) ∧ (tensors.X 5).extractLsb' 0 8 = 0
    ∧ ((T 3).kind = 1 ∧ (T 3).fmt ∈ [8, 9, 11, 12] ∧ (T 1).conforms (T 3) = true) ∧ isOk (tensors.powered [T 3, T 1]) = true
    ∧ tensors.thr.dreds < 4 ∧ tensors.MayBegin ((T 3).fp true ++ (T 1).fp false)
    ∧ 4 ≤ (with' tensors fun t => { t with ops := List.replicate 4 (opOf (.dred 0 0 false 1 [])) }).thr.dreds :=
  by simp only [issuesB_iff, mayBeginB_iff]; decide +kernel

/-- A DRED that waits for the switch: a contribution that fits, one of another count. -/
def dredOp : PlaneOp := opOf (.dred (plane 8 2) (plane 8 0) false 1 (List.replicate 32 0x3F800000))
def part (n : Nat) : Contribution := ⟨1, 8, List.replicate n 0x40000000⟩
theorem witness_DeviceReductions_switch :
    (scrolling dredOp).opNamed 4 = some dredOp ∧ (scrolling dredOp).thr.term = none
    ∧ [part 32].length = ((1 : Word).extractLsb' 0 8).toNat ∧ (Ten.of (plane 8 0)).fmt = 8
    ∧ (([(⟨2, 8, List.replicate 32 0x3F800000⟩ : Contribution), part 32]).map (·.port)).Nodup ∧ (part 31).elems.length ≠ 32
    ∧ (Ten.of (plane 8 2)).grid.length = 32 ∧ (⟨Ten.of (plane 8 2), user.thr.plot, 0⟩ : Place).sound
    ∧ ([part 32, ⟨2, 8, List.replicate 32 0x3F800000⟩]).Pairwise (fun p q => p.port < q.port)
    ∧ ([part 32, ⟨2, 8, List.replicate 32 0x3F800000⟩] : List Contribution).Perm [⟨2, 8, List.replicate 32 0x3F800000⟩, part 32] := by
  refine ⟨by decide +kernel, by decide +kernel, by decide, by decide, by decide +kernel, by decide, by decide +kernel, ?_, by decide +kernel, List.Perm.swap _ _ _⟩
  unfold Place.sound; decide +kernel
/-! #### The matrix unit -/

/-- t30 FP32 weights with t32 and t33 beside them, t31 INT8 weights with t34 and the accumulator t35, t36 E4M3 weights with the scales t37,
t38 FP32 of the accumulator's shape. -/
def matrices : State :=
  tens user [(30, desc 1 8 0 0 2 2 30 1 1 1), (31, desc 1 0 0 0 2 2 32 2 3 3), (32, desc 1 8 0 0 2 2 34 1 1 1), (33, desc 1 8 0 0 2 2 35 1 1 1),
    (34, desc 1 0 0 0 2 2 36 2 3 3), (35, desc 2 16 0 0 2 2 38 16 3 3), (36, desc 1 11 0 0 2 2 54 2 3 3), (37, desc 1 15 0 0 2 2 56 1 0 3),
    (38, desc 1 8 0 0 2 2 56 8 3 3)]
def M (n : Nat) : Ten := Ten.of (matrices.T (BitVec.ofNat 6 n))
/-- The units of the four cells hold weights of a format for an item. -/
def loaded (fmt : Nat) (uid : Nat) : State :=
  let u : MUnit := { owner := some uid, active := { fmt := some (BitVec.ofNat 5 fmt) } }
  { matrices with units := [(0, u), (1, u), (256, u), (257, u)] }
/-- Every unit of a rectangle is free or the item's. -/
def freeUnits (s : State) (t : Ten) : Bool := t.cells.all fun y =>
  let o := (s.munit (s.thr.plot.cell y.1 y.2)).owner
  o.isNone || o == some s.thr.src.uid

theorem witness_MatrixUnits :
    let f : FQ := { fq with ta := 30 }
    let g : FQ := { fq with ta := 36, tb := 37 }
    matrices.Issues (.q 0x90 0 f) ∧ matrices.Issues (.q 0x90 0 g) ∧ (loaded 8 1).Issues (.q 0x90 1 f) ∧ (loaded 8 9).Issues (.q 0x90 0 f)
    ∧ ((M 30).kind = 1 ∧ 0 < (M 30).slices ∧ ((M 30).fmt, (M 30).lbr, (M 30).lbc) = (8, 1, 1))
    ∧ (((M 36).fmt, (M 36).lbr, (M 36).lbc) = (11, 3, 3) ∧ (M 37).kind = 1 ∧ (M 37).fmt = 15 ∧ (M 37).h = (M 36).h ∧ (M 37).w = (M 36).w
      ∧ (M 37).lbr = 0 ∧ (M 37).lbc = 3 ∧ (M 37).slices = 1)
    ∧ freeUnits matrices (M 30) = true ∧ freeUnits (loaded 8 1) (M 30) = true ∧ freeUnits (loaded 8 9) (M 30) = false
    ∧ isOk (matrices.poweredAll (M 36) [M 37]) = true ∧ isOk (matrices.poweredAll (M 30) []) = true
    ∧ matrices.MayBegin [⟨0, 2, 0, 2, 30, 31, false⟩, ⟨0, 2, 0, 2, 257, 258, true⟩]
    ∧ matrices.MayBegin (⟨0, 2, 0, 2, 54, 56, false⟩ :: (M 37).fp false ++ [⟨0, 2, 0, 2, 257, 258, true⟩])
    ∧ (loaded 8 1).MayBegin [⟨0, 2, 0, 2, 256, 258, true⟩]
    ∧ (user.thr.plot.row + user.thr.plot.h ≤ 256 ∧ user.thr.plot.col + user.thr.plot.w ≤ 256 ∧ 2 ≤ user.thr.plot.h ∧ 2 ≤ user.thr.plot.w) :=
  by simp only [issuesB_iff, mayBeginB_iff]; decide +kernel

/-- The weights of a state's rectangle are the item's and of a format. -/
def weighs (s : State) (t : Ten) (w : Nat) : Bool := t.cells.all fun y =>
  let u := s.munit (s.thr.plot.cell y.1 y.2)
  u.owner == some s.thr.src.uid && u.active.fmt == some (BitVec.ofNat 5 w)

/-- FP32 by FP32 into FP32, INT8 by INT8 into an accumulator; a pair that is none. -/
theorem witness_MatrixProducts :
    (loaded 8 1).Issues (.q 0x90 2 { fq with td := 33, ta := 32, tb := 30, xc := 5 })
    ∧ (loaded 0 1).Issues (.q 0x90 2 { fq with td := 35, ta := 34, tb := 31, xc := 5, edm := 2, sba := 1 })
    ∧ freeUnits (loaded 8 1) (M 30) = true ∧ weighs (loaded 8 1) (M 30) 8 = true ∧ weighs (loaded 0 1) (M 31) 0 = true
    ∧ (match pairOf 8 8 with
      | some p => decide ((M 32).lbr = p.alb ∧ (M 33).fmt = p.dfmt ∧ (M 33).lbc = p.dlbc ∧ p.dfmt ≠ 16)
      | none => false) = true
    ∧ (match pairOf 0 0 with
      | some p => decide ((M 34).lbr = p.alb ∧ (M 35).fmt = p.dfmt ∧ (M 35).lbc = p.dlbc ∧ p.dfmt = 16)
      | none => false) = true
    ∧ ((M 32).kind = 1 ∧ (M 32).slices = 1 ∧ (M 32).row0 = (M 30).row0 ∧ (M 32).h = (M 30).h ∧ (M 33).kind = 1 ∧ (M 33).slices = 1
      ∧ (M 33).col0 = (M 30).col0 ∧ (M 33).w = (M 30).w ∧ (M 33).rows = (M 32).cols ∧ (M 33).depth = (M 33).sr)
    ∧ ((M 34).slices = 1 ∧ (M 34).h = (M 31).h ∧ (M 35).kind = 2 ∧ (M 35).slices = 1 ∧ (M 35).w = (M 31).w ∧ (M 35).rows = (M 34).cols
      ∧ (M 35).depth = (M 35).sr)
    ∧ isOk ((loaded 8 1).poweredAll (M 33) [M 32, M 30]) = true
    ∧ (loaded 8 1).MayBegin ((M 33).fp true ++ (M 32).fp false ++ [⟨0, 2, 0, 2, 256, 257, false⟩])
    ∧ isOk ((loaded 0 1).poweredAll (M 35) [M 34, M 31]) = true
    ∧ (loaded 0 1).MayBegin ((M 35).fp true ++ (M 34).fp false ++ [⟨0, 2, 0, 2, 256, 257, false⟩])
    ∧ (pairOf 8 9).isNone = true :=
  by simp only [issuesB_iff, mayBeginB_iff]; decide +kernel

/-- ACCZ and ACCNRM of blocks, ACCRD of them into FP32; a destination that is none; mantissas at the limit of a lift and below it. -/
theorem witness_MatrixUnits_accumulators :
    (∀ fn ∈ [3, 5], matrices.Issues (.q 0x90 fn { fq with td := 35 }) ∧ matrices.Issues (.q 0x90 fn { fq with td := 30 }))
    ∧ ((M 35).kind = 2 ∧ (M 35).fmt = 16 ∧ (M 35).depth = (M 35).slices * (M 35).sr ∧ (M 30).kind ≠ 2) ∧ isOk (matrices.poweredAll (M 35) []) = true
    ∧ matrices.MayBegin ((M 35).fp true)
    ∧ (∀ v ∈ [(1 : Int), 0, -3], |v| * 2 ^ 44 < 2 ^ 46) ∧ (∃ v ∈ [(1 : Int), 0, -3], 2 ^ 46 ≤ |v| * 2 ^ (44 + 1)) ∧ (2 : Int) ^ 46 ≤ |2 ^ 45| * 2 ^ (0 + 1)
    ∧ matrices.Issues (.q 0x90 4 { fq with td := 38, ta := 35 }) ∧ matrices.Issues (.q 0x90 4 { fq with td := 35, ta := 35 })
    ∧ ((M 38).kind = 1 ∧ (M 38).rows = (M 35).rows ∧ (M 38).cols = (M 35).cols ∧ (M 38).slices = 1 ∧ (M 38).fmt ≠ 14 ∧ (M 38).fmt ≠ 16)
    ∧ isOk (matrices.poweredAll (M 38) [M 35]) = true ∧ (⟨M 38, user.thr.plot, 0⟩ : Place).sound ∧ matrices.MayBegin ((M 38).fp true ++ (M 35).fp false) := by
  unfold Place.sound; simp only [issuesB_iff, mayBeginB_iff]; decide +kernel

/-! #### Copies -/

/-- t40 a memory tensor at 0x20000, t41 pointers and counts for t1, t42-t44 the same of one cell, t45 one of a stride that is not aligned. -/
def copying : State :=
  let mem (stride : Nat) := desc 4 8 0 0 4 16 0 1 0 0 + BitVec.ofNat 256 (0x20000 * 2 ^ 128 + stride * 2 ^ 192)
  tens tensors [(40, mem 64), (41, desc 1 6 0 0 2 2 45 1 0 1), (42, desc 1 8 0 0 1 1 0 1 0 3), (43, desc 1 6 0 0 1 1 45 1 0 1), (45, mem 66)]
def C (n : Nat) : Ten := Ten.of (copying.T (BitVec.ofNat 6 n))
/-- The same in a cluster that is off. -/
def cold : State := { dark with thr := { dark.thr with t := copying.thr.t } }
def ranges (a b n : Word) : State := regs copying [(1, a), (2, b), (3, n)]

theorem witness_CopyForms_issue :
    copying.Issues (.q 0xA0 0 { fq with td := 1, ta := 40 }) ∧ copying.Issues (.q 0xA0 1 { fq with td := 40, ta := 1, ch := 3 })
    ∧ copying.Issues (.q 0xA0 0 { fq with td := 1, ta := 45 })
    ∧ ((C 1).own = true ∧ (C 40).kind = 4 ∧ (C 1).fmt = (C 40).fmt ∧ (C 40).base % 4 = 0 ∧ (C 40).stride % 4 = 0 ∧ (C 45).stride % 4 = 2)
    ∧ (C 1).inPlot user.thr.plot = true ∧ (Ten.of (desc 1 8 15 0 2 2 0 1 0 3)).inPlot user.thr.plot = false ∧ copying.touchesOff (C 1) = false
    ∧ cold.touchesOff (C 1) = true ∧ (copying.chan 0).queue.length < 8 ∧ copying.entryFree = true
    ∧ (∀ fn ∈ [2, 3], copying.Issues (.q 0xA0 fn { fq with td := 1, ta := 1, tb := 41, tc := 4 }))
    ∧ ((C 1).kind = 1 ∧ (C 1).depth = 1 ∧ (C 41).kind = 1 ∧ (C 41).fmt = 6 ∧ (C 41).lbr = 0 ∧ (C 41).lbc = 1 ∧ (C 41).h = (C 1).h ∧ (C 41).w = (C 1).w
      ∧ (C 4).kind = 3) := by
  simp only [issuesB_iff]; decide +kernel

/-- A copy of a channel. -/
def waits : Copy :=
  { no := 1, pc := 0x10000, ordinal := 1, kind := .cpm, td := 0, ta := 0, tb := 0, tc := 0, edge := 0, addend := 0, stride := 0, src := 0x20000, dst := 0x30000, len := 32
    units := 0, total := 1, slack := 3, slack0 := 3, batch := none, written := 0, buffer := [], buffered := false, gathers := [], sectors := [], sectorsAsked := false }

/-- CPP between planes, over itself, from a member with and without a group, of rank 0 and past the group; CPM of memory and of the plot, and of no bytes, with room in the channel
and without. -/
theorem witness_CopyForms_planes :
    copying.Issues (.q 0xA0 4 { fq with td := 3, ta := 1 }) ∧ copying.Issues (.q 0xA0 4 { fq with td := 3, ta := 9 })
    ∧ ((C 3).fmt = (C 1).fmt ∧ (C 3).rows = (C 1).rows ∧ (C 3).cols = (C 1).cols ∧ (C 3).slices = (C 1).slices ∧ (C 9).member = true)
    ∧ copying.cppOverlap (C 3) (C 1) = false ∧ copying.cppOverlap (C 1) (C 1) = true ∧ copying.curGroup.isSome = false
    ∧ (grouping.curGroup = some grp ∧ (C 9).rank < grp.next ∧ (grp.member (C 9).rank).isSome = true ∧ grp.next ≤ 2)
    ∧ (ranges 0x20000 0x30000 64).Issues (.q 0xA0 5 { fq with xa := 1, xb := 2, xc := 3 })
    ∧ (ranges (own 0 0 0 0) (own 15 0 63 0) 32).Issues (.q 0xA0 5 { fq with xa := 1, xb := 2, xc := 3 })
    ∧ (rankOf 0x20000 = 0 ∧ spaceOf 0x20000 = 0 ∧ spaceOf (own 15 0 63 0) = 1 ∧ offsetOf (own 15 0 63 0) % 2 ^ 13 + 32 = 32 * 64)
    ∧ (ranges 0x20000 0x30000 0).Issues (.q 0xA0 5 { fq with xa := 1, xb := 2, xc := 3 }) ∧ ((ranges 0x20000 0x30000 0).chan 0).queue.length < 8
    ∧ (ranges 0x20000 0x30000 0).entryFree = true
    ∧ ((with' (ranges 0x20000 0x30000 0) fun t => { t with chans := t.chans.set 0 { queue := List.replicate 8 waits } }).chan 0).queue.length = 8 :=
  by simp only [issuesB_iff]; decide +kernel

/-- A copy of one unit; alone in channel 0. -/
def copy0 (kind : CopyKind) : Copy :=
  { waits with kind := kind, td := copying.T 1, ta := copying.T 40, edge := 0xFFFF0000FFFF0000 }
def queued (c : Copy) : State := with' copying fun t => { t with chans := t.chans.set 0 { queue := [c] } }

/-- A copy at the head with work left; one whose rows the bound masks; a thread that has met a fault, and one that is flushed. -/
theorem witness_CopyForms_head :
    let c : Copy := { copy0 .cpin with edge := 0x0001000000010000, units := 1, total := 4 }
    ((queued (copy0 .cpm)).chan 0).queue.head? = some (copy0 .cpm) ∧ (copy0 .cpm).masked = false ∧ (copy0 .cpm).units < (copy0 .cpm).total
    ∧ ((queued c).chan 0).queue = [c] ∧ c.sectorsAsked = false ∧ c.units ≤ c.total ∧ (queued c).thr.term = none ∧ (queued c).thr.preempt = .none
    ∧ (with' (queued c) fun t => { t with term := some { cause := 1, pc := 0 } }).thr.term.isSome = true
    ∧ (with' (queued c) fun t => { t with preempt := .flush }).rewound.flushable = true
    ∧ ∀ u < c.total, c.units ≤ u → c.grid.unitElems c.edge u = [] := by decide +kernel

/-- SEAL with copies to mark and without, WAITB at the number of batches and below it. -/
theorem witness_CopyForms_counters :
    (∀ fn < 10, 6 ≤ fn → (queued (copy0 .cpm)).Issues (.q 0xA0 fn { fq with xc := 5 })) ∧ user.thr.tracedItem = false
    ∧ (∃ c ∈ ((queued (copy0 .cpm)).chan 0).queue, c.batch = none) ∧ (∀ j < 4, (user.chan j).queue = [])
    ∧ (with' user fun t => { t with batches := [1, 2] }).thr.batches.length ≤ 2 ∧ ¬ (with' user fun t => { t with batches := [1, 2] }).thr.batches.length ≤ 1
    ∧ 16 ≤ (with' user fun t => { t with batches := List.replicate 16 1 }).thr.batches.length := by
  simp only [issuesB_iff]; decide +kernel

/-- A place of the elements that a burst picks, which is found and sound. -/
def placedB (s : State) (c : Copy) (t : Ten) : Bool := match s.copyPlace c t (c.picked 32768) with
  | .ok p => decide (p.plot.row + p.plot.h ≤ 256 ∧ p.plot.col + p.plot.w ≤ 256 ∧ p.plot.sbase + p.plot.d ≤ 256
      ∧ p.t.row0 + p.t.h ≤ p.plot.h ∧ p.t.col0 + p.t.w ≤ p.plot.w ∧ p.off + p.t.layer + p.t.depth ≤ p.plot.d
      ∧ p.t.fmt ≤ 17 ∧ p.t.fmt ≠ 16 ∧ p.t.lbr ≤ 5 ∧ p.t.lbc ≤ 5 ∧ p.t.depth % p.t.sr = 0)
  | .error _ => false
/-- A result of the copy engines is good. -/
def good {ε α : Type} (r : Except ε α) : Bool := match r with
  | .ok _ => true
  | .error _ => false
/-- What a unit comes to. -/
def servedB (s : State) (c : Copy) (p : State → Copy → Bool) : Bool := match s.serveUnit c 32768 with
  | .on t d _ => p t d
  | _ => false

/-- The first unit of a CPIN, a CPOUT and a CPP, a masked one and a burst that is spent, one of CPM; a gather with its pointer and a
scatter of one cell, of whose bytes a burst holds the first 4-byte unit. -/
def gathering : State := { copying with rows := NMap.put {} copying.rows (0 * 256 + 45) { data := 0x20010 + 5 * 2 ^ 64 } }
def gather1 (kind : CopyKind) : Copy := { copy0 kind with td := copying.T 42, ta := copying.T 42, tb := copying.T 43 }
theorem witness_CopyWork_units :
    let masked : Copy := { copy0 .cpin with edge := 0x0001000000010000, units := 1, total := 4 }
    let out : Copy := { copy0 .cpout with td := copying.T 40, ta := copying.T 1 }
    (∀ c ∈ [copy0 .cpin, out, { copy0 .cpp with ta := copying.T 3 }], (c.picked 32768).length = 16 ∧ c.todo ≠ [] ∧ c.picked 0 = [] ∧ c.root = copying.thr.root
      ∧ fmtBits c.grid.words.fmt = 32 ∧ (∀ y ∈ c.todo, (c.with4 y).length = 1))
    ∧ masked.todo = [] ∧ placedB copying (copy0 .cpin) (C 1) = true ∧ placedB copying out (C 1) = true
    ∧ ((out.picked 32768).all fun x => !copying.elemPoison ⟨C 1, copying.thr.plot, 0⟩ 0 x.1 x.2.1 x.2.2) = true
    ∧ good (copying.copyRead ((List.range 64).map fun k => 0x20000 + BitVec.ofNat 64 k)) = true
    ∧ good (copying.agentLocs (some 0) 0 0 true ((List.range 64).map fun k => 0x20000 + BitVec.ofNat 64 k)) = true
    ∧ placedB copying { copy0 .cpp with ta := copying.T 3 } (C 3) = true ∧ placedB copying { copy0 .cpp with ta := copying.T 3 } (C 1) = true
    ∧ ((copy0 .cpm).buffered = false ∧ (copy0 .cpm).src.toNat + (copy0 .cpm).len ≤ (copy0 .cpm).dst.toNat ∧ (copy0 .cpm).cpmTake 32768 = 32)
    ∧ okAnd (copying.resolveBytes { watch := false } 0x20000 (bytesOf 0x20000 32)) (fun r => r.2.locs.length == 32) = true
    ∧ isOk (copying.resolveBytes { store := true, reads := false, data := false, watch := false } 0x30000 (bytesOf 0x30000 32)) = true
    ∧ (match gathering.gathersOf (C 42) (C 43) none with
      | .ok [g] => good (gathering.pointerLocs none true ((bytesOf g.ptr g.n).take 4)) && g.n == 5 && g.ptr == 0x20010
          && decide ((gathering.gatherRow (C 42) g).2 < 256) && blocksOf 4 [g] == [0x8004, 0x8005]
          && !gathering.isVoid (gathering.gatherRow (C 42) g).1
      | _ => false) = true
    ∧ (gathering.row 0 0).poison = false := by
  decide +kernel

/-- Two slices of FP4 elements that are written to one byte leave the nibble that they do not name (06 R153). -/
theorem test_cpout_fp4 :
    let fp4 : BitVec 256 := desc 1 13 0 0 1 1 0 2 0 3
    let out : Copy := { copy0 .cpout with ta := fp4, td := desc 4 13 0 0 1 8 0 1 0 0 + BitVec.ofNat 256 (0x20000 * 2 ^ 128 + 8 * 2 ^ 192)
                                          stride := 1, edge := 0x00050001FFFF0000 }
    let s : State := { copying with rows := NMap.put {} (NMap.put {} copying.rows 0 { data := 0x55555555 }) 1 { data := 0xAAAAAAAA } }
    (match s.serveUnit out 32768 with
      | .on t _ _ => okAnd (t.resolve {} 0x20000 4) fun r => leNat (t.getBytes r.2.locs) == 0x0AAAA550
      | _ => false) = true := by
  decide +kernel

/-- Bursts that complete a CPM, ask a gather's sectors, fault, and find an item that is to stop; slack that falls; a sector that arrives, one
of the two that a unit needs. -/
def asked : Copy := { gather1 .cpg with sectorsAsked := true, sectors := [0x1000], gathers := [⟨0, 0, 0x20010, 5⟩] }
theorem witness_CopyWork_engines :
    let two : Copy := { asked with sectors := [0x1000, 0x1001], gathers := [⟨0, 0, 0x2001E, 4⟩] }
    (queued (copy0 .cpm)).readyCopies 0 = [(0, 0, copy0 .cpm)] ∧ (copy0 .cpm).units < (copy0 .cpm).total
    ∧ servedB (queued (copy0 .cpm)) (copy0 .cpm) (fun t d => d.units == 1 && !d.sectorsAsked && t.thr == (queued (copy0 .cpm)).thr && t.cur == 0) = true
    ∧ (let s : State := { queued (gather1 .cpg) with rows := gathering.rows }
       s.readyCopies 0 = [(0, 0, gather1 .cpg)] ∧ servedB s (gather1 .cpg) (fun t d => d.sectorsAsked && d.sectors == [0x1000] && t.thr == s.thr && t.cur == 0) = true)
    ∧ (let bad : Copy := { copy0 .cpm with src := 0x40000 }
       (queued bad).readyCopies 0 = [(0, 0, bad)] ∧ (match (queued bad).serveUnit bad 32768 with
      | .fault t _ tr => tr.cause == 0x0101 && t.thr == (queued bad).thr && t.cur == 0
      | _ => false) = true)
    ∧ (let x := (with' (queued (copy0 .cpm)) fun t => { t with preempt := .flush })
       x.readyCopies 0 = [(0, 0, copy0 .cpm)] ∧ x.rewound.flushable = true ∧ x.curDbg.stopped = false ∧ x.thr.tracedItem = false)
    ∧ (copy0 .cpm).part = 0 ∧ ((queued (copy0 .cpm)).chan 0).queue[1]? = none
    ∧ ((queued (copy0 .cpm)).atSlot 0).copyReady (copy0 .cpm) = true ∧ (copy0 .cpm).slack ≠ 0
    ∧ asked.sectorsAsked = true ∧ 0x1000 ∈ asked.sectors ∧ ((queued asked).chan 0).queue.head? = some asked ∧ asked.root = user.thr.root
    ∧ (match (queued asked).pointerLocs none false ((List.range 5).map fun i => (0x20010 : Word) + BitVec.ofNat 64 i) with
      | .ok r => r.1.thr == (queued asked).thr && r.1.rows == (queued asked).rows && r.1.cur == 0 && r.2.length == 5 && !r.1.isVoid 0
      | .error _ => false) = true
    ∧ setDel 0x1000 two.sectors = [0x1001] ∧ (0x2001E + 1) / 32 = 0x1000 ∧ (0x2001E + 3) / 32 = 0x1001 := by
  decide +kernel

/-! #### Bank engines -/

/-- Engines 0 and 1 belong to the thread's partition; x3 names both, x4 one word to load, x6 a range whose stride is 0. -/
def banked : State :=
  { regs user [(3, 2 * 2 ^ 10 + 2 ^ 20), (4, 0x20000 + 2 ^ 48), (6, 2 * 2 ^ 10), (7, 0x20000), (8, 32)] with
      eng := { part := some 0 }, engines := [(1, { part := some 0 })] }
def call0 : Call :=
  { id := 3, uid := 1, root := 0, vf := 0, no := 3, pc := 0x10000, token := 1, parts := [⟨0, 0, []⟩], left := [0], send := none, sat := false
    entry := 5, args := [7], fps := [], fault := none, count := 0 }
def cmd0 (kind : CmdKind) : Cmd := { uid := 1, no := 4, kind := kind, left := [0, 1] }

/-- A set by range and by mask, a set that is none, an engine of no partition; a queue with a place and without; a call to wait for and a later one. -/
theorem witness_BankForms_commands :
    let l : FQ := { fq with xa := 4, xb := 3 }
    let a : FQ := { fq with xa := 7, xb := 3, xc := 8 }
    (banked.Issues (.q 0xB0 0 l) ∧ banked.Issues (.q 0xB0 1 a) ∧ banked.Issues (.q 0xB0 3 { fq with xa := 9 }) ∧ banked.Issues (.q 0xB0 4 { fq with xa := 9, xc := 5 }))
    ∧ banked.thr.openOuts = [] ∧ loading.thr.openOuts ≠ [] ∧ (banked.X 6).toNat / 2 ^ 20 % 1024 = 0 ∧ (banked.engine 5).part ≠ some banked.thr.part
    ∧ (banked.engine 1).part = some banked.thr.part ∧ banked.thr.tracedItem = false
    ∧ okAnd (banked.bankSet l) (fun r => r.2 == [0, 1] && okAnd (r.1.bankLoad 0 0x20000 4) fun x => x.1.queueRoom r.2) = true
    ∧ okAnd (banked.bankSet { a with xb := 7, flg := 1 }) (fun r => okAnd (r.1.bankLoad 0 0x20000 32) fun x => x.1.queueRoom r.2) = true
    ∧ { banked with cmdq := [(0, List.replicate 256 (cmd0 (.call 3)))] }.queueRoom [0, 1] = false
    ∧ ((banked.X 4).toNat % 2 ^ 48 % 4 = 0 ∧ (banked.X 4).toNat / 2 ^ 48 = 1 ∧ spaceOf (banked.X 7) = 0 ∧ (banked.X 7).toNat % 32 = 0 ∧ (banked.X 8).toNat % 32 = 0)
    ∧ ((65535 - call0.token).toNat ≤ (65535 - call0.token).toNat ∧ ¬ (65535 : BitVec 16).toNat ≤ (65535 - call0.token).toNat) :=
  by simp only [issuesB_iff]; decide +kernel

/-- A call without a send tensor, one with each kind of tensor; a thread with 16 calls. -/
theorem witness_BankForms_calls :
    let f : FQ := { fq with xa := 7, xb := 3, xc := 5, imm32 := 1023 }
    let r : State := banked
    let u : State := with' banked fun t => { t with sq := [{ no := 1, pc := 0, ea := 0x20000, bytes := [], fps := [], peers := [] }] }
    u.Issues (.q 0xB0 2 f) ∧ r.Issues (.q 0xB0 2 f) ∧ u.thr.released = false ∧ r.thr.released = true ∧ r.thr.tracedItem = false
    ∧ (spaceOf (r.X 7) = 0 ∧ (r.X 7).toNat % 128 = 0)
    ∧ okAnd (r.bankSet f) (fun x => okAnd (x.1.bankLoad 0 0x20000 128) fun y => okAnd (y.1.checkParts (leNat y.2) x.2) fun z =>
        z.1.thr == r.thr && z.1.T 9 == r.T 9 && z.1.entryFree && isOk (z.1.claim []) && z.1.queueRoom x.2) = true
    ∧ ((T 1).kind = 1 ∧ (T 1).fmt = 8 ∧ (T 1).inPlot tensors.thr.plot = true ∧ tensors.touchesOff (T 1) = false)
    ∧ ((({ r with calls := List.replicate 16 call0 } : State).calls.filter fun c => c.uid = r.thr.src.uid)).length = 16 :=
  by simp only [issuesB_iff]; decide +kernel

/-- Each kind of command at the head of engine 0's queue. -/
theorem witness_BankEvents_commands :
    let q (kind : CmdKind) : State := { banked with cmdq := [(0, [cmd0 kind])], calls := [call0] }
    (∀ kind ∈ [CmdKind.program 1022 [7, 8], .activations 65535 [9], .call 3],
      (NMap.get [] (q kind).cmdq ((q kind).input.unit / 64)).find? (fun x => x.left.contains (q kind).input.unit) = some (cmd0 kind))
    ∧ (q (.call 3)).input.unit < 768 ∧ ((q (.call 3)).engine 0).busy = false ∧ (∀ k ∈ (q (.call 3)).calls, k.uid = 1 → k.fault = none)
    ∧ (q (.call 3)).calls.find? (fun x => x.id == 3) = some call0 ∧ call0.parts.find? (fun x => x.engine == 0) = some ⟨0, 0, []⟩ := by
  decide

/-- A send in flight; a call that every engine has ended, without and with a fault, whose item runs or has ended. -/
def ended (fault : Option CallFault) : State := { user with calls := [{ call0 with left := [], fault := fault }], input := { unit := 3 } }
theorem witness_BankEvents_ends :
    (let x : Send := ⟨3, 3, 0, [(.cell 0 255 31, 1), (.cell 1 0 0, 2)]⟩
     ({ user with sends := [x] } : State).sends.find? (fun y => y.id == 3) = some x ∧ (x.bytes.map (·.1)).Nodup
      ∧ (∀ y ∈ ({ user with sends := [x] } : State).sends.takeWhile (fun y => y.id ≠ x.id), y.engine ≠ x.engine) ∧ user.isVoid 0 = false
      ∧ ∀ y ∈ x.bytes, y.1.proper)
    ∧ (∀ o ∈ [none, some ⟨0, 6, 9, 0, 7⟩], (ended o).calls.find? (fun k => k.id == (ended o).input.unit) = some { call0 with left := [], fault := o })
    ∧ (ended none).sends = [] ∧ (ended (some ⟨0, 6, 9, 0, 7⟩)).slotOfUid 1 = some 0
    ∧ ((ended none).atSlot 0).thr.term = none ∧ ((ended none).atSlot 0).thr.phase = .running := by
  refine ⟨⟨by decide, by decide, by decide, by decide, ?_⟩, by decide⟩
  intro y hy; simp at hy; rcases hy with rfl | rfl <;> simp [Loc.proper]

/-- A call that was discarded before any engine began it. -/
theorem witness_BankEvents_gone :
    let s : State := { user with calls := [{ call0 with left := [], gone := true }], input := { unit := 3 } }
    s.calls.find? (fun k => k.id == s.input.unit) = some { call0 with left := [], gone := true } ∧ s.sends = [] := by decide

/-- The fault ring of partition 0: its control block at 0x30000, 256 bytes at 0x20000, empty. -/
def ringed : State :=
  { poke tabled 0x30000 64 (0x20000 + 256 * 2 ^ 64) with parts := [(0, { cfg := some ⟨0, [0], 0x10100, [], 0, 0, 0x30000⟩ })] }
def rec0 : FaultRec := { cause := 0x0701, pc := 0x10000, addr := 0, count := 0, ordinal := 1, detail := 0 }
/-- A report has a place in the ring, before and after its thread is terminated; a ring of one place has none. -/
theorem witness_BankEvents_report :
    (∀ t ∈ [user.thr, { user.thr with term := some rec0 }], (({ ringed with calls := [call0] } : State).pushReport 0 t rec0).isSome = true)
    ∧ ((poke ringed 0x30000 64 (0x20000 + 64 * 2 ^ 64)).pushReport 0 { user.thr with term := some rec0 } rec0).isNone = true := by
  decide +kernel

/-! #### Engine words -/

/-- Engine 0 runs call 3: region 1 of 256 bytes at the start of channel 0, b1 the buffer's start, b2 region 1, b3 the last word of the buffer. -/
def eng0 : Engine :=
  { part := some 0, pc := 5, busy := true, call := some 3, regions := (Vector.replicate 4 {}).set 0 { off := 0, len := 256, key := 0, w := true }
    b := (((Vector.replicate 16 0).set 1 (8 : BitVec 32)).set 2 (2 ^ 28 : BitVec 32)).set 3 (65532 : BitVec 32) }
def running : State := { user with eng := eng0, calls := [call0], input := { unit := 0 } }
/-- The same with weights of a format and activations of a format. -/
def summing (w a : BitVec 2) : State := { running with eng := { eng0 with wfmt := w, afmt := a, ws := Vector.replicate 8 127, as' := 127 } }

/-- The last word of the store, a word whose next lies in it; branches on each side; the call that the engine runs, with a command of it in a queue. -/
theorem witness_EngineOps_control :
    running.eng.call = some call0.id ∧ running.calls.find? (fun k => k.id == call0.id) = some call0
    ∧ (∀ q ∈ ({ running with cmdq := [(0, [{ cmd0 (.call 3) with begun := true }])] } : State).cmdq, ∀ k ∈ q.2, k.kind = .call call0.id → k.begun = true)
    ∧ (0 ≤ (running.eng.pc.toNat : Int) + -5 ∧ (running.eng.pc.toNat : Int) + -6 < 0 ∧ ((1023 : BitVec 10).toNat : Int) + 1 = 1024) := by decide

/-- Words of the buffer and of a region, at the end of each and past it; a region that may not be written; a send in flight. -/
theorem witness_EngineOps_memory :
    running.eng.pc.toNat < 1023 ∧ running.curE.toNat < 768
    ∧ ((8 : BitVec 32).toNat / 2 ^ 28 = 0 ∧ (8 : BitVec 32).toNat % 2 ^ 28 + 4 ≤ 65536 ∧ 65534 < 65536 ∧ ¬ 65534 + 4 ≤ 65536)
    ∧ ((2 ^ 28 : BitVec 32).toNat / 2 ^ 28 = 1 ∧ (running.eng.regions.toArray.getD 0 {}).len = 256 ∧ (running.eng.regions.toArray.getD 0 {}).w = true
      ∧ (running.eng.regions.toArray.getD 1 {}).len = 0)
    ∧ running.isPoisoned (.buf 0 8) = false ∧ running.isPoisoned (.mem 0) = false
    ∧ ({ running with eng := { eng0 with bufPoison := [0] } } : State).isPoisoned (.buf 0 8) = true
    ∧ ({ running with poison := [0] } : State).isPoisoned (.mem 8) = true
    ∧ (({ running with sends := [⟨3, 3, 0, []⟩] } : State).sends.filter fun x => x.engine = 0).length = 1
    ∧ ({ running with eng := { eng0 with waiting := true } } : State).eng.busy = true
    ∧ running.engCall = some call0 ∧ call0.send = none := by
  decide +kernel

/-- A call with a send tensor of FP32 and one of blocks; an element at the end of the tensor. -/
def sending (d : BitVec 256) : Call := { call0 with send := some ⟨d, 0, 0, 0⟩ }
theorem witness_EngineOps_send :
    (∀ d, ({ running with calls := [sending d] } : State).engCall = some (sending d))
    ∧ ((Ten.of (desc 1 8 0 0 2 2 0 1 1 1)).fmt = 8 ∧ 8 ≤ (Ten.of (desc 1 8 0 0 2 2 0 1 1 1)).rows * (Ten.of (desc 1 8 0 0 2 2 0 1 1 1)).cols)
    ∧ ((Ten.of (desc 2 16 0 0 2 2 38 16 3 3)).fmt = 16 ∧ 8 ≤ (Ten.of (desc 2 16 0 0 2 2 38 16 3 3)).rows * (Ten.of (desc 2 16 0 0 2 2 38 16 3 3)).cols) :=
  ⟨fun _ => rfl, by decide +kernel, by decide +kernel⟩

/-- Each format of weights with each of activations, of a line that lies in its region, with and without the addresses' advance; a poisoned
sector of the weights, and one of the activations. -/
theorem witness_EngineSums :
    (∀ w : BitVec 2, ∀ a : BitVec 2, a ≠ 3 → (summing w a).eng.pc.toNat < 1023 ∧ (summing w a).eng.wfmt = w ∧ (summing w a).eng.afmt = a)
    ∧ ((2 ^ 28 : BitVec 32).toNat % 128 = 0 ∧ (2 ^ 28 : BitVec 32).toNat % 2 ^ 28 + 128 ≤ 256 ∧ (8 : BitVec 32).toNat % 2 = 0 ∧ 8 + 64 * 2 ≤ 65536)
    ∧ (∃ i < 128, ({ running with poison := [0] } : State).isPoisoned (.mem (0 * chanBytes + 0 + 0 + i)) = true)
    ∧ (∃ i < 64, ({ running with eng := { eng0 with bufPoison := [1] } } : State).isPoisoned (.buf 0 (8 + i)) = true)
    ∧ (∀ i < 128, running.isPoisoned (.mem (0 * chanBytes + 0 + 0 + i)) = false) ∧ (∀ i < 128, running.isPoisoned (.buf 0 (8 + i)) = false)
    ∧ ((2 : BitVec 4) ≠ 1) ∧ (-2048 ≤ (0x3800 : BitVec 14).toInt ∧ (0x07FF : BitVec 14).toInt ≤ 2047) := by
  decide +kernel

/-! #### The walker -/

/-- An item that may walk: window 0 of four granules, window 1 of two behind it, t4 the cover map; 3 iterations in x1, the index in x5. -/
def owable : State :=
  with' (regs tensors [(1, 3), (2, 0x20004), (3, 8), (9, 0x20041)]) fun t =>
    { t with src := { t.src with pf := 0x400 }
             ow := { t.ow with wins := (t.ow.wins.set 0 { base := 0x20000, len := 16, gran := 2, bitoff := 0 }).set 1 { base := 0x20040, len := 8, gran := 2, bitoff := 4 } } }
/-- The same in its walker's loop. -/
def owed : State :=
  with' owable fun t => { t with ow := { t.ow with act := true, iter := 2, index := 5, map := tensors.T 4 }, loops := [{ lp 0x10040 3 false with walker := true }] }

theorem witness_WalkerForms_loop :
    let f : FQ := { fq with td := 4, xa := 1, xc := 5, imm32 := 10 }
    owable.Issues (.q 0xC0 0 f) ∧ owable.Issues (.q 0xC0 0 { f with xa := 7 }) ∧ owable.thr.ow.act = false ∧ owable.thr.src.pf.getLsbD 10 = true
    ∧ tensors.thr.src.pf.getLsbD 10 = false ∧ ((T 4).kind = 3 ∧ 6 ≤ (T 4).slices * ((T 4).rows * (T 4).cols)) ∧ (T 1).kind ≠ 3
    ∧ (owable.touchesOff (T 4) = false ∧ (owable.X 1).setWidth 32 = (3 : BitVec 32) ∧ (owable.X 7).setWidth 32 = (0 : BitVec 32))
    ∧ ({ dark with thr := owable.thr } : State).touchesOff (T 4) = true
    ∧ isOk (owable.claim ((T 4).fp true)) = true ∧ (⟨T 4, owable.thr.plot, 0⟩ : Place).sound ∧ owable.thr.ops = []
    ∧ ((List.range 24).all fun k => !owable.thr.pendingX (BitVec.ofNat 6 (32 + k))) = true
    ∧ ((0x20000 : Nat) + 16 ≤ 0x20040 ∧ (0 : Nat) + 4 ≤ 4) := by
  unfold Place.sound; simp only [issuesB_iff]; decide +kernel

/-- Ranges inside a window and outside; a window that is one, off its grain and past 2^48; a covered granule and an uncovered one. -/
theorem witness_WalkerForms :
    (∀ fn ∈ [1, 2, 3, 4], owable.Issues (.q 0xC0 fn { fq with xa := 2, xb := 3, xc := 6 }))
    ∧ (∀ fn ∈ [2, 3, 4], owed.Issues (.q 0xC0 fn { fq with xa := 2, xb := 3, xc := 40, flg := 1 }))
    ∧ owed.thr.priv = false ∧ owed.thr.ow.stored = false ∧ owed.thr.ow.decls = []
    ∧ (0x20000 ≤ (owed.X 2).toNat ∧ (owed.X 2).toNat + (owed.X 3).toNat ≤ 0x20000 + 16 ∧ (owed.X 2).toNat % 4 = 0 ∧ (owed.X 9).toNat % 4 ≠ 0)
    ∧ owed.thr.loops.find? (fun y => y.walker) = some { lp 0x10040 3 false with walker := true } ∧ owed.thr.pendingX 5 = false
    ∧ ((List.range 24).all fun k => !owed.thr.pendingX (BitVec.ofNat 6 (32 + k))) = true
    ∧ isOk (owable.claim ((Ten.of owable.thr.ow.map).fp false) true) = true
    ∧ owed.covered 0 1 = false ∧ ({ owed with rows := NMap.put {} owed.rows (T 4).layer { data := 0xFF } } : State).covered 0 1 = true := by
  simp only [issuesB_iff]; decide +kernel

/-! #### Power -/

/-- A hint that has run out and one that has not; charges held for the thread. -/
theorem witness_PowerForms :
    user.Issues (.e 0xD0 0 fe) ∧ user.Issues (.e 0xD0 1 { fe with xd := 5 }) ∧ user.thr.tracedItem = false
    ∧ (∀ u : Word, ((with' user fun t => { t with hintUntil := some u }).atSlot 0).thr.hintUntil = some u)
    ∧ ((0 : Word) ≤ user.dieTime.toArray.getD (dieOf user.cl) 0 ∧ user.dieTime.toArray.getD (dieOf user.cl) 0 < 1) :=
  ⟨issues_of (by decide), issues_of (by decide), by decide, fun _ => rfl, by decide⟩

/-- Each reason of a refusal, and a write without one, of each control register. -/
theorem witness_PowerForms_control :
    (∃ j < 256, (user.cluster j).on = true ∧ (user.cluster j).rail.toNat = 0)
    ∧ (∀ j < 256, (({ user with clusters := (List.range 256).map fun c => (c, { on := false }) } : State).cluster j).on = false)
    ∧ ((109 : Nat) < 110 ∧ 160 < 161 ∧ 110 ≤ (110 : Nat) ∧ (160 : Nat) ≤ 160)
    ∧ ((user.cluster 0).on = true ∧ (user.cluster 0).rail = 0 ∧ (user.cluster 5).rail = 0 ∧ (user.power.rails.toArray.getD 0 {}).en = true)
    ∧ (({ user.power with rails := user.power.rails.set 2 { en := false } } : Power).rails.toArray.getD 2 {}).en = false
    ∧ user.power.dvfs.stage = none ∧ (∀ j < 256, (user.cluster j).thermalCap = none) ∧ ({ user.power.dvfs with stage := some .hop } : Dvfs).stage.isSome = true
    ∧ (∃ j ∈ user.liveSlots, (user.thread j).vf.toNat = 0) ∧ (∀ j ∈ user.liveSlots, (user.thread j).vf.toNat ≠ 5) ∧ user.parked = [] ∧ user.rings = [] := by
  decide +kernel

/-- Each answer to a request, and each step of one that is accepted. -/
def asking (c p : Nat) (d : Dvfs) : State := { user with input := { value := BitVec.ofNat 512 (c * 256 + p) }, power := { user.power with dvfs := d } }
theorem witness_ClusterPower_points :
    ((asking 5 0 {}).power.dvfs.stage = none ∧ ((asking 5 0 {}).cluster 5).on = true ∧ ((asking 5 0 {}).cluster 5).point = 0 ∧ (asking 5 0 {}).exceeds 5 0 = false)
    ∧ (asking 5 1 {}).exceeds 5 1 = false ∧ ((asking 5 1 {}).cluster 5).thermalCap = none ∧ 124 ≤ (148 : Nat)
    ∧ (∀ g ∈ [DvfsStage.rampUp, .hop, .rampDown], (asking 5 0 { target := 5, point := 1, stage := some g }).power.dvfs.stage = some g
      ∧ ((asking 5 0 { target := 5, point := 1, stage := some g }).cluster 5).stretch = none)
    ∧ (∀ j < 256, (user.cluster j).thermalCap = none) := by
  decide +kernel

/-- A cluster that is on, with a stretch at its least length and before, hot, warm and cool. -/
theorem witness_ClusterPower_cycles :
    (user.cluster user.input.unit).on = true ∧ user.input.unit < 256 ∧ (user.cluster 0).stretch = none
    ∧ (∀ n ∈ [255, 256], ((user.setCluster 0 { user.cluster 0 with stretch := some n }).cluster 0).stretch = some n)
    ∧ (∀ n ∈ [0, 1], ({ user with dieTime := Vector.replicate 2 (BitVec.ofNat 64 (n * 160000)) } : State).dieTime.toArray.getD (dieOf 0) 0
        = BitVec.ofNat 64 (n * 160000) ∧ (user.cluster 0).window = 0)
    ∧ (user.thread 0).phase ≠ .idle ∧ (user.thread 1).phase = .idle
    ∧ ((119 : BitVec 9).toNat < 120 ∧ 110 ≤ (110 : BitVec 9).toNat ∧ ¬ 110 ≤ (109 : BitVec 9).toNat ∧ 100 ≤ (100 : BitVec 9).toNat ∧ ¬ 100 ≤ (99 : BitVec 9).toNat) := by
  decide +kernel

/-! #### The life of items -/

/-- A launch of one item on queue 3, whose item is the thread of slot 0. -/
def launch0 : Launch := packetOf 1 1 0 0 0 0 0 (leBytes 64 (packet 64))
def item0 : ItemRec := launch0.itemRec
/-- The thread has stopped: its item of a launch of `n`, with a join counter at `join`. -/
def stopped (n join : Nat) (k : EndKind) : State :=
  { with' user fun t => { t with phase := .ended k, src := { item0 with uid := 1, launch := 1, join := BitVec.ofNat 64 join } } with
      launches := [{ launch0 with id := 1, expected := n }] }
def parked0 (v : Nat) : State := { poke user 0x20000 8 v with parked := [⟨thread, 0x20000, 0, 0x10000, false, 0⟩], input := { unit := 1 } }

/-- A queued store without bytes, for devices. -/
def sq1 (peers : List Nat) : SqEntry := { no := 1, pc := 0, ea := 0x20000, bytes := [], fps := [], peers := peers }

/-- A report with a place in its ring and one without, of an item that stops and of one that has stopped; an end that waits, one of several, the
last, one with a join counter; a parked item whose word is 0. -/
theorem witness_ItemsEnd :
    (∀ ph ∈ [Phase.running, .ended .failed],
      let s (b : State) : State := { b with thr := { thread with phase := ph, term := some rec0 } }
      let u (b : State) : State := if ph = .running then ((s b).atSlot 0).abandon rec0.cause else (s b).atSlot 0
      ((s user).atSlot 0).thr.term = some rec0 ∧ ((s user).atSlot 0).thr.reported = false ∧ ((u user).pushReport 0 (u user).thr rec0).isNone = true
      ∧ (match (u ringed).pushReport 0 (u ringed).thr rec0 with
        | some v => v.thr == (u ringed).thr && v.feq == (u ringed).feq && v.cmdq == (u ringed).cmdq
        | none => false) = true)
    ∧ (with' (stopped 2 0 .failed) fun t => { t with term := some rec0 }).thr.reported = false
    ∧ (with' (stopped 2 0 .failed) fun t => { t with term := some rec0, reported := true }).workDone = true
    ∧ ((stopped 2 0 .exit).atSlot 0).thr.phase = .ended .exit ∧ ((stopped 2 0 .exit).atSlot 0).thr.term = none
    ∧ ((stopped 2 0 .exit).atSlot 0).workDone = true ∧ ((stopped 2 0 .exit).atSlot 0).plotQuiet = true
    ∧ ((with' (stopped 2 0 .exit) fun t => { t with sq := [sq1 []] }).atSlot 0).workDone = false
    ∧ ((stopped 2 0 .exit).atSlot 0).thr.groups = [] ∧ ((stopped 2 0 .exit).atSlot 0).thr.tracedItem = false
    ∧ (∀ n ∈ [1, 2], (stopped n 0 .exit).launches.find? (fun m => m.id == 1) = some { launch0 with id := 1, expected := n })
    ∧ launch0.ok.toNat + 1 + launch0.failed.toNat = 1 ∧ user.launchHeld launch0 = false
    ∧ okAnd ((stopped 1 0x20000 .exit).resolve { kind := .atomic, store := true, align := 8, watch := false } 0x20000 8) (fun r =>
        r.1.thr == (stopped 1 0x20000 .exit).thr && r.1.launches == (stopped 1 0x20000 .exit).launches && !r.1.launchHeld launch0
          && r.1.units == (stopped 1 0x20000 .exit).units) = true
    ∧ ([0, 7].all fun v => okAnd ((parked0 v).parkWord ⟨thread, 0x20000, 0, 0x10000, false, 0⟩) (fun w => w.2 == BitVec.ofNat 64 v)) = true := by
  decide +kernel

/-- A launch ring whose control block is at 0x30000 with its entries at 0x20000: HEAD 0 and a TAIL, the packet of `rods` at HEAD. -/
def ring0 : RingCfg := ⟨0, 0, 0, 0, 0x30000, 0⟩
def ringing (tail rods : Nat) : State :=
  { poke (poke tabled 0x30000 64 (0x20000 + 256 * 2 ^ 64 + tail * 2 ^ 96)) 0x20000 64 (packet rods) with
      rings := [(0, { cfg := some ring0 })], queues := [(3, { enabled := true, capacity := 2, share := 1000, entries := [.launch 9] })] }
/-- The block of a ring, read. -/
def blockB (s : State) (p : RingBlk → Bool) : Bool := match s.ringBlk 0 0 0x30000 with
  | some (_, b) => p b
  | none => false
/-- The packet at HEAD of a ring, once HEAD has moved on, is valid or not. -/
def takesB (s : State) (valid : Bool) : Bool := match s.ringBlk 0 0 0x30000 with
  | none => false
  | some (s1, _) => match s1.agentRead 0 0 0x20000 64 with
    | none => false
    | some (s2, bytes) => match s2.agentWrite 0 0 0x30010 (leBytes 4 64) with
      | none => false
      | some u =>
        let l := packetOf (u.launchId + 1) (u.seq + 1) 0 0 0 0 s.deviceId bytes
        u.rings == s.rings && (u.doneOk l && u.packetOk l (leNat bytes / 2 ^ 224 % 2 ^ 32) && u.genOk l) == valid
/-- A launch that lacks the acceptance of device 2. -/
def lacking : Launch := { launch0 with id := 1, origin := 0, gen := 5, lacks := [2], replicated := true }

theorem witness_LaunchEngine :
    (NMap.get ({} : Ring) (ringing 64 64).rings 0).cfg = some ring0 ∧ (NMap.get ({} : Ring) (ringing 64 64).rings 0).halted = false
    ∧ (ringing 64 64).boot.marked = true
    ∧ blockB (ringing 64 64) (fun b => b.tail == 64 && b.head == 0 && b.size == 256 && b.base == 0x20000) = true
    ∧ blockB (ringing 0 64) (fun b => b.tail == b.head) = true ∧ blockB (ringing 66 64) (fun b => b.tail == 66) = true
    ∧ (user.ringBlk 0 0 0x30000).isNone = true
    ∧ good ((ringing 64 64).agentLocs none 0 0 true (vaRange 0x30000 64)) = true
    ∧ takesB (ringing 64 64) true = true ∧ takesB (ringing 64 65) false = true
    ∧ leNat (leBytes 64 (packet 64)) / 2 ^ 209 % 2 = 0 ∧ leNat (leBytes 64 (packet 64 + 2 ^ 209)) / 2 ^ 209 % 2 = 1
    ∧ (NMap.get ({} : Queue) (ringing 64 64).queues 3).entries ≠ []
    ∧ (((ringing 64 64).queues.map fun y => if y.1 ≠ 4 ∧ y.2.part = 0 ∧ y.2.enabled = true then y.2.share else 0).sum = 1000 ∧ 1024 < 25 + 1000 ∧ 24 + 1000 ≤ 1024)
    ∧ (let s : State := { user with launches := [lacking] }
       s.launches.find? (fun l => l.replicated && l.origin == 0 && l.gen == 5) = some lacking ∧ (2 : BitVec 8) ∈ lacking.lacks
        ∧ s.launches.all (fun l => !(l.replicated && l.origin == 0 && l.gen == 6)) = true ∧ s.launches.find? (fun l => l.id == 1) = some lacking
        ∧ lacking.lacks ≠ [] ∧ launch0.lacks = [] ∧ s.launchHeld lacking = false)
    ∧ (match (poke ringed 0x30000 64 (0x20000 + 256 * 2 ^ 64 + 64 * 2 ^ 96)).ringBlk 0 0 0x30000 with
      | some (u, b) => b.size == 256 && b.head != b.tail && (u.agentWrite 0 0 0x30010 (leBytes 4 64)).isSome
      | none => false) = true
    ∧ (let y : State := { ringing 64 64 with input := { aux := 3, payload := .bytes (leBytes 64 (packet 64 + 2 ^ 209)) } }
       y.input.payload = .bytes (leBytes 64 (packet 64 + 2 ^ 209)) ∧ y.input.aux ≠ y.deviceId.toNat) := by
  decide +kernel

/-! #### Dispatch and pre-emption -/

/-- Partition 0 has clusters 0 and 16, and queue 3 holds a record of 4 by 4 rods and 64 rows. -/
def item4 : ItemRec := (packetOf 1 1 0 0 0 0 0 (leBytes 64 (packet 4))).itemRec
def dispatching : State := { roomy with queues := [(3, { enabled := true, capacity := 2, entries := [.item item4] })] }
theorem witness_DispatchAndPreemption_dispatch :
    (dispatching.readyReserve 0).isNone = true
    ∧ (match pickOf (((dispatching.queues.filterMap fun x => if x.2.enabled && x.2.part.toNat = 0 then dispatching.headOf x.1 x.2 else none).map
        fun y => (y, dispatching.judge 0 y)).filter fun y => match y.2 with
          | .no => false
          | _ => true) with
      | some ((c, .place p), false) => c.entry == .item item4 && (dispatching.idleSlot p.home).isSome && p.onPlane && decide (1 ≤ p.h ∧ 1 ≤ p.w ∧ 1 ≤ p.d)
      | _ => false) = true := by
  decide +kernel

/-- Requests with time within the budget and without, of an idempotent item and of one that is not, of one that is asked already. -/
theorem witness_DispatchAndPreemption_request :
    user.slotOfUid 1 = some 0 ∧ (user.thread 0).phase = .running ∧ (user.thread 0).term = none ∧ (user.thread 0).preempt = .none
    ∧ (user.thread 0).src.pf.getLsbD 8 = false ∧ ((with' user fun t => { t with preempt := .flush }).thread 0).preempt = .flush
    ∧ (NMap.get ({} : Dbg) user.dbg 0).stopped = false := by decide

/-- Saved and flushed: the item of a plot of one row at an instruction boundary with its work done; its save area in host memory. -/
def saving : State :=
  with' (poke tabled 0x3020 8 (2 ^ 48 + 0x4006F)) fun t => { t with preempt := .save 0x40000, plotH := 1, plotW := 1, plotD := 1 }
theorem witness_DispatchAndPreemption_ready :
    let x := saving.atSlot 0
    let w := x.rewound
    x.thr.preempt = .save 0x40000 ∧ x.thr.phase = .running ∧ x.thr.term = none ∧ x.thr.priv = false ∧ w.thr.edgeDue = false
    ∧ x.thr.granted = none ∧ x.thr.trapDue = none ∧ w.thr.unlogged = none ∧ x.thr.reissuing = false ∧ w.traceWaits = false ∧ w.saveReady = true
    ∧ x.thr.groups = [] ∧ x.thr.tracedItem = false ∧ (w.stand.dropBank 1).flushReady = true
    ∧ (with' (saving.rewound.stand.dropBank 1) fun t => { t with sq := [sq1 []] }).flushReady = false
    ∧ w.thr.loggedFault = none ∧ x.curDbg.stopped = false ∧ ({ saving with dbg := [(0, { stopped := true })] } : State).curDbg.stopped = true := by
  decide +kernel

/-- Its save area can be written, and nothing else changes. -/
def savedB : Bool :=
  let y := (saving.atSlot 0).rewound.stand
  match y.agentWrite y.thr.root y.thr.vf 0x40000 (y.headBytes y.thr.atSave (y.listedVoids y.thr.plot)) with
  | some u => match u.agentWrite y.thr.root y.thr.vf (0x40000 + 0x1000) (u.imageBytes y.thr) with
    | some v => v.saved == y.saved && v.reports == y.reports && v.queues == y.queues
    | none => false
  | none => false
theorem witness_DispatchAndPreemption_save : savedB = true := by decide +kernel

/-! #### Partitions and peers -/

/-- A page of another device's memory. -/
def far : TLeaf := ⟨0, 0, 0, 0x20000, 0x020000000002006F⟩
def farLeaf : XLeaf := ⟨0x020000000002006F, 0, 0x20000, 0, false, []⟩
def peered : State := loading.setCluster 0 { loading.cluster 0 with tlb := [far] }
/-- Its leaf names device 2, whether that can be reached or not. -/
theorem peered_leaf : (match peered.lookup (some peered.cl) peered.thr.root peered.thr.vf (offsetOf out1.ea) false with
    | .ok y => y.peer ≠ 0 ∧ y.peer ≠ peered.deviceId.toNat
    | .error w => w % 16 = 4) := by
  have c : ((peered.cluster peered.cl).tlb ++ NMap.get [] peered.l2tlb (dieOf peered.cl)).find?
      (fun t => t.covers peered.thr.root peered.thr.vf (offsetOf out1.ea)) = some far := by decide +kernel
  have h : peered.lookup (some peered.cl) peered.thr.root peered.thr.vf (offsetOf out1.ea) false = peered.leafTarget farLeaf := by
    simp only [State.lookup, c]; rfl
  have p : farLeaf.peer = 2 := by decide
  have m : isMain farLeaf.pa = true := by decide +kernel
  have d : peered.deviceId = 0 := rfl
  simp only [h, State.leafTarget, p, m, d]
  cases State.peerUp peered 2
  · simp [whyInfo]
  · simp [p]

/-- An engine that is free and one that is busy; a store and a load of another device, and of this one; a store that is held back. -/
theorem witness_PartitionsAndPeers :
    let v (e : SqEntry) : State := (with' user fun t => { t with sq := [e], outs := [{ out1 with logged := true, faulted := some ⟨0x0101, 0, 0⟩ }] }).atSlot 0
    (banked.engine 5).busy = false ∧ ({ banked with eng := eng0 } : State).engine 0 = eng0 ∧ eng0.busy = true ∧ banked.cmdq = []
    ∧ (∀ l ∈ [[], [5]], (v (sq1 l)).thr.sq.head? = some (sq1 l) ∧ (v (sq1 l)).thr.sqStuck (sq1 l) = false)
    ∧ (v { sq1 [5] with no := 9, stuck := true }).thr.sqStuck { sq1 [5] with no := 9, stuck := true } = true ∧ (user.atSlot 0).thr.sq = []
    ∧ (loading.thr.outs.filter fun o => o.faulted.isNone && !o.blocked).head? = some out1 ∧ out1.opc ≠ 0x63 ∧ out1.root = loading.thr.root
    ∧ ((bytesOf out1.ea 8).all fun a => spaceOf a == 0 && match loading.lookup (some loading.cl) loading.thr.root loading.thr.vf (offsetOf a) false with
        | .ok y => y.peer == 0
        | .error _ => false) = true
    ∧ (peered.thr.outs.filter fun o => o.faulted.isNone && !o.blocked).head? = some out1 ∧ spaceOf out1.ea = 0 ∧ out1.root = peered.thr.root
    ∧ peered.thr.phase = .running ∧ (user.thread 0).src.join = 0 ∧ (user.thread 0).term = none ∧ user.parked = [] ∧ user.saved = [] := by
  decide +kernel

set_option maxRecDepth 20000 in
/-- A reset that is made, and those that wait: a parked item's join counter is at no page, an item has failed, and their reports have no place. -/
theorem witness_PartitionsAndPeers_reset :
    let p (join : Word) : Parked := ⟨{ thread with src := { uid := 9, join := join } }, 0x20000, 0, 0x10000, false, 0⟩
    (({ user with parked := [p 0] } : State).resetPartition 0).isSome = true
    ∧ (({ user with parked := [p 0x40000] } : State).resetPartition 0).isNone = true
    ∧ ((with' user fun t => { t with term := some rec0 }).resetPartition 0).isNone = true := by decide +kernel

/-! #### What comes of its own accord -/

/-- A walk that finds a leaf, one that a cache answers, one that fails; stores released and not; no invalidation that others wait for. -/
theorem witness_TranslationEvents :
    (match tabled.lookup (some 5) 0 0 0x20000 true with
      | .ok x => x.fresh && x.level == 0
      | .error _ => false) = true
    ∧ (match tabled.lookup (some 0) 0 0 0x20000 false with
      | .ok x => !x.fresh
      | .error _ => false) = true
    ∧ (match tabled.lookup (some 5) 0 0 0x40000 true with
      | .ok _ => false
      | .error _ => true) = true
    ∧ (user.atSlot 0).thr.released = true ∧ (with' user fun t => { t with sq := [sq1 []] }).thr.released = false
    ∧ (user.atSlot 0).invOutstanding 0 0 false 0x20000 = false ∧ (user.atSlot 0).invOutstanding 0 0 true 0 = false := by
  decide +kernel

/-- A log with a faulted access that has retired, with one that has not, with none; LATE pending; a wait at its limit; a parcel of each kind. -/
def faulty (logged : Bool) : State := with' user fun t => { t with outs := [{ out1 with faulted := some ⟨0x0101, 0x40000, 0x30⟩, logged := logged }] }
theorem witness_TrapsAndPackets_traps :
    (user.atSlot 0).atBoundary = true ∧ ((with' user fun t => { t with reissuing := true }).atSlot 0).atBoundary = false
    ∧ ((faulty true).atSlot 0).atBoundary = true ∧ ((faulty false).atSlot 0).thr.reissuing = false ∧ ((faulty false).atSlot 0).thr.granted = none
    ∧ (∀ l, ((faulty l).atSlot 0).thr.outs = [] ++ { out1 with faulted := some ⟨0x0101, 0x40000, 0x30⟩, logged := l } :: [])
    ∧ out1.priv = user.thr.priv
    ∧ (with' user fun t => { t with latePending := true }).thr.latePending = true ∧ user.thr.outs = []
    ∧ (match (poke user 0x10000 12 (0x0A0DC0C1 + 0x00002080 * 2 ^ 32)).fetch with
      | .instr (.ldfe _) => true
      | _ => false) = true
    ∧ (let w : State := { loading with feq := [⟨0, 0, 0, 0, true, false, 0, out1.no⟩] }
       w.waitingOut = some out1 ∧ w.thr.granted = none ∧ w.thr.phase = .running ∧ w.thr.trapDue = none ∧ w.thr.fewait ≠ 0)
    ∧ ({ user with feq := [⟨0, 0, 0, 0, true, false, 0, 0⟩] } : State).waitingOut = none
    ∧ user.parcelAt user.thr.pc = some 0 ∧ ({ user with thr := { user.thr with pc := 0x40000 } } : State).parcelAt 0x40000 = none := by
  decide +kernel

/-- A packet that slot 0 sends, one on its way to a cluster of the thread's partition and of another's, early and late by one tick, one with another
before it; an entry of the log. -/
theorem witness_TrapsAndPackets_packets :
    let p : Packet := ⟨.req, 3, .cluster 5, 0⟩
    let f (part : BitVec 4) : Flight := ⟨1, p, .cluster 0, 1, part, 5⟩
    let s (part : BitVec 4) (now : Nat) : State := { roomy with
      flights := [f part], netCycles := 1024 * now, parts := [(0, { cfg := some ⟨0, [0, 5], 0, [], 0, 0, 0⟩ })], input := { unit := 1 } }
    ({ user with input := { payload := .packet p } } : State).flights.find? (fun g => g.no = 0) = none ∧ (user.thread 0).phase ≠ .idle
    ∧ (let g : Flight := { f 0 with no := 2 }
       let w : State := { s 0 6 with flights := [f 0, g], input := { unit := 2 } }
       w.flights.find? (fun h => h.no = 2) = some g ∧ ∃ h ∈ w.flights, h.no < g.no ∧ h.packet.network = g.packet.network ∧ h.src = g.src ∧ h.packet.dest = g.packet.dest)
    ∧ (∀ g ∈ (s 0 6).flights, ¬ g.no < 1)
    ∧ (s 0 6).flights.find? (fun g => g.no = (s 0 6).input.unit) = some (f 0) ∧ (s 0 6).destPart p.dest = some 0 ∧ (s 1 6).destPart p.dest = some 0
    ∧ ((s 0 6).netCycles / 1024 % 65536 + 65536 - 5) % 65536 = 1 ∧ ((s 0 5).netCycles / 1024 % 65536 + 65536 - 5) % 65536 = 0
    ∧ ((s 0 6).input.payload = .none ∧ (s 0 6).slotOfUid 1 = some 0)
    ∧ ((faulty true).atSlot 0).thr.outs.filter (·.logged) ≠ [] ∧ (((faulty true).atSlot 0).thr.outs.map (·.no)).Nodup := by
  decide +kernel

/-- Requests of each kind of bytes that are clean and of bytes that are not, at the end of main memory; a port in use, a host with a link. -/
def request (pa : Nat) (op : OutsideOp) : State := { user with input := { payload := .outside ⟨BitVec.ofNat 56 pa, 0, 0, op, 0⟩ } }
theorem witness_OutsideEvents :
    (∀ pa op, (request pa op).input.payload = .outside ⟨BitVec.ofNat 56 pa, 0, 0, op, 0⟩) ∧ user.keySlots.find (0 : BitVec 6).toNat = some (.drawn 0)
    ∧ (BitVec.ofNat 56 618475290616).toNat + 8 ≤ 618475290624 ∧ (BitVec.ofNat 56 618475290616).toNat % 8 = 0
    ∧ (∀ k < 8, user.isPoisoned (.mem (storageOf 0 (0x20000 + k))) = false) ∧ spoilt.isPoisoned (.mem (storageOf 0 0x20000)) = true
    ∧ 31 ∉ user.portsRetired ∧ user.boot.hostLink = none ∧ ({ user.boot with hostLink := some ⟨.pcie7, .x16⟩ } : Boot).hostLink.isSome = true := by
  refine ⟨fun _ _ => rfl, ?_⟩
  decide +kernel

/-- A corrected error and another; a unit of each kind that an item uses, and a unit that none uses. -/
theorem witness_OutsideEvents_memory :
    (0 : SlotNo) ∈ user.liveSlots ∧ (user.thread 0).part = 0 ∧ (0 : BitVec 8).toNat ∈ (user.thread 0).plot.clusters
    ∧ ((loaded 8 1).munit (0 : BitVec 16).toNat).owner = some ((loaded 8 1).thread 0).src.uid
    ∧ (7 : BitVec 8).toNat ∉ (user.thread 0).plot.clusters ∧ (1 : SlotNo) ∉ user.liveSlots
    ∧ ({ user with input := { payload := .ecc [⟨5, true⟩] } } : State).input.payload = .ecc [⟨5, true⟩]
    ∧ ({ user with input := { payload := .cellEcc ⟨3, 255, false⟩ } } : State).input.payload = .cellEcc ⟨3, 255, false⟩ ∧ user.isVoid 3 = false
    ∧ ({ user with input := { payload := .bufEcc ⟨767, 2047, false⟩ } } : State).input.payload = .bufEcc ⟨767, 2047, false⟩ ∧ (767 : BitVec 10).toNat < 768
    ∧ ({ user with input := { payload := .calibration {} }, links := [(0, { retired := true })] } : State).input.payload = .calibration {}
    ∧ ({ retired := true } : Link).retired = true ∧ ({ user with input := { payload := .timestamp true } } : State).input.payload = .timestamp true
    ∧ (parked0 0).parked.map (fun p => p.thr.part) = [0] := by
  decide +kernel

/-! #### Time and trace -/

/-- The trace of virtual function 0: its block at 0x30000, 256 bytes at 0x20000 with a TAIL, CTL; one event that waits. -/
def ev0 : Ev := { time := 5, kind := 0x46, source := 0, vf := 0, payload := 7 }
def tracing (tail ctl : Nat) : State :=
  { poke tabled 0x30000 64 (0x20000 + 256 * 2 ^ 64 + tail * 2 ^ 96 + ctl * 2 ^ 160 + 9 * 2 ^ 224) with
      traces := [(0, { cfg := some ⟨0, 0, 0x30000⟩, ctl := BitVec.ofNat 32 ctl, mask := BitVec.allOnes 256, period := 9 })]
      events := [ev0], input := { value := 5 }, time := 40, dieTime := Vector.replicate 2 8 }
/-- What the merge unit reads of it again. -/
def merging (tail ctl : Nat) : State := (tracing tail ctl).countWaits.refreshAll
/-- The block is read. -/
def tracedB (s : State) (p : State × TraceBlk → Bool) : Bool := match s.traceBlk ⟨0, 0, 0x30000⟩ with
  | some x => p x
  | none => false

/-- The event is due; a ring with room; a full one, and one of the device's; a port that is chosen and in use, and time that is unlocked. -/
theorem witness_TimeAndTrace :
    (let r := merging 0 1
     (r.events.filter fun e => e.time.toNat ≤ 5 && e.time.toNat < min (tracing 0 1).time.toNat
        (min (tracing 0 1).dieTime[0].toNat (tracing 0 1).dieTime[1].toNat)) = [ev0]
      ∧ ev0.kind ≠ 0x60 ∧ (NMap.get ({} : TraceV) user.traces 0).ctl.getLsbD 0 = false)
    ∧ (∀ ctl ∈ [0, 4294967295], tracedB (tracing 0 ctl) (fun x => x.2.tail == 0 && x.2.head == 0 && x.2.size == 256 && x.2.period == 9) = true)
    ∧ tracedB (tracing 240 1) (fun x => (x.2.size - 16 - (x.2.tail + x.2.size - x.2.head) % x.2.size) / 16 == 0) = true
    ∧ tracedB (tracing 0 1) (fun x => match x.1.agentWrite 0 0 0x20000 (leBytes 16 7) with
      | some w => (w.agentWrite 0 0 0x3000C (leBytes 4 16)).isSome
      | none => false) = true
    ∧ (∀ ctl ∈ [1, 3], tracedB (merging 240 ctl) (fun x => x.1.traces == (merging 240 ctl).traces && x.1.events == (merging 240 ctl).events) = true)
    ∧ (let s : State := { user with ptpPort := some 31, lockState := 2, input := { payload := .offset 5 } }
       (∃ p, s.ptpPort = some p ∧ p.toNat < 32 ∧ p.toNat ∉ s.portsRetired) ∧ s.lockState ≠ 0 ∧ s.input.payload = .offset 5 ∧ user.lockState = 0)
    ∧ ((-16000000 : Int) ≤ -16000000 ∧ (-16000000 : Int) < -15999999 ∧ (15999999 : Int) < 16000000) := by
  decide +kernel

/-- A trace whose block is at no page; the device's trace takes the loss. -/
theorem witness_TimeAndTrace_broken :
    let c : TraceCfg := ⟨0, 0, 0x50000⟩
    let s : State := { user with traces := [(0, { cfg := some c, ctl := 1 })] }
    s.traces = [(0, { cfg := some c, ctl := 1 })] ∧ (s.countWaits.traceBlk c).isNone = true
    ∧ (NMap.get ({} : TraceV) (NMap.put {} s.traces 0xFFF { ctl := 1 }) 0xFFF).ctl.getLsbD 0 = true := by
  decide +kernel

/-- The stall sample of a slot whose period has passed, and of one whose has not. -/
theorem witness_TimeAndTrace_sample :
    let s (n : Nat) : State := { user with traces := [(0, { period := 1 })], dieTime := Vector.replicate 2 (BitVec.ofNat 64 n) }
    (NMap.get ({} : TraceV) (s 0).traces (s 0).thr.vf.toNat).period.toNat * 16000 = 16000 ∧ (s 0).thr.phase ≠ .idle
    ∧ (s 16000).dieTime.toArray.getD ((s 16000).cl % 16 / 8) 0 = 16000 ∧ ((s 0).thr.pcSampled.toNat / 16000 + 1) * 16000 ≤ 16000 := by
  decide +kernel

/-! #### The debug block -/

/-- Slot 0 stopped by its debugger with its PC where it stands. -/
def stoppedSlot : State := { user with dbg := [(0, { stopped := true, stat := 0x100000001 })] }
theorem witness_DebugBlock :
    (user.atSlot 0).curDbg.stopped = false ∧ (stoppedSlot.atSlot 0).curDbg.stopped = true ∧ (user.atSlot 0).thr.phase = .running
    ∧ (user.atSlot 1).thr.phase = .idle ∧ (user.atSlot 1).thr.exited = false ∧ (with' user fun t => { t with exited := true }).thr.exited = true
    ∧ (stoppedSlot.curDbg.stat.extractLsb' 16 48).toNat = stoppedSlot.thr.pc.toNat
    ∧ isOk (tensors.validate (plane 8 0)) = true
    ∧ (match tensors.validate (desc 7 8 0 0 2 2 0 1 0 3) with
      | .error (.trap _) => true
      | _ => false) = true := by
  decide +kernel

/-- A halt that is asked for and may be taken, and one that waits for a load or for an op of the matrix unit. -/
theorem witness_DebugBlock_halt :
    let s (b : State) : State := { b with dbg := [(0, { haltReq := true })] }
    (∀ b ∈ [user, loading], (s b).curDbg.haltReq = true ∧ (s b).curDbg.due = none ∧ b.thr.reissuing = false ∧ b.thr.granted = none ∧ b.thr.unlogged = none
      ∧ b.thr.edgeDue = false ∧ b.thr.trapDue = none ∧ b.thr.loggedFault = none ∧ (s b).lateTrap = none)
    ∧ (s user).atNext.rewound.thr.openOuts = [] ∧ (s user).atNext.rewound.thr.ops = [] ∧ ∃ o ∈ (s loading).atNext.rewound.thr.openOuts, o.logged = false := by
  decide +kernel

/-- The block's words: a reader of the hypervisor, of the slot's partition and of another; a command of 0. -/
theorem witness_DebugBlock_words :
    let r (who : Option (BitVec 4)) : State := { roomy with input := { payload := .control (.debugRead who 8) } }
    (∀ who, (r who).input.payload = .control (.debugRead who 8)) ∧ (8 : BitVec 17).toNat = (0 : SlotNo).toNat * 64 + 8 * 1
    ∧ (∃ c, (NMap.get ({} : Part) roomy.parts 0).cfg = some c ∧ ∃ q ∈ c.clusters, q.toNat = (0 : SlotNo).toNat / 8)
    ∧ (NMap.get ({} : Part) roomy.parts 1).cfg = none ∧ (1 : Word).extractLsb' 4 4 = 0 := by
  refine ⟨fun _ => rfl, by decide, ⟨_, rfl, 0, by decide, by decide⟩, by decide, by decide⟩

/-! #### Starts and service -/

def cfg0 (fails : List (Option Nat)) : StartCfg :=
  { fails := fails, parts := [], rings := [], queues := [], engines := [], keys := [], traces := [], sensorsNear := true
    deviceId := 0, domain := [], retiredLinks := [], host := none }
/-- A module that runs, one without power, one whose image is bad, one in recovery, one that waits for step 8, one whose start has failed. -/
theorem witness_StartsAndService :
    (user.boot.powered = true ∧ user.boot.recovery = false ∧ user.boot.marked = true ∧ user.boot.activeB = false ∧ user.boot.imageA.good = true
      ∧ user.boot.due = false ∧ user.boot.waits = false ∧ (user.cluster 0).on = true)
    ∧ (∀ l, ({ user with input := { payload := .start (cfg0 l) } } : State).input.payload = .start (cfg0 l) ∧ (cfg0 l).fails = l ∧ (cfg0 l).keys = []
        ∧ (cfg0 l).mirror + 130 ≤ 618475290624)
    ∧ ({ user.boot with powered := false } : Boot).powered = false ∧ ({ user.boot with imageA := { good := false } } : Boot).imageA.good = false
    ∧ ({ user.boot with waits := true } : Boot).waits = true ∧ ({ user.boot with due := true, cfg := some (cfg0 [some 3]) } : Boot).due = true
    ∧ ({ user.boot with imageB := { writing := true } } : Boot).imageB.writing = true ∧ ({ user.boot with activeB := true } : Boot).activeB = true
    ∧ (({ user with clusters := [(0, { on := false })], input := { payload := .calibration {} } } : State).cluster 0).on = false := by
  exact ⟨by decide, fun _ => ⟨rfl, rfl, rfl, show 0 + 130 ≤ 618475290624 by decide⟩, rfl, rfl, rfl, rfl, rfl, rfl, rfl⟩

/-! #### The whole machine -/

/-- Slot 0's turn, with an ADD at its PC, a filler, a bad LEN and a bad field; an engine's turn; a module that is down. -/
def turnOf (n v : Nat) : State := { poke user 0x10000 n v with turns := [.slot 0] }
theorem witness_StepRunsDecoded :
    (let u := ({ (turnOf 8 (0x0001C000 + 0x00004000 * 2 ^ 32)).tick with turns := [] } : State).atSlot 0
     u.slotMay = true ∧ u.thr.reissuing = false ∧ u.thr.edgeDue = false ∧ u.thr.loggedFault = none ∧ u.thr.latePending = false ∧ u.curDbg.haltReq = false
      ∧ u.thr.unlogged = none ∧ u.thr.trapDue = none ∧ u.curDbg.due = none
      ∧ u.traceWaits = false ∧ (user.thr.bp.toList.all fun b => !b.getLsbD 0) = true ∧ (u.parcelAt u.thr.pc).isSome = true ∧ decode (u.blockParcels u.thr.pc) = .ok (.eret ⟨gp, 0, 0, 0, 0⟩, 2))
    ∧ decode ((turnOf 4 0xFFFFFFFF).blockParcels 0x10000) = .error .filler
    ∧ decode ((turnOf 8 (0x0001C000 + 0x00100000 * 2 ^ 32)).blockParcels 0x10000) = .error .illegalField
    ∧ (turnOf 0 0).isDown = false ∧ ({ turnOf 0 0 with boot := { powered := false } } : State).isDown = true
    ∧ (let u := ({ ({ running with turns := [.engine 0] } : State).tick with turns := [] } : State).atEngine 0
       u.eng.busy = true ∧ u.eng.call.isSome = true ∧ u.engineHeld u.eng = false)
    ∧ (let u := ({ (with' (turnOf 8 0) fun t => { t with edgeDue := true }).tick with turns := [] } : State).atSlot 0
       u.slotMay = true ∧ u.boundary.isSome = true)
    ∧ Instr.hostAttach.form = .none ∧ ({ user with turns := [] } : State).turns = [] ∧ (NMap.get ({} : Dbg) user.dbg 0).stepReq = false := by
  decide +kernel

theorem witness_EncodeDecodeThread : (Instr.movi ⟨gp, 0, 0, 12, 0, 0, 8⟩).wf = true ∧ (Instr.movi ⟨gp, 0, 0, 12, 0, 0, 8⟩).isThread = true
    ∧ decode [0x0031C049, 0, 8] = .ok (.movi ⟨gp, 0, 0, 12, 0, 0, 8⟩, 3) := by decide
theorem witness_EncodeDecodeBank : (Instr.bmac ⟨1, 8, 4, 0⟩).wf = true ∧ (Instr.bmac ⟨1, 8, 4, 0⟩).isBank = true
    ∧ decodeBank 0x0006100B ≠ .bankIllegal ∧ 20 ≤ ((0xFFFFFFFF : Parcel).extractLsb' 0 6).toNat := by decide
theorem witness_StepKeepsMemory :
    State.reset.memOk ∧ (turnOf 8 0).memOk ∧ nextIs (step (turnOf 8 0)) (fun t => t.thr.pc == 0x10008) = true :=
  ⟨rfl, by unfold State.memOk; decide +kernel, by decide +kernel⟩

/-! ### One step on fixed values, from the spec's own examples -/

/-- 09 R209's boundary cases, with x7 = 0xFFFF_FFFF_8000_0000 and x8 = −1. -/
def nine : State := regs user [(7, 0xFFFFFFFF80000000), (8, -1)]
def a6 : FA := { fa with xa := 7, xb := 8, xd := 6 }
def i6 (sz : BitVec 2) (xa : BitVec 6) (imm : BitVec 16) : FA := { fa with xa := xa, xb := 0, xd := 6, sz := sz, ib := 1, imm := imm }
/-- The step goes on with this value in x6. -/
def puts (o : Host.Outcome State Fault Refusal) (v : Word) : Bool := nextIs o fun t => t.X 6 == v && t.thr.pc == 0x10008

theorem test_div_least_by_minus_one : puts (exec (.div { a6 with sz := 1 }) nine) 0xFFFFFFFF80000000 = true
    ∧ puts (exec (.rem { a6 with sz := 1 }) nine) 0 = true := by decide +kernel
theorem test_divu_by_zero : puts (exec (.divu (i6 0 7 0)) nine) 0xFFFFFFFFFFFFFFFF = true ∧ puts (exec (.remu (i6 2 7 0)) nine) 0 = true := by decide +kernel
theorem test_shr_i8_by_nine : puts (exec (.shr (i6 3 8 9)) nine) 0x7F = true := by decide +kernel
theorem test_clz_and_exts : puts (exec (.clz (i6 1 7 0)) nine) 0 = true ∧ puts (exec (.exts (i6 0 7 0x07DC)) nine) 0xFFFFFFFFFFFFFFF8 = true := by decide +kernel

/-- 10, Worked encodings: −2.8125 in five formats, the tie of −2.625 in FP8E4M3, 464 and 465 at its top. -/
def enc (fmt : Nat) (m : Mode) (sat : Bool) (v : Val) : Option Nat := (ffmt fmt).map fun F => F.result m sat v
theorem test_worked_encodings :
    enc 8 .rne false (valOf (-45) (-4) false) = some 0xC0340000 ∧ enc 9 .rne false (valOf (-45) (-4) false) = some 0xC034
    ∧ enc 10 .rne false (valOf (-45) (-4) false) = some 0xC1A0 ∧ enc 11 .rne false (valOf (-45) (-4) false) = some 0xC3
    ∧ enc 12 .rne false (valOf (-45) (-4) false) = some 0xC2 := by decide +kernel
theorem test_rounding_modes :
    enc 11 .rne false (valOf (-21) (-3) false) = some 0xC2 ∧ enc 11 .rdn false (valOf (-21) (-3) false) = some 0xC3
    ∧ enc 11 .rna false (valOf (-21) (-3) false) = some 0xC3 ∧ enc 11 .rup false (valOf 1 (-10) false) = some 0x01
    ∧ enc 11 .rne false (valOf 464 0 false) = some 0x7E ∧ enc 11 .rne false (valOf 465 0 false) = some 0x7F
    ∧ enc 11 .rne true (valOf 465 0 false) = some 0x7E := by decide +kernel

/-- An instruction and an engine word stored where the step from reset fetches them (log 1): MOVI x12, 8 of 02 and BLI b7, −1 of R116. -/
theorem test_first_instruction : nextIs (step (State.reset.withFetchWord 96 (0x0031C049 + 8 * 2 ^ 64))) (fun t => t.X 12 == 8) = true
    ∧ nextIs (step (State.reset.withFetchWord 32 (0xFFFC0000 + 7 * 64 + 2))) (fun t => t.eng.B 7 == 0xFFFFFFFF) = true := by
  decide +kernel

end Sys2Proof.Tests
end

section
/-!
PROOFS. Encoding and decoding (02 R18-R45): an encoding view against its parcels, and the opcode map against the views.
-/
namespace Sys2Proof

/-! ### Fields laid side by side in a parcel (02 R23-R30) -/

/-- Two fields side by side are a word exactly where each is its part of the word. -/
theorem append_eq_iff {n m : Nat} {x : BitVec n} {y : BitVec m} {p : BitVec (n + m)} :
    x ++ y = p ↔ x = p.extractLsb' m n ∧ y = p.extractLsb' 0 m := by
  constructor
  · rintro rfl
    simp [BitVec.extractLsb'_append_eq_left, BitVec.extractLsb'_append_eq_right]
  · rintro ⟨rfl, rfl⟩
    exact BitVec.extractLsb'_append_extractLsb'

/-- A part of a part of a word is a part of the word. -/
theorem extractLsb'_extractLsb' {w : Nat} (p : BitVec w) {s n t l : Nat} (h : t + l ≤ n) :
    (p.extractLsb' s n).extractLsb' t l = p.extractLsb' (s + t) l := by
  ext j hj
  simp [show t + j < n by omega, Nat.add_assoc]

/-- The first parcel: each format has the common bits of R23 below three fields of its own. -/
theorem firstParcel_iff (x : BitVec 2) (y z : BitVec 6) (hd : Hd) (opc : Nat) (l : BitVec 2) (p : Parcel) :
    x ++ y ++ z ++ commonBits hd opc l = p ↔ x = bitsOf p 30 2 ∧ y = bitsOf p 24 6 ∧ z = bitsOf p 18 6 ∧ hd = hdOf p
      ∧ BitVec.ofNat 8 opc = opcOf p ∧ l = lenOf p := by
  obtain ⟨gp, la⟩ := hd
  change ((x ++ y ++ z ++ (gp ++ la ++ BitVec.ofNat 8 opc ++ l) : BitVec (2 + 6 + 6 + (4 + 4 + 8 + 2))) = p ↔ _)
  simp (disch := decide) only [append_eq_iff, extractLsb'_extractLsb', hdOf, opcOf, lenOf, Hd.mk.injEq, and_assoc]

/-- The second parcel of format A (02 R25). -/
theorem secondA_iff (fn : BitVec 8) (ib : BitVec 1) (imm : BitVec 16) (xb : BitVec 6) (p : Parcel) :
    0#1 ++ fn ++ ib ++ imm ++ xb = p ↔ bitsOf p 31 1 = 0#1 ∧ fn = bitsOf p 23 8 ∧ ib = bitsOf p 22 1 ∧ imm = bitsOf p 6 16
      ∧ xb = bitsOf p 0 6 := by
  simp (disch := decide) only [append_eq_iff, extractLsb'_extractLsb', and_assoc, eq_comm (a := 0#1)]

/-- The second parcel of format B (02 R26). -/
theorem secondB_iff (imm : BitVec 16) (xb : BitVec 6) (fn : BitVec 8) (p : Parcel) :
    0#2 ++ imm ++ xb ++ fn = p ↔ bitsOf p 30 2 = 0#2 ∧ imm = bitsOf p 14 16 ∧ xb = bitsOf p 8 6 ∧ fn = bitsOf p 0 8 := by
  simp (disch := decide) only [append_eq_iff, extractLsb'_extractLsb', and_assoc, eq_comm (a := 0#2)]

/-- The second parcel of format M (02 R27). -/
theorem secondM_iff (fn : BitVec 8) (at' : BitVec 2) (size : BitVec 3) (xb : BitVec 6) (p : Parcel) :
    0#13 ++ fn ++ at' ++ size ++ xb = p ↔ bitsOf p 19 13 = 0#13 ∧ fn = bitsOf p 11 8 ∧ at' = bitsOf p 9 2 ∧ size = bitsOf p 6 3
      ∧ xb = bitsOf p 0 6 := by
  simp (disch := decide) only [append_eq_iff, extractLsb'_extractLsb', and_assoc, eq_comm (a := 0#13)]

/-- The second parcel of format E (02 R28). -/
theorem secondE_iff (imm : BitVec 12) (fn : BitVec 8) (sysn : BitVec 12) (p : Parcel) :
    imm ++ fn ++ sysn = p ↔ imm = bitsOf p 20 12 ∧ fn = bitsOf p 12 8 ∧ sysn = bitsOf p 0 12 := by
  simp (disch := decide) only [append_eq_iff, extractLsb'_extractLsb', and_assoc]

/-- The second parcel of format T (02 R29). -/
theorem secondT_iff (sat : BitVec 1) (rnd edg : BitVec 3) (wb wa : BitVec 4) (tc tb : BitVec 6) (p : Parcel) :
    0#5 ++ sat ++ rnd ++ edg ++ wb ++ wa ++ tc ++ tb = p ↔ bitsOf p 27 5 = 0#5 ∧ sat = bitsOf p 26 1 ∧ rnd = bitsOf p 23 3
      ∧ edg = bitsOf p 20 3 ∧ wb = bitsOf p 16 4 ∧ wa = bitsOf p 12 4 ∧ tc = bitsOf p 6 6 ∧ tb = bitsOf p 0 6 := by
  simp (disch := decide) only [append_eq_iff, extractLsb'_extractLsb', and_assoc, eq_comm (a := 0#5)]

/-- The third parcel of format T (02 R29). -/
theorem thirdT_iff (imm : BitVec 18) (xs : BitVec 6) (fn : BitVec 8) (p : Parcel) :
    imm ++ xs ++ fn = p ↔ imm = bitsOf p 14 18 ∧ xs = bitsOf p 8 6 ∧ fn = bitsOf p 0 8 := by
  simp (disch := decide) only [append_eq_iff, extractLsb'_extractLsb', and_assoc]

/-- The second parcel of format Q (02 R30). -/
theorem secondQ_iff (edn edm : BitVec 3) (xb xa tc tb : BitVec 6) (p : Parcel) :
    0#2 ++ edn ++ edm ++ xb ++ xa ++ tc ++ tb = p ↔ bitsOf p 30 2 = 0#2 ∧ edn = bitsOf p 27 3 ∧ edm = bitsOf p 24 3
      ∧ xb = bitsOf p 18 6 ∧ xa = bitsOf p 12 6 ∧ tc = bitsOf p 6 6 ∧ tb = bitsOf p 0 6 := by
  simp (disch := decide) only [append_eq_iff, extractLsb'_extractLsb', and_assoc, eq_comm (a := 0#2)]

/-- The third parcel of format Q (02 R30). -/
theorem thirdQ_iff (sbb sba : BitVec 2) (edk : BitVec 3) (xc : BitVec 6) (flg slack : BitVec 4) (fn : BitVec 8) (p : Parcel) :
    0#3 ++ sbb ++ sba ++ edk ++ xc ++ flg ++ slack ++ fn = p ↔ bitsOf p 29 3 = 0#3 ∧ sbb = bitsOf p 27 2 ∧ sba = bitsOf p 25 2
      ∧ edk = bitsOf p 22 3 ∧ xc = bitsOf p 16 6 ∧ flg = bitsOf p 12 4 ∧ slack = bitsOf p 8 4 ∧ fn = bitsOf p 0 8 := by
  simp (disch := decide) only [append_eq_iff, extractLsb'_extractLsb', and_assoc, eq_comm (a := 0#3)]

/-! ### An encoding view against four parcels -/

/-- The format of an encoding view; none where no slot fetches it. -/
def Form.letter : Form → Option Fmt
  | .a .. => some .a
  | .b .. => some .b
  | .m .. => some .m
  | .e .. => some .e
  | .t .. => some .t
  | .q .. => some .q
  | .bank .. | .none => Option.none

@[simp] theorem letter_formOf (fmt : Fmt) (opc : Nat) (p0 p1 p2 p3 : Parcel) : (formOf fmt opc p0 p1 p2 p3).letter = some fmt := by
  cases fmt <;> rfl

@[simp] theorem opc_formOf (fmt : Fmt) (opc : Nat) (p0 p1 p2 p3 : Parcel) : (formOf fmt opc p0 p1 p2 p3).opc = opc := by
  cases fmt <;> rfl

/-- A thread instruction is one whose encoding view has a format. -/
theorem isThread_eq_letter (i : Instr) : i.isThread = i.form.letter.isSome := by
  unfold Instr.isThread
  cases i.form <;> rfl

theorem length_parcels {F : Form} {fmt : Fmt} (h : F.letter = some fmt) : F.parcels.length = fmt.parcels := by
  cases F <;> cases h <;> rfl

theorem ofNat_eq_iff {n : Nat} (h : n < 256) (x : BitVec 8) : BitVec.ofNat 8 n = x ↔ n = x.toNat := by
  rw [← BitVec.toNat_inj, BitVec.toNat_ofNat, Nat.mod_eq_of_lt h]

/-- The first parcels are those of an encoding view exactly where they hold its LEN, OPC and FN, zeros where its format has them, and
its fields. -/
theorem parcels_eq_take_iff {F : Form} {fmt : Fmt} (hl : F.letter = some fmt) (hfn : F.fn < 256) (p0 p1 p2 p3 : Parcel) :
    F.parcels = [p0, p1, p2, p3].take fmt.parcels ↔
      BitVec.ofNat 8 F.opc = opcOf p0 ∧ fmt.len = lenOf p0 ∧ zerosOk fmt p0 p1 p2 = true
        ∧ F = formOf fmt F.opc p0 p1 p2 p3 := by
  have hfn := ofNat_eq_iff hfn
  cases F with
  | a opc fn f =>
    cases hl
    obtain ⟨hd, sz, xa, xd, ib, imm, xb⟩ := f
    change ∀ x, BitVec.ofNat 8 fn = x ↔ fn = x.toNat at hfn
    simp [Form.parcels, Fmt.parcels, Form.opc, Fmt.len, formOf, fieldsA, firstParcel_iff, secondA_iff, zerosOk, fnOf, hfn, -BitVec.extractLsb'_toNat]
    tauto
  | b opc fn f =>
    cases hl
    obtain ⟨hd, sz, xa, xd, imm16, xb, imm32⟩ := f
    change ∀ x, BitVec.ofNat 8 fn = x ↔ fn = x.toNat at hfn
    simp [Form.parcels, Fmt.parcels, Form.opc, Fmt.len, formOf, fieldsB, firstParcel_iff, secondB_iff, zerosOk, fnOf, hfn, -BitVec.extractLsb'_toNat]
    tauto
  | m opc fn f =>
    cases hl
    obtain ⟨hd, scl, xa, xd, at', size, xb, disp⟩ := f
    change ∀ x, BitVec.ofNat 8 fn = x ↔ fn = x.toNat at hfn
    simp [Form.parcels, Fmt.parcels, Form.opc, Fmt.len, formOf, fieldsM, firstParcel_iff, secondM_iff, zerosOk, fnOf, hfn, -BitVec.extractLsb'_toNat]
    tauto
  | e opc fn f =>
    cases hl
    obtain ⟨hd, xa, xd, imm12, sysn⟩ := f
    change ∀ x, BitVec.ofNat 8 fn = x ↔ fn = x.toNat at hfn
    simp [Form.parcels, Fmt.parcels, Form.opc, Fmt.len, formOf, fieldsE, firstParcel_iff, secondE_iff, zerosOk, fnOf, hfn, -BitVec.extractLsb'_toNat]
    tauto
  | t opc fn f =>
    cases hl
    obtain ⟨hd, ta, td, sat, rnd, edg, wb, wa, tc, tb, imm18, xs⟩ := f
    change ∀ x, BitVec.ofNat 8 fn = x ↔ fn = x.toNat at hfn
    simp [Form.parcels, Fmt.parcels, Form.opc, Fmt.len, formOf, fieldsT, firstParcel_iff, secondT_iff, thirdT_iff, zerosOk, fnOf, hfn, -BitVec.extractLsb'_toNat]
    tauto
  | q opc fn f =>
    cases hl
    obtain ⟨hd, ch, ta, td, edn, edm, xb, xa, tc, tb, sbb, sba, edk, xc, flg, slack, imm32⟩ := f
    change ∀ x, BitVec.ofNat 8 fn = x ↔ fn = x.toNat at hfn
    simp [Form.parcels, Fmt.parcels, Form.opc, Fmt.len, formOf, fieldsQ, firstParcel_iff, secondQ_iff, thirdQ_iff, zerosOk, fnOf, hfn, -BitVec.extractLsb'_toNat]
    tauto
  | bank op f => cases hl
  | none => cases hl

/-! ### The opcode map against the encoding views -/

/-- Where a row of the opcode map lists the instructions of an opcode by FN, an FN that it lists names its own. -/
theorem form_of_row {l : List Instr} {mk : Nat → Form} (h : l.map Instr.form = (List.range l.length).map mk)
    {k : Nat} {i : Instr} (hk : l[k]? = some i) : i.form = mk k ∧ k < l.length := by
  obtain ⟨hlt, rfl⟩ := List.getElem?_eq_some_iff.mp hk
  have := congrArg (·[k]?) h
  simp only [List.getElem?_map, List.getElem?_range hlt, hk, Option.map_some, Option.some.injEq] at this
  exact ⟨this, hlt⟩

/-- An instruction of the opcode map has the encoding view that it was read from, and its family the format. -/
def Form.Assigned (F : Form) (fmt : Fmt) (i : Instr) : Prop :=
  i.form = F ∧ ∃ k, family F.opc = some (fmt, k) ∧ F.fn < k

theorem assigned_of_ofA {opc fn : Nat} {f : FA} {i : Instr} (h : ofA opc fn f = some i) : (Form.a opc fn f).Assigned .a i := by
  unfold ofA at h
  split at h
  case h_5 => cases h
  all_goals
    obtain ⟨hf, hk⟩ := form_of_row (mk := fun n => .a _ n f) rfl h
    exact ⟨hf, _, rfl, hk⟩

theorem assigned_of_ofB {opc fn : Nat} {f : FB} {i : Instr} (h : ofB opc fn f = some i) : (Form.b opc fn f).Assigned .b i := by
  unfold ofB at h
  split at h
  case h_4 => cases h
  all_goals
    obtain ⟨hf, hk⟩ := form_of_row (mk := fun n => .b _ n f) rfl h
    exact ⟨hf, _, rfl, hk⟩

theorem assigned_of_ofM {opc fn : Nat} {f : FM} {i : Instr} (h : ofM opc fn f = some i) : (Form.m opc fn f).Assigned .m i := by
  unfold ofM at h
  split at h
  case h_3 => cases h
  all_goals
    obtain ⟨hf, hk⟩ := form_of_row (mk := fun n => .m _ n f) rfl h
    exact ⟨hf, _, rfl, hk⟩

theorem assigned_of_ofE {opc fn : Nat} {f : FE} {i : Instr} (h : ofE opc fn f = some i) : (Form.e opc fn f).Assigned .e i := by
  unfold ofE at h
  split at h
  case h_4 => cases h
  all_goals
    obtain ⟨hf, hk⟩ := form_of_row (mk := fun n => .e _ n f) rfl h
    exact ⟨hf, _, rfl, hk⟩

theorem assigned_of_ofT {opc fn : Nat} {f : FT} {i : Instr} (h : ofT opc fn f = some i) : (Form.t opc fn f).Assigned .t i := by
  unfold ofT at h
  split at h
  case h_9 => cases h
  all_goals
    obtain ⟨hf, hk⟩ := form_of_row (mk := fun n => .t _ n f) rfl h
    exact ⟨hf, _, rfl, hk⟩

theorem assigned_of_ofQ {opc fn : Nat} {f : FQ} {i : Instr} (h : ofQ opc fn f = some i) : (Form.q opc fn f).Assigned .q i := by
  unfold ofQ at h
  split at h
  case h_5 => cases h
  all_goals
    obtain ⟨hf, hk⟩ := form_of_row (mk := fun n => .q _ n f) rfl h
    exact ⟨hf, _, rfl, hk⟩

theorem assigned_of_instr {F : Form} {fmt : Fmt} {i : Instr} (hl : F.letter = some fmt) (h : F.instr = some i) : F.Assigned fmt i := by
  cases F with
  | a opc fn f => cases hl; exact assigned_of_ofA h
  | b opc fn f => cases hl; exact assigned_of_ofB h
  | m opc fn f => cases hl; exact assigned_of_ofM h
  | e opc fn f => cases hl; exact assigned_of_ofE h
  | t opc fn f => cases hl; exact assigned_of_ofT h
  | q opc fn f => cases hl; exact assigned_of_ofQ h
  | bank op f => cases hl
  | none => cases hl

/-- Every encoding view of an instruction names that instruction. -/
theorem form_instr (i : Instr) : i.form.instr = bif i.isThread || i.isBank then some i else none := by
  cases i <;> rfl

/-- OPC and FN of an assigned row fit their fields of 8 bits. -/
theorem family_lt {opc k : Nat} {fmt : Fmt} (h : family opc = some (fmt, k)) : opc < 256 ∧ k < 256 := by
  unfold family at h
  split at h
  case h_25 => cases h
  all_goals
    cases h
    decide

/-! ### Decoding -/

theorem parcelsOfLen_len (fmt : Fmt) : parcelsOfLen fmt.len = some fmt.parcels := by cases fmt <;> rfl

/-- A filler has no format's LEN (02 R19). -/
theorem len_ne_filler {fmt : Fmt} {p : Parcel} (h : fmt.len = lenOf p) : p ≠ fillerParcel := by
  rintro rfl
  revert h
  cases fmt <;> decide

/-- What the decoder reads: an assigned encoding of its own length, whose zeros and fields are legal (02 R35 checks 2 to 4). -/
theorem decode_eq_ok_iff {ps : List Parcel} {i : Instr} {n : Nat} (hi : i ≠ .illegalEncoding) :
    decode ps = .ok (i, n) ↔ ∃ fmt k F, F = formOf fmt (opcOf (ps.getD 0 0)).toNat (ps.getD 0 0) (ps.getD 1 0) (ps.getD 2 0) (ps.getD 3 0)
      ∧ family F.opc = some (fmt, k) ∧ fmt.len = lenOf (ps.getD 0 0) ∧ n = fmt.parcels ∧ n ≤ ps.length
      ∧ F.instr = some i ∧ zerosOk fmt (ps.getD 0 0) (ps.getD 1 0) (ps.getD 2 0) = true ∧ F.legal = true := by
  constructor
  · intro h
    unfold decode at h
    dsimp only at h
    split at h
    · cases h
    split at h
    · cases h; exact absurd rfl hi
    next m hm =>
    split at h
    · cases h
    next hn =>
    split at h
    · cases h; exact absurd rfl hi
    next fmt k hf =>
    split at h
    · cases h
    next hl =>
    rw [ne_eq, not_not] at hl
    split at h
    · cases h; exact absurd rfl hi
    next j hj =>
    split at h
    next hz =>
      cases h
      rw [← hl, parcelsOfLen_len, Option.some.injEq] at hm
      rw [Bool.and_eq_true] at hz
      exact ⟨fmt, k, _, rfl, by rw [opc_formOf, hf], hl, hm.symm, by omega, hj, hz⟩
    · cases h
  · rintro ⟨fmt, k, F, rfl, hf, hl, rfl, hn, hi, hz, hg⟩
    rw [opc_formOf] at hf
    simp only [decode, len_ne_filler hl, if_false, ← hl, parcelsOfLen_len, hf, hi, hz, hg, Nat.not_lt.mpr hn, ne_eq, not_true, Bool.and_self,
      if_true]

/-- The parcels of an encoding are the first of those that the decoder looks at. -/
theorem take_eq_take_getD {n : Nat} {ps : List Parcel} (h : n ≤ ps.length) (h4 : n ≤ 4) :
    ps.take n = [ps.getD 0 0, ps.getD 1 0, ps.getD 2 0, ps.getD 3 0].take n := by
  refine List.ext_getElem (by simp [h, h4]) fun j hj _ => ?_
  have hj : j < n := by simp_all
  rw [List.getElem_take, List.getElem_take, ← List.getD_eq_getElem (d := 0)]
  have : j < 4 := by omega
  interval_cases j <;> rfl

theorem parcels_le (fmt : Fmt) : fmt.parcels ≤ 4 := by cases fmt <;> decide

/-- An instruction's own parcels decode to it, whatever follows them. -/
theorem decode_encode_append {i : Instr} (rest : List Parcel) (hw : i.wf = true) (ht : i.isThread = true) :
    decode (encode i ++ rest) = .ok (i, (encode i).length) := by
  obtain ⟨fmt, hl⟩ := Option.isSome_iff_exists.mp (isThread_eq_letter i ▸ ht)
  have hi : i.form.instr = some i := by simp [form_instr, ht]
  obtain ⟨-, k, hf, hk⟩ := assigned_of_instr hl hi
  obtain ⟨hopc, hk256⟩ := family_lt hf
  have hlen : (encode i).length = fmt.parcels := length_parcels hl
  have htake : i.form.parcels = (encode i ++ rest).take fmt.parcels := (List.take_left' hlen).symm
  rw [take_eq_take_getD (by simp [hlen]) (parcels_le fmt), parcels_eq_take_iff hl (by omega), ofNat_eq_iff hopc] at htake
  obtain ⟨ho, hc, hz, hF⟩ := htake
  refine (decode_eq_ok_iff (by rintro rfl; cases ht)).mpr ⟨fmt, k, i.form, ho ▸ hF, hf, hc, hlen, by simp, hi, hz, hw⟩

/-- What is decoded is well formed, and its encoding is the parcels that it was decoded from. -/
theorem encode_of_decode {ps : List Parcel} {i : Instr} {n : Nat} (h : decode ps = .ok (i, n)) (hi : i ≠ .illegalEncoding) :
    i.wf = true ∧ i.isThread = true ∧ encode i = ps.take n := by
  obtain ⟨fmt, k, F, hF, hf, hc, rfl, hn, hF', hz, hg⟩ := (decode_eq_ok_iff hi).mp h
  have hl : F.letter = some fmt := by rw [hF, letter_formOf]
  have ho : F.opc = (opcOf (ps.getD 0 0)).toNat := by rw [hF, opc_formOf]
  obtain ⟨rfl, k', hf', hk'⟩ := assigned_of_instr hl hF'
  obtain ⟨hopc, hk256⟩ := family_lt hf'
  refine ⟨hg, by rw [isThread_eq_letter, hl]; rfl, ?_⟩
  rw [take_eq_take_getD hn (parcels_le fmt)]
  exact (parcels_eq_take_iff hl (by omega) ..).mpr ⟨(ofNat_eq_iff hopc _).mpr ho, hc, hz, ho ▸ hF⟩

/-- Settles O57: an encoding view is its parcels' fields and no more (`parcels_eq_take_iff`), and the opcode map names one instruction
for each view. -/
theorem encodeDecodeThread : Obligations.EncodeDecodeThread :=
  ⟨fun _ rest hw ht => decode_encode_append rest hw ht, fun _ _ _ h hi => encode_of_decode h hi⟩
end Sys2Proof

namespace Sys2Proof
/-- Settles O56: each word is decoded by evaluation. -/
theorem decodeWords : Obligations.DecodeWords := by
  unfold Obligations.DecodeWords
  and_intros
  all_goals rfl
end Sys2Proof
end

section
/-!
PROOFS. The checks before a guard and a false guard (02 R24, R35; 23 R440).
-/
namespace Sys2Proof.Machine

/-- Is this pending destination one that the form names? -/
def namesDest (f : Form) : Dest → Bool
  | .reg n => n ≠ 0 && f.namesX.contains n
  | .pred n => n ≠ 7 && (f.hd.gp.setWidth 3 :: f.namesP).contains n

theorem noHazard_iff (s : State) (f : Form) : s.noHazard f ↔ (s.thr.wins.any fun w => w.dests.any (namesDest f)) = false := by
  simp only [List.any_eq_false, Bool.not_eq_true, State.noHazard]
  refine forall₂_congr fun w _ => forall₂_congr fun d _ => ?_
  cases d with
  | reg n => simp [namesDest, or_iff_not_imp_left]
  | pred n => simp [namesDest, or_iff_not_imp_left]

/-- An instruction that the mode may run and that an ORD may stand before comes to the windows, the breakpoints and its guard. -/
theorem gate_checked {s : State} {f : Form} (hm : ¬ (f.needsPriv = true ∧ s.thr.priv = false))
    (ho : ¬ (s.thr.ord.isSome = true ∧ ordable f.opc = false)) :
    (¬ s.noHazard f → s.gate f = .trap ⟨cLA_HAZARD, 0, 0⟩)
    ∧ (s.noHazard f → ∀ n, s.breakAt f = some n →
        s.gate f = if s.curDbg.attach then .stop 4 else .trap ⟨cBRK, 0, BitVec.ofNat 64 (0x100 + n)⟩)
    ∧ (s.noHazard f → s.breakAt f = none → s.guard f.hd = false → s.gate f = .off) := by
  have hm : (f.needsPriv && !s.thr.priv) = false := by simpa using hm
  have ho : (s.thr.ord.isSome && !ordable f.opc) = false := by simpa using ho
  rw [noHazard_iff, Bool.not_eq_false]
  unfold State.gate
  simp only [hm, ho, Bool.false_eq_true, if_false]
  refine ⟨fun h => if_pos h, fun h n hn => ?_, fun h hb hg => ?_⟩
  · rw [hn]; exact if_neg (by rw [← Bool.not_eq_true] at h; exact h)
  · rw [hb, hg]; exact if_neg (by rw [← Bool.not_eq_true] at h; exact h)

theorem gate_of_priv {s : State} {f : Form} (h : f.needsPriv = true ∧ s.thr.priv = false) : s.gate f = .trap ⟨cPRIV, 0, 0⟩ :=
  if_pos (by rw [h.1, h.2]; rfl)

theorem gate_of_misplaced {s : State} {f : Form} (hm : ¬ (f.needsPriv = true ∧ s.thr.priv = false))
    (ho : s.thr.ord.isSome = true ∧ ordable f.opc = false) : s.gate f = .trap ⟨cORD_MISPLACED, 0, 0⟩ := by
  unfold State.gate
  exact (if_neg (by simpa using hm)).trans (if_pos (by rw [ho.1, ho.2]; rfl))

/-- The checks before a guard, as the instruction meets them in `issueWith`. -/
theorem issueWith_gate {s : State} {f : Form} {off : State → Done} {body : State → Res Done} :
    (∀ t, s.gate f = .trap t → issueWith f off body s = .next (s.takeTrap t))
    ∧ (∀ r, s.gate f = .stop r → issueWith f off body s = .next (s.stopHere r))
    ∧ (s.gate f = .off → issueWith f off body s = .next ((off s).st.retire f false s.thr.pc (off s).flow false)) := by
  refine ⟨fun t h => ?_, fun r h => ?_, fun h => ?_⟩ <;> simp [issueWith, h]

/-- A parcel offset counts four bytes a parcel (02 R40). -/
theorem parcelTarget_eq (pc : Word) (off : BitVec 32) : parcelTarget pc off = pc + off.signExtend 64 * 4 := by
  unfold parcelTarget
  rw [BitVec.shiftLeft_eq_mul_twoPow]
  rfl

/-- Settles O7: each thread instruction is its effect inside the checks of `gate` (`exec_shape`). -/
theorem guardAndIssue : Obligations.GuardAndIssue := by
  refine ⟨fun i s hi hg hoff => ?_, fun i s hi => ?_⟩
  · obtain ⟨body, hb⟩ := exec_shape i hi
    have hm : ¬ (i.form.needsPriv = true ∧ s.thr.priv = false) := fun h => by simp [hg.mode h.1] at h
    have ho : ¬ (s.thr.ord.isSome = true ∧ ordable i.form.opc = false) := fun h => by simp [hg.ordered h.1] at h
    rw [hb, issueWith_gate.2.2 ((gate_checked hm ho).2.2 hg.windows hg.unbroken hoff)]
    unfold offEffect
    split <;> simp_all [parcelTarget_eq, State.prefixed]
  · obtain ⟨body, hb⟩ := exec_shape i hi
    intro f misplaced user
    rw [hb]
    refine ⟨fun hu => ?_, fun hu ho => ?_, fun hu ho hw => ?_, fun hu ho hw n hn => ?_⟩
    · exact issueWith_gate.1 _ (gate_of_priv hu)
    · exact issueWith_gate.1 _ (gate_of_misplaced hu ho)
    · exact issueWith_gate.1 _ ((gate_checked hu ho).1 hw)
    · have h := (gate_checked hu ho).2.1 hw n hn
      cases ha : s.curDbg.attach <;> rw [ha] at h
      · exact issueWith_gate.1 _ h
      · exact issueWith_gate.2.1 _ h
end Sys2Proof.Machine
end

section
/-!
PROOFS. What the completion of an instruction changes (02 R37; 09 R221; 04 R89).
-/
namespace Sys2Proof.Machine

/-! ### What only the threads and the debug registers differ in -/

/-- The state with the threads and the debug registers replaced: all that a retirement changes beside what a fetch does. -/
def State.onSlot (s : State) (t : Thread) (sl : NMap Thread) (d : NMap Dbg) : State := { s with thr := t, slots := sl, dbg := d }

section
variable (s : State) (t : Thread) (sl : NMap Thread) (d : NMap Dbg)

theorem onSlot_self : s.onSlot s.thr s.slots s.dbg = s := rfl
@[simp] theorem onSlot_thr : (s.onSlot t sl d).thr = t := rfl
@[simp] theorem onSlot_get (l : Loc) (key : Nat) : (s.onSlot t sl d).get l key = s.get l key := rfl
@[simp] theorem onSlot_lookup (c : Option Nat) (root : BitVec 44) (vf : BitVec 6) (va : Nat) (store : Bool) :
    (s.onSlot t sl d).lookup c root vf va store = s.lookup c root vf va store := rfl

theorem onSlot_ite {p : Prop} [Decidable p] (u v : State) :
    (if p then u else v).onSlot t sl d = if p then u.onSlot t sl d else v.onSlot t sl d :=
  apply_ite (fun w => State.onSlot w t sl d) p u v

theorem onSlot_rekey (sec : Nat) (key : KeyVal) : (s.onSlot t sl d).rekey sec key = (s.rekey sec key).onSlot t sl d := by
  unfold State.rekey
  dsimp only
  rw [onSlot_ite]
  rfl

theorem onSlot_putMem (k : Nat) (key : KeyVal) (v : Byte) :
    (s.onSlot t sl d).putMem k key v = (s.putMem k key v).onSlot t sl d := by
  unfold State.putMem
  rw [onSlot_rekey]
  rfl

/-- A fold whose step does not touch the threads may be made before or after they are replaced. -/
theorem onSlot_foldl {α : Type} (f : State → α → State) (hf : ∀ (s : State) x, f (s.onSlot t sl d) x = (f s x).onSlot t sl d) (l : List α) :
    l.foldl f (s.onSlot t sl d) = (l.foldl f s).onSlot t sl d := by
  induction l generalizing s with
  | nil => rfl
  | cons x r ih => rw [List.foldl_cons, List.foldl_cons, hf, ih]

theorem onSlot_tableWrite (pa : Nat) (v : Word) : (s.onSlot t sl d).tableWrite pa v = (s.tableWrite pa v).onSlot t sl d := by
  refine onSlot_foldl s t sl d _ (fun s i => ?_) _
  dsimp only
  split
  · exact onSlot_putMem s t sl d ..
  · rfl

theorem onSlot_cacheLeaf (c : Nat) (x : TLeaf) (path : List TLeaf) :
    (s.onSlot t sl d).cacheLeaf c x path = (s.cacheLeaf c x path).onSlot t sl d := rfl

theorem onSlot_commitLeaf (c : Nat) (root : BitVec 44) (vf : BitVec 6) (store : Bool) (x : XLeaf) :
    (s.onSlot t sl d).commitLeaf (some c) root vf store x = (s.commitLeaf (some c) root vf store x).onSlot t sl d := by
  unfold State.commitLeaf
  by_cases hx : x.fresh = true
  · simp only [if_pos hx, onSlot_tableWrite, ← onSlot_cacheLeaf]
    rw [onSlot_ite]
  · rw [if_neg hx, if_neg hx]
    dsimp only
    rw [onSlot_ite]
    rfl
end

/-! ### A fetch under another thread of the same address space -/

section
variable {t : Thread} (sl : NMap Thread) (d : NMap Dbg)

theorem onSlot_parcelAt {s : State} (hr : t.root = s.thr.root) (hv : t.vf = s.thr.vf) (a : Word) :
    (s.onSlot t sl d).parcelAt a = s.parcelAt a := by
  unfold State.parcelAt
  rw [onSlot_thr, hr, hv]
  rfl

theorem onSlot_fillers {s : State} (hr : t.root = s.thr.root) (hv : t.vf = s.thr.vf) (n : Nat) (a : Word) :
    (s.onSlot t sl d).fillers n a = s.fillers n a := by
  induction n generalizing a with
  | zero => rfl
  | succ n ih => simp only [State.fillers, onSlot_parcelAt sl d hr hv, ih]

theorem onSlot_endsAt {s : State} (hr : t.root = s.thr.root) (hv : t.vf = s.thr.vf) (a b : Word) :
    (s.onSlot t sl d).endsAt a b = s.endsAt a b := by
  simp only [State.endsAt, State.skipsTo, onSlot_fillers sl d hr hv, onSlot_parcelAt sl d hr hv]

theorem onSlot_touchCode {s : State} (hr : t.root = s.thr.root) (hv : t.vf = s.thr.vf) (a : Word) :
    (s.onSlot t sl d).touchCode a = (s.touchCode a).onSlot t sl d := by
  unfold State.touchCode
  rw [onSlot_thr, hr, hv, onSlot_lookup, show (s.onSlot t sl d).cl = s.cl from rfl]
  split
  · split
    · exact onSlot_commitLeaf ..
    · rfl
  · rfl

/-- A fetch leaves the threads and the debug registers alone. -/
theorem touchCode_onSlot (s : State) (a : Word) : s.touchCode a = (s.touchCode a).onSlot s.thr s.slots s.dbg :=
  onSlot_touchCode s.slots s.dbg rfl rfl a

@[simp] theorem touchCode_thr (s : State) (a : Word) : (s.touchCode a).thr = s.thr := by rw [touchCode_onSlot]; rfl
@[simp] theorem touchCode_slots (s : State) (a : Word) : (s.touchCode a).slots = s.slots := by rw [touchCode_onSlot]; rfl
@[simp] theorem touchCode_dbg (s : State) (a : Word) : (s.touchCode a).dbg = s.dbg := by rw [touchCode_onSlot]; rfl

theorem onSlot_touchRange {s : State} (hr : t.root = s.thr.root) (hv : t.vf = s.thr.vf) (a b : Word) :
    (s.onSlot t sl d).touchRange a b = (s.touchRange a b).onSlot t sl d := by
  unfold State.touchRange
  generalize List.range _ = l
  induction l generalizing s with
  | nil => rfl
  | cons i r ih =>
    rw [List.foldl_cons, List.foldl_cons, onSlot_touchCode sl d hr hv]
    exact ih (by rw [touchCode_thr, hr]) (by rw [touchCode_thr, hv])

theorem touchRange_onSlot (s : State) (a b : Word) : s.touchRange a b = (s.touchRange a b).onSlot s.thr s.slots s.dbg :=
  onSlot_touchRange s.slots s.dbg rfl rfl a b

@[simp] theorem touchRange_thr (s : State) (a b : Word) : (s.touchRange a b).thr = s.thr := by rw [touchRange_onSlot]; rfl
@[simp] theorem touchRange_slots (s : State) (a b : Word) : (s.touchRange a b).slots = s.slots := by rw [touchRange_onSlot]; rfl
@[simp] theorem touchRange_dbg (s : State) (a b : Word) : (s.touchRange a b).dbg = s.dbg := by rw [touchRange_onSlot]; rfl
end

/-! ### Registers -/

/-- A write of one general register leaves every other as it was (09 R202, R203). -/
theorem Thread.X_setX_of_ne (t : Thread) {m n : BitVec 6} (v : Word) (h : n ≠ m) : (t.setX m v).X n = t.X n := by
  have hn : n.toNat ≠ m.toNat := fun e => h (BitVec.eq_of_toNat_eq e)
  unfold Thread.setX Thread.setXAs
  split
  · rfl
  split
  · unfold Thread.X
    split
    · rfl
    dsimp only
    split
    · simp only [Vector.toArray_setIfInBounds, Array.getD_eq_getD_getElem?]
      rw [Array.getElem?_setIfInBounds_ne (by omega)]
    · rfl
  · unfold Thread.X
    split
    · rfl
    dsimp only
    split
    · rfl
    · simp only [Vector.toArray_setIfInBounds, Array.getD_eq_getD_getElem?]
      rw [Array.getElem?_setIfInBounds_ne (by omega)]

/-! ### A back-edge test -/

/-- What a back-edge test can change of a thread: where it goes, its loops and windows, and the index registers of its loops (09 R221). -/
structure Thread.Edge (t u : Thread) : Prop where
  frame : u = { t with x := u.x, xp := u.xp, pc := u.pc, wins := u.wins, loops := u.loops, handlerLoops := u.handlerLoops
                       edgeDue := u.edgeDue }
  regs : ∀ n, (∀ l ∈ t.loopStack, l.indexed = true → n ≠ l.index) → u.X n = t.X n

theorem Thread.Edge.trans {t u v : Thread} (h : t.Edge u) (hl : ∀ l ∈ u.loopStack, l ∈ t.loopStack) (h' : u.Edge v) : t.Edge v where
  frame := by rw [h'.frame, h.frame]
  regs n hn := by rw [h'.regs n fun l hm => hn l (hl l hm), h.regs n hn]

theorem Thread.setX_frame (t : Thread) (n : BitVec 6) (v : Word) : t.setX n v = { t with x := (t.setX n v).x, xp := (t.setX n v).xp } := by
  unfold Thread.setX Thread.setXAs
  split
  · rfl
  · split <;> rfl

@[simp] theorem Thread.setLoops_loopStack (t : Thread) (l : List Loop) : (t.setLoops l).loopStack = l := by
  unfold Thread.setLoops Thread.loopStack
  split <;> simp_all

theorem Thread.Edge.refl (t : Thread) : t.Edge t := ⟨rfl, fun _ _ => rfl⟩

/-- Where a thread goes on, its windows and its loops are no registers. -/
theorem Thread.Edge.of_regs {t u v : Thread} (h : t.Edge u)
    (hf : v = { u with pc := v.pc, wins := v.wins, loops := v.loops, handlerLoops := v.handlerLoops, edgeDue := v.edgeDue }) : t.Edge v where
  frame := by rw [hf, h.frame]
  regs n hn := by
    rw [← h.regs n hn, hf]
    rfl

theorem Thread.setLoops_frame (t : Thread) (l : List Loop) :
    t.setLoops l = { t with loops := (t.setLoops l).loops, handlerLoops := (t.setLoops l).handlerLoops } := by
  unfold Thread.setLoops
  split <;> rfl

theorem Thread.edge_setX {t : Thread} {l : Loop} (hl : l ∈ t.loopStack) (hi : l.indexed = true) (v : Word) : t.Edge (t.setX l.index v) where
  frame := by
    rw [setX_frame]
  regs n hn := X_setX_of_ne t v (hn l hl hi)

@[simp] theorem Thread.setX_loopStack (t : Thread) (n : BitVec 6) (v : Word) : (t.setX n v).loopStack = t.loopStack := by
  rw [setX_frame]
  rfl

/-- The back-edge test changes the thread alone, and of it what `Thread.Edge` says, where no loop in force is the walker's. -/
theorem backEdge_frame (s : State) (a : Word) (n : Nat) (h : s.noWalkerLoop) :
    ∃ u, s.backEdge a n = s.onSlot u s.slots s.dbg ∧ s.thr.Edge u := by
  induction n generalizing s with
  | zero => exact ⟨_, rfl, (Thread.Edge.refl _).of_regs rfl⟩
  | succ n ih =>
    unfold State.backEdge
    split
    · exact ⟨_, rfl, (Thread.Edge.refl _).of_regs rfl⟩
    next l r hs =>
    split
    · exact ⟨_, rfl, (Thread.Edge.refl _).of_regs rfl⟩
    split
    · exact ⟨_, rfl, (Thread.Edge.refl _).of_regs rfl⟩
    have hm : l ∈ s.thr.loopStack := by rw [hs]; exact List.mem_cons_self
    have hw : l.walker = false := h l hm
    split
    · -- the loop starts again, its index stepped
      simp only [hw, Bool.false_eq_true, if_false]
      cases hi : l.indexed
      · exact ⟨_, rfl, (Thread.Edge.refl _).of_regs (by rw [Thread.setLoops_frame]; rfl)⟩
      · exact ⟨_, rfl, (Thread.edge_setX hm hi _).of_regs (by rw [Thread.setLoops_frame]; rfl)⟩
    · -- the loop ends, and the test goes on with the one around it
      simp only [hw, Bool.false_eq_true, if_false]
      have hr (x : Loop) (hx : x ∈ (s.thr.setLoops r).loopStack) : x ∈ s.thr.loopStack := by
        rw [Thread.setLoops_loopStack] at hx
        rw [hs]
        exact List.mem_cons_of_mem l hx
      obtain ⟨u, hu, he⟩ := ih { s with thr := s.thr.setLoops r } fun x hx => h x (hr x hx)
      exact ⟨u, hu, ((Thread.Edge.refl _).of_regs (by rw [Thread.setLoops_frame])).trans hr he⟩

/-! ### What follows an instruction -/

/-- A fetch up to the end of the loop leaves the threads and the debug registers alone. -/
theorem fetchedOn_onSlot (s : State) (a : Word) : s.fetchedOn a = (s.fetchedOn a).onSlot s.thr s.slots s.dbg := by
  unfold State.fetchedOn
  split
  · rfl
  · split
    · exact touchRange_onSlot ..
    · rfl

theorem fetchedOn_nil {s : State} (h : s.thr.loopStack = []) (a : Word) : s.fetchedOn a = s := by
  simp only [State.fetchedOn, h]
theorem fetchedOn_cons {s : State} {l : Loop} {r : List Loop} (h : s.thr.loopStack = l :: r) (a : Word) :
    s.fetchedOn a = if s.endsAt a l.stop then s.touchRange a l.stop else s := by
  simp only [State.fetchedOn, h]

theorem fallTo_nil {s : State} (h : s.thr.loopStack = []) (a : Word) : s.fallTo a = s.withThr { s.thr with pc := a } := by
  simp only [State.fallTo, h, State.withThr]
theorem fallTo_cons {s : State} {l : Loop} {r : List Loop} (h : s.thr.loopStack = l :: r) (a : Word) :
    s.fallTo a = if s.endsAt a l.stop then
        if (s.touchRange a l.stop).thr.lastOpen.isSome then
          (s.touchRange a l.stop).withThr { (s.touchRange a l.stop).thr with pc := l.stop, edgeDue := true }
        else (s.touchRange a l.stop).backEdge l.stop 5
      else s.withThr { s.thr with pc := a } := by
  simp only [State.fallTo, h, State.withThr]

/-- Where the same loops stand in the same address space, falling through is the fetch and a change of the thread alone. -/
theorem fallTo_frame {s : State} {t : Thread} (sl : NMap Thread) (d : NMap Dbg) (hr : t.root = s.thr.root) (hv : t.vf = s.thr.vf)
    (hl : t.loopStack = s.thr.loopStack) (hw : s.noWalkerLoop) (a : Word) :
    ∃ u, (s.onSlot t sl d).fallTo a = (s.fetchedOn a).onSlot u sl d ∧ t.Edge u
      ∧ (s.thr.loopStack = [] → u = { t with pc := a }) := by
  cases hs : s.thr.loopStack with
  | nil =>
    rw [fetchedOn_nil hs, fallTo_nil (hl.trans hs)]
    exact ⟨_, rfl, (Thread.Edge.refl t).of_regs rfl, fun _ => rfl⟩
  | cons l r =>
    rw [fetchedOn_cons hs, fallTo_cons (hl.trans hs), onSlot_endsAt sl d hr hv, onSlot_touchRange sl d hr hv, onSlot_thr]
    split
    · split
      · exact ⟨_, rfl, (Thread.Edge.refl t).of_regs rfl, fun h => nomatch h⟩
      · obtain ⟨u, hu, he⟩ := backEdge_frame ((s.touchRange a l.stop).onSlot t sl d) l.stop 5 (by
          unfold State.noWalkerLoop
          rw [onSlot_thr, hl]
          exact hw)
        exact ⟨u, hu, he, fun h => nomatch h⟩
    · exact ⟨_, rfl, (Thread.Edge.refl t).of_regs rfl, fun h => nomatch h⟩

theorem thread_same (s : State) : s.thread s.cur = s.thr := if_pos rfl
theorem setThread_same (s : State) (t : Thread) : s.setThread s.cur t = s.withThr t := if_pos rfl
theorem setThread_of_ne {s : State} {k : SlotNo} (h : k ≠ s.cur) (t : Thread) :
    s.setThread k t = { s with slots := NMap.put {} s.slots k.toNat t } := if_neg h

/-- Other slots see that one has issued: their YIELDs count it, and nothing else changes (09 R228). -/
theorem issued_frame (s : State) : ∃ y sl, s.issued = s.onSlot { s.thr with yieldTo := y } sl s.dbg := by
  unfold State.issued
  refine foldl_keeps (fun u => ∃ y sl, u = s.onSlot { s.thr with yieldTo := y } sl s.dbg) _ ?_ _ s ⟨s.thr.yieldTo, s.slots, rfl⟩
  rintro u k ⟨y, sl, hu⟩
  dsimp only
  split
  · by_cases hk : k = u.cur
    · rw [hk, setThread_same, thread_same, hu]
      exact ⟨_, sl, rfl⟩
    · rw [setThread_of_ne hk, hu]
      exact ⟨y, _, rfl⟩
  · exact ⟨y, sl, hu⟩

/-- What a retirement changes before the thread goes on: the threads and the debug registers. -/
theorem retired_frame (s : State) (f : Form) (on opens : Bool) (pc : Word) (flow : Flow) : ∃ y sl d,
    s.retired f on opens pc flow = s.onSlot (Thread.retired { s.thr with yieldTo := y } f on opens pc flow s.opNo) sl d := by
  obtain ⟨y, sl, h⟩ := issued_frame s
  unfold State.retired
  rw [h]
  exact ⟨y, sl, _, rfl⟩

/-- Settles O9: a retirement changes the threads and the debug registers, and the fetch of what follows does not read them. -/
theorem completionFrame : Obligations.CompletionFrame := by
  intro s t f hw u next
  obtain ⟨y, sl, d, hret⟩ := retired_frame t f true true s.thr.pc .seq
  obtain ⟨v, hv, he, hnil⟩ := fallTo_frame (t := Thread.retired { t.thr with yieldTo := y } f true true s.thr.pc .seq t.opNo) sl d
    rfl rfl rfl hw next
  have hu : u = (t.fetchedOn next).onSlot v sl d := by
    rw [← hv, ← hret]
    rfl
  have hthr : u.thr = v := by rw [hu]; rfl
  refine ⟨?_, ?_, fun n hn => ?_, fun h => ?_, fun l key => ?_⟩
  · rw [hu, fetchedOn_onSlot]
    rfl
  · rw [hthr, he.frame]
    rfl
  · rw [State.X, hthr, he.regs n hn]
    rfl
  · rw [hthr, hnil h]
    exact ⟨rfl, rfl, rfl, rfl⟩
  · rw [hu, onSlot_get]
end Sys2Proof.Machine
end

section
/-!
PROOFS. What a step runs (02 R18-R22, R35; 05 R115; 24 R447).
-/
namespace Sys2Proof.Machine

/-- The opcode map has ORD alone at OPC 0x32 and FN 0. -/
theorem ord_of_form {i : Instr} (ho : i.form.opc = 0x32) (hf : i.form.fn = 0) : ∃ f, i = .ord f := by
  cases hl : i.form.letter with
  | none =>
    cases h : i.form <;> simp [h, Form.letter, Form.opc] at hl ho
  | some fmt =>
    have hi : i.form.instr = some i := by rw [form_instr, isThread_eq_letter, hl]; rfl
    obtain ⟨-, k, hk, -⟩ := assigned_of_instr hl hi
    rw [ho] at hk
    cases hk
    cases h : i.form <;> rw [h] at hl ho hf hi <;> cases hl
    cases ho
    cases hf
    cases hi
    exact ⟨_, rfl⟩

theorem isEvent_of_form {i : Instr} (h : i.form = .none) (hi : i ≠ .illegalEncoding) (hb : i ≠ .bankIllegal) : isEvent i = true := by
  unfold isEvent
  rw [h]
  split <;> simp_all

@[simp] theorem atSlot_cur (s : State) (k : SlotNo) : (s.atSlot k).cur = k := by
  unfold State.atSlot
  split
  · next h => exact h.symm
  · rfl

/-- No breakpoint is enabled, or no ORD stands there: nothing beside the instruction is fetched (23 R440). -/
theorem touchPrefixed_eq {s : State} {i : Instr} (h : (∀ b ∈ s.thr.bp.toList, b.getLsbD 0 = false) ∨ ∀ f, i ≠ .ord f) :
    s.touchPrefixed i = s := by
  refine if_neg fun ⟨ho, hf, hb⟩ => ?_
  rcases h with h | h
  · obtain ⟨b, hm, hx⟩ := List.any_eq_true.mp hb
    rw [h b hm] at hx
    cases hx
  · obtain ⟨f, rfl⟩ := ord_of_form ho hf
    exact h f rfl

/-- Nothing is due at a boundary. -/
theorem boundary_eq_none {u : State} (hr : u.thr.reissuing = false) (h : u.thr.granted.isSome = true ∨ u.thr.unlogged = none
      ∧ u.thr.edgeDue = false ∧ u.thr.trapDue = none ∧ u.thr.loggedFault = none ∧ (u.thr.latePending = false ∨ u.thr.priv = true)
      ∧ u.curDbg.haltReq = false ∧ u.curDbg.due = none ∧ u.traceWaits = false) : u.boundary = none := by
  unfold State.boundary
  rw [hr]
  cases hg : u.thr.granted.isSome
  · obtain ⟨hu, he, ht, hl, hp, hh, hd, hw⟩ := h.resolve_left (by simp [hg])
    have hlate : u.lateTrap = none := by
      unfold State.lateTrap
      rcases hp with hp | hp <;> simp [hp]
    simp [hu, he, State.trapAt, ht, hl, hlate, State.stopAt, hd, hh, hw]
  · simp

/-- The step of a named turn. -/
theorem step_of_turns {s : State} {t : Turn} {r : List Turn} (h : s.turns = t :: r) : step s = ({ s.tick with turns := r } : State).take t := by
  unfold step State.move
  rw [show s.tick.turns = s.turns from rfl, h]

/-- Without a named turn the next one that is due is taken; where none is, a failed start begins again. -/
theorem move_of_noTurns {s : State} (h : s.turns = []) :
    (∀ t, s.nextTurn = some t → s.move = s.take t) ∧ (s.nextTurn = none → s.move = .next s.startDue) := by
  refine ⟨fun t hn => ?_, fun hn => ?_⟩ <;> simp only [State.move, h, hn]

theorem take_slot {s : State} (h : s.isDown = false) (k : SlotNo) : s.take (.slot k) = s.slotTurn k := by
  simp [State.take, State.reachable, h]
theorem take_engine {s : State} (h : s.isDown = false) (e : BitVec 10) : s.take (.engine e) = s.engineTurn e := by
  simp [State.take, State.reachable, h]

/-- A turn in which an instruction is fetched. -/
theorem slotTurn_of_boundary {s : State} {k : SlotNo} (hm : (s.atSlot k).slotMay = true) (hb : (s.atSlot k).boundary = none) :
    s.slotTurn k = (s.atSlot k).runInstr := by
  simp [State.slotTurn, hm, hb]

/-- What a fetch makes of a turn: a trap, the address past fillers, or an instruction. -/
theorem runInstr_of_fetch (s : State) :
    (∀ t, s.fetch = .trap t → s.runInstr = .next (((s.touchCode s.thr.pc).takeTrap t).afterTurn s.cur))
    ∧ (∀ a, s.fetch = .filler a →
        s.runInstr = .next ((s.touchCode s.thr.pc).withThr { (s.touchCode s.thr.pc).thr with pc := a }))
    ∧ ∀ i, s.fetch = .instr i → s.runInstr = finishTurn s.cur (exec i ((s.touchCode s.thr.pc).touchPrefixed i)) := by
  refine ⟨fun t h => ?_, fun a h => ?_, fun i h => ?_⟩ <;> simp only [State.runInstr, h]

theorem fetch_of_none {s : State} (h : s.parcelAt s.thr.pc = none) : s.fetch = .trap ⟨cFETCH_BOUND, s.thr.pc, 0⟩ := by
  simp only [State.fetch, h]

/-- What is fetched where the page can be: what the parcels decode to. -/
theorem fetch_of_decode {s : State} (h : (s.parcelAt s.thr.pc).isSome = true) :
    (∀ i n, decode (s.blockParcels s.thr.pc) = .ok (i, n) → s.fetch = .instr i)
    ∧ (decode (s.blockParcels s.thr.pc) = .error .filler → s.fetch = .filler (s.skipFiller ((32 - s.thr.pc.toNat % 32) / 4) s.thr.pc))
    ∧ (decode (s.blockParcels s.thr.pc) = .error .illegalFormat → s.fetch = .trap ⟨cILLEGAL_FORMAT, 0, 0⟩)
    ∧ (decode (s.blockParcels s.thr.pc) = .error .illegalField → s.fetch = .trap ⟨cILLEGAL_FIELD, 0, 0⟩) := by
  obtain ⟨p, hp⟩ := Option.isSome_iff_exists.mp h
  refine ⟨fun i n h => ?_, fun h => ?_, fun h => ?_, fun h => ?_⟩ <;> simp only [State.fetch, hp, h]

/-- A step under STEP that is not asked for is not stopped, and the cluster has issued unless the slot waits (22 R418). -/
theorem afterTurn_of_noStep {t : State} {k : SlotNo} (h : (NMap.get ({} : Dbg) t.dbg k.toNat).stepReq = false) :
    t.afterTurn k = if (t.thread k).waiting then t
      else t.setCluster (k.toNat / 8) { t.cluster (k.toNat / 8) with issued := true } := by
  have hs : t.afterStep k = t := by
    unfold State.afterStep
    simp only [h, Bool.false_and, Bool.false_eq_true, if_false]
  simp only [State.afterTurn, hs, slotCluster]

/-- Settles O55: the step of a named turn is that agent's turn, and a slot's turn is its fetch. -/
theorem stepRunsDecoded : Obligations.StepRunsDecoded := by
  intro s r base
  have hdown : base.isDown = s.isDown := rfl
  refine ⟨fun k hk => ⟨fun hd => ?_, fun hd u hu => ⟨fun hm => ?_, fun hm => ?_⟩⟩, fun e he hd u hu => ⟨fun hb hc hh => ?_, fun h => ?_⟩,
    fun i inp hi hf h1 h2 => ?_, fun t k h => afterTurn_of_noStep h, fun h => ?_⟩
  · rw [step_of_turns hk]
    simp [State.take, State.reachable, base, hdown, hd]
  · rw [step_of_turns hk, take_slot (hdown.trans hd), State.slotTurn, ← hu, hm]
    rfl
  · intro turn v
    have hstep : step s = base.slotTurn k := by rw [step_of_turns hk, take_slot (hdown.trans hd)]
    have hcur : u.cur = k := by rw [hu, atSlot_cur]
    subst hu
    refine ⟨fun t hb => ?_, boundary_eq_none, fun hb => ?_⟩
    · simp only [hstep, State.slotTurn, hm, hb]
      rfl
    · rw [hstep, slotTurn_of_boundary hm hb]
      obtain ⟨htrap, hfill, hinstr⟩ := runInstr_of_fetch (base.atSlot k)
      rw [hcur] at htrap hinstr
      refine ⟨fun hp => htrap _ (fetch_of_none hp), fun hp => ?_⟩
      obtain ⟨hok, hfiller, hformat, hfield⟩ := fetch_of_decode hp
      refine ⟨fun i n hi => ⟨?_, touchPrefixed_eq⟩, fun h => htrap _ (hformat h), fun h => htrap _ (hfield h), fun h => hfill _ (hfiller h)⟩
      rw [hinstr i (hok i n hi)]
      cases exec i (v.touchPrefixed i) <;> rfl
  · rw [step_of_turns he, take_engine (hdown.trans hd), State.engineTurn, ← hu]
    obtain ⟨c, hc⟩ := Option.isSome_iff_exists.mp hc
    simp [hb, hc, hh]
  · rw [step_of_turns he, take_engine (hdown.trans hd), State.engineTurn, ← hu]
    rcases h with h | h | h <;> simp [h]
  · rw [step_of_turns hi]
    have he := isEvent_of_form hf h1 h2
    rw [← hdown]
    simp only [State.take, State.reachable, State.eventTurn, he, if_true, Bool.not_eq_true', Bool.or_eq_false_iff, Bool.not_eq_false']
    rfl
  · obtain ⟨hsome, hnone⟩ := move_of_noTurns (s := s.tick) h
    cases hn : s.tick.nextTurn with
    | some t => exact hsome t hn
    | none => exact hnone hn
end Sys2Proof.Machine
end

section
/-!
PROOFS. Order, fences and the stack (02 R41; 16 R337-R340; 17 R351; 09 R226).
-/
namespace Sys2Proof.Machine

/-- A result that, where there is one, is as `P` says. -/
def Res.Gives {α : Type} (P : α → Prop) (r : Res α) : Prop := ∀ v, r = .ok v → P v

theorem Res.Gives.bind {α β : Type} {P : β → Prop} {x : Res α} {f : α → Res β} (h : ∀ a, x = .ok a → Res.Gives P (f a)) :
    Res.Gives P (x >>= f) := by
  intro v hv
  cases hx : x with
  | error e => rw [hx] at hv; cases hv
  | ok a => rw [hx] at hv; exact h a hx v hv

theorem Res.Gives.error {α : Type} {P : α → Prop} (e : Stop) : Res.Gives P (.error e) := by
  intro v hv
  cases hv

theorem Res.Gives.ok {α : Type} {P : α → Prop} {v : α} (h : P v) : Res.Gives P (.ok v) := by
  intro w hw
  cases hw
  exact h

/-- An access that passes its checks names a location for each of its bytes. -/
theorem resolveBytes_length (s : State) (w : Want) (ea : Word) (bs : List Word) :
    (s.resolveBytes w ea bs).Gives fun r => r.2.locs.length = bs.length := by
  unfold State.resolveBytes
  refine .bind fun _ _ => .bind fun _ _ => .bind fun pbs _ => .bind fun _ _ => .bind fun _ _ => .bind fun _ _ => ?_
  extract_lets global root vf cl fps drained checked
  have hchecked (lv) : (checked lv).Gives fun r => r.2.locs.length = bs.length := by
    refine .bind fun _ _ => ?_
    extract_lets s' locs peers done watched sound
    have hdone : (done ()).Gives fun r => r.2.locs.length = bs.length := .ok (List.length_map _)
    have hwatched : (watched ()).Gives fun r => r.2.locs.length = bs.length := by
      dsimp only [watched]
      split
      · split
        · split <;> exact .bind fun _ _ => hdone
        · exact hdone
      · exact hdone
    have hsound : (sound ()).Gives fun r => r.2.locs.length = bs.length := by
      dsimp only [sound]
      split
      · exact .bind fun _ _ => hwatched
      · exact hwatched
    split
    · split
      · exact .bind fun _ _ => hsound
      · exact .bind fun _ _ => .bind fun _ _ => hsound
    · exact hsound
  split <;> exact .bind fun _ _ => hchecked _

theorem resolve_length {s s' : State} {w : Want} {ea : Word} {n : Nat} {nm : Named} (h : s.resolve w ea n = .ok (s', nm)) :
    nm.locs.length = n := by
  simpa [bytesOf] using resolveBytes_length s w ea (bytesOf ea n) _ h

/-! ### Bytes of a number -/

theorem leBytes_length (n v : Nat) : (leBytes n v).length = n := by
  induction n generalizing v with
  | zero => rfl
  | succ n ih => simp [leBytes, ih]

theorem leNat_leBytes (n v : Nat) : leNat (leBytes n v) = v % 256 ^ n := by
  induction n generalizing v with
  | zero => simp [leBytes, leNat, Nat.mod_one]
  | succ n ih =>
    rw [leBytes, leNat, ih, BitVec.toNat_ofNat, Nat.pow_succ' (n := n), Nat.mod_mul (a := 256)]

/-! ### The store queue -/

/-- What a store's queue entry holds: its locations with their keys, and its bytes. -/
def SqEntry.Holds (e : SqEntry) (locs : List (Loc × Nat)) (bs : List Byte) : Prop :=
  e.bytes = (locs.zip bs).map fun x => ⟨x.1.1, x.2, x.1.2⟩

theorem pushStore_eq (s : State) (ea : Word) (nm : Named) (bs : List Byte) : ∃ e : SqEntry,
    s.pushStore ea nm bs = { s with opNo := s.opNo + 1, thr := { s.thr with sq := s.thr.sq ++ [e] } } ∧ e.Holds nm.locs bs :=
  ⟨_, rfl, rfl⟩

/-- Stores entered in the queue one after the other: each takes a number and a place at the queue's end (16 R337). -/
theorem pushStores_eq {α : Type} (ea : α → Word) (nm : α → Named) (bs : α → List Byte) (l : List α) (s : State) : ∃ es,
    l.foldl (fun s x => s.pushStore (ea x) (nm x) (bs x)) s
      = { s with opNo := s.opNo + l.length, thr := { s.thr with sq := s.thr.sq ++ es } }
    ∧ List.Forall₂ (fun (e : SqEntry) x => e.Holds (nm x).locs (bs x)) es l := by
  induction l generalizing s with
  | nil => exact ⟨[], by simp, .nil⟩
  | cons x r ih =>
    obtain ⟨e, he, hb⟩ := pushStore_eq s (ea x) (nm x) (bs x)
    obtain ⟨es, h, hes⟩ := ih (s.pushStore (ea x) (nm x) (bs x))
    refine ⟨e :: es, ?_, .cons hb hes⟩
    rw [List.foldl_cons, h, he]
    simp only [List.append_assoc, List.singleton_append, List.length_cons, Nat.add_assoc, Nat.add_comm r.length]

/-- The bytes of a double word, as its queue entry holds them. -/
theorem SqEntry.Holds.double {e : SqEntry} {locs : List (Loc × Nat)} {v : Word} (h : e.Holds locs (leBytes 8 v.toNat))
    (hl : locs.length = 8) : e.bytes.map (fun b => (b.loc, b.key)) = locs ∧ leNat (e.bytes.map (·.val)) = v.toNat := by
  have hb : (leBytes 8 v.toNat).length = 8 := leBytes_length ..
  rw [h, List.map_map, List.map_map]
  constructor
  · exact List.map_fst_zip (by omega)
  · rw [show ((·.val) ∘ fun x : (Loc × Nat) × Byte => (⟨x.1.1, x.2, x.1.2⟩ : SqByte)) = Prod.snd from rfl,
      List.map_snd_zip (by omega), leNat_leBytes]
    exact Nat.mod_eq_of_lt v.isLt


/-! ### Fences -/

theorem acquires_some (o s : BitVec 3) (pc : Word) : acquires (some ⟨o, s, pc⟩) = true ↔ o = 1 ∨ o = 3 ∨ o = 4 := by
  simp [acquires, or_assoc]
theorem releases_some (o s : BitVec 3) (pc : Word) : releases (some ⟨o, s, pc⟩) = true ↔ o = 2 ∨ o = 3 ∨ o = 4 := by
  simp [releases, or_assoc]

theorem settled_iff (t : Thread) : t.settled = true ↔ t.openOuts = [] ∧ ∀ o ∈ t.ops, o.untilLoopEnds = true := by
  simp [Thread.settled, Thread.opsDone, and_comm]

theorem bankBusy_iff (s : State) (uid : Nat) : s.bankBusy uid = true ↔
    (∃ q ∈ s.cmdq, ∃ c ∈ q.2, c.uid = uid) ∨ ∃ c ∈ s.calls, c.uid = uid ∧ c.gone = false := by
  simp [State.bankBusy]

/-- A wait whose condition holds is over; one whose condition does not leaves the state as it is. -/
theorem waitFor_bind {α : Type} {s : State} {c : Prop} [Decidable c] (h : c) (f : Unit → Res α) : (s.waitFor c >>= f) = f () := by
  rw [State.waitFor, if_pos h]
  rfl
theorem waitFor_bind_not {α : Type} {s : State} {c : Prop} [Decidable c] (h : ¬ c) (f : Unit → Res α) :
    (s.waitFor c >>= f) = .error (.wait s) := by
  rw [State.waitFor, if_neg h]
  rfl

/-- An ORD stands before the next instruction (02 R41). -/
theorem ord_spec {s : State} {f : FE} (h : s.Issues (.e 0x32 0 f)) : exec (.ord f) s = .next (s.after (.e 0x32 0 f)
    (s.withThr { s.thr with ord := some ⟨f.sysn.extractLsb' 0 3, f.sysn.extractLsb' 3 3, s.thr.pc⟩ })) := by
  change execOrd f s = _
  exact issueWith_of_issues h _ _ (d := { st := s.prefixed _ _ }) rfl fun _ => rfl

/-- A FENCE completes where its three conditions hold, and waits where one does not (16 R340; 17 R351). -/
theorem fence_spec {s : State} {f : FE} (h : s.Issues (.e 0x32 1 f)) {order : BitVec 3} (horder : f.sysn.extractLsb' 0 3 = order) :
    let pending := (order = 1 ∨ order = 3 ∨ order = 4) ∧ s.thr.openOuts ≠ []
      ∨ (order = 2 ∨ order = 3 ∨ order = 4) ∧ ¬ (s.thr.openOuts = [] ∧ ∀ o ∈ s.thr.ops, o.untilLoopEnds = true)
      ∨ order = 4 ∧ s.thr.sq ≠ []
    (¬ pending → exec (.fence f) s = .next (s.after (.e 0x32 1 f) s))
      ∧ (pending → exec (.fence f) s = .next (s.withThr { s.thr with waiting := true })) := by
  intro pending
  let o : Option Ord := some ⟨f.sysn.extractLsb' 0 3, f.sysn.extractLsb' 3 3, s.thr.pc⟩
  have ha : acquires o = true ↔ order = 1 ∨ order = 3 ∨ order = 4 := horder ▸ acquires_some ..
  have hr : releases o = true ↔ order = 2 ∨ order = 3 ∨ order = 4 := horder ▸ releases_some ..
  have hpending : ¬ pending ↔ (acquires o = false ∨ s.thr.openOuts.isEmpty = true) ∧ (releases o = false ∨ s.thr.settled = true)
      ∧ (f.sysn.extractLsb' 0 3 ≠ 4 ∨ s.thr.sq.isEmpty = true) := by
    rw [← Bool.not_eq_true, ← Bool.not_eq_true, ha, hr, settled_iff, List.isEmpty_iff, List.isEmpty_iff, horder]
    simp only [pending, ne_eq, not_or, not_and_or, not_not]
  refine ⟨fun hp => ?_, fun hp => ?_⟩
  · change execFence f s = _
    obtain ⟨h1, h2, h3⟩ := hpending.mp hp
    refine issue_seq h _ ?_
    dsimp only
    rw [waitFor_bind h1, waitFor_bind h2, waitFor_bind h3]
    rfl
  · change execFence f s = .next s.stall
    refine issue_wait h _ ?_
    dsimp only
    by_cases h1 : acquires o = false ∨ s.thr.openOuts.isEmpty = true
    · rw [waitFor_bind h1]
      by_cases h2 : releases o = false ∨ s.thr.settled = true
      · rw [waitFor_bind h2, waitFor_bind_not fun h3 => hpending.mpr ⟨h1, h2, h3⟩ hp]
      · rw [waitFor_bind_not h2]
    · rw [waitFor_bind_not h1]

/-- A QFENCE completes where the item has no bank command left, and waits where it has one (05 R135). -/
theorem qfence_spec {s : State} {f : FE} (h : s.Issues (.e 0x32 2 f)) :
    (s.bankBusy s.thr.src.uid = false → exec (.qfence f) s = .next (s.after (.e 0x32 2 f) s))
      ∧ (s.bankBusy s.thr.src.uid = true → exec (.qfence f) s = .next (s.withThr { s.thr with waiting := true })) := by
  refine ⟨fun hb => ?_, fun hb => ?_⟩
  · change execQfence f s = _
    refine issue_seq h _ ?_
    rw [waitFor_bind hb]
    rfl
  · change execQfence f s = .next s.stall
    refine issue_wait h _ ?_
    rw [waitFor_bind_not (by simp [hb])]

/-! ### ENTER, LEAVEF and SPILL (09 R226) -/

/-- A check that holds is passed; one that does not traps. -/
theorem need_bind {α : Type} {c : Prop} [Decidable c] (h : c) (cause : BitVec 16) (a i : Word) (f : Unit → Res α) :
    (need c cause a i >>= f) = f () := by
  rw [need, if_pos h]
  rfl
theorem need_bind_not {α : Type} {c : Prop} [Decidable c] (h : ¬ c) (cause : BitVec 16) (a i : Word) (f : Unit → Res α) :
    (need c cause a i >>= f) = .error (.trap ⟨cause, a, i⟩) := by
  rw [need, if_neg h]
  rfl

theorem ok_bind {α β : Type} (a : α) (f : α → Res β) : ((Except.ok a : Res α) >>= f) = f a := rfl
theorem error_bind {α β : Type} (e : Stop) (f : α → Res β) : ((Except.error e : Res α) >>= f) = .error e := rfl

/-- What ENTER stores: lr above fp, below sp (09 R226). -/
theorem pushDoubles_enter (s : State) {nm : Named} (hl : nm.locs.length = 16) (a lr fp : Word) : ∃ e g : SqEntry,
    s.pushDoubles nm a [(1, lr), (0, fp)] = { s with opNo := s.opNo + 2, thr := { s.thr with sq := s.thr.sq ++ [e, g] } }
    ∧ (e.bytes.map (fun b => (b.loc, b.key)) = (nm.locs.drop 8).take 8 ∧ leNat (e.bytes.map (·.val)) = lr.toNat)
    ∧ (g.bytes.map (fun b => (b.loc, b.key)) = nm.locs.take 8 ∧ leNat (g.bytes.map (·.val)) = fp.toNat) := by
  obtain ⟨es, h, hes⟩ := pushStores_eq (fun v : Nat × Word => a + BitVec.ofNat 64 (8 * v.1))
    (fun v => { nm with locs := (nm.locs.drop (8 * v.1)).take 8 }) (fun v => leBytes 8 v.2.toNat) [(1, lr), (0, fp)] s
  cases hes with | cons he hes =>
  cases hes with | cons hg hes =>
  cases hes
  exact ⟨_, _, h, he.double (by simp [hl]), hg.double (by simp [hl])⟩

/-- ENTER's checks in their order, and its effect once they are passed. -/
theorem enter_spec {s : State} {f : FA} (h : s.Issues (.a 0x33 0 f)) :
    (¬ (s.X 63).toNat % 16 = 0 → exec (.enter f) s = .next (s.takeTrap ⟨cMISALIGN, s.X 63, 0⟩))
    ∧ ((s.X 63).toNat % 16 = 0 → ¬ (s.thr.stklim.toNat : Int) ≤ ((s.X 63).toNat : Int) - f.imm.toNat →
        exec (.enter f) s = .next (s.takeTrap ⟨cSTACK_LIMIT, 0, 0⟩))
    ∧ ((s.X 63).toNat % 16 = 0 → (s.thr.stklim.toNat : Int) ≤ ((s.X 63).toNat : Int) - f.imm.toNat →
        (∀ tr, s.resolve (storeWant 8) (s.X 63 - 16) 16 = .error (.trap tr) → exec (.enter f) s = .next (s.takeTrap tr))
        ∧ ∀ s1 nm, s.resolve (storeWant 8) (s.X 63 - 16) 16 = .ok (s1, nm) → s1.storeClaims nm 2 = .ok () →
          exec (.enter f) s = .next (s.after (.a 0x33 0 f)
            (((s1.pushDoubles nm (s.X 63 - 16) [(1, s.X 62), (0, s.X 61)]).setX 61 (s.X 63)).setX 63 (s.X 63 - f.imm.setWidth 64)))) := by
  change (_ → execEnter f s = _) ∧ (_ → _ → execEnter f s = _) ∧ (_ → _ → (∀ tr, _ → execEnter f s = _) ∧ ∀ s1 nm, _ → _ → execEnter f s = _)
  refine ⟨fun ha => issue_trap h _ ?_, fun ha hl => issue_trap h _ ?_, fun ha hl => ⟨fun tr hr => issue_trap h _ ?_, fun s1 nm hr hc => issue_seq h _ ?_⟩⟩
  · exact need_bind_not ha ..
  · dsimp only
    rw [need_bind ha, need_bind_not hl]
  · dsimp only
    rw [need_bind ha, need_bind hl, hr]
    rfl
  · dsimp only
    rw [need_bind ha, need_bind hl, hr, ok_bind]
    dsimp only
    rw [hc]
    rfl

/-- No ORD is in force at an instruction that none may stand before (02 R41). -/
theorem State.Issues.isSc_eq {s : State} {f : Form} (h : s.Issues f) (hf : ordable f.opc = false) : s.isSc = false := by
  unfold State.isSc
  cases ho : s.thr.ord with
  | none => rfl
  | some o =>
    have := h.ordered (by rw [ho]; rfl)
    simp [hf] at this

/-- A load that nothing holds up (16 R337, R338). -/
theorem loadWaits_eq_ok {s : State} (ho : s.thr.openOuts = []) (hq : ∀ e ∈ s.thr.sq, e.sc = false) (hs : s.isSc = false) :
    s.loadWaits = .ok () := by
  unfold State.loadWaits
  rw [waitFor_bind (by simp [ho]), waitFor_bind (by simpa using hq), State.waitFor, if_pos (.inl hs)]

/-- LEAVEF's checks in their order, and its effect once they are passed and nothing holds its load up. -/
theorem leavef_spec {s : State} {f : FA} (h : s.Issues (.a 0x33 1 f)) :
    (¬ (s.X 61).toNat % 16 = 0 → exec (.leavef f) s = .next (s.takeTrap ⟨cMISALIGN, s.X 61, 0⟩))
    ∧ ((s.X 61).toNat % 16 = 0 → s.thr.openOuts = [] → (∀ e ∈ s.thr.sq, e.sc = false) →
        (∀ tr, s.resolve { align := 8 } (s.X 61 - 16) 16 = .error (.trap tr) → exec (.leavef f) s = .next (s.takeTrap tr))
        ∧ ∀ s1 nm, s.resolve { align := 8 } (s.X 61 - 16) 16 = .ok (s1, nm) → s1.claim nm.fps true = .ok () →
          let v := leNat (s1.drained.getBytes nm.locs)
          exec (.leavef f) s = .next (s.after (.a 0x33 1 f)
            (((s1.setX 63 (s.X 61)).setX 62 (BitVec.ofNat 64 (v / 2 ^ 64))).setX 61 (BitVec.ofNat 64 v)))) := by
  change (_ → execLeavef f s = _) ∧ (_ → _ → _ → (∀ tr, _ → execLeavef f s = _) ∧ ∀ s1 nm, _ → _ → execLeavef f s = _)
  refine ⟨fun ha => issue_trap h _ (need_bind_not ha ..), fun ha ho hq => ⟨fun tr hr => issue_trap h _ ?_, fun s1 nm hr hc => issue_seq h _ ?_⟩⟩
  · dsimp only
    rw [need_bind ha, loadWaits_eq_ok ho hq (h.isSc_eq rfl), ok_bind, State.loadValue, hr]
    rfl
  · dsimp only
    rw [need_bind ha, loadWaits_eq_ok ho hq (h.isSc_eq rfl), ok_bind, State.loadValue, hr, ok_bind]
    dsimp only
    rw [hc]
    rfl

/-- Double words that pass their checks, in the order of their addresses. -/
theorem resolveDoubles_length (s : State) (w : Want) (a : Word) (n : Nat) :
    (s.resolveDoubles w a n).Gives fun r => r.2.length = n ∧ ∀ nm ∈ r.2, nm.locs.length = 8 := by
  induction n with
  | zero => exact .ok (by simp)
  | succ n ih =>
    refine .bind fun r hr => .bind fun q hq => .ok ?_
    obtain ⟨hn, hl⟩ := ih r hr
    simp only [List.length_append, hn, List.length_singleton, List.mem_append, List.mem_singleton, true_and]
    rintro nm (hm | rfl)
    · exact hl nm hm
    · exact resolve_length hq

/-- The registers that SPILL's mask names, from XD on. -/
def spillRegs (f : FA) : List Nat := (List.range 16).filter fun k => f.imm.getLsbD k

/-- SPILL's checks in their order, and its effect once they are passed. -/
theorem spill_spec {s : State} {f : FA} (h : s.Issues (.a 0x33 2 f)) :
    (¬ (s.X f.xa).toNat % 8 = 0 → exec (.spill f) s = .next (s.takeTrap ⟨cMISALIGN, s.X f.xa, 0⟩))
    ∧ ((s.X f.xa).toNat % 8 = 0 →
        (∀ tr, s.resolveDoubles (storeWant 8) (s.X f.xa) (spillRegs f).length = .error (.trap tr) → exec (.spill f) s = .next (s.takeTrap tr))
        ∧ ∀ s1 nms, s.resolveDoubles (storeWant 8) (s.X f.xa) (spillRegs f).length = .ok (s1, nms) →
          s1.storeClaims ⟨[], nms.flatMap (·.fps), [], []⟩ (spillRegs f).length = .ok () →
          exec (.spill f) s = .next (s.after (.a 0x33 2 f)
            (((List.range (spillRegs f).length).zip (nms.zip ((spillRegs f).map fun k => s.X (f.xd + BitVec.ofNat 6 k)))).foldl (fun u x =>
              u.pushStore (s.X f.xa + BitVec.ofNat 64 (8 * x.1)) x.2.1 (leBytes 8 x.2.2.toNat)) s1))) := by
  change (_ → execSpill f s = _) ∧ (_ → (∀ tr, _ → execSpill f s = _) ∧ ∀ s1 nm, _ → _ → execSpill f s = _)
  refine ⟨fun ha => issue_trap h _ (need_bind_not ha ..), fun ha => ⟨fun tr hr => issue_trap h _ ?_, fun s1 nm hr hc => issue_seq h _ ?_⟩⟩
  · dsimp only
    rw [need_bind ha, show ((List.range 16).filter fun k => f.imm.getLsbD k) = spillRegs f from rfl, hr]
    rfl
  · dsimp only
    rw [need_bind ha, show ((List.range 16).filter fun k => f.imm.getLsbD k) = spillRegs f from rfl, hr, ok_bind]
    dsimp only
    rw [hc]
    rfl

/-- What SPILL stores: a double word for each register of its mask, in the order of their addresses. -/
theorem spill_stores (s : State) (a : Word) {nms : List Named} {vs : List Word} {n : Nat} (hn : nms.length = n) (hv : vs.length = n)
    (hl : ∀ nm ∈ nms, nm.locs.length = 8) : ∃ es : List SqEntry,
    ((List.range n).zip (nms.zip vs)).foldl (fun u x => u.pushStore (a + BitVec.ofNat 64 (8 * x.1)) x.2.1 (leBytes 8 x.2.2.toNat)) s
      = { s with opNo := s.opNo + n, thr := { s.thr with sq := s.thr.sq ++ es } }
    ∧ es.length = n
    ∧ ∀ (j : Nat) (e : SqEntry) (v : Word) (nm : Named), es[j]? = some e → vs[j]? = some v → nms[j]? = some nm →
        e.bytes.map (fun b => (b.loc, b.key)) = nm.locs ∧ leNat (e.bytes.map (·.val)) = v.toNat := by
  obtain ⟨es, h, hes⟩ := pushStores_eq (fun x : Nat × Named × Word => a + BitVec.ofNat 64 (8 * x.1)) (fun x => x.2.1)
    (fun x => leBytes 8 x.2.2.toNat) ((List.range n).zip (nms.zip vs)) s
  have hlen : ((List.range n).zip (nms.zip vs)).length = n := by simp [hn, hv]
  refine ⟨es, by rw [h, hlen], hes.length_eq.trans hlen, fun j e v nm he hvj hm => ?_⟩
  have hj : j < n := hes.length_eq.trans hlen ▸ (List.getElem?_eq_some_iff.mp he).1
  have hx : ((List.range n).zip (nms.zip vs))[j]? = some (j, nm, v) := by
    rw [List.getElem?_zip_eq_some, List.getElem?_zip_eq_some, List.getElem?_range hj]
    exact ⟨rfl, hm, hvj⟩
  have hd : e.Holds nm.locs (leBytes 8 v.toNat) := by
    obtain ⟨hje, rfl⟩ := List.getElem?_eq_some_iff.mp he
    obtain ⟨hjx, hx⟩ := List.getElem?_eq_some_iff.mp hx
    have := hes.get (i := j) hje hjx
    simpa [hx] using this
  exact hd.double (hl nm (List.mem_of_getElem? hm))

/-- Settles O19: each form is its checks and waits in their order (`fence_spec`, `enter_spec`, `leavef_spec`, `spill_spec`), and a store
of double words queues one entry for each (`pushStores_eq`). -/
theorem orderAndStack : Obligations.OrderAndStack := by
  refine ⟨fun s f => ?_, fun s f => ?_⟩
  · intro order scope pending bank
    refine ⟨fun h => ord_spec h, fun h => fence_spec h rfl, fun h => ⟨fun hb => ?_, fun hb => ?_⟩⟩
    · exact (qfence_spec h).1 (Bool.eq_false_iff.mpr fun hx => hb ((bankBusy_iff s _).mp hx))
    · exact (qfence_spec h).2 ((bankBusy_iff s _).mpr hb)
  · intro sp fp store doubles
    refine ⟨fun h => ?_, fun h => ?_, fun h => ?_⟩
    · obtain ⟨hmis, hlim, hrun⟩ := enter_spec h
      split
      next ha => exact hmis ha
      next ha =>
      rw [ne_eq, not_not] at ha
      split
      next hs => exact hlim ha (not_le.mpr hs)
      next hs =>
      obtain ⟨htrap, hok⟩ := hrun ha (not_lt.mp hs)
      refine ⟨htrap, fun s1 nm hr hc => ?_⟩
      obtain ⟨e, g, hpush, he, hg⟩ := pushDoubles_enter s1 (resolve_length hr) (sp - 16) (s.X 62) fp
      exact ⟨e, g, _, hok s1 nm hr hc, hpush, he, hg⟩
    · obtain ⟨hmis, hrun⟩ := leavef_spec h
      split
      next ha => exact hmis ha
      next ha =>
      rw [ne_eq, not_not] at ha
      exact hrun ha
    · obtain ⟨hmis, hrun⟩ := spill_spec h
      intro a ks
      split
      next ha => exact hmis ha
      next ha =>
      rw [ne_eq, not_not] at ha
      obtain ⟨htrap, hok⟩ := hrun ha
      refine ⟨htrap, fun s1 nms hr hc => ?_⟩
      obtain ⟨hn, hl⟩ := resolveDoubles_length s (storeWant 8) a ks.length _ hr
      obtain ⟨es, hpush, hes, hd⟩ := spill_stores s1 a (vs := ks.map fun k => s.X (f.xd + BitVec.ofNat 6 k)) hn (by simp) hl
      refine ⟨hn, es, _, hok s1 nms hr hc, hpush, hes, fun j e k nm he hk hm => ?_⟩
      exact hd j e _ nm he (by rw [List.getElem?_map, hk]; rfl) hm
end Sys2Proof.Machine
end

section
/-!
PROOFS. Traps at a boundary, packets and register writes as events (02 R35, R43; 09 R205; 14 R294, R295; 17 R363; 20 R388, R389).
-/
namespace Sys2Proof.Machine

/-! ### Events of a slot -/

@[simp] theorem atSlot_input (s : State) (k : SlotNo) : (s.atSlot k).input = s.input := by
  unfold State.atSlot
  split <;> rfl

theorem slotEvent_of_none {f : State → Option State} {s : State} (h : f (s.atSlot s.input.slot) = none) : slotEvent f s = .next s := by
  simp [slotEvent, event_next, h]

theorem slotEvent_of_some {f : State → Option State} {s t : State} (h : f (s.atSlot s.input.slot) = some t) : slotEvent f s = .next t := by
  simp [slotEvent, event_next, h]

/-! ### The log of long accesses -/

/-- The search for an access finds the one before which none qualifies. -/
theorem find?_append_cons {α : Type} {p : α → Bool} {a b : List α} {o : α} (ha : ∀ x ∈ a, p x = false) (ho : p o = true) :
    (a ++ o :: b).find? p = some o := by
  rw [List.find?_append, List.find?_eq_none.mpr (by simpa using ha), Option.none_or, List.find?_cons_of_pos ho]

/-- No access of the thread's own mode has faulted. -/
theorem loggedFault_eq_none {th : Thread} (h : ∀ o ∈ th.outs, o.priv = th.priv → o.faulted = none) : th.loggedFault = none := by
  unfold Thread.loggedFault
  simpa [List.findSome?_eq_none_iff] using h

/-- The logged fault is that of the oldest access that faulted, of those of the thread's own mode. -/
theorem loggedFault_eq_some {th : Thread} {a b : List Out} {o : Out} {tr : Trap} (hs : th.outs = a ++ o :: b) (hf : o.faulted = some tr)
    (hp : o.priv = th.priv) (ha : ∀ p ∈ a, p.priv = th.priv → p.faulted = none) : th.loggedFault = some tr := by
  have hnone : (a.filter fun o => o.priv == th.priv).findSome? (·.faulted) = none := by
    simpa [List.findSome?_eq_none_iff] using ha
  unfold Thread.loggedFault
  rw [hs, List.filter_append, List.findSome?_append, hnone, List.filter_cons_of_pos (by simp [hp]), List.findSome?_cons, hf]
  rfl

/-- An access taken out by its number, where numbers name one access each. -/
theorem filter_no_ne {a b : List Out} {o : Out} (h : ((a ++ o :: b).map (·.no)).Nodup) :
    (a ++ o :: b).filter (fun u => u.no ≠ o.no) = a ++ b := by
  rw [List.map_append, List.map_cons, List.nodup_middle, List.nodup_cons] at h
  obtain ⟨hno, -⟩ := h
  have hne (u : Out) (hu : u ∈ a ++ b) : u.no ≠ o.no := fun he => hno (by rw [← List.map_append]; exact List.mem_map.mpr ⟨u, hu, he⟩)
  rw [List.filter_append, List.filter_cons_of_neg (by simp), ← List.filter_append, List.filter_eq_self]
  simpa using hne

/-- The entries that a mask drops from the log are those whose place it names (20 R389). -/
theorem mem_dropLog_outs {t : Thread} (mask : Word) (hn : (t.outs.map (·.no)).Nodup) (o : Out) :
    o ∈ (t.dropLog mask).outs ↔ o ∈ t.outs ∧ ∀ n, n < 8 → mask.getLsbD n = true → (t.outs.filter (·.logged))[n]? ≠ some o := by
  have hinj := List.inj_on_of_nodup_map hn
  have hdropped (hm : o ∈ t.outs) :
      o.no ∈ (((t.outs.filter (·.logged)).zip (List.range 8)).filterMap fun x => if mask.getLsbD x.2 then some x.1.no else none)
        ↔ ∃ n, n < 8 ∧ mask.getLsbD n = true ∧ (t.outs.filter (·.logged))[n]? = some o := by
    rw [List.mem_filterMap]
    constructor
    · rintro ⟨⟨p, n⟩, hz, hp⟩
      obtain ⟨i, hi⟩ := List.mem_iff_getElem?.mp hz
      obtain ⟨hlog, hrange⟩ := List.getElem?_zip_eq_some.mp hi
      obtain ⟨hlt, rfl⟩ := List.getElem?_eq_some_iff.mp hrange
      rw [List.length_range] at hlt
      rw [List.getElem_range] at hp
      obtain ⟨hbit, hno⟩ := Option.ite_none_right_eq_some.mp hp
      have hpm : p ∈ t.outs := List.mem_of_mem_filter (List.mem_of_getElem? hlog)
      rw [hinj hpm hm (Option.some.inj hno)] at hlog
      exact ⟨i, hlt, hbit, hlog⟩
    · rintro ⟨n, hlt, hbit, hlog⟩
      refine ⟨(o, n), List.mem_iff_getElem?.mpr ⟨n, List.getElem?_zip_eq_some.mpr ⟨hlog, ?_⟩⟩, if_pos hbit⟩
      rw [List.getElem?_range hlt]
  unfold Thread.dropLog
  simp only [List.mem_filter, Bool.not_eq_true', List.contains_eq_mem, decide_eq_false_iff_not]
  refine and_congr_right fun hm => ?_
  rw [hdropped hm]
  grind

theorem dropLog_eq (t : Thread) (mask : Word) : t.dropLog mask = { t with outs := (t.dropLog mask).outs } := rfl

/-! ### The boundary (20 R384, R388; 14 R294) -/

/-- At a boundary the trap of a logged fault is taken, once every other access has completed or faulted. -/
theorem loggedFaultTrap_spec (s : State) :
    let x := s.atSlot s.input.slot
    (x.atBoundary = false ∨ x.thr.loggedFault = none → exec .loggedFaultTrap s = .next s)
    ∧ ∀ tr, x.atBoundary = true → x.thr.loggedFault = some tr →
        exec .loggedFaultTrap s = .next (if x.thr.openOuts.isEmpty then x.atNext.enterTrap tr else s) := by
  change (_ → execLoggedFaultTrap s = _) ∧ ∀ tr, _ → _ → execLoggedFaultTrap s = _
  refine ⟨fun h => slotEvent_of_none ?_, fun tr hb hl => ?_⟩
  · rcases h with h | h <;> simp [State.loggedTrap, h]
  · split
    · next ho => exact slotEvent_of_some (by simp [State.loggedTrap, hb, hl, ho])
    · next ho => exact slotEvent_of_none (by simp [State.loggedTrap, hl, ho])

/-- At a boundary a pending LATE is taken in user mode, where no logged fault is, once no access is open. -/
theorem lateTrap_spec (s : State) :
    let x := s.atSlot s.input.slot
    (x.atBoundary = false ∨ x.thr.latePending = false ∨ x.thr.priv = true → exec .lateTrap s = .next s)
    ∧ (x.atBoundary = true → x.thr.loggedFault = none → x.thr.latePending = true → x.thr.priv = false →
        exec .lateTrap s = .next (if x.thr.openOuts.isEmpty then x.atNext.enterTrap ⟨0x0303, 0, 0⟩ else s)) := by
  change (_ → execLateTrap s = _) ∧ (_ → _ → _ → _ → execLateTrap s = _)
  refine ⟨fun h => slotEvent_of_none ?_, fun hb hl hp hu => ?_⟩
  · rcases h with h | h | h <;> simp [State.lateTrap, h]
  · split
    · next ho => exact slotEvent_of_some (by simp [State.lateTrap, hb, hl, hp, hu, ho])
    · next ho => exact slotEvent_of_none (by simp [ho])

/-- A fault that no instruction has retired past goes before all else of the boundary. -/
theorem boundary_of_unlogged {x : State} {o : Out} (hr : x.thr.reissuing = false) (hg : x.thr.granted = none)
    (hu : x.thr.unlogged = some o) : x.boundary = some (x.unlog o) := by
  simp [State.boundary, hr, hg, hu]

theorem unlogged_eq_some {th : Thread} {a b : List Out} {o : Out} (hs : th.outs = a ++ o :: b) (hf : o.faulted.isSome = true)
    (hl : o.logged = false) (hp : o.priv = th.priv) (ha : ∀ p ∈ a, p.priv = th.priv → p.faulted = none ∨ p.logged = true) :
    th.unlogged = some o := by
  unfold Thread.unlogged
  rw [hs]
  refine find?_append_cons (fun p hm => ?_) (by simp [hf, hl, hp])
  by_cases hq : p.priv = th.priv
  · rcases ha p hm hq with h | h <;> simp [h]
  · simp [hq]

/-! ### A wait that has lasted its limit (17 R363) -/

/-- Each access held back stands in its place with its number and its fault. -/
theorem foldl_blocked_mem (g : List Out → Out → Bool) (outs acc : List Out) (o : Out) (h : o ∈ acc ∨ o ∈ outs) :
    ∃ p ∈ outs.foldl (fun l u => l ++ [{ u with blocked := g l u }]) acc, p.no = o.no ∧ p.faulted = o.faulted := by
  induction outs generalizing acc o with
  | nil => exact ⟨o, by simpa using h, rfl, rfl⟩
  | cons u r ih =>
    rcases h with h | h
    · exact ih _ o (.inl (List.mem_append_left _ h))
    · rcases List.mem_cons.mp h with rfl | h
      · exact ih (acc ++ [{ o with blocked := g acc o }]) { o with blocked := g acc o } (.inl (by simp))
      · exact ih _ o (.inr h)

/-- An access that meets a trap keeps its entry, with the trap, and stands in no queue. -/
theorem failOut_spec (s : State) {o : Out} (t : Trap) (h : o ∈ s.thr.outs) :
    (s.failOut o t).thr.pc = s.thr.pc ∧ (s.failOut o t).thr.x = s.thr.x
    ∧ (∃ p ∈ (s.failOut o t).thr.outs, p.no = o.no ∧ p.faulted = some t)
    ∧ ∀ w ∈ (s.failOut o t).feq, ¬ (w.slot = s.cur.toNat ∧ w.out = o.no) := by
  refine ⟨rfl, rfl, ?_, fun w hw => ?_⟩
  · exact foldl_blocked_mem _ _ [] { o with faulted := some t } (.inr (List.mem_map.mpr ⟨o, h, if_pos rfl⟩))
  · have hw := (List.mem_filter.mp hw).2
    rintro ⟨hs, ho⟩
    simp [hs, ho] at hw

/-- FE_TIMEOUT of a long access that waits in the queue of a word, outside a re-issue: it faults there. -/
theorem feTimeout_of_waitingOut {s x : State} {o : Out} (hx : s.atSlot s.input.slot = x) (hf : x.thr.fewait ≠ 0)
    (hp : x.thr.phase = .running) (ho : x.waitingOut = some o) (hr : x.thr.reissuing = false) :
    exec .feTimeout s = .next (({ x with
      feq := x.feq.filter fun w => w.slot ≠ x.cur.toNat || w.out ≠ o.no } : State).failOut o ⟨0x0301, o.ea, 0⟩) := by
  change execFeTimeout s = _
  refine slotEvent_of_some ?_
  simp only [hx, hp, ho, hr, State.meetsTrap]
  simpa using hf

/-- FE_TIMEOUT of a form that waits at issue. -/
theorem feTimeout_of_awaited {s x : State} {a : Word} (hx : s.atSlot s.input.slot = x) (hf : x.thr.fewait ≠ 0)
    (hp : x.thr.phase = .running) (ho : x.waitingOut = none) (hg : x.thr.granted = none) (ht : x.thr.trapDue = none)
    (ha : x.awaited = some a) : exec .feTimeout s = .next (x.takeTrap ⟨0x0301, a, 0⟩) := by
  change execFeTimeout s = _
  refine slotEvent_of_some ?_
  simpa [hx, hp, ho, hg, ht, ha] using hf

/-- With a FEWAIT of 0 no wait ends. -/
theorem feTimeout_of_noLimit {s : State} (hf : (s.atSlot s.input.slot).thr.fewait = 0) : exec .feTimeout s = .next s := by
  change execFeTimeout s = _
  exact slotEvent_of_none (by simp [hf])

/-- What does not decode traps (02 R35, R43). -/
theorem illegalEncoding_eq (s : State) : exec .illegalEncoding s = .next (s.takeTrap (match s.parcelAt s.thr.pc with
    | none => ⟨0x0004, s.thr.pc, 0⟩
    | some p => if p.extractLsb' 0 2 = 3 then ⟨0x0001, 0, 0⟩ else ⟨0x0002, 0, 0⟩)) := rfl

/-- A tagged form waits on the word that it names, a JOIN on its record. -/
theorem awaited_eq_some {x : State} {i : Instr} {a : Word} (hi : x.fetch = .instr i)
    (h : (∃ fn f, i.form = .m 0x30 fn f ∧ a = x.ea f ∧ ∃ w ∈ x.feq, w.slot = x.cur.toNat ∧ w.out = 0)
      ∨ ∃ f, i.form = .b 0x40 4 f ∧ a = x.X f.xa ∧ x.thr.waiting = true) : x.awaited = some a := by
  unfold State.awaited
  rcases h with ⟨fn, f, hform, rfl, w, hw, hs, ho⟩ | ⟨f, hform, rfl, hw⟩
  · simp only [hi, hform]
    exact if_pos (List.any_eq_true.mpr ⟨w, hw, by simp [hs, ho]⟩)
  · simp only [hi, hform, hw, if_true]

/-! ### Packets (14 R293-R295) -/

theorem behind_iff (s : State) (f : Flight) : s.behind f = true
    ↔ ∃ g ∈ s.flights, g.no < f.no ∧ g.packet.network = f.packet.network ∧ g.src = f.src ∧ g.packet.dest = f.packet.dest := by
  simp [State.behind, List.any_eq_true, and_assoc]

/-- The destination belongs to another partition (14 R295). -/
theorem isOther_iff (s : State) (f : Flight) : (s.destPart f.packet.dest).any (· ≠ f.part) = true
    ↔ ∃ q, s.destPart f.packet.dest = some q ∧ q ≠ f.part := by
  cases s.destPart f.packet.dest <;> simp

/-- How late a packet is, in units of 1,024 network cycles, modulo 2^16 (14 R293). -/
theorem late_toNat (s : State) (d : BitVec 16) :
    (s.now16 - d).toNat = ((s.netCycles / 1024) % 65536 + 65536 - d.toNat) % 65536 := by
  have hd := d.isLt
  rw [BitVec.toNat_sub, State.now16, BitVec.toNat_ofNat]
  omega

theorem satInc_toNat (v : BitVec 32) : (satInc v).toNat = min (v.toNat + 1) 0xFFFFFFFF := by
  have hv := v.isLt
  unfold satInc
  split
  · next h =>
    rw [h]
    rfl
  · next h =>
    have hne : v.toNat ≠ 0xFFFFFFFF := fun he => h (BitVec.eq_of_toNat_eq he)
    rw [BitVec.toNat_add, show (1 : BitVec 32).toNat = 1 from rfl]
    omega

theorem maxlate_toNat (a b : BitVec 16) : (if a < b then b else a).toNat = max a.toNat b.toNat := by
  split
  · next h => exact (max_eq_right (Nat.le_of_lt h)).symm
  · next h => exact (max_eq_left (Nat.le_of_not_lt h)).symm

/-- The thread read back where it was replaced, and the others as they were. -/
theorem thread_setThread (s : State) (k i : SlotNo) (t : Thread) : (s.setThread k t).thread i = if i = k then t else s.thread i := by
  by_cases hk : k = s.cur
  · subst hk
    rw [setThread_same]
    by_cases hi : i = s.cur <;> simp [State.thread, State.withThr, hi]
  · rw [setThread_of_ne hk]
    by_cases hi : i = s.cur
    · rw [if_neg fun h : i = k => hk (h ▸ hi)]
      simp [State.thread, hi]
    · simp only [State.thread, hi, if_false, NMap.get_put]
      simp [BitVec.toNat_inj]

/-- A packet that is not late when it lands changes nothing. -/
theorem landed_of_early {s : State} {f : Flight} (h : f.deadline = 0 ∨ s.now16 - f.deadline = 0 ∨ 32768 ≤ (s.now16 - f.deadline).toNat) :
    s.landed f = s := by
  refine if_neg fun ⟨hd, hz, hl⟩ => ?_
  rcases h with h | h | h
  · exact hd h
  · exact hz h
  · omega

/-- A late packet is counted by the thread of its item, and no other thread changes. -/
theorem landed_of_late {s : State} {f : Flight} {j : SlotNo} (hd : f.deadline ≠ 0) (hz : s.now16 - f.deadline ≠ 0)
    (hl : (s.now16 - f.deadline).toNat < 32768) (hj : s.slotOfUid f.uid = some j) :
    (∀ i, (s.landed f).thread i = if i = j then (s.thread j).late (s.now16 - f.deadline) else s.thread i)
    ∧ s.landed f = { s with thr := (s.landed f).thr, slots := (s.landed f).slots, events := (s.landed f).events } := by
  have h : s.landed f = (s.setThread j ((s.thread j).late (s.now16 - f.deadline))).emitSlot j 0x13 (s.now16 - f.deadline).toNat := by
    unfold State.landed
    simp only [hj]
    exact if_pos ⟨hd, hz, hl⟩
  obtain ⟨ev, hev⟩ := emitSlot_frame (s.setThread j ((s.thread j).late (s.now16 - f.deadline))) j 0x13 (s.now16 - f.deadline).toNat
  rw [h, hev]
  refine ⟨fun i => thread_setThread s j i _, ?_⟩
  unfold State.setThread
  split <;> rfl

/-- The state without a packet that has reached its last router. -/
def State.without (s : State) (no : Nat) : State := { s with flights := s.flights.filter fun g => g.no ≠ no }

@[simp] theorem without_input (s : State) (no : Nat) : (s.without no).input = s.input := rfl
theorem without_destPart (s : State) (no : Nat) (d : PacketDest) : (s.without no).destPart d = s.destPart d := rfl
theorem without_now16 (s : State) (no : Nat) : (s.without no).now16 = s.now16 := rfl
theorem without_slotOfUid (s : State) (no uid : Nat) : (s.without no).slotOfUid uid = s.slotOfUid uid := rfl
theorem without_thread (s : State) (no : Nat) (k : SlotNo) : (s.without no).thread k = s.thread k := rfl

/-- No packet of that number is on its way: a thread sends one. -/
theorem packetArrival_of_send {s : State} {p : Packet} (hp : s.input.payload = .packet p)
    (hf : s.flights.find? (fun g => g.no = s.input.unit) = none) :
    exec .packetArrival s = .next (if s.input.unit = 0 ∧ (s.thread p.slot).phase ≠ .idle then
      s.send p (.cluster (BitVec.ofNat 8 (slotCluster p.slot))) (s.thread p.slot).src.uid (s.thread p.slot).part (s.thread p.slot).deadline
      else s) := by
  change execPacketArrival s = _
  unfold execPacketArrival
  rw [event_next]
  simp only [hp, hf]
  by_cases h : s.input.unit = 0 ∧ (s.thread p.slot).phase ≠ .idle
  · simp [h]
  · rw [if_neg h, if_pos (by simpa using Classical.not_and_iff_not_or_not.mp h)]
    rfl

/-- What a packet that is on its way makes of the state when it reaches its last router. -/
def State.arrive (s : State) (f : Flight) : State :=
  if (s.destPart f.packet.dest).any (· ≠ f.part) then
    { s with isolation := NMap.put 0 s.isolation (networkNo f.packet.network * 256 + f.packet.router.toNat)
                            (NMap.get 0 s.isolation (networkNo f.packet.network * 256 + f.packet.router.toNat) + 1) }
  else match s.input.payload with
    | .packet p => (s.landed f).send { p with slot := f.packet.slot } f.packet.dest f.uid f.part f.deadline
    | _ => s.landed f

theorem packetArrival_of_flight {s : State} {f : Flight} (hf : s.flights.find? (fun g => g.no = s.input.unit) = some f) :
    exec .packetArrival s = .next (if s.behind f then s else (s.without s.input.unit).arrive f) := by
  change execPacketArrival s = _
  unfold execPacketArrival
  rw [event_next]
  simp only [hf]
  split
  · rfl
  · unfold State.arrive
    split
    · next h => exact congrArg Host.Outcome.next (if_pos h).symm
    · next h =>
      refine congrArg Host.Outcome.next (Eq.trans ?_ (if_neg h).symm)
      rw [without_input]
      cases s.input.payload <;> rfl

/-! ### Register writes as events (09 R205) -/

/-- A word's low bits cut in three. -/
theorem extractLsb'_append_append {w : Nat} (v : BitVec w) (a b c : Nat) :
    v.extractLsb' (a + b) c ++ v.extractLsb' a b ++ v.extractLsb' 0 a = v.extractLsb' 0 (c + b + a) := by
  rw [BitVec.extractLsb'_append_extractLsb'_eq_extractLsb' rfl,
    BitVec.extractLsb'_append_extractLsb'_eq_extractLsb' (Nat.zero_add a).symm]

/-- TVEC's writable bits (20 R385). -/
theorem tvecMask_eq (v : Word) : v.setWidth 48 &&& 0xFFFFFFFFFFFC = v.extractLsb' 2 46 ++ 0#2 := by
  have hv : v.setWidth 48 = v.extractLsb' 2 46 ++ v.extractLsb' 0 2 := by
    rw [BitVec.extractLsb'_append_extractLsb'_eq_extractLsb' (Nat.zero_add 2).symm, BitVec.setWidth_eq_extractLsb' (by decide)]
  rw [hv, show (0xFFFFFFFFFFFC : BitVec 48) = BitVec.allOnes 46 ++ 0#2 from rfl, BitVec.and_append, BitVec.and_allOnes, BitVec.and_zero]

/-- BP's writable bits (23 R439). -/
theorem bpMask_eq (v : Word) : bpMask v = v.extractLsb' 2 46 ++ 0#1 ++ v.extractLsb' 0 1 := by
  have hv : v.setWidth 48 = v.extractLsb' 2 46 ++ v.extractLsb' 1 1 ++ v.extractLsb' 0 1 :=
    (BitVec.setWidth_eq_extractLsb' (by decide)).trans (extractLsb'_append_append v 1 1 46).symm
  rw [bpMask, hv, show (0xFFFFFFFFFFFD : BitVec 48) = BitVec.allOnes 46 ++ 0#1 ++ BitVec.allOnes 1 from rfl, BitVec.and_append,
    BitVec.and_append, BitVec.and_allOnes, BitVec.and_allOnes, BitVec.and_zero]

/-- WATCHC's writable bits (23 R439). -/
theorem watchcMask_eq (v : Word) : watchcMask v = v.extractLsb' 61 3 ++ 0#57 ++ v.extractLsb' 0 4 := by
  have hv : v = v.extractLsb' 61 3 ++ v.extractLsb' 4 57 ++ v.extractLsb' 0 4 :=
    (BitVec.setWidth_eq v).symm.trans
      ((BitVec.setWidth_eq_extractLsb' (by decide)).trans (extractLsb'_append_append v 4 57 3).symm)
  calc watchcMask v
    _ = (v.extractLsb' 61 3 ++ v.extractLsb' 4 57 ++ v.extractLsb' 0 4) &&& (BitVec.allOnes 3 ++ 0#57 ++ BitVec.allOnes 4) :=
        congrArg (· &&& _) hv
    _ = v.extractLsb' 61 3 ++ 0#57 ++ v.extractLsb' 0 4 := by
        rw [BitVec.and_append, BitVec.and_append, BitVec.and_allOnes, BitVec.and_allOnes, BitVec.and_zero]

theorem latecntWrite_eq (s : State) : exec .latecntWrite s = .next ((s.atSlot s.input.slot).withThr
    ((s.atSlot s.input.slot).thr.setLatecnt (s.input.value.setWidth 64))) := by
  change execLatecntWrite s = _
  exact slotEvent_of_some (by simp [Input.word])

theorem opldrop_eq (s : State) : exec .opldrop s = .next ((s.atSlot s.input.slot).withThr
    ((s.atSlot s.input.slot).thr.dropLog (s.input.value.setWidth 64))) := by
  change execOpldrop s = _
  exact slotEvent_of_some (by simp [Input.word])

/-- A register that can be written, other than TLBINV and PTBASE, takes the event's value. -/
theorem registerWrite_eq {s : State} {a : Access} (h : sysAccess s.input.unit = some a) :
    (a.write = false → exec .registerWrite s = .next s)
    ∧ (a.write = true → s.input.unit ≠ 0x240 → s.input.unit ≠ 0x241 →
        exec .registerWrite s = .next ((s.atSlot s.input.slot).withThr
          ((s.atSlot s.input.slot).thr.sysSet s.input.unit (s.input.value.setWidth 64)))) := by
  change (_ → execRegisterWrite s = _) ∧ (_ → _ → _ → execRegisterWrite s = _)
  refine ⟨fun hw => slotEvent_of_none ?_, fun hw h0 h1 => slotEvent_of_some ?_⟩
  · simp [h, hw]
  · simp [h, hw, State.sysWrite, h0, h1, Res.toOption, Input.word]

/-- A packet for another partition is dropped, and its router counts it (14 R295). -/
theorem arrive_of_other {s : State} {f : Flight} (h : ∃ q, s.destPart f.packet.dest = some q ∧ q ≠ f.part) :
    s.arrive f = { s with isolation := NMap.put 0 s.isolation (networkNo f.packet.network * 256 + f.packet.router.toNat)
                            (NMap.get 0 s.isolation (networkNo f.packet.network * 256 + f.packet.router.toNat) + 1) } :=
  if_pos ((isOther_iff s f).mpr h)

/-- A packet for its own partition lands; one of the payload is the response to it. -/
theorem arrive_of_own {s : State} {f : Flight} (h : ¬ ∃ q, s.destPart f.packet.dest = some q ∧ q ≠ f.part) :
    (s.input.payload = .none → s.arrive f = s.landed f)
    ∧ ∀ p, s.input.payload = .packet p →
        s.arrive f = (s.landed f).send { p with slot := f.packet.slot } f.packet.dest f.uid f.part f.deadline := by
  have hn := mt (isOther_iff s f).mp h
  refine ⟨fun hp => (if_neg hn).trans ?_, fun p hp => (if_neg hn).trans ?_⟩ <;> rw [hp]

/-- What an event's register write does: the register takes the value, where the map lets it be written. -/
theorem registerWrite_sysSet {s : State} {n : Nat} {a : Access} (ha : sysAccess n = some a) (hw : a.write = true) (h0 : n ≠ 0x240)
    (h1 : n ≠ 0x241) (hn : s.input.unit = n) : exec .registerWrite s = .next ((s.atSlot s.input.slot).withThr
      ((s.atSlot s.input.slot).thr.sysSet n (s.input.value.setWidth 64))) := by
  subst hn
  exact (registerWrite_eq ha).2 hw h0 h1

/-- Of the registers 0x202 to 0x227, of those below 8 and of the walker's none can be written (09 R206, R207). -/
theorem write_of_readOnly {n : Nat} {a : Access} (h : n ≤ 7 ∨ 0x202 ≤ n ∧ n ≤ 0x227 ∨ 0x400 ≤ n ∧ n ≤ 0x4FF)
    (ha : sysAccess n = some a) : a.write = false := by
  unfold sysAccess at ha
  rcases h with h | ⟨hl, hu⟩ | ⟨hl, hu⟩ <;> simp (disch := omega) only [if_pos, if_neg] at ha
  · cases ha
    rfl
  · split at ha
    · cases ha
      rfl
    · split at ha
      · cases ha
        rfl
      · cases ha
  · split at ha
    · cases ha
      rfl
    · split at ha
      · cases ha
        rfl
      · cases ha

theorem registerWrite_of_readOnly {s : State} (h : s.input.unit ≤ 7 ∨ 0x202 ≤ s.input.unit ∧ s.input.unit ≤ 0x227
    ∨ 0x400 ≤ s.input.unit ∧ s.input.unit ≤ 0x4FF) : exec .registerWrite s = .next s := by
  cases ha : sysAccess s.input.unit with
  | some a => exact (registerWrite_eq ha).1 (write_of_readOnly h ha)
  | none =>
    change execRegisterWrite s = _
    exact slotEvent_of_none (by simp [ha])

/-- PTBASE takes its ROOT (04 R95). -/
theorem registerWrite_ptbase {s : State} (h : s.input.unit = 0x240) : exec .registerWrite s = .next ((s.atSlot s.input.slot).withThr
    { (s.atSlot s.input.slot).thr with root := (s.input.value.setWidth 64).extractLsb' 12 44 }) := by
  change execRegisterWrite s = _
  refine slotEvent_of_some ?_
  simp [h, sysAccess, Access.prw, State.sysWrite, Res.toOption, Input.word, Thread.setPtbase]

theorem sysAccess_ubank (n : Fin 8) : sysAccess (0x230 + n) = some .prw := by
  decide +revert
theorem sysAccess_debug (n : Fin 4) : sysAccess (0x510 + n) = some .prw ∧ sysAccess (0x518 + n) = some .prw
    ∧ sysAccess (0x520 + n) = some .prw := by
  decide +revert

theorem setIfInBounds_eq_set {α : Type} {n i : Nat} (v : Vector α n) (x : α) (h : i < n) : v.setIfInBounds i x = v.set i x h :=
  Vector.ext fun j hj => by rw [Vector.getElem_setIfInBounds, Vector.getElem_set]

section
variable (t : Thread) (v : Word)

theorem sysSet_stkbase : t.sysSet 0x100 v = { t with stkbase := v.extractLsb' 0 48 } := by
  simp [Thread.sysSet, BitVec.setWidth_eq_extractLsb']
theorem sysSet_stklim : t.sysSet 0x101 v = { t with stklim := v.extractLsb' 0 48 } := by
  simp [Thread.sysSet, BitVec.setWidth_eq_extractLsb']
theorem sysSet_fewait : t.sysSet 0x102 v = { t with fewait := v.extractLsb' 0 32 } := by
  simp [Thread.sysSet, BitVec.setWidth_eq_extractLsb']
theorem sysSet_deadline : t.sysSet 0x103 v = { t with deadline := v.extractLsb' 0 16 } := by
  simp [Thread.sysSet, BitVec.setWidth_eq_extractLsb']
theorem sysSet_tvec : t.sysSet 0x200 v = { t with tvec := v.extractLsb' 2 46 ++ 0#2 } := by
  rw [← tvecMask_eq]
  rfl
theorem sysSet_epc : t.sysSet 0x201 v = { t with epc := v.extractLsb' 0 48 } := by
  simp [Thread.sysSet, BitVec.setWidth_eq_extractLsb']
theorem sysSet_drainbud : t.sysSet 0x229 v = { t with drainbud := v.extractLsb' 0 32 } := by
  simp [Thread.sysSet, BitVec.setWidth_eq_extractLsb']
theorem sysSet_ubank (n : Fin 8) : t.sysSet (0x230 + n) v = { t with x := t.x.set (56 + n.val) v } := by
  rw [← setIfInBounds_eq_set, Nat.add_comm 56]
  simp (disch := omega) only [Thread.sysSet, if_pos, if_neg, Nat.add_sub_cancel_left]
theorem sysSet_latecnt : t.sysSet 0x304 v = { t with ltrap := v.getLsbD 63, maxlate := 0, latecnt := 0 } := rfl
theorem sysSet_watchA (n : Fin 4) : t.sysSet (0x510 + n) v = { t with watchA := t.watchA.set n v } := by
  rw [← setIfInBounds_eq_set]
  simp (disch := omega) only [Thread.sysSet, if_pos, if_neg, Nat.add_sub_cancel_left]
theorem sysSet_watchC (n : Fin 4) :
    t.sysSet (0x518 + n) v = { t with watchC := t.watchC.set n (v.extractLsb' 61 3 ++ 0#57 ++ v.extractLsb' 0 4) } := by
  rw [← setIfInBounds_eq_set, ← watchcMask_eq]
  simp (disch := omega) only [Thread.sysSet, if_pos, if_neg, Nat.add_sub_cancel_left]
theorem sysSet_bp (n : Fin 4) :
    t.sysSet (0x520 + n) v = { t with bp := t.bp.set n (v.extractLsb' 2 46 ++ 0#1 ++ v.extractLsb' 0 1) } := by
  rw [← setIfInBounds_eq_set, ← bpMask_eq]
  simp (disch := omega) only [Thread.sysSet, if_pos, if_neg, Nat.add_sub_cancel_left]
end

/-! ### The obligation -/

/-- A packet on its way reaches its last router: behind another it does not yet, to another partition it is dropped and counted, early it
changes nothing and late it is counted (14 R294, R295). -/
theorem packetArrival_spec {s : State} {f : Flight} (hf : s.flights.find? (fun g => g.no = s.input.unit) = some f) :
    let late := ((s.netCycles / 1024) % 65536 + 65536 - f.deadline.toNat) % 65536
    let early := ∃ g ∈ s.flights, g.no < f.no ∧ g.packet.network = f.packet.network ∧ g.src = f.src ∧ g.packet.dest = f.packet.dest
    let other := ∃ q, s.destPart f.packet.dest = some q ∧ q ≠ f.part
    let away := s.without s.input.unit
    (early → exec .packetArrival s = .next s)
    ∧ (¬ early → other → exec .packetArrival s = .next { away with
        isolation := NMap.put 0 s.isolation (networkNo f.packet.network * 256 + f.packet.router.toNat)
                       (NMap.get 0 s.isolation (networkNo f.packet.network * 256 + f.packet.router.toNat) + 1) })
    ∧ (¬ early → ¬ other → (s.input.payload = .none → exec .packetArrival s = .next (away.landed f))
        ∧ ∀ p, s.input.payload = .packet p → exec .packetArrival s
            = .next ((away.landed f).send { p with slot := f.packet.slot } f.packet.dest f.uid f.part f.deadline))
    ∧ (f.deadline = 0 ∨ late = 0 ∨ 32768 ≤ late → away.landed f = away) := by
  intro late early other away
  rw [packetArrival_of_flight hf]
  have hlate : (away.now16 - f.deadline).toNat = late := late_toNat s f.deadline
  refine ⟨fun he => ?_, fun he ho => ?_, fun he ho => ?_, fun h => landed_of_early (h.imp_right (Or.imp (fun h => ?_) fun h => ?_))⟩
  · rw [if_pos ((behind_iff s f).mpr he)]
  · rw [if_neg (mt (behind_iff s f).mp he)]
    exact congrArg _ (arrive_of_other (s := away) ho)
  · rw [if_neg (mt (behind_iff s f).mp he)]
    obtain ⟨hnone, hpacket⟩ := arrive_of_own (s := away) ho
    exact ⟨fun hp => congrArg _ (hnone hp), fun p hp => congrArg _ (hpacket p hp)⟩
  · exact BitVec.eq_of_toNat_eq (hlate.trans h)
  · rw [hlate]
    exact h

/-- Settles O50: the traps of a boundary, of an expired wait and of what does not decode; packets; register writes. -/
theorem trapsAndPackets : Obligations.TrapsAndPackets := by
  constructor
  · intro s x th
    refine ⟨fun hb => ?_, fun hb => ⟨fun hn => ?_, fun a o b tr hs hf hp ha => ?_, fun hn hl hu => ?_, fun h => ?_⟩,
      fun a o b tr hs hf hl hp hn ha hr hg => ?_, fun hp hf => ⟨fun o ho hr => ?_, fun ho hg ht i a hi hw => ?_⟩,
      fun hf => ?_, fun hp => ?_, fun p hp => ?_⟩
    · exact ⟨(loggedFaultTrap_spec s).1 (.inl hb), (lateTrap_spec s).1 (.inl hb)⟩
    · exact (loggedFaultTrap_spec s).1 (.inr (loggedFault_eq_none hn))
    · exact (loggedFaultTrap_spec s).2 tr hb (loggedFault_eq_some hs hf hp ha)
    · exact (lateTrap_spec s).2 hb (loggedFault_eq_none hn) hl hu
    · exact (lateTrap_spec s).1 (.inr h)
    · rw [boundary_of_unlogged hr hg (unlogged_eq_some hs (by rw [hf]; rfl) hl hp ha)]
      have houts : x.thr.outs.filter (fun u => u.no ≠ o.no) = a ++ b := (congrArg _ hs).trans (filter_no_ne (hs ▸ hn))
      simp only [State.unlog, hf, houts]
      rfl
    · exact ⟨_, feTimeout_of_waitingOut rfl hf hp ho hr, failOut_spec _ _ (List.mem_of_find?_eq_some ho)⟩
    · exact feTimeout_of_awaited rfl hf hp ho hg ht (awaited_eq_some hi hw)
    · exact feTimeout_of_noLimit hf
    · exact (illegalEncoding_eq s).trans (by rw [hp])
    · exact (illegalEncoding_eq s).trans (by rw [hp])
  · intro s x th v writes drops no away sent
    have write {n : Nat} {a : Access} {t : Thread} (ha : sysAccess n = some a) (hw : a.write = true) (h0 : n ≠ 0x240) (h1 : n ≠ 0x241)
        (ht : th.sysSet n v = t) : writes n t := fun hn => ht ▸ registerWrite_sysSet ha hw h0 h1 hn
    have hdrop {i : Instr} (h : exec i s = .next (x.withThr (th.dropLog v))) : drops i :=
      ⟨_, h.trans (by rw [dropLog_eq]), fun hn o => mem_dropLog_outs v hn o⟩
    refine ⟨fun p hp hf => packetArrival_of_send hp hf, fun f hf => ?_, ?_⟩
    · intro nets k late other early
      obtain ⟨hbehind, hother, hown, hearly⟩ := packetArrival_spec hf
      refine ⟨hbehind, fun he ho => ⟨_, hother he ho, rfl, NMap.get_put_same .., fun j hj => NMap.get_put_other _ _ _ hj⟩,
        fun he ho hl => ?_, fun he ho hd h1 h2 hp j hj => ?_⟩
      · obtain ⟨hnone, hpacket⟩ := hown he ho
        rw [hearly hl] at hnone hpacket
        exact ⟨hnone, hpacket⟩
      · intro u
        have hlate : ((s.without no).now16 - f.deadline).toNat = late := late_toNat s f.deadline
        obtain ⟨hthread, hframe⟩ := landed_of_late (s := s.without no) hd (fun hz => Nat.ne_of_gt h1 (hlate.symm.trans (congrArg BitVec.toNat hz)))
          (by rw [hlate]; omega) hj
        refine ⟨_, (hown he ho).1 hp, ?_, fun i hi => (hthread i).trans (if_neg hi), hframe⟩
        rintro w rfl
        rw [hthread j, if_pos rfl]
        refine ⟨satInc_toNat _, (maxlate_toNat _ _).trans (by rw [hlate]; rfl), rfl, rfl, rfl⟩
    · refine ⟨latecntWrite_eq s, hdrop (opldrop_eq s), fun hn => hdrop (registerWrite_sysSet (n := 0x228) rfl rfl (by decide) (by decide) hn),
        write rfl rfl (by decide) (by decide) (sysSet_stkbase _ _), write rfl rfl (by decide) (by decide) (sysSet_stklim _ _),
        write rfl rfl (by decide) (by decide) (sysSet_fewait _ _), write rfl rfl (by decide) (by decide) (sysSet_deadline _ _),
        write rfl rfl (by decide) (by decide) (sysSet_tvec _ _), write rfl rfl (by decide) (by decide) (sysSet_epc _ _),
        write rfl rfl (by decide) (by decide) (sysSet_drainbud _ _), fun n => ?_, fun hn => ?_,
        write rfl rfl (by decide) (by decide) (sysSet_latecnt _ _), fun n => ?_, fun n => ?_, fun n => ?_, fun hn => ?_⟩
      · exact write (sysAccess_ubank n) rfl (by omega) (by omega) (sysSet_ubank _ _ n)
      · exact registerWrite_ptbase hn
      · exact write (sysAccess_debug n).1 rfl (by omega) (by omega) (sysSet_watchA _ _ n)
      · exact write (sysAccess_debug n).2.1 rfl (by omega) (by omega) (sysSet_watchC _ _ n)
      · exact write (sysAccess_debug n).2.2 rfl (by omega) (by omega) (sysSet_bp _ _ n)
      · exact registerWrite_of_readOnly hn
end Sys2Proof.Machine
end

section
/-!
PROOFS. Main memory keeps its canonical form (04 R77-R90): the rules for results, and the operations that instructions share.
-/
namespace Sys2Proof.Machine
open Std.Do
set_option mvcgen.warning false

/-! ### Results -/

/-- A state that a result leaves waiting has main memory in canonical form. -/
def Stop.Wf : Stop → Prop
  | .wait u => Memory.wf u.mem
  | _ => True

@[simp] theorem Stop.wf_wait (u : State) : (Stop.wait u).Wf ↔ Memory.wf u.mem := Iff.rfl
@[simp] theorem Stop.wf_trap (t : Trap) : (Stop.trap t).Wf := trivial
@[simp] theorem Stop.wf_stop (k : Nat) : (Stop.stop k).Wf := trivial

/-- The state that a result gives, and one that it leaves waiting, have main memory in canonical form. -/
abbrev canon {α : Type} (f : α → State) : PostCond α (.except Stop .pure) := post⟨fun a => ⌜Memory.wf (f a).mem⌝, fun e => ⌜e.Wf⌝⟩
/-- The same of a result that gives no state. -/
abbrev canonWait {α : Type} : PostCond α (.except Stop .pure) := post⟨fun _ => ⌜True⌝, fun e => ⌜e.Wf⌝⟩
/-- The same of a result whose failure leaves no state. -/
abbrev canonOr {ε α : Type} (f : α → State) : PostCond α (.except ε .pure) := post⟨fun a => ⌜Memory.wf (f a).mem⌝, fun _ => ⌜True⌝⟩

section
variable {ε α : Type}

theorem error_spec {Q : PostCond α (.except ε .pure)} (e : ε) : ⦃Q.2.1 e⦄ (Except.error e : Except ε α) ⦃Q⦄ := Triple.iff.mpr fun h => h
theorem ok_spec {Q : PostCond α (.except ε .pure)} (a : α) : ⦃Q.1 a⦄ (Except.ok a : Except ε α) ⦃Q⦄ := Triple.iff.mpr fun h => h
theorem some_spec {Q : PostCond α (.except PUnit .pure)} (a : α) : ⦃Q.1 a⦄ some a ⦃Q⦄ := Triple.iff.mpr fun h => h
theorem none_spec {Q : PostCond α (.except PUnit .pure)} : ⦃Q.2.1 ⟨⟩⦄ (none : Option α) ⦃Q⦄ := Triple.iff.mpr fun h => h
theorem raise_spec {Q : PostCond α (.except Stop .pure)} (c : BitVec 16) (a i : Word) :
    ⦃Q.2.1 (.trap ⟨c, a, i⟩)⦄ (raise c a i : Res α) ⦃Q⦄ := error_spec _

/-- A triple of a result, case by case. -/
theorem except_triple_iff {p : Prop} {Q : PostCond α (.except ε .pure)} {x : Except ε α} :
    ⦃⌜p⌝⦄ x ⦃Q⦄ ↔ (p → (∀ a, x = .ok a → (Q.1 a).down) ∧ ∀ e, x = .error e → (Q.2.1 e).down) := by
  cases x with
  | ok a =>
    exact ⟨fun h hp => ⟨fun b hb => by cases hb; exact Triple.iff.mp h hp, nofun⟩, fun h => Triple.iff.mpr fun hp => (h hp).1 a rfl⟩
  | error e =>
    exact ⟨fun h hp => ⟨nofun, fun b hb => by cases hb; exact Triple.iff.mp h hp⟩, fun h => Triple.iff.mpr fun hp => (h hp).2 e rfl⟩

/-- The same of an optional value. -/
theorem option_triple_iff {p : Prop} {Q : PostCond α (.except PUnit .pure)} {x : Option α} :
    ⦃⌜p⌝⦄ x ⦃Q⦄ ↔ (p → (∀ a, x = some a → (Q.1 a).down) ∧ (x = none → (Q.2.1 ⟨⟩).down)) := by
  cases x with
  | some a =>
    exact ⟨fun h hp => ⟨fun b hb => by cases hb; exact Triple.iff.mp h hp, nofun⟩, fun h => Triple.iff.mpr fun hp => (h hp).1 a rfl⟩
  | none => exact ⟨fun h hp => ⟨nofun, fun _ => Triple.iff.mp h hp⟩, fun h => Triple.iff.mpr fun hp => (h hp).2 rfl⟩

/-- What a result gives, where its triple is known. -/
theorem ok_wf {p : Prop} {x : Except ε α} {f : α → State} {E : ε → Assertion .pure} {a : α} (ha : x = .ok a)
    (hx : ⦃⌜p⌝⦄ x ⦃post⟨fun a => ⌜Memory.wf (f a).mem⌝, E⟩⦄) (hp : p) : Memory.wf (f a).mem :=
  (except_triple_iff.mp hx hp).1 a ha
theorem wait_wf {p : Prop} {x : Res α} {f : α → State} {u : State} (hu : x = .error (.wait u)) (hx : ⦃⌜p⌝⦄ x ⦃canon f⦄) (hp : p) :
    Memory.wf u.mem :=
  (except_triple_iff.mp hx hp).2 _ hu
theorem some_wf {p : Prop} {x : Option α} {f : α → State} {a : α} (ha : x = some a) (hx : ⦃⌜p⌝⦄ x ⦃canonOr f⦄) (hp : p) :
    Memory.wf (f a).mem :=
  (option_triple_iff.mp hx hp).1 a ha

/-- Checks made on each element of a list. -/
theorem forM_keeps {p : Prop} {l : List α} {f : α → Res Unit} (h : ∀ a, ⦃⌜p⌝⦄ f a ⦃canonWait⦄) : ⦃⌜p⌝⦄ l.forM f ⦃canonWait⦄ := by
  induction l with
  | nil => exact Triple.iff.mpr fun _ => trivial
  | cons a r ih =>
    have ha := h a
    have hcons : ⦃⌜p⌝⦄ (do f a; r.forM f) ⦃canonWait⦄ := by mvcgen [ha, ih]
    exact hcons

/-- Values found for each element of a list. -/
theorem mapM_keeps {β : Type} {p : Prop} {l : List α} {f : α → Res β} (h : ∀ a, ⦃⌜p⌝⦄ f a ⦃canonWait⦄) : ⦃⌜p⌝⦄ l.mapM f ⦃canonWait⦄ := by
  induction l with
  | nil => exact Triple.iff.mpr fun _ => trivial
  | cons a r ih =>
    have ha := h a
    simp only [List.mapM_cons]
    mvcgen [ha, ih]
end

theorem need_keeps (c : Prop) [Decidable c] (k : BitVec 16) (a i : Word) : ⦃⌜True⌝⦄ need c k a i ⦃canonWait⦄ := by
  unfold need
  mvcgen [ok_spec, raise_spec]

/-- What ends a long access at its issue is no wait. -/
theorem atIssue_keeps {α : Type} (r : Res α) : ⦃⌜True⌝⦄ atIssue r ⦃canonWait⦄ := by
  unfold atIssue
  mvcgen [ok_spec, error_spec]

/-! ### Parts of the state that are not main memory -/

@[simp] theorem mem_ite (c : Prop) [Decidable c] (s t : State) : (if c then s else t).mem = if c then s.mem else t.mem := apply_ite ..
@[simp] theorem wf_ite (c : Prop) [Decidable c] (l m : List Host.Cell) :
    Memory.wf (if c then l else m) = true ↔ (c → Memory.wf l) ∧ (¬ c → Memory.wf m) := by
  split <;> simp_all

section
variable (s : State)

@[simp] theorem atSlot_mem (k : SlotNo) : (s.atSlot k).mem = s.mem := by unfold State.atSlot; split <;> rfl
@[simp] theorem atEngine_mem (e : BitVec 10) : (s.atEngine e).mem = s.mem := by unfold State.atEngine; split <;> rfl
@[simp] theorem mapUid_mem (uid : Nat) (f : Thread → Thread) : (s.mapUid uid f).mem = s.mem := by
  unfold State.mapUid
  split <;> simp
@[simp] theorem addEnergy_mem (k : SlotNo) (n : Nat) : (s.addEnergy k n).mem = s.mem := by simp [State.addEnergy]
@[simp] theorem setGroup_mem (g : Group) : (s.setGroup g).mem = s.mem := rfl
@[simp] theorem failNow_mem (f : FaultRec) : (s.failNow f).mem = s.mem := rfl
@[simp] theorem setFull_mem (c r w : Nat) (v : Bool) : (s.setFull c r w v).mem = s.mem := by
  unfold State.setFull
  split <;> rfl
@[simp] theorem setP_mem (n : BitVec 3) (v : Bool) : (s.setP n v).mem = s.mem := by unfold State.setP; split <;> rfl
@[simp] theorem tlbInv_mem (cl : Nat) (root : BitVec 44) (vf : BitVec 6) (all dev : Bool) (va : Nat) :
    (s.tlbInv cl root vf all dev va).mem = s.mem := by
  unfold State.tlbInv
  cases dev <;> rfl

@[simp] theorem emit_mem (kind src vf payload : Nat) (st : Option (BitVec 384)) : (s.emit kind src vf payload st).mem = s.mem := by
  obtain ⟨ev, h⟩ := emit_frame s kind src vf payload st
  rw [h]
@[simp] theorem emitItem_mem (kind payload : Nat) : (s.emitItem kind payload).mem = s.mem := by
  obtain ⟨ev, h⟩ := emitItem_frame s kind payload
  rw [h]
@[simp] theorem emitSlot_mem (k : SlotNo) (kind payload : Nat) : (s.emitSlot k kind payload).mem = s.mem := by
  obtain ⟨ev, h⟩ := emitSlot_frame s k kind payload
  rw [h]
@[simp] theorem emitDev_mem (kind src payload : Nat) : (s.emitDev kind src payload).mem = s.mem := by
  unfold State.emitDev
  split <;> simp
@[simp] theorem record_mem (v : Word) : (s.record v).mem = s.mem := by
  unfold State.record
  split <;> simp
@[simp] theorem leaveQueues_mem : s.leaveQueues.mem = s.mem := by
  obtain ⟨cl, q, h⟩ := leaveQueues_frame s
  rw [h]
@[simp] theorem leaveEvery_mem : s.leaveEvery.mem = s.mem := leaveQueues_mem s
@[simp] theorem enterTrap_mem (t : Trap) : (s.enterTrap t).mem = s.mem := by
  obtain ⟨thr, cl, q, ev, h⟩ := enterTrap_frame s t
  rw [h]
@[simp] theorem leaveHandler_mem : s.leaveHandler.mem = s.mem := rfl
@[simp] theorem setCover_mem (bs : List Nat) (v : Nat) : (s.setCover bs v).mem = s.mem := writeElems_mem ..
@[simp] theorem rewound_mem : s.rewound.mem = s.mem := by
  unfold State.rewound
  split
  · split <;> rfl
  · rfl
@[simp] theorem stopDue_mem (r : Nat) : (s.stopDue r).mem = s.mem := rfl
@[simp] theorem stall_mem : s.stall.mem = s.mem := rfl
@[simp] theorem setOp_mem (o : PlaneOp) : (s.setOp o).mem = s.mem := rfl
@[simp] theorem deliver_mem (o : PlaneOp) (v : Word) : (s.deliver o v).mem = s.mem := rfl
@[simp] theorem tick_mem : s.tick.mem = s.mem := rfl

/-! ### Operations on main memory -/

@[simp] theorem putMem_wf {s : State} (h : Memory.wf s.mem) (k : Nat) (key : KeyVal) (v : Byte) : Memory.wf (s.putMem k key v).mem :=
  putMem_memOk s k key v h
@[simp] theorem put_wf {s : State} (h : Memory.wf s.mem) (l : Loc) (slot : Nat) (v : Byte) : Memory.wf (s.put l slot v).mem :=
  put_memOk s l slot v h
@[simp] theorem putBytes_wf {s : State} (h : Memory.wf s.mem) (bs : List SqByte) : Memory.wf (s.putBytes bs).mem := putBytes_memOk s bs h
@[simp] theorem commitLeaf_wf {s : State} (h : Memory.wf s.mem) (cl : Option Nat) (root : BitVec 44) (vf : BitVec 6) (store : Bool)
    (x : XLeaf) : Memory.wf (s.commitLeaf cl root vf store x).mem := commitLeaf_memOk s cl root vf store x h
@[simp] theorem touchCode_wf {s : State} (h : Memory.wf s.mem) (a : Word) : Memory.wf (s.touchCode a).mem := touchCode_memOk s a h
@[simp] theorem touchRange_wf {s : State} (h : Memory.wf s.mem) (a b : Word) : Memory.wf (s.touchRange a b).mem := touchRange_memOk s a b h
@[simp] theorem atNext_wf {s : State} (h : Memory.wf s.mem) : Memory.wf s.atNext.mem := atNext_memOk s h

/-- Canonical memory is kept through a fold whose steps keep it. -/
theorem foldl_wf {α : Type} {f : State → α → State} (hf : ∀ s x, Memory.wf s.mem → Memory.wf (f s x).mem) {s : State}
    (h : Memory.wf s.mem) (l : List α) : Memory.wf (l.foldl f s).mem :=
  foldl_keeps (fun s => Memory.wf s.mem = true) f hf l s h
/-- Main memory is left as it is by a fold whose steps leave it. -/
theorem foldl_mem {α : Type} {f : State → α → State} (hf : ∀ s x, (f s x).mem = s.mem) (l : List α) : (l.foldl f s).mem = s.mem :=
  foldl_keeps (fun t => t.mem = s.mem) f (fun t x ht => (hf t x).trans ht) l s rfl

/-! ### Waits and checks -/

theorem waitFor_keeps (c : Prop) [Decidable c] : ⦃⌜Memory.wf s.mem⌝⦄ s.waitFor c ⦃canonWait⦄ := by
  unfold State.waitFor
  mvcgen [ok_spec, error_spec]
theorem claim_keeps (fps : List Fp) (sc : Bool) : ⦃⌜Memory.wf s.mem⌝⦄ s.claim fps sc ⦃canonWait⦄ := by
  unfold State.claim
  mvcgen [ok_spec, error_spec]
theorem charge_keeps (c T : Nat) : ⦃⌜Memory.wf s.mem⌝⦄ s.charge c T ⦃canon id⦄ := by
  unfold State.charge
  mvcgen [ok_spec, error_spec]
theorem loadWaits_keeps : ⦃⌜Memory.wf s.mem⌝⦄ s.loadWaits ⦃canonWait⦄ := by mvcgen [State.loadWaits, waitFor_keeps]
theorem storeWaits_keeps : ⦃⌜Memory.wf s.mem⌝⦄ s.storeWaits ⦃canonWait⦄ := waitFor_keeps s _
theorem rmwWaits_keeps : ⦃⌜Memory.wf s.mem⌝⦄ s.rmwWaits ⦃canonWait⦄ := by mvcgen [State.rmwWaits, waitFor_keeps, storeWaits_keeps]
theorem storeClaims_keeps (nm : Named) (k : Nat) : ⦃⌜Memory.wf s.mem⌝⦄ s.storeClaims nm k ⦃canonWait⦄ := by
  mvcgen [State.storeClaims, waitFor_keeps, storeWaits_keeps, claim_keeps]
theorem reissueWaits_keeps (o : Out) : ⦃⌜Memory.wf s.mem⌝⦄ s.reissueWaits o ⦃canonWait⦄ := by
  mvcgen [State.reissueWaits, waitFor_keeps, claim_keeps]

theorem plotByte_keeps (a : Word) : ⦃⌜Memory.wf s.mem⌝⦄ s.plotByte a ⦃canonWait⦄ := by
  mvcgen [State.plotByte, error_spec, raise_spec]
theorem placeIn_keeps (g : Option Group) (t : Ten) : ⦃⌜Memory.wf s.mem⌝⦄ s.placeIn g t ⦃canonWait⦄ := by
  unfold State.placeIn
  mvcgen [ok_spec, error_spec, raise_spec]
theorem place_keeps (t : Ten) : ⦃⌜Memory.wf s.mem⌝⦄ s.place t ⦃canonWait⦄ := placeIn_keeps s _ t
theorem placeAs_keeps (gid : Option Nat) (t : Ten) : ⦃⌜Memory.wf s.mem⌝⦄ s.placeAs gid t ⦃canonWait⦄ := placeIn_keeps s _ t
theorem placesOf_keeps (l : List Ten) : ⦃⌜Memory.wf s.mem⌝⦄ s.placesOf l ⦃canonWait⦄ := by
  mvcgen [State.placesOf, need_keeps, forM_keeps, mapM_keeps, place_keeps]
theorem powered_keeps (l : List Ten) : ⦃⌜True⌝⦄ s.powered l ⦃canonWait⦄ := need_keeps _ _ _ _

/-! ### Accesses -/

/-- The checks of an access write A and D bits alone (04 R89, R100). -/
theorem resolveBytes_keeps (w : Want) (ea : Word) (bs : List Word) : ⦃⌜Memory.wf s.mem⌝⦄ s.resolveBytes w ea bs ⦃canon (·.1)⦄ := by
  mvcgen [State.resolveBytes, need_keeps, forM_keeps, mapM_keeps, plotByte_keeps, error_spec, raise_spec]
  all_goals exact foldl_wf (fun _ _ h => commitLeaf_wf h ..) ‹_› _
theorem resolve_keeps (w : Want) (ea : Word) (n : Nat) : ⦃⌜Memory.wf s.mem⌝⦄ s.resolve w ea n ⦃canon (·.1)⦄ := resolveBytes_keeps s w ea _

end
end Sys2Proof.Machine
end

section
/-!
PROOFS. Main memory keeps its canonical form: what an instruction or an event answers, and the accesses of threads and agents.
-/
namespace Sys2Proof.Machine
open Std.Do
set_option mvcgen.warning false

/-! ### Instructions and events -/

/-- A next state is answered, and main memory is in canonical form there if it was in `s`. -/
def State.Keeps (s : State) (o : Host.Outcome State Fault Refusal) : Prop := ∃ t, o = .next t ∧ (Memory.wf s.mem → Memory.wf t.mem)

theorem State.Keeps.next {s t : State} (h : Memory.wf s.mem → Memory.wf t.mem) : s.Keeps (.next t) := ⟨t, rfl, h⟩

/-- Every instruction answers a next state, whatever its effect. -/
theorem issueWith_next (f : Form) (off : State → Done) (body : State → Res Done) (s : State) : ∃ t, issueWith f off body s = .next t := by
  have hite (c : Prop) [Decidable c] (u : State) (o : Host.Outcome State Fault Refusal) (ho : ∃ t, o = .next t) :
      ∃ t, (if c then .next u else o) = Host.Outcome.next t := by
    split
    · exact ⟨u, rfl⟩
    · exact ho
  cases hg : s.gate f <;> simp only [issueWith, hg]
  · refine hite _ _ _ (hite _ _ _ ?_)
    rcases body s with (_ | _ | _) | _ <;> exact ⟨_, rfl⟩
  all_goals exact ⟨_, rfl⟩

section
variable {s : State}

theorem issueWith_keeps {f : Form} {off : State → Done} {body : State → Res Done} (ho : Memory.wf s.mem → Memory.wf (off s).st.mem)
    (hb : ⦃⌜Memory.wf s.mem⌝⦄ body s ⦃canon (·.st)⦄) : s.Keeps (issueWith f off body s) := by
  obtain ⟨t, ht⟩ := issueWith_next f off body s
  refine ⟨t, ht, fun h => ?_⟩
  obtain ⟨hok, herror⟩ := except_triple_iff.mp hb h
  exact issueWith_memOk f off body s t h (ho h) hok (fun u hu => herror _ hu) ht

/-- An instruction whose false guard has no effect. -/
theorem issue_keeps {f : Form} {body : State → Res Done} (hb : ⦃⌜Memory.wf s.mem⌝⦄ body s ⦃canon (·.st)⦄) : s.Keeps (issue f body s) :=
  issueWith_keeps (fun h => h) hb

/-- An effect that always completes and leaves main memory as it is. -/
theorem pureOp_keeps {f : Form} {eff : State → State} (he : Memory.wf s.mem → Memory.wf (eff s).mem) : s.Keeps (pureOp f eff s) :=
  issue_keeps (Triple.iff.mpr he)

theorem event_keeps {f : State → Option State} (hf : ⦃⌜Memory.wf s.mem⌝⦄ f s ⦃canonOr id⦄) : s.Keeps (event f s) := by
  refine ⟨_, event_next f s, fun h => ?_⟩
  obtain ⟨hsome, -⟩ := option_triple_iff.mp hf h
  cases hc : f s with
  | none => exact h
  | some t => exact hsome t hc

/-- An event of a slot, whose thread acts. -/
theorem slotEvent_keeps {f : State → Option State} (hf : ∀ s : State, ⦃⌜Memory.wf s.mem⌝⦄ f s ⦃canonOr id⦄) : s.Keeps (slotEvent f s) :=
  event_keeps (by simpa using hf (s.atSlot s.input.slot))
end

/-! ### Loads and stores -/

section
variable (s : State)

@[simp] theorem setLoaded_mem (signed : Bool) (d : BitVec 6) (n v : Nat) : (s.setLoaded signed d n v).mem = s.mem := by
  unfold State.setLoaded
  split <;> rfl
@[simp] theorem pushOut_mem (o : Out) : (s.pushOut o).mem = s.mem := rfl
@[simp] theorem pushStore_mem (ea : Word) (nm : Named) (bs : List Byte) : (s.pushStore ea nm bs).mem = s.mem := rfl
@[simp] theorem markPending_mem (w : Nat) (us : List Nat) : (s.markPending w us).mem = s.mem := rfl
@[simp] theorem suppress_mem : s.suppress.mem = s.mem := rfl
@[simp] theorem dropOut_mem (no : Nat) : (s.dropOut no).mem = s.mem := rfl
@[simp] theorem failOut_mem (o : Out) (t : Trap) : (s.failOut o t).mem = s.mem := rfl
@[simp] theorem prefixed_mem (o sc : BitVec 3) : (s.prefixed o sc).mem = s.mem := rfl

theorem loadValue_keeps (w : Want) (ea : Word) (n : Nat) : ⦃⌜Memory.wf s.mem⌝⦄ s.loadValue w ea n ⦃canon (·.1)⦄ := by
  mvcgen [State.loadValue, resolve_keeps, claim_keeps]
theorem loadForm_keeps (fn : Nat) (signed : Bool) (f : FM) : s.Keeps (loadForm fn signed f s) := by
  refine issue_keeps ?_
  mvcgen [loadWaits_keeps, loadValue_keeps, atIssue_keeps, claim_keeps, raise_spec]
  all_goals simpa
theorem performLoad_keeps (o : Out) : ⦃⌜Memory.wf s.mem⌝⦄ s.performLoad o ⦃canon id⦄ := by
  mvcgen [State.performLoad, resolve_keeps, raise_spec]
  all_goals simpa
theorem walkStore_keeps (align : Nat) (ea : Word) (bs : List Byte) : ⦃⌜Memory.wf s.mem⌝⦄ s.walkStore align ea bs ⦃canon id⦄ := by
  mvcgen [State.walkStore, need_keeps, resolveBytes_keeps, storeClaims_keeps, raise_spec]
theorem st_keeps (f : FM) : s.Keeps (execSt f s) := by
  refine issue_keeps ?_
  mvcgen [walkStore_keeps, resolve_keeps, storeClaims_keeps]
theorem pref_keeps (f : FM) : s.Keeps (execPref f s) := by
  refine pureOp_keeps fun h => ?_
  dsimp only
  split
  · split
    · exact commitLeaf_wf h ..
    · exact h
  · exact h

/-! ### Tagged words -/

@[simp] theorem grant_mem (x : FeWait) (v : BitVec 32) : (s.grant x v).mem = s.mem := by
  unfold State.grant
  dsimp only
  split
  · simp
  · split <;> simp
@[simp] theorem turnAway_mem (x : FeWait) : (s.turnAway x).mem = s.mem := setThread_mem ..
@[simp] theorem joinQueue_mem (w : FeWait) : (s.joinQueue w).mem = s.mem := by
  unfold State.joinQueue
  split <;> rfl

@[simp] theorem putWord_wf {s : State} (h : Memory.wf s.mem) (c r w : Nat) (v : BitVec 32) : Memory.wf (s.putWord c r w v).mem :=
  putBytes_wf h _
@[simp] theorem serve_wf {s : State} (h : Memory.wf s.mem) (c r w n : Nat) : Memory.wf (s.serve c r w n).mem := by
  induction n generalizing s with
  | zero => exact h
  | succ n ih =>
    unfold State.serve
    dsimp only
    split
    · exact h
    · refine ih ?_
      split
      · simp [h]
      · split
        · split <;> simp [h]
        · simp [h]
@[simp] theorem setTag_wf {s : State} (h : Memory.wf s.mem) (c r w : Nat) (full : Bool) : Memory.wf (s.setTag c r w full).mem :=
  serve_wf (by simpa) ..

theorem tagChecks_keeps (f : FM) (store writes : Bool) : ⦃⌜Memory.wf s.mem⌝⦄ s.tagChecks f store writes ⦃canon (·.1)⦄ := by
  mvcgen [State.tagChecks, loadWaits_keeps, waitFor_keeps, resolve_keeps, claim_keeps]
theorem tagRead_keeps (fn : Nat) (dest : BitVec 6) (out : Nat) (nm : Named) :
    ⦃⌜Memory.wf s.mem⌝⦄ s.tagRead fn dest out nm ⦃canon id⦄ := by
  unfold State.tagRead
  mvcgen [ok_spec, error_spec]
  · split <;> simp_all +zetaDelta
  · simpa
theorem performTag_keeps (o : Out) : ⦃⌜Memory.wf s.mem⌝⦄ s.performTag o ⦃canon id⦄ := by
  mvcgen [State.performTag, resolve_keeps, tagRead_keeps]
theorem tagLoad_keeps (fn : Nat) (f : FM) : s.Keeps (tagLoad fn f s) := by
  refine issue_keeps ?_
  mvcgen [ok_spec, waitFor_keeps, atIssue_keeps, claim_keeps, tagChecks_keeps, tagRead_keeps]
theorem ste_keeps (f : FM) : s.Keeps (execSte f s) := by
  refine issue_keeps ?_
  mvcgen [ok_spec, error_spec, tagChecks_keeps]
  all_goals simp_all +zetaDelta
theorem stf_keeps (f : FM) : s.Keeps (execStf f s) := by
  refine issue_keeps ?_
  mvcgen [tagChecks_keeps]
  all_goals simp_all +zetaDelta

/-! ### Read-modify-write -/

@[simp] theorem rmw_wf {s : State} (h : Memory.wf s.mem) (fn n : Nat) (nm : Named) (b e : Nat) : Memory.wf (s.rmw fn n nm b e).1.mem := by
  unfold State.rmw
  dsimp only
  split
  · exact h
  · exact putBytes_wf h _
theorem performAtom_keeps (fn n : Nat) (ea b e : Word) (dest : BitVec 6) (out : Option Nat) :
    ⦃⌜Memory.wf s.mem⌝⦄ s.performAtom fn n ea b e dest out ⦃canon id⦄ := by
  mvcgen [State.performAtom, resolve_keeps]
  all_goals simp_all +zetaDelta
theorem atomForm_keeps (fn : Nat) (f : FM) : s.Keeps (atomForm fn f s) := by
  refine issue_keeps ?_
  mvcgen [storeWaits_keeps, rmwWaits_keeps, loadWaits_keeps, resolve_keeps, claim_keeps, atIssue_keeps, performAtom_keeps]
end
end Sys2Proof.Machine
end

section
/-!
PROOFS. Main memory keeps its canonical form: vector forms, what is performed later, and boundaries.
-/
namespace Sys2Proof.Machine
open Std.Do
set_option mvcgen.warning false

section
variable (s : State)

/-! ### Vector forms -/

@[simp] theorem hold_mem (fps : List Fp) (poison : Bool) (work : Work) (dest : BitVec 6) (val : Word) (whole : Bool) :
    (s.hold fps poison work dest val whole).mem = s.mem := rfl
@[simp] theorem overGrid_mem (td : Place) (tc : Option Place) (e : Word) (v : Nat → Nat → Nat → Nat × Bool) :
    (s.overGrid td tc e v).1.mem = s.mem := writeElems_mem ..

theorem begin_keeps (fps : List Fp) (ops : List Ten) (weight busy : Nat) : ⦃⌜Memory.wf s.mem⌝⦄ s.begin' fps ops weight busy ⦃canon id⦄ := by
  mvcgen [State.begin', claim_keeps, charge_keeps]
theorem vrun_keeps (edg : BitVec 3) (o : Vop) : ⦃⌜Memory.wf s.mem⌝⦄ s.vrun edg o ⦃canon (·.st)⦄ := by
  mvcgen [State.vrun, need_keeps, placesOf_keeps, powered_keeps, begin_keeps]
  all_goals simp_all
theorem ewise_keeps (o : Ewise) (f : FT) : s.Keeps (ewise o f s) := issue_keeps (vrun_keeps s _ _)
theorem vcvt_keeps (f : FT) : s.Keeps (execVcvt f s) := by
  refine issue_keeps ?_
  mvcgen [need_keeps, vrun_keeps]
theorem vsel_keeps (f : FT) : s.Keeps (execVsel f s) := issue_keeps (vrun_keeps s _ _)

/-! ### Predicate planes and full/empty bits -/

theorem predForm_keeps (fn nsrc : Nat) (g : List Nat → Nat) (f : FT) : s.Keeps (predForm fn nsrc g f s) := issue_keeps (vrun_keeps s _ _)
theorem countBits_keeps (fn : Nat) (p : Place) (e : Word) : ⦃⌜True⌝⦄ s.countBits fn p e ⦃canonWait⦄ := by
  mvcgen [State.countBits, raise_spec]
theorem performCount_keeps (o : Out) : ⦃⌜Memory.wf s.mem⌝⦄ s.performCount o ⦃canon id⦄ := by
  mvcgen [State.performCount, placesOf_keeps, countBits_keeps]
theorem countForm_keeps (fn : Nat) (f : FT) : s.Keeps (countForm fn f s) := by
  refine issue_keeps ?_
  mvcgen [need_keeps, placesOf_keeps, powered_keeps, begin_keeps, countBits_keeps]
theorem tagForm_keeps (fn : Nat) (full : Bool) (f : FT) : s.Keeps (tagForm fn full f s) := by
  refine issue_keeps ?_
  mvcgen [need_keeps, placesOf_keeps, powered_keeps, waitFor_keeps, begin_keeps]
  exact foldl_wf (fun _ _ h => setTag_wf h ..) ‹_› _

/-! ### Outstanding accesses and boundaries -/

theorem performOut_keeps (o : Out) : ⦃⌜Memory.wf s.mem⌝⦄ s.performOut o ⦃canon id⦄ := by
  mvcgen [State.performOut, waitFor_keeps, performTag_keeps, performLoad_keeps, State.performAtomOut, performAtom_keeps, performCount_keeps]
theorem rooted_keeps (root : BitVec 44) {f : State → Res State} (hf : ∀ s, ⦃⌜Memory.wf s.mem⌝⦄ f s ⦃canon id⦄) :
    ⦃⌜Memory.wf s.mem⌝⦄ s.rooted root f ⦃canon id⦄ := by
  have hr := except_triple_iff.mp (hf (s.withRoot root))
  unfold State.rooted
  split
  · next u hu => exact Triple.iff.mpr fun h => have hok := (hr h).1 u hu; hok
  · next u hu => exact Triple.iff.mpr fun h => have herror := (hr h).2 _ hu; herror
  · next e _ he => exact Triple.iff.mpr fun h => have herror := (hr h).2 e he; herror
theorem performOpen_keeps (o : Out) : ⦃⌜Memory.wf s.mem⌝⦄ s.performOpen o ⦃canon id⦄ := rooted_keeps s _ fun s => performOut_keeps s o

@[simp] theorem fallTo_wf {s : State} (h : Memory.wf s.mem) (a : Word) : Memory.wf (s.fallTo a).mem := fallTo_memOk s a h
@[simp] theorem edgeAgain_mem : s.edgeAgain.mem = s.mem := by simp [State.edgeAgain]
@[simp] theorem unlog_mem (o : Out) : (s.unlog o).mem = s.mem := by
  unfold State.unlog
  dsimp only
  split <;> simp
@[simp] theorem reissueOne_wf {s : State} (h : Memory.wf s.mem) : Memory.wf s.reissueOne.mem := by
  unfold State.reissueOne
  split
  · exact h
  · next o _ =>
    have hr : ⦃⌜Memory.wf s.mem⌝⦄ (s.reissueWaits o >>= fun _ => s.performOut o) ⦃canon id⦄ := by
      mvcgen [reissueWaits_keeps, performOut_keeps]
    obtain ⟨hok, herror⟩ := except_triple_iff.mp hr h
    split
    · next u hu => have hu := hok u hu; exact hu
    · simpa
    · next u hu => have hu := herror _ hu; exact hu
    · exact h

theorem loggedTrap_keeps : ⦃⌜Memory.wf s.mem⌝⦄ s.loggedTrap ⦃canonOr id⦄ := by
  unfold State.loggedTrap
  mvcgen [some_spec, none_spec]
  all_goals simp_all
theorem lateTrap_keeps : ⦃⌜Memory.wf s.mem⌝⦄ s.lateTrap ⦃canonOr id⦄ := by
  unfold State.lateTrap
  mvcgen [some_spec, none_spec]
  split <;> simp_all
theorem stopAt_keeps : ⦃⌜Memory.wf s.mem⌝⦄ s.stopAt ⦃canonOr id⦄ := by
  unfold State.stopAt
  mvcgen [some_spec, none_spec]
  all_goals simp_all
/-- The first of two that there is. -/
theorem orElse_keeps {p : Prop} {x y : Option State} (hx : ⦃⌜p⌝⦄ x ⦃canonOr id⦄) (hy : ⦃⌜p⌝⦄ y ⦃canonOr id⦄) :
    ⦃⌜p⌝⦄ (x <|> y) ⦃canonOr id⦄ := by
  cases x with
  | none => exact hy
  | some t => exact hx
theorem getD_wf {p : Prop} {x : Option State} (hx : ⦃⌜p⌝⦄ x ⦃canonOr id⦄) (hp : p) {t : State} (ht : Memory.wf t.mem) :
    Memory.wf (x.getD t).mem := by
  cases x with
  | none => exact ht
  | some u => exact (option_triple_iff.mp hx hp).1 u rfl
theorem trapAt_keeps : ⦃⌜Memory.wf s.mem⌝⦄ s.trapAt ⦃canonOr id⦄ := by
  unfold State.trapAt
  mvcgen [some_spec, none_spec, orElse_keeps, lateTrap_keeps, stopAt_keeps]
  · split <;> simp_all
  · exact getD_wf (loggedTrap_keeps s) ‹_› ‹_›
  · split <;> simp_all
theorem boundary_keeps : ⦃⌜Memory.wf s.mem⌝⦄ s.boundary ⦃canonOr id⦄ := by
  unfold State.boundary
  mvcgen [some_spec, none_spec, trapAt_keeps]
  all_goals simp_all
@[simp] theorem afterStep_wf {s : State} (h : Memory.wf s.mem) (k : SlotNo) : Memory.wf (s.afterStep k).mem := by
  unfold State.afterStep
  dsimp only
  split
  · split <;> simp [h]
  · exact h
end
end Sys2Proof.Machine
end

section
/-!
PROOFS. Main memory keeps its canonical form: launches, groups and the end of an item.
-/
namespace Sys2Proof.Machine
open Std.Do
set_option mvcgen.warning false

/-- A value that is looked up is no state. -/
theorem find_keeps {α : Type} (x : Option α) : ⦃⌜True⌝⦄ x ⦃post⟨fun _ => ⌜True⌝, fun _ => ⌜True⌝⟩⦄ :=
  option_triple_iff.mpr fun _ => ⟨fun _ _ => trivial, fun _ => trivial⟩

section
variable (s : State)

/-! ### Accesses of agents -/

theorem agentLocs_keeps (cl : Option Nat) (root : BitVec 44) (vf : BitVec 6) (store : Bool) (vas : List Word) :
    ⦃⌜Memory.wf s.mem⌝⦄ s.agentLocs cl root vf store vas ⦃canonOr (·.1)⦄ := by
  unfold State.agentLocs
  mvcgen [ok_spec, error_spec]
  exact foldl_wf (fun _ _ h => commitLeaf_wf h ..) ‹_› _
theorem agentRead_keeps (root : BitVec 44) (vf : BitVec 6) (a n : Nat) :
    ⦃⌜Memory.wf s.mem⌝⦄ s.agentRead root vf a n ⦃canonOr (·.1)⦄ := by
  have h := except_triple_iff.mp (agentLocs_keeps s none root vf false (vaRange a n))
  unfold State.agentRead
  mvcgen [some_spec, none_spec]
  simp_all
theorem agentWrite_keeps (root : BitVec 44) (vf : BitVec 6) (a : Nat) (bs : List Byte) :
    ⦃⌜Memory.wf s.mem⌝⦄ s.agentWrite root vf a bs ⦃canonOr id⦄ :=
  option_triple_iff.mpr fun h => ⟨fun t ht => agentWrite_memOk s t root vf a bs h ht, fun _ => trivial⟩
@[simp] theorem agentWrite_wf {s : State} (h : Memory.wf s.mem) (root : BitVec 44) (vf : BitVec 6) (a : Nat) (bs : List Byte) :
    Memory.wf ((s.agentWrite root vf a bs).getD s).mem := getD_wf (agentWrite_keeps s root vf a bs) h h
theorem agentAdd_keeps (root : BitVec 44) (vf : BitVec 6) (a v : Word) :
    ⦃⌜Memory.wf s.mem⌝⦄ s.agentAdd root vf a v ⦃canonOr id⦄ := by
  have h := except_triple_iff.mp (agentLocs_keeps s none root vf true (bytesOf a 8))
  unfold State.agentAdd
  mvcgen [some_spec, none_spec]
  simp_all
@[simp] theorem agentAdd_wf {s : State} (h : Memory.wf s.mem) (root : BitVec 44) (vf : BitVec 6) (a v : Word) :
    Memory.wf ((s.agentAdd root vf a v).getD s).mem := getD_wf (agentAdd_keeps s root vf a v) h h

/-! ### Fences -/

theorem ord_keeps (f : FE) : s.Keeps (execOrd f s) := issueWith_keeps (fun h => h) (Triple.iff.mpr fun h => h)
theorem fence_keeps (f : FE) : s.Keeps (execFence f s) := by
  refine issue_keeps ?_
  mvcgen [waitFor_keeps]
theorem qfence_keeps (f : FE) : s.Keeps (execQfence f s) := by
  refine issue_keeps ?_
  mvcgen [waitFor_keeps]

/-! ### Reports and launches -/

theorem ringBlk_keeps (root : BitVec 44) (vf : BitVec 6) (a : Nat) : ⦃⌜Memory.wf s.mem⌝⦄ s.ringBlk root vf a ⦃canonOr (·.1)⦄ := by
  mvcgen [State.ringBlk, agentRead_keeps, some_spec]
theorem pushReport_keeps (k : SlotNo) (t : Thread) (f : FaultRec) : ⦃⌜Memory.wf s.mem⌝⦄ s.pushReport k t f ⦃canonOr id⦄ := by
  have hc := find_keeps (NMap.get {} s.parts t.part.toNat).cfg
  mvcgen [State.pushReport, hc, ringBlk_keeps, agentWrite_keeps, some_spec, none_spec]
  all_goals simp_all +zetaDelta
@[simp] theorem raiseVec_wf {s : State} (h : Memory.wf s.mem) (r : Nat) : Memory.wf (s.raiseVec r).mem := by
  unfold State.raiseVec
  split
  · exact h
  · next c _ =>
    have hb := option_triple_iff.mp (ringBlk_keeps s c.root c.vf c.block.toNat) h
    split
    · exact h
    · next u b hu =>
      have hu := hb.1 _ hu
      split <;> exact hu
@[simp] theorem emitLaunch_mem (l : Launch) (kind payload : Nat) : (s.emitLaunch l kind payload).mem = s.mem := by
  unfold State.emitLaunch
  split <;> simp
@[simp] theorem finishLaunch_wf {s : State} (h : Memory.wf s.mem) (l : Launch) (status : Nat) : Memory.wf (s.finishLaunch l status).mem := by
  have hw := agentWrite_wf h l.root l.vf l.done.toNat (s.recordBytes l status)
  unfold State.finishLaunch
  generalize (s.agentWrite l.root l.vf l.done.toNat (s.recordBytes l status)).getD s = u at *
  simp [hw]
theorem countItem_keeps (t : Thread) (failed : Bool) : ⦃⌜Memory.wf s.mem⌝⦄ s.countItem t failed ⦃canonOr id⦄ := by
  unfold State.countItem
  mvcgen [some_spec, none_spec]
  all_goals simp_all +zetaDelta

/-! ### Groups and parked items -/

@[simp] theorem writeRecord_wf {s : State} (h : Memory.wf s.mem) (g : Group) : Memory.wf (s.writeRecord g).mem := agentWrite_wf h ..
@[simp] theorem putGroup_wf {s : State} (h : Memory.wf s.mem) (g : Group) : Memory.wf (s.putGroup g).mem := writeRecord_wf (s := s.setGroup g) h g
@[simp] theorem leaveGroup_wf {s : State} (h : Memory.wf s.mem) (uid gid : Nat) (breaks : Bool) :
    Memory.wf (s.leaveGroup uid gid breaks).mem := by
  unfold State.leaveGroup
  split
  · exact h
  · dsimp only
    split
    · apply agentWrite_wf
      exact h
    · exact putGroup_wf h _
theorem joinAdd_keeps (a v : Word) (watch : Bool) : ⦃⌜Memory.wf s.mem⌝⦄ s.joinAdd a v watch ⦃canon id⦄ := by
  mvcgen [State.joinAdd, resolve_keeps]
  simp_all
theorem parkWord_keeps (p : Parked) : ⦃⌜Memory.wf s.mem⌝⦄ s.parkWord p ⦃canon (·.1)⦄ := by
  mvcgen [State.parkWord, resolve_keeps]
@[simp] theorem wake_mem (p : Parked) : (s.wake p).mem = s.mem := rfl
@[simp] theorem wakeOn_wf {s : State} (h : Memory.wf s.mem) (t : Thread) (j : Word) : Memory.wf (s.wakeOn t j).mem := by
  refine foldl_wf (fun s p h => ?_) h _
  have hp := except_triple_iff.mp (parkWord_keeps s p) h
  split
  · next u v hu =>
    have hu := hp.1 _ hu
    split <;> exact hu
  · exact h

/-! ### The end of an item -/

@[simp] theorem dropWaiters_mem (p : Plot) : (s.dropWaiters p).mem = s.mem := foldl_mem _ turnAway_mem _
@[simp] theorem freeUnits_mem (uid : Nat) : (s.freeUnits uid).mem = s.mem := rfl
@[simp] theorem emitEnd_mem (code : Nat) (failed : Bool) : (s.emitEnd code failed).mem = s.mem := by
  unfold State.emitEnd
  simp
@[simp] theorem vacate_mem : s.vacate.mem = s.mem := rfl
@[simp] theorem reportDrained_mem (t : Thread) : (s.reportDrained t).mem = s.mem := by
  unfold State.reportDrained
  split <;> rfl
@[simp] theorem dropBank_mem (uid : Nat) : (s.dropBank uid).mem = s.mem := rfl
@[simp] theorem forgetCalls_mem (uid : Nat) : (s.forgetCalls uid).mem = s.mem := rfl
@[simp] theorem abandon_mem (cause : BitVec 16) : (s.abandon cause).mem = s.mem := by simp [State.abandon]

theorem leaveGroups_wf {s : State} (h : Memory.wf s.mem) (t : Thread) (failed : Bool) :
    Memory.wf (t.groups.foldl (fun u m => u.leaveGroup t.src.uid m.gid failed) s).mem :=
  foldl_wf (fun _ m hu => leaveGroup_wf hu t.src.uid m.gid failed) h _
theorem leaveAll_keeps (failed : Bool) : ⦃⌜Memory.wf s.mem⌝⦄ s.leaveAll failed ⦃canonOr (·.1)⦄ := by
  unfold State.leaveAll
  mvcgen [some_spec, none_spec, pushReport_keeps]
  case vc2 hu h => exact wakeOn_wf (ok_wf hu (joinAdd_keeps _ _ _ _) (leaveGroups_wf h ..)) ..
  all_goals exact leaveGroups_wf ‹_› ..
theorem endItem_keeps (k : EndKind) : ⦃⌜Memory.wf s.mem⌝⦄ s.endItem k ⦃canonOr id⦄ := by
  mvcgen [State.endItem, leaveAll_keeps, countItem_keeps, some_spec]
  all_goals simp_all +zetaDelta
theorem terminate_keeps : ⦃⌜Memory.wf s.mem⌝⦄ s.terminate ⦃canonOr id⦄ := by
  have ht := find_keeps s.thr.term
  mvcgen [State.terminate, ht, some_spec, none_spec]
  next v hv =>
    have hv := some_wf hv (pushReport_keeps _ _ _ _) (by simp_all +zetaDelta)
    exact hv
  all_goals simp_all +zetaDelta
theorem failParked_keeps (p : Parked) (f : FaultRec) : ⦃⌜Memory.wf s.mem⌝⦄ s.failParked p f ⦃canonOr id⦄ := by
  mvcgen [State.failParked, pushReport_keeps, endItem_keeps, some_spec]
  all_goals simp_all +zetaDelta
theorem itemTerminate_keeps : s.Keeps (execItemTerminate s) := slotEvent_keeps terminate_keeps
theorem itemEnd_keeps : s.Keeps (execItemEnd s) := by
  refine slotEvent_keeps fun s => ?_
  mvcgen [none_spec, endItem_keeps]
theorem parkCheck_keeps : s.Keeps (execParkCheck s) := by
  refine event_keeps ?_
  have hp := find_keeps (s.parked.find? fun p => p.thr.src.uid == s.input.unit)
  mvcgen [hp, some_spec, none_spec, failParked_keeps]
  next h p _ _ _ _ hu =>
    have hu := ok_wf hu (parkWord_keeps s p) h
    simp_all
end
end Sys2Proof.Machine
end

section
/-!
PROOFS. Main memory keeps its canonical form: plots, launch packets and the SCHED family.
-/
namespace Sys2Proof.Machine
open Std.Do
set_option mvcgen.warning false

section
variable (s : State)

/-! ### Plots and the start of an item -/

@[simp] theorem clearRows_mem (p : Plot) (kept : Option Plot) : (s.clearRows p kept).mem = s.mem := rfl
@[simp] theorem seat_mem (k : SlotNo) (t : Thread) : (s.seat k t).mem = s.mem := by simp [State.seat]
@[simp] theorem startLaunch_mem (id : Nat) : (s.startLaunch id).mem = s.mem := by simp [State.startLaunch]
@[simp] theorem emitStart_mem (k : SlotNo) (kind : Nat) : (s.emitStart k kind).mem = s.mem := by simp [State.emitStart]
@[simp] theorem startItem_mem (r : ItemRec) (p : Plot) (k : SlotNo) : (s.startItem r p k).mem = s.mem := by simp [State.startItem]
theorem plotgrow_keeps (f : FB) : s.Keeps (execPlotgrow f s) := by
  refine issue_keeps ?_
  mvcgen [need_keeps, raise_spec, error_spec]
theorem plotinfo_keeps (f : FB) : s.Keeps (execPlotinfo f s) := pureOp_keeps fun h => h

/-! ### Launch packets -/

@[simp] theorem ringBad_wf {s : State} (h : Memory.wf s.mem) (r : Nat) : Memory.wf (s.ringBad r).mem := by
  have hk (c : RingCfg) (n : Nat) : ⦃⌜Memory.wf s.mem⌝⦄ (do
      let (s, b) ← s.ringBlk c.root c.vf c.block.toNat
      let n := (b.bad + 1) % 2 ^ 32
      let s ← s.agentWrite c.root c.vf (c.block.toNat + 20) (leBytes 4 n)
      some (s, n)) ⦃canonOr (·.1)⦄ := by mvcgen [ringBlk_keeps, agentWrite_keeps, some_spec]
  unfold State.ringBad
  split
  · exact h
  · next c _ =>
    dsimp only
    split
    · next u n hu =>
      have hu := some_wf hu (hk c n) h
      simpa
    · simpa
@[simp] theorem passBarrier_mem (l : Launch) : (s.passBarrier l).mem = s.mem := by simp [State.passBarrier]
@[simp] theorem sendReplicas_mem (l : Launch) : (s.sendReplicas l).mem = s.mem := by simp [State.sendReplicas]
@[simp] theorem enterLaunch_mem (l : Launch) (deadline : Nat) : (s.enterLaunch l deadline).mem = s.mem := by
  unfold State.enterLaunch
  dsimp only
  rw [emitLaunch_mem, emitLaunch_mem, emitLaunch_mem, sendReplicas_mem, passBarrier_mem, mapQueue_mem]
@[simp] theorem acceptPacket_wf {s : State} (h : Memory.wf s.mem) (ring : BitVec 8) (part : BitVec 4) (vf : BitVec 6) (root : BitVec 44)
    (origin : BitVec 8) (bytes : List Byte) : Memory.wf (s.acceptPacket ring part vf root origin bytes).1.mem := by
  unfold State.acceptPacket
  dsimp only
  split
  · simp [h]
  · split
    · simp [h]
    · split <;> simp [h]

/-! ### The SCHED family -/

theorem schedOperand_keeps (store : Bool) (a : Word) (n : Nat) : ⦃⌜Memory.wf s.mem⌝⦄ s.schedOperand store a n ⦃canon (·.1)⦄ := by
  mvcgen [State.schedOperand, need_keeps, resolve_keeps]
@[simp] theorem enqueue_wf {s : State} (h : Memory.wf s.mem) (r : ItemRec) : Memory.wf (s.enqueue r).mem := by
  unfold State.enqueue
  dsimp only
  rw [mapLaunch_mem, mapQueue_mem]
  exact putBytes_wf h _
theorem spawn_keeps (f : FB) : ⦃⌜Memory.wf s.mem⌝⦄ s.spawn f ⦃canon id⦄ := by
  mvcgen [State.spawn, schedOperand_keeps, need_keeps, joinAdd_keeps, waitFor_keeps]
  all_goals simp_all
theorem execSpawn_keeps (f : FB) : s.Keeps (execSpawn f s) := by
  refine issue_keeps ?_
  mvcgen [spawn_keeps]
theorem cont_keeps (f : FB) : s.Keeps (execCont f s) := by
  refine issue_keeps ?_
  mvcgen [spawn_keeps]
@[simp] theorem parkItem_mem (wait frame resume : Word) : (s.parkItem wait frame resume).mem = s.mem := by simp [State.parkItem]
theorem park_keeps (f : FB) : s.Keeps (execPark f s) := by
  refine issue_keeps ?_
  mvcgen [schedOperand_keeps, need_keeps, waitFor_keeps]
  all_goals simp_all
theorem launch_keeps (f : FB) : s.Keeps (execLaunch f s) := by
  refine issue_keeps ?_
  mvcgen [schedOperand_keeps, waitFor_keeps]
  all_goals split at * <;> simp_all

/-! ### Groups -/

theorem gnew_keeps (f : FB) : s.Keeps (execGnew f s) := by
  refine issue_keeps ?_
  mvcgen [schedOperand_keeps, waitFor_keeps, need_keeps]
  all_goals simp_all +zetaDelta
theorem joinGroup_keeps (f : FB) : s.Keeps (execJoinGroup f s) := by
  refine issue_keeps ?_
  mvcgen [schedOperand_keeps, waitFor_keeps, need_keeps, error_spec]
  all_goals simp_all +zetaDelta
@[simp] theorem leaveOne_wf {s : State} (h : Memory.wf s.mem) (gid : Nat) : Memory.wf (s.leaveOne gid).mem := by simp [State.leaveOne, h]
theorem leaveGroupForm_keeps (f : FB) : s.Keeps (execLeaveGroup f s) := by
  refine issue_keeps ?_
  mvcgen [schedOperand_keeps, waitFor_keeps, need_keeps, raise_spec]
  all_goals simp_all
@[simp] theorem depart_mem (g : Group) (xd : BitVec 6) : (s.depart g xd).mem = s.mem := by simp [State.depart]
theorem gbar_keeps (f : FB) : s.Keeps (execGbar f s) := by
  refine issue_keeps ?_
  mvcgen [waitFor_keeps, need_keeps, raise_spec, error_spec]
  all_goals simp_all
theorem grank_keeps (f : FB) : s.Keeps (execGrank f s) := by
  refine issue_keeps ?_
  mvcgen [raise_spec, ok_spec]
  all_goals simp_all
theorem gsize_keeps (f : FB) : s.Keeps (execGsize f s) := by
  refine issue_keeps ?_
  mvcgen [raise_spec, ok_spec]
end
end Sys2Proof.Machine
end

section
/-!
PROOFS. Main memory keeps its canonical form: system registers, arrivals, and agents outside the threads.
-/
namespace Sys2Proof.Machine
open Std.Do
set_option mvcgen.warning false

section
variable (s : State)

/-! ### System registers -/

theorem writeTlbinv_keeps (v : Word) : ⦃⌜Memory.wf s.mem⌝⦄ s.writeTlbinv v ⦃canon id⦄ := by
  mvcgen [State.writeTlbinv, waitFor_keeps]
  simp_all
theorem sysWrite_keeps (n : Nat) (v : Word) : ⦃⌜Memory.wf s.mem⌝⦄ s.sysWrite n v ⦃canon id⦄ := by
  unfold State.sysWrite
  mvcgen [writeTlbinv_keeps, ok_spec]
@[simp] theorem recordReg_mem (n : Nat) (v : Word) : (s.recordReg n v).mem = s.mem := by simp [State.recordReg]
/-- A register write that waits is no event. -/
theorem toOption_keeps {p : Prop} {x : Res State} (h : ⦃⌜p⌝⦄ x ⦃canon id⦄) : ⦃⌜p⌝⦄ Res.toOption x ⦃canonOr id⦄ := by
  cases x with
  | ok u => exact h
  | error e => exact Triple.iff.mpr fun _ => trivial

/-- A state made of a value that there may be. -/
theorem map_keeps {α : Type} {p : Prop} {f : α → State} (h : ∀ a, p → Memory.wf (f a).mem) (x : Option α) :
    ⦃⌜p⌝⦄ x.map f ⦃canonOr id⦄ := by
  cases x with
  | none => exact Triple.iff.mpr fun _ => trivial
  | some a => exact Triple.iff.mpr (h a)

/-! ### Accesses as they are performed -/

@[simp] theorem meetsTrap_mem (o : Out) (t : Trap) : (s.meetsTrap o t).mem = s.mem := by
  unfold State.meetsTrap
  split <;> simp
@[simp] theorem failStore_mem (e : SqEntry) : (s.failStore e).mem = s.mem := rfl
theorem loadComplete_keeps : s.Keeps (execLoadComplete s) := by
  refine slotEvent_keeps fun s => ?_
  have ho := find_keeps s.thr.openOuts.head?
  mvcgen [ho, some_spec, none_spec]
  all_goals simp_all
  case vc1 h o u _ hu => exact ok_wf hu (performOpen_keeps s o) h
  case vc4 h o u _ hu _ _ => exact wait_wf hu (performOpen_keeps s o) h
theorem storeLeavesQueue_keeps : s.Keeps (execStoreLeavesQueue s) := by
  refine slotEvent_keeps fun s => ?_
  have he := find_keeps s.thr.sq.head?
  mvcgen [he, some_spec, none_spec]
  all_goals simp_all
theorem pageWalk_keeps : s.Keeps (execPageWalk s) := by
  refine event_keeps ?_
  mvcgen [some_spec, none_spec]
  exact commitLeaf_wf ‹_› ..
theorem loggedFaultTrap_keeps : s.Keeps (execLoggedFaultTrap s) := by
  refine slotEvent_keeps fun s => ?_
  mvcgen [none_spec, loggedTrap_keeps]
theorem execLateTrap_keeps : s.Keeps (execLateTrap s) := by
  refine slotEvent_keeps fun s => ?_
  mvcgen [none_spec, lateTrap_keeps]
theorem feTimeout_keeps : s.Keeps (execFeTimeout s) := by
  refine slotEvent_keeps fun s => ?_
  mvcgen [none_spec, some_spec]
  all_goals simp_all +zetaDelta
  exact map_keeps (fun _ h => by simpa) _
theorem illegalEncoding_keeps : s.Keeps (execIllegalEncoding s) := .next (by simp)

/-! ### Packets and register writes -/

@[simp] theorem send_mem (p : Packet) (src : PacketDest) (uid : Nat) (part : BitVec 4) (dl : BitVec 16) : (s.send p src uid part dl).mem = s.mem := rfl
@[simp] theorem landed_mem (f : Flight) : (s.landed f).mem = s.mem := by
  unfold State.landed
  dsimp only
  split
  · split <;> simp
  · rfl
theorem packetArrival_keeps : s.Keeps (execPacketArrival s) := by
  refine event_keeps ?_
  mvcgen [none_spec, some_spec]
  intro h
  split
  · exact h
  · split <;> exact Triple.iff.mp (some_spec _) (by simpa)
theorem tlbinvVa_keeps : s.Keeps (execTlbinvVa s) := slotEvent_keeps fun s => toOption_keeps (writeTlbinv_keeps s _)
theorem tlbinvAll_keeps : s.Keeps (execTlbinvAll s) := slotEvent_keeps fun s => toOption_keeps (writeTlbinv_keeps s _)
theorem ptbaseWrite_keeps : s.Keeps (execPtbaseWrite s) := slotEvent_keeps fun s => toOption_keeps (sysWrite_keeps s _ _)
theorem latecntWrite_keeps : s.Keeps (execLatecntWrite s) := slotEvent_keeps fun _ => Triple.iff.mpr fun h => h
theorem opldrop_keeps : s.Keeps (execOpldrop s) := slotEvent_keeps fun _ => Triple.iff.mpr fun h => h
theorem registerWrite_keeps : s.Keeps (execRegisterWrite s) := by
  refine slotEvent_keeps fun s => ?_
  have hw n v := toOption_keeps (sysWrite_keeps s n v)
  mvcgen [none_spec, hw]

/-! ### Memory and links from outside -/

theorem keySlotLoad_keeps : s.Keeps (execKeySlotLoad s) := by
  refine event_keeps ?_
  mvcgen [none_spec, some_spec]
@[simp] theorem scrub_mem (stack : Nat) (f : EccFinding) : (s.scrub stack f).mem = s.mem := by
  unfold State.scrub
  dsimp only
  split
  · rfl
  · split <;> simp
@[simp] theorem cellEcc_mem (f : CellEcc) : (s.cellEcc f).mem = s.mem := by
  unfold State.cellEcc
  dsimp only
  split
  · rfl
  · split <;> simp
@[simp] theorem bufEcc_mem (f : BufEcc) : (s.bufEcc f).mem = s.mem := by
  unfold State.bufEcc
  split <;> simp
theorem eccScrub_keeps : s.Keeps (execEccScrub s) := by
  refine event_keeps ?_
  mvcgen [none_spec, some_spec]
  · exact foldl_wf (fun _ _ h => by simpa) ‹_› _
  all_goals simp_all
@[simp] theorem failUsers_mem (uses : Option SlotNo → Thread → Bool) : (s.failUsers uses).mem = s.mem :=
  foldl_mem _ (fun _ _ => setThread_mem ..) _
theorem parityError_keeps : s.Keeps (execParityError s) := by
  refine event_keeps ?_
  mvcgen [none_spec, some_spec]
  all_goals simp_all +zetaDelta
@[simp] theorem answer_mem (bs : List Byte) : (s.answer bs).mem = s.mem := rfl
@[simp] theorem qpDone_mem (n : Nat) (imm : Option (BitVec 32)) (len : Nat) : (s.qpDone n imm len).mem = s.mem := rfl
theorem outsideWrite_keeps (r : OutsideReq) (bs : List Byte) : ⦃⌜Memory.wf s.mem⌝⦄ s.outsideWrite r bs ⦃canonOr id⦄ := by
  refine option_triple_iff.mpr fun h => ⟨fun t ht => ?_, fun _ => trivial⟩
  obtain ⟨ls, -, rfl⟩ := Option.map_eq_some_iff.mp ht
  exact putBytes_wf h _
theorem outsideRmw_keeps (r : OutsideReq) (fn n : Nat) (b e : Word) : ⦃⌜Memory.wf s.mem⌝⦄ s.outsideRmw r fn n b e ⦃canonOr id⦄ := by
  have hl := find_keeps (s.outsideLocs r n)
  unfold State.outsideRmw
  mvcgen [none_spec, some_spec, hl]
  simp_all
theorem qpSend_keeps (n : Nat) (bs : List Byte) : ⦃⌜Memory.wf s.mem⌝⦄ s.qpSend n bs ⦃canonOr id⦄ := by
  unfold State.qpSend
  mvcgen [none_spec, some_spec, outsideWrite_keeps]
theorem outside_keeps (r : OutsideReq) : ⦃⌜Memory.wf s.mem⌝⦄ s.outside r ⦃canonOr id⦄ := by
  unfold State.outside
  split
  case h_1 n _ =>
    have hl := find_keeps (s.outsideLocs r n)
    mvcgen [none_spec, some_spec, hl]
  case h_8 qp imm bs _ =>
    refine option_triple_iff.mpr fun h => ⟨fun t ht => ?_, fun _ => trivial⟩
    obtain ⟨u, hu, rfl⟩ := Option.map_eq_some_iff.mp ht
    have hu := some_wf hu (outsideWrite_keeps _ _ _) h
    exact hu
  all_goals mvcgen [outsideWrite_keeps, outsideRmw_keeps, qpSend_keeps]
theorem atHome_keeps (r : OutsideReq) : ⦃⌜Memory.wf s.mem⌝⦄ s.atHome r ⦃canonOr id⦄ := by
  unfold State.atHome
  mvcgen [none_spec, outsideWrite_keeps]
theorem peerAccess_keeps : s.Keeps (execPeerAccess s) := by
  refine event_keeps ?_
  mvcgen [none_spec, outside_keeps, atHome_keeps]
theorem hostAccess_keeps : s.Keeps (execHostAccess s) := by
  refine event_keeps ?_
  mvcgen [none_spec, outside_keeps, atHome_keeps]
theorem rdmaTransfer_keeps : s.Keeps (execRdmaTransfer s) := by
  refine event_keeps ?_
  mvcgen [none_spec, some_spec, outside_keeps]
@[simp] theorem mapLink_mem (n : Nat) (f : Link → Link) : (s.mapLink n f).mem = s.mem := rfl
@[simp] theorem recalibrate_mem : s.recalibrate.mem = s.mem := by
  unfold State.recalibrate
  split <;> rfl
theorem linkRetrain_keeps : s.Keeps (execLinkRetrain s) := by
  refine event_keeps ?_
  mvcgen [none_spec, some_spec]
  all_goals simp_all +zetaDelta
theorem flitCrcReplay_keeps : s.Keeps (execFlitCrcReplay s) := by
  refine event_keeps ?_
  mvcgen [none_spec, some_spec]
theorem linkRetirement_keeps : s.Keeps (execLinkRetirement s) := by
  refine event_keeps ?_
  mvcgen [none_spec, some_spec]
end
end Sys2Proof.Machine
end

section
/-!
PROOFS. Main memory keeps its canonical form: banks, branches, plane movement and power.
-/
namespace Sys2Proof.Machine
open Std.Do
set_option mvcgen.warning false

section
variable (s : State)

/-! ### The BANK family -/

theorem bankLoad_keeps (align : Nat) (a : Word) (n : Nat) : ⦃⌜Memory.wf s.mem⌝⦄ s.bankLoad align a n ⦃canon (·.1)⦄ := by
  mvcgen [State.bankLoad, loadWaits_keeps, resolve_keeps, claim_keeps]
theorem bankSet_keeps (f : FQ) : ⦃⌜Memory.wf s.mem⌝⦄ s.bankSet f ⦃canon (·.1)⦄ := by
  unfold State.bankSet
  generalize maskSet = masked, rangeSet = ranged
  mvcgen [bankLoad_keeps, raise_spec, need_keeps]
@[simp] theorem pushCmd_mem (kind : CmdKind) (es : List Nat) : (s.pushCmd kind es).mem = s.mem := rfl
theorem bkload_keeps (f : FQ) : s.Keeps (execBkload f s) := by
  refine issue_keeps ?_
  mvcgen [need_keeps, waitFor_keeps, bankSet_keeps, bankLoad_keeps]
theorem bkact_keeps (f : FQ) : s.Keeps (execBkact f s) := by
  refine issue_keeps ?_
  mvcgen [need_keeps, waitFor_keeps, bankSet_keeps, bankLoad_keeps]
theorem checkRegion_keeps (e ord d : Nat) : ⦃⌜Memory.wf s.mem⌝⦄ s.checkRegion e ord d ⦃canonOr (·.1)⦄ := by
  unfold State.checkRegion
  mvcgen [ok_spec, error_spec]
  exact commitLeaf_wf ‹_› ..
theorem checkEngine_keeps (blk e ord : Nat) : ⦃⌜Memory.wf s.mem⌝⦄ s.checkEngine blk e ord ⦃canonOr (·.1)⦄ := by
  mvcgen [State.checkEngine, checkRegion_keeps] invariants
  · post⟨fun x => ⌜Memory.wf x.2.1.mem⌝, fun _ => ⌜True⌝⟩
theorem checkParts_keeps (blk : Nat) (es : List Nat) : ⦃⌜Memory.wf s.mem⌝⦄ s.checkParts blk es ⦃canon (·.1)⦄ := by
  have hp : ⦃⌜Memory.wf s.mem⌝⦄ (es.zip (List.range es.length)).foldlM (fun (x : State × List CallPart) (e : Nat × Nat) => do
      let (s, p) ← x.1.checkEngine blk e.1 e.2
      pure (s, x.2 ++ [p])) (s, []) ⦃canonOr (·.1)⦄ := by
    mvcgen [checkEngine_keeps] invariants
    · post⟨fun x => ⌜Memory.wf x.2.1.mem⌝, fun _ => ⌜True⌝⟩
    with simp_all
  unfold State.checkParts
  dsimp only
  split
  · next x hx => exact Triple.iff.mpr fun h => have hx := ok_wf hx hp h; hx
  · exact Triple.iff.mpr fun _ => trivial
theorem checkSend_keeps (t : Ten) : ⦃⌜True⌝⦄ s.checkSend t ⦃canonWait⦄ := by
  mvcgen [State.checkSend, need_keeps]
@[simp] theorem startCall_mem (f : FQ) (blk : Nat) (es : List Nat) (parts : List CallPart) (fps : List Fp) :
    (s.startCall f blk es parts fps).mem = s.mem := by simp [State.startCall]
theorem bkcall_keeps (f : FQ) : s.Keeps (execBkcall f s) := by
  refine issue_keeps ?_
  mvcgen [need_keeps, waitFor_keeps, bankSet_keeps, bankLoad_keeps, checkParts_keeps, checkSend_keeps, claim_keeps]
  all_goals simp_all +zetaDelta
theorem bkwait_keeps (f : FQ) : s.Keeps (execBkwait f s) := by
  refine issue_keeps ?_
  mvcgen [waitFor_keeps]
theorem bkstat_keeps (f : FQ) : s.Keeps (execBkstat f s) := by
  refine issue_keeps ?_
  mvcgen [need_keeps]
  simp_all

/-! ### Commands of engines -/

@[simp] theorem mapCmd_mem (stack no : Nat) (f : Cmd → Cmd) : (s.mapCmd stack no f).mem = s.mem := rfl
@[simp] theorem finishCmd_mem (e no : Nat) : (s.finishCmd e no).mem = s.mem := rfl
@[simp] theorem beginCmd_mem (no : Nat) : (s.beginCmd no).mem = s.mem := rfl
@[simp] theorem settle_mem (e : Nat) : (s.settle e).mem = s.mem := by
  unfold State.settle
  dsimp only
  split
  · rfl
  · split <;> simp
@[simp] theorem mapCall_mem (id : Nat) (f : Call → Call) : (s.mapCall id f).mem = s.mem := rfl
@[simp] theorem dropCall_mem (id : Nat) : (s.dropCall id).mem = s.mem := rfl
theorem engineProgramWrite_keeps : s.Keeps (execEngineProgramWrite s) := by
  refine event_keeps ?_
  have hc := find_keeps (s.nextCmd s.input.unit)
  mvcgen [hc, some_spec, none_spec]
  simp_all
theorem engineActWrite_keeps : s.Keeps (execEngineActWrite s) := by
  refine event_keeps ?_
  have hc := find_keeps (s.nextCmd s.input.unit)
  mvcgen [hc, some_spec, none_spec]
  simp_all
theorem engineCallStart_keeps : s.Keeps (execEngineCallStart s) := by
  refine event_keeps ?_
  have hc := find_keeps (s.nextCmd s.input.unit)
  have hk id := find_keeps (s.calls.find? (·.id == id))
  have hp (k : Call) := find_keeps (k.parts.find? (·.engine == s.input.unit))
  mvcgen [hc, hk, hp, some_spec, none_spec]
  simp_all
theorem bsendDelivery_keeps : s.Keeps (execBsendDelivery s) := by
  refine event_keeps ?_
  have hx := find_keeps (s.sends.find? (·.id == s.input.unit))
  mvcgen [hx, some_spec, none_spec]
  simp_all +zetaDelta
theorem callComplete_keeps : s.Keeps (execCallComplete s) := by
  refine event_keeps ?_
  have hc := find_keeps (s.endedCall s.input.unit)
  mvcgen [hc, some_spec, none_spec]
  split <;> simpa
theorem terminated_wf {s : State} (h : Memory.wf s.mem) : Memory.wf (s.terminate.getD s).mem := getD_wf (terminate_keeps s) h h
theorem callFaultReport_keeps : s.Keeps (execCallFaultReport s) := by
  refine event_keeps ?_
  have hc := find_keeps (s.endedCall s.input.unit)
  have hx (c : Call) := find_keeps c.fault
  have hk uid := find_keeps (s.slotOfUid uid)
  mvcgen [hc, hx, hk, pushReport_keeps, some_spec, none_spec]
  all_goals simp_all +zetaDelta
  exact terminated_wf (by simpa)

/-! ### Instructions of a bank engine -/

/-- How an engine word ends with main memory in canonical form. -/
def EngEnd.Wf : EngEnd → Prop
  | .go t _ => Memory.wf t.mem
  | .hold t => Memory.wf t.mem
  | _ => True

@[simp] theorem engEnd_mem (g : Engine) : (s.engEnd g).mem = s.mem := by
  unfold State.engEnd
  dsimp only
  split <;> simp
@[simp] theorem engFault_mem (code : BitVec 8) (addr : BitVec 32) : (s.engFault code addr).mem = s.mem := by
  unfold State.engFault
  dsimp only
  split <;> simp
@[simp] theorem engGo_mem (n : Int) : (s.engGo n).mem = s.mem := by simp [State.engGo]
theorem engStep_keeps {s : State} {body : State → EngEnd} (hb : Memory.wf s.mem → (body s).Wf) : s.Keeps (engStep body s) := by
  unfold engStep
  cases hc : body s <;> rw [hc] at hb
  case go t n => exact .next fun h => by rw [engGo_mem]; exact hb h
  case fault c a => exact .next fun h => by rwa [engFault_mem]
  case hold t => exact .next hb
  case halt => exact .next fun h => by rwa [engEnd_mem]
theorem engOp_keeps {s : State} {body : State → EngRes State} (hb : ⦃⌜Memory.wf s.mem⌝⦄ body s ⦃canonOr id⦄) : s.Keeps (engOp body s) :=
  engStep_keeps fun h => by
    split
    · next t ht =>
      have ht := ok_wf ht hb h
      exact ht
    · trivial
theorem engNeed_keeps (c : Prop) [Decidable c] (code : BitVec 8) (addr : BitVec 32) :
    ⦃⌜True⌝⦄ engNeed c code addr ⦃post⟨fun _ => ⌜True⌝, fun _ => ⌜True⌝⟩⦄ := by
  unfold engNeed
  mvcgen [ok_spec, error_spec]
theorem engTarget_keeps (a : BitVec 32) (align n : Nat) : ⦃⌜True⌝⦄ s.engTarget a align n ⦃post⟨fun _ => ⌜True⌝, fun _ => ⌜True⌝⟩⦄ := by
  mvcgen [State.engTarget, engNeed_keeps, error_spec]
theorem engRead_keeps (a : BitVec 32) (t : ETarget) (n : Nat) : ⦃⌜True⌝⦄ s.engRead a t n ⦃post⟨fun _ => ⌜True⌝, fun _ => ⌜True⌝⟩⦄ := by
  mvcgen [State.engRead, engNeed_keeps]
theorem engRegion_keeps (a : BitVec 32) : ⦃⌜True⌝⦄ s.engRegion a ⦃post⟨fun _ => ⌜True⌝, fun _ => ⌜True⌝⟩⦄ := by
  unfold State.engRegion
  mvcgen [ok_spec, error_spec]
theorem engBuffer_keeps (a : BitVec 32) : ⦃⌜True⌝⦄ s.engBuffer a ⦃post⟨fun _ => ⌜True⌝, fun _ => ⌜True⌝⟩⦄ := by
  unfold State.engBuffer
  mvcgen [ok_spec, error_spec]
theorem writeTarget_keeps (a : BitVec 32) : ⦃⌜True⌝⦄ s.writeTarget a ⦃post⟨fun _ => ⌜True⌝, fun _ => ⌜True⌝⟩⦄ := by
  mvcgen [State.writeTarget, engTarget_keeps, engNeed_keeps]
theorem waitWord_keeps (a : BitVec 32) : ⦃⌜True⌝⦄ s.waitWord a ⦃post⟨fun _ => ⌜True⌝, fun _ => ⌜True⌝⟩⦄ := by
  mvcgen [State.waitWord, engBuffer_keeps, engTarget_keeps, engRead_keeps]
@[simp] theorem bankEnergy_mem (n : Nat) : (s.bankEnergy n).mem = s.mem := by
  unfold State.bankEnergy
  split <;> simp
@[simp] theorem countCall_mem : s.countCall.mem = s.mem := by
  unfold State.countCall
  split <;> simp
@[simp] theorem setB_mem (n : BitVec 4) (v : BitVec 32) : (s.setB n v).mem = s.mem := rfl
@[simp] theorem engWrite_wf {s : State} (h : Memory.wf s.mem) (t : ETarget) (v : BitVec 32) : Memory.wf (s.engWrite t v).mem := by
  simp [State.engWrite, h]

/-- A word of an engine that leaves main memory as it is. -/
theorem engOp_ok_keeps {f : State → State} (hf : (f s).mem = s.mem) : s.Keeps (engOp (fun s => .ok (f s)) s) :=
  engOp_keeps (Triple.iff.mpr fun h => by rw [← hf] at h; exact h)
theorem bnop_keeps : s.Keeps (execBnop s) := engOp_ok_keeps s rfl
theorem bhalt_keeps : s.Keeps (execBhalt s) := engStep_keeps fun _ => trivial
theorem bli_keeps (f : FBk) : s.Keeps (execBli f s) := engOp_ok_keeps s (setB_mem ..)
theorem baddi_keeps (f : FBk) : s.Keeps (execBaddi f s) := engOp_ok_keeps s (setB_mem ..)
theorem badd_keeps (f : FBk) : s.Keeps (execBadd f s) := engOp_ok_keeps s (setB_mem ..)
theorem bsub_keeps (f : FBk) : s.Keeps (execBsub f s) := engOp_ok_keeps s (setB_mem ..)
theorem bmul_keeps (f : FBk) : s.Keeps (execBmul f s) := engOp_ok_keeps s (setB_mem ..)
theorem bbz_keeps (f : FBk) : s.Keeps (execBbz f s) := engStep_keeps fun h => h
theorem bbnz_keeps (f : FBk) : s.Keeps (execBbnz f s) := engStep_keeps fun h => h
theorem bloop_keeps (f : FBk) : s.Keeps (execBloop f s) := engStep_keeps fun h => h
theorem bfmt_keeps (f : FBk) : s.Keeps (execBfmt f s) := by
  refine engOp_keeps ?_
  mvcgen [engNeed_keeps]
theorem bscl_keeps (f : FBk) : s.Keeps (execBscl f s) := by
  refine engOp_keeps ?_
  mvcgen [engRegion_keeps, engTarget_keeps, engRead_keeps]
  simpa
theorem bmac_keeps (f : FBk) : s.Keeps (execBmac f s) := by
  refine engOp_keeps ?_
  mvcgen [engNeed_keeps, engRegion_keeps, engBuffer_keeps, engTarget_keeps, engRead_keeps]
  simpa
theorem bza_keeps (f : FBk) : s.Keeps (execBza f s) := by
  refine engOp_keeps ?_
  mvcgen [engNeed_keeps]
theorem brda_keeps (f : FBk) : s.Keeps (execBrda f s) := by
  refine engOp_keeps ?_
  mvcgen [engNeed_keeps]
theorem bsend_keeps (f : FBk) : s.Keeps (execBsend f s) := by
  refine engStep_keeps fun h => ?_
  dsimp only
  split
  · trivial
  · split
    · trivial
    · split
      · trivial
      · split
        · trivial
        · split <;> exact h
theorem brd_keeps (f : FBk) : s.Keeps (execBrd f s) := by
  refine engOp_keeps ?_
  mvcgen [engTarget_keeps, engRead_keeps]
  simpa
theorem bwr_keeps (f : FBk) : s.Keeps (execBwr f s) := by
  refine engOp_keeps ?_
  mvcgen [writeTarget_keeps]
  simp_all
theorem bsig_keeps (f : FBk) : s.Keeps (execBsig f s) := by
  refine engStep_keeps fun h => ?_
  split
  · trivial
  · split
    · exact h
    · exact engWrite_wf h ..
theorem bwait_keeps (f : FBk) : s.Keeps (execBwait f s) := by
  refine engStep_keeps fun h => ?_
  split
  · trivial
  · split
    · simpa [EngEnd.Wf]
    · exact h
theorem bankTimeout_keeps : s.Keeps (execBankTimeout s) := by
  refine event_keeps ?_
  mvcgen [some_spec, none_spec]
  simp_all +zetaDelta
theorem bankIllegal_keeps : s.Keeps (execBankIllegal s) := engStep_keeps fun _ => trivial

/-! ### Branches -/

theorem br_keeps (f : FB) : s.Keeps (execBr f s) := issue_keeps (Triple.iff.mpr fun h => h)
theorem brl_keeps (f : FB) : s.Keeps (execBrl f s) := issue_keeps (Triple.iff.mpr fun h => h)
theorem ret_keeps (f : FB) : s.Keeps (execRet f s) := by
  refine issue_keeps ?_
  mvcgen [need_keeps]
theorem tableTarget_keeps (f : FB) : ⦃⌜Memory.wf s.mem⌝⦄ s.tableTarget f ⦃canon (·.1)⦄ := by
  mvcgen [State.tableTarget, need_keeps, raise_spec]
  simp_all
theorem jt_keeps (f : FB) : s.Keeps (execJt f s) := by
  refine issue_keeps ?_
  mvcgen [tableTarget_keeps]
theorem jtl_keeps (f : FB) : s.Keeps (execJtl f s) := by
  refine issue_keeps ?_
  mvcgen [tableTarget_keeps]
theorem enterLoop_keeps (n : BitVec 32) (stop : Word) (index : BitVec 6) (step : BitVec 16) (indexed : Bool) :
    ⦃⌜Memory.wf s.mem⌝⦄ s.enterLoop n stop index step indexed ⦃canon (·.st)⦄ := by
  mvcgen [State.enterLoop, need_keeps]
theorem loop_keeps (f : FB) : s.Keeps (execLoop f s) := issueWith_keeps (fun h => h) (enterLoop_keeps _ _ _ _ _ _)
theorem loopx_keeps (f : FB) : s.Keeps (execLoopx f s) := issueWith_keeps (fun h => h) (enterLoop_keeps _ _ _ _ _ _)
theorem lbrk_keeps (f : FB) : s.Keeps (execLbrk f s) := by
  refine issue_keeps ?_
  mvcgen [ok_spec, raise_spec]

/-! ### Plane movement -/

@[simp] theorem setContents_mem (t : Ten) (x : Nat × Nat) (rows : List Row) : (s.setContents t x rows).mem = s.mem := by
  unfold State.setContents
  dsimp only
  split
  · rfl
  · exact foldl_mem _ (fun _ _ => setRow_mem ..) _
@[simp] theorem scrollStep_mem (sc : Scroll) : (s.scrollStep sc).1.mem = s.mem := foldl_mem _ (fun _ _ => setContents_mem ..) _
theorem scrollForm_keeps (fn : Nat) (args : State → Ten → Int × Int × BitVec 2 × Bool) (f : FT) : s.Keeps (scrollForm fn args f s) := by
  refine issue_keeps ?_
  mvcgen [need_keeps, powered_keeps, begin_keeps]
theorem plcopy_keeps (f : FT) : s.Keeps (execPlcopy f s) := issue_keeps (vrun_keeps s _ _)
theorem plfill_keeps (f : FT) : s.Keeps (execPlfill f s) := issue_keeps (vrun_keeps s _ _)
theorem scrollUnitStep_keeps : s.Keeps (execScrollUnitStep s) := by
  refine slotEvent_keeps fun s => ?_
  have ho := find_keeps (s.opNamed s.input.unit)
  mvcgen [ho, some_spec, none_spec]
  simp_all

/-! ### Power -/

theorem pwrhint_keeps (f : FE) : s.Keeps (execPwrhint f s) := pureOp_keeps fun h => h
theorem chgrd_keeps (f : FE) : s.Keeps (execChgrd f s) := pureOp_keeps fun h => by simpa
theorem hintExpiry_keeps : s.Keeps (execHintExpiry s) := by
  refine slotEvent_keeps fun s => ?_
  mvcgen [some_spec, none_spec]
end
end Sys2Proof.Machine
end

section
/-!
PROOFS. Main memory keeps its canonical form: pre-emption, the launch engine and the scheduler.
-/
namespace Sys2Proof.Machine
open Std.Do
set_option mvcgen.warning false

section
variable (s : State)

/-! ### Pre-emption -/

@[simp] theorem writeGroups_wf {s : State} (h : Memory.wf s.mem) (t : Thread) : Memory.wf (s.writeGroups t).mem := by
  refine foldl_wf (fun s m h => ?_) h _
  split
  · exact writeRecord_wf h _
  · exact h
@[simp] theorem dropCharges_mem (k : SlotNo) (t : Thread) : (s.dropCharges k t).mem = s.mem := by simp [State.dropCharges]
theorem saveThread_keeps (k : SlotNo) (t : Thread) (area : Word) (park : Option ParkRec) (halted : Bool) :
    ⦃⌜Memory.wf s.mem⌝⦄ s.saveThread k t area park halted ⦃canonOr id⦄ := by
  mvcgen [State.saveThread, agentWrite_keeps, some_spec]
  all_goals simp_all +zetaDelta
@[simp] theorem dropEntry_mem (q : Nat) (e : QEntry) : (s.dropEntry q e).mem = s.mem := by simp [State.dropEntry]
theorem saveParked_keeps (p : Parked) (area : Word) : ⦃⌜Memory.wf s.mem⌝⦄ s.saveParked p area ⦃canonOr id⦄ := by
  unfold State.saveParked
  mvcgen [saveThread_keeps, none_spec]
@[simp] theorem setPreempt_mem (k : SlotNo) (p : Preempt) : (s.setPreempt k p).mem = s.mem := by
  unfold State.setPreempt
  dsimp only
  split <;> simp
theorem preemptRequest_keeps : s.Keeps (execPreemptRequest s) := by
  refine event_keeps ?_
  have hp := find_keeps (s.parked.find? fun p => p.thr.src.uid == s.input.unit)
  mvcgen [hp, saveParked_keeps, some_spec, none_spec]
  all_goals simp_all +zetaDelta
theorem drainExpiry_keeps : s.Keeps (execDrainExpiry s) := by
  refine slotEvent_keeps fun s => ?_
  mvcgen [some_spec, none_spec]
  simp_all
@[simp] theorem stand_mem : s.stand.mem = s.mem := by simp [State.stand]
theorem saveItem_keeps : s.Keeps (execSaveItem s) := by
  refine slotEvent_keeps fun s => ?_
  mvcgen [saveThread_keeps, some_spec, none_spec]
  all_goals simp_all +zetaDelta
@[simp] theorem dropScrolls_mem : s.dropScrolls.mem = s.mem := by simp [State.dropScrolls]
@[simp] theorem flushThread_wf {s : State} (h : Memory.wf s.mem) : Memory.wf s.flushThread.mem := by
  have hg := leaveGroups_wf h s.thr false
  simpa [State.flushThread] using hg
theorem flushItem_keeps : s.Keeps (execFlushItem s) := by
  refine slotEvent_keeps fun s => ?_
  mvcgen [some_spec, none_spec]
  all_goals simp_all +zetaDelta
@[simp] theorem loadImage_mem (p : Plot) (bs : List Byte) : (s.loadImage p bs).mem = s.mem := by
  refine foldl_mem _ (fun s x => ?_) _
  dsimp only
  split <;> simp
@[simp] theorem loadUnits_mem (uid : Nat) (p : Plot) (cells : List Nat) (bs : List Byte) : (s.loadUnits uid p cells bs).mem = s.mem := by
  unfold State.loadUnits
  apply foldl_mem
  exact fun _ _ => rfl
theorem reload_keeps (v : Saved) (p : Plot) : ⦃⌜Memory.wf s.mem⌝⦄ s.reload v p ⦃canonOr (·.1)⦄ := by
  mvcgen [State.reload, agentRead_keeps, some_spec]
  all_goals simp_all +zetaDelta
@[simp] theorem rechargeScrolls_mem (k : SlotNo) : (s.rechargeScrolls k).mem = s.mem := by simp [State.rechargeScrolls]
theorem restore_keeps (v : Saved) (p : Plot) (k : SlotNo) : ⦃⌜Memory.wf s.mem⌝⦄ s.restore v p k ⦃canonOr id⦄ := by
  mvcgen [State.restore, reload_keeps, some_spec]
  all_goals simp_all +zetaDelta

/-! ### Rings and queues -/

@[simp] theorem haltRing_wf {s : State} (h : Memory.wf s.mem) (r : Nat) : Memory.wf (s.haltRing r).mem := ringBad_wf h r
theorem takePacket_keeps (c : RingCfg) (b : RingBlk) (bytes : List Byte) : ⦃⌜Memory.wf s.mem⌝⦄ s.takePacket c b bytes ⦃canonOr id⦄ := by
  mvcgen [State.takePacket, agentWrite_keeps, some_spec]
  all_goals simp_all
theorem launchRingRead_keeps : s.Keeps (execLaunchRingRead s) := by
  refine event_keeps ?_
  have hc := find_keeps (s.ringCfg s.input.unit)
  mvcgen [hc, takePacket_keeps, some_spec, none_spec]
  next h c _ _ _ => exact haltRing_wf h _
  next h c _ _ u _ hu _ =>
    have hu := some_wf hu (ringBlk_keeps _ _ _ _) h
    exact haltRing_wf hu _
  next h c _ _ u _ hu _ _ =>
    have hu := some_wf hu (ringBlk_keeps _ _ _ _) h
    exact hu
  next h c _ _ u _ hu _ _ _ =>
    have hu := some_wf hu (ringBlk_keeps _ _ _ _) h
    exact haltRing_wf hu _
  next h c _ _ u _ hu _ _ v _ hv => exact some_wf hv (agentRead_keeps _ _ _ _ _) (some_wf hu (ringBlk_keeps _ _ _ _) h)
theorem ringReset_keeps : s.Keeps (execRingReset s) := by
  refine event_keeps ?_
  have hc := find_keeps (s.ringCfg s.input.unit)
  mvcgen [hc, some_spec]
  exact agentWrite_wf ‹_› ..
@[simp] theorem setQueue_mem (c : QueueCfg) : (s.setQueue c).mem = s.mem := by simp [State.setQueue]
theorem queueConfig_keeps : s.Keeps (execQueueConfig s) := by
  refine event_keeps ?_
  mvcgen [some_spec, none_spec]
  simp_all
theorem priorityAging_keeps : s.Keeps (execPriorityAging s) := by
  refine event_keeps ?_
  mvcgen [some_spec, none_spec]

/-! ### Dispatch -/

@[simp] theorem popHead_mem (q : Nat) : (s.popHead q).mem = s.mem := by
  unfold State.popHead
  split
  · rfl
  · dsimp only
    split <;> simp
  · simp
@[simp] theorem giveCredits_mem (part : BitVec 4) (q : Nat) (owed : Bool) : (s.giveCredits part q owed).mem = s.mem := rfl
@[simp] theorem resume_mem (p : Parked) (k : SlotNo) : (s.resume p k).mem = s.mem := by simp [State.resume]
theorem startEntry_keeps (e : QEntry) (p : Plot) : ⦃⌜Memory.wf s.mem⌝⦄ s.startEntry e p ⦃canonOr id⦄ := by
  unfold State.startEntry
  generalize s.idleSlot p.home = idle
  have hk := find_keeps idle
  cases e with
  | item r =>
    mvcgen [hk, some_spec]
    simp_all
  | parked uid =>
    mvcgen [hk, map_keeps]
    simp_all
  | saved uid =>
    refine option_triple_iff.mpr fun h => ⟨fun t ht => ?_, fun _ => trivial⟩
    obtain ⟨k, -, ht⟩ := Option.bind_eq_some_iff.mp ht
    obtain ⟨v, -, ht⟩ := Option.bind_eq_some_iff.mp ht
    exact some_wf ht (@restore_keeps s v p k) h
  | launch id => mvcgen [hk, none_spec]
@[simp] theorem setReserves_mem (part : Nat) (l : List Reserve) : (s.setReserves part l).mem = s.mem := rfl
theorem pickEntry_keeps (part : Nat) : ⦃⌜Memory.wf s.mem⌝⦄ s.pickEntry part ⦃canonOr id⦄ := by
  have hp l := find_keeps (pickOf l)
  mvcgen [State.pickEntry, hp, startEntry_keeps, some_spec, none_spec]
  all_goals simp_all +zetaDelta
theorem dispatchItem_keeps : s.Keeps (execDispatchItem s) := by
  refine event_keeps ?_
  mvcgen [startEntry_keeps, pickEntry_keeps]
theorem replicaAccept_keeps : s.Keeps (execReplicaAccept s) := by
  refine event_keeps ?_
  mvcgen [some_spec, none_spec]
  all_goals simp_all
theorem startTimeout_keeps : s.Keeps (execStartTimeout s) := by
  refine event_keeps ?_
  have hl := find_keeps (s.launches.find? (·.id == s.input.unit))
  mvcgen [hl, some_spec, none_spec]
  all_goals simp_all
theorem replicatedPacket_keeps : s.Keeps (execReplicatedPacket s) := by
  refine event_keeps ?_
  have hc := find_keeps (s.ringCfg s.input.unit)
  mvcgen [hc, some_spec, none_spec]
  all_goals simp_all
theorem faultRingSpace_keeps : s.Keeps (execFaultRingSpace s) := by
  refine event_keeps ?_
  have hc := find_keeps (NMap.get {} s.parts s.input.unit).cfg
  mvcgen [hc, ringBlk_keeps, agentWrite_keeps, none_spec]
theorem peerTimeout_keeps : s.Keeps (execPeerTimeout s) := by
  refine slotEvent_keeps fun s => ?_
  have he := find_keeps s.thr.sq.head?
  have ho := find_keeps s.thr.openOuts.head?
  have ha (o : Out) := find_keeps ((s.outBytes o).1.find? fun a => ((s.withRoot o.root).peerLeaf a).isSome)
  mvcgen [he, ho, ha, some_spec, none_spec]
  all_goals simp_all

/-! ### The reset of a partition -/

theorem resetTold_keeps (k : SlotNo) (t : Thread) (f : FaultRec) :
    ⦃⌜Memory.wf s.mem⌝⦄ (((s.atSlot k).withThr t).pushReport k t f).map (fun u => u.withThr (s.atSlot k).thr) ⦃canonOr id⦄ := by
  have hu : Memory.wf s.mem → Memory.wf ((s.atSlot k).withThr t).mem := fun h => by simpa
  refine option_triple_iff.mpr fun h => ⟨fun v hv => ?_, fun _ => trivial⟩
  obtain ⟨u, hp, rfl⟩ := Option.map_eq_some_iff.mp hv
  have hp := some_wf hp (pushReport_keeps _ _ _ _) (hu h)
  exact hp
theorem resetJoin_keeps (force : Bool) (k : SlotNo) (t : Thread) : ⦃⌜Memory.wf s.mem⌝⦄ s.resetJoin force k t ⦃canonOr id⦄ := by
  have hu : Memory.wf s.mem → Memory.wf ((s.atSlot k).withThr t).mem := fun h => by simpa
  unfold State.resetJoin
  mvcgen [some_spec]
  next hj h =>
    have hj := ok_wf hj (joinAdd_keeps _ _ _ _) (hu h)
    exact wakeOn_wf hj _ _
  next h => exact getD_wf (resetTold_keeps s k t _) h h
  next => exact Triple.iff.mp (resetTold_keeps s k t _)
@[simp] theorem resetCount_mem (t : Thread) : (s.resetCount t).mem = s.mem := by simp [State.resetCount]
@[simp] theorem resetEnd_mem (k : SlotNo) (t : Thread) : (s.resetEnd k t).mem = s.mem := by simp [State.resetEnd]
@[simp] theorem resetSlot_mem (k : SlotNo) : (s.resetSlot k).mem = s.mem := by simp [State.resetSlot]
@[simp] theorem resetEngines_mem (part : BitVec 4) (uids : List Nat) : (s.resetEngines part uids).mem = s.mem := by
  have hrest (u : State) (calls sends cmdq) (hu : u.mem = s.mem) : ({ u with calls := calls, sends := sends, cmdq := cmdq } : State).mem = s.mem := hu
  unfold State.resetEngines
  refine hrest _ _ _ _ (foldl_mem s (fun t e => ?_) _)
  split
  · exact setEngine_mem ..
  · rfl
@[simp] theorem resetGroups_wf {s : State} (h : Memory.wf s.mem) (part : BitVec 4) : Memory.wf (s.resetGroups part).mem := by
  unfold State.resetGroups
  refine foldl_wf (fun _ _ h => agentWrite_wf h ..) ?_ _
  exact h
@[simp] theorem resetQueues_mem (part : BitVec 4) : (s.resetQueues part).mem = s.mem := rfl
@[simp] theorem cancelLaunches_wf {s : State} (h : Memory.wf s.mem) (part : BitVec 4) : Memory.wf (s.cancelLaunches part).mem :=
  foldl_wf (fun _ _ h => finishLaunch_wf h ..) h _
@[simp] theorem resetTrace_mem (part : BitVec 4) : (s.resetTrace part).mem = s.mem := rfl
theorem resetReport_keeps (force : Bool) (k : SlotNo) (t : Thread) : ⦃⌜Memory.wf s.mem⌝⦄ s.resetReport force k t ⦃canonOr id⦄ := by
  unfold State.resetReport
  mvcgen [some_spec, pushReport_keeps]
  exact getD_wf (pushReport_keeps _ _ _ _) ‹_› ‹_›
theorem resetItem_keeps (force : Bool) (x : Option SlotNo × Thread) : ⦃⌜Memory.wf s.mem⌝⦄ s.resetItem force x ⦃canonOr id⦄ := by
  mvcgen [State.resetItem, resetReport_keeps, resetJoin_keeps, some_spec]
  next u _ _ =>
    rcases x with ⟨_ | k, t⟩ <;> simp_all +zetaDelta
theorem resetItems_keeps (force : Bool) (l : List (Option SlotNo × Thread)) :
    ⦃⌜Memory.wf s.mem⌝⦄ l.foldlM (fun (s : State) x => s.resetItem force x) s ⦃canonOr id⦄ := by
  mvcgen [resetItem_keeps] invariants
  · post⟨fun x => ⌜Memory.wf x.2.mem⌝, fun _ => ⌜True⌝⟩
  all_goals exact id
theorem resetPartition_keeps (part : BitVec 4) (force : Bool) : ⦃⌜Memory.wf s.mem⌝⦄ s.resetPartition part force ⦃canonOr id⦄ := by
  refine option_triple_iff.mpr fun h => ⟨fun t ht => ?_, fun _ => trivial⟩
  obtain ⟨u, hu, ht⟩ := Option.bind_eq_some_iff.mp ht
  obtain rfl := Option.some.inj ht
  have hslots (l : List SlotNo) : Memory.wf (l.foldl State.resetSlot s).mem := foldl_wf (fun _ _ h => by simpa) h l
  have hitems (v : State) (parked saved flights) (uids) (hv : Memory.wf v.mem) :
      Memory.wf (({ v with parked := parked, saved := saved, flights := flights } : State).resetEngines part uids).mem := by simpa
  have hunits (v : State) (units) (hv : Memory.wf v.mem) : Memory.wf ({ v with units := units } : State).mem := hv
  have hg := some_wf hu (resetItems_keeps _ _ _) (hunits _ _ (resetGroups_wf (hitems _ _ _ _ _ (hslots _)) _))
  change Memory.wf (((u.resetQueues part).cancelLaunches part).resetTrace part).mem
  rw [resetTrace_mem]
  exact cancelLaunches_wf (by rwa [resetQueues_mem]) _
theorem partitionReset_keeps : s.Keeps (execPartitionReset s) := event_keeps (resetPartition_keeps s _ _)
theorem enginePartitionAssign_keeps : s.Keeps (execEnginePartitionAssign s) := by
  refine event_keeps ?_
  mvcgen [some_spec, none_spec]
  simp_all
end
end Sys2Proof.Machine
end

section
/-!
PROOFS. Main memory keeps its canonical form: the power control block, descriptors, trace and the debug block.
-/
namespace Sys2Proof.Machine
open Std.Do
set_option mvcgen.warning false

section
variable (s : State)

/-! ### The power control block -/

@[simp] theorem setRail_mem (r : Nat) (v : Rail) : (s.setRail r v).mem = s.mem := rfl
@[simp] theorem revolt_mem (r : Nat) : (s.revolt r).mem = s.mem := by simp [State.revolt]
@[simp] theorem refuse_mem (offset why : Nat) : (s.refuse offset why).mem = s.mem := rfl
@[simp] theorem writeRail_mem (r : Nat) (v : Word) : (s.writeRail r v).mem = s.mem := by simp [State.writeRail]
theorem railctlWrite_keeps : s.Keeps (execRailctlWrite s) := by
  refine event_keeps ?_
  mvcgen [some_spec, none_spec]
  simp_all
@[simp] theorem writeVfenergy_mem (v : Nat) (w : Word) : (s.writeVfenergy v w).mem = s.mem := by simp [State.writeVfenergy]
theorem vfenergyWrite_keeps : s.Keeps (execVfenergyWrite s) := by
  refine event_keeps ?_
  mvcgen [some_spec, none_spec]
  simp_all
@[simp] theorem emitDvfs_mem (cluster status : Nat) : (s.emitDvfs cluster status).mem = s.mem := by simp [State.emitDvfs]
@[simp] theorem setDvfs_mem (d : Dvfs) : (s.setDvfs d).mem = s.mem := rfl
@[simp] theorem beginHop_mem (c p : Nat) (thermal : Bool) : (s.beginHop c p thermal).mem = s.mem := rfl
@[simp] theorem capNext_mem : s.capNext.mem = s.mem := by
  unfold State.capNext
  generalize List.range 256 = clusters
  split
  · rfl
  · dsimp only
    split <;> simp
@[simp] theorem endHop_mem : s.endHop.mem = s.mem := by simp [State.endHop]
@[simp] theorem writeDvfsreq_mem (v : Word) : (s.writeDvfsreq v).mem = s.mem := by simp [State.writeDvfsreq]
theorem dvfsRequest_keeps : s.Keeps (execDvfsRequest s) := by
  refine event_keeps ?_
  mvcgen [some_spec]
  simpa
@[simp] theorem loseCells_mem (c : Nat) : (s.loseCells c).mem = s.mem := rfl
@[simp] theorem writeClctl_mem (c : Nat) (v : Word) : (s.writeClctl c v).mem = s.mem := by simp [State.writeClctl]
theorem clctlWrite_keeps : s.Keeps (execClctlWrite s) := by
  refine event_keeps ?_
  mvcgen [some_spec, none_spec]
  simp_all
@[simp] theorem powerSet_mem (off : Nat) (v : Word) : (s.powerSet off v).mem = s.mem := by simp [State.powerSet]
theorem railRampDone_keeps : s.Keeps (execRailRampDone s) := by
  refine event_keeps ?_
  mvcgen [some_spec, none_spec]
  all_goals simp_all
theorem clockHop_keeps : s.Keeps (execClockHop s) := by
  refine event_keeps ?_
  mvcgen [some_spec, none_spec]
  all_goals simp_all +zetaDelta
theorem droopDetect_keeps : s.Keeps (execDroopDetect s) := by
  refine event_keeps ?_
  mvcgen [some_spec, none_spec]
theorem droopEnd_keeps : s.Keeps (execDroopEnd s) := by
  refine event_keeps ?_
  have hn := find_keeps (s.cluster s.input.unit).stretch
  mvcgen [hn, some_spec, none_spec]
  simp_all
@[simp] theorem cycleSlot_mem (k : SlotNo) (held : Bool) (energy : Nat) : (s.cycleSlot k held energy).mem = s.mem := by
  simp [State.cycleSlot]
@[simp] theorem debitItem_mem (x : Charge) (v : Nat) : (s.debitItem x v).mem = s.mem := by
  unfold State.debitItem
  split <;> simp
theorem chargeCycle_keeps : s.Keeps (execChargeCycle s) := by
  refine event_keeps ?_
  mvcgen [some_spec, none_spec]
  next h =>
    refine foldl_wf (fun _ _ h => by simpa) (foldl_wf (fun _ _ h => by simpa) ?_ _) _
    simpa
theorem clusterSample_keeps : s.Keeps (execClusterSample s) := by
  refine event_keeps ?_
  mvcgen [some_spec, none_spec]
  simp_all
@[simp] theorem meltdown_wf {s : State} (h : Memory.wf s.mem) : Memory.wf s.meltdown.mem := by
  have hboot (u : State) (boot) (hu : Memory.wf u.mem) : Memory.wf ({ u with rows := [], units := [], boot := boot } : State).mem := hu
  unfold State.meltdown
  refine hboot _ _ (foldl_wf (fun _ _ h => by simpa) (foldl_wf (fun _ _ h => by simpa) (foldl_wf (fun s p h => ?_) h _) _) _)
  exact getD_wf (resetPartition_keeps s _ _) h h
theorem thermalThreshold_keeps : s.Keeps (execThermalThreshold s) := by
  refine event_keeps ?_
  mvcgen [some_spec, none_spec]
  next h => split <;> simp_all +zetaDelta

/-! ### Descriptors -/

@[simp] theorem setT_mem (n : BitVec 6) (v : BitVec 256) : (s.setT n v).mem = s.mem := by
  unfold State.setT
  split <;> rfl
@[simp] theorem setE_mem (n : BitVec 3) (v : Word) : (s.setE n v).mem = s.mem := by
  unfold State.setE
  split <;> rfl
theorem validate_keeps (d : BitVec 256) : ⦃⌜True⌝⦄ s.validate d ⦃canonWait⦄ := by
  mvcgen [State.validate, need_keeps]
theorem writeT_keeps (n : BitVec 6) (d : BitVec 256) : ⦃⌜Memory.wf s.mem⌝⦄ s.writeT n d ⦃canon (·.st)⦄ := by
  mvcgen [State.writeT, validate_keeps]
  simp_all
theorem tdset_keeps (f : FT) : s.Keeps (execTdset f s) := issue_keeps (writeT_keeps s _ _)
theorem tdget_keeps (f : FT) : s.Keeps (execTdget f s) := pureOp_keeps fun h => by simpa
theorem descAccess_keeps (w : Want) (a : Word) : ⦃⌜Memory.wf s.mem⌝⦄ s.descAccess w a ⦃canon (·.1)⦄ := by
  mvcgen [State.descAccess, resolve_keeps, need_keeps]
theorem tdld_keeps (f : FT) : s.Keeps (execTdld f s) := by
  refine issue_keeps ?_
  mvcgen [loadWaits_keeps, descAccess_keeps, claim_keeps, writeT_keeps]
theorem tdst_keeps (f : FT) : s.Keeps (execTdst f s) := by
  refine issue_keeps ?_
  mvcgen [descAccess_keeps, storeClaims_keeps]
theorem tdmove_keeps (f : FT) : s.Keeps (execTdmove f s) := by
  refine issue_keeps ?_
  mvcgen [need_keeps, writeT_keeps]
theorem tdsub_keeps (f : FT) : s.Keeps (execTdsub f s) := by
  refine issue_keeps ?_
  mvcgen [need_keeps, writeT_keeps]
theorem edset_keeps (f : FT) : s.Keeps (execEdset f s) := pureOp_keeps fun h => by simpa
theorem edget_keeps (f : FT) : s.Keeps (execEdget f s) := pureOp_keeps fun h => by simpa

/-! ### Device time -/

@[simp] theorem resync_mem : s.resync.mem = s.mem := rfl
theorem discipline_keeps (d : Int) : ⦃⌜Memory.wf s.mem⌝⦄ s.discipline d ⦃canonOr id⦄ := by
  unfold State.discipline
  mvcgen [some_spec, none_spec]
theorem ptpAdjust_keeps : s.Keeps (execPtpAdjust s) := by
  refine event_keeps ?_
  mvcgen [discipline_keeps, none_spec]
theorem timeResync_keeps : s.Keeps (execTimeResync s) := event_keeps (Triple.iff.mpr fun h => h)
theorem ptpLockChange_keeps : s.Keeps (execPtpLockChange s) := by
  refine event_keeps ?_
  mvcgen [some_spec, none_spec]
  next h => simp +zetaDelta [h]
theorem pcSample_keeps : s.Keeps (execPcSample s) := by
  refine slotEvent_keeps fun s => ?_
  mvcgen [some_spec, none_spec]
  simp_all +zetaDelta

/-! ### The merge -/

theorem traceBlk_keeps (c : TraceCfg) : ⦃⌜Memory.wf s.mem⌝⦄ s.traceBlk c ⦃canonOr (·.1)⦄ := by
  refine option_triple_iff.mpr fun h => ⟨fun x hx => ?_, fun _ => trivial⟩
  obtain ⟨y, hy, rfl⟩ := Option.map_eq_some_iff.mp hx
  have hy := some_wf hy (agentRead_keeps _ _ _ _ _) h
  exact hy
theorem writeRecords_keeps (c : TraceCfg) (b : TraceBlk) (l : List (List Byte)) (tail : Nat) :
    ⦃⌜Memory.wf s.mem⌝⦄ s.writeRecords c b l tail ⦃canonOr (·.1)⦄ := by
  induction l generalizing s tail with
  | nil => exact Triple.iff.mpr fun h => h
  | cons r l ih =>
    unfold State.writeRecords
    mvcgen [agentWrite_keeps, ih]
/-- What an event does at its ring with main memory in canonical form. -/
def Merged.Wf : Merged → Prop
  | .written t => Memory.wf t.mem
  | .full t => Memory.wf t.mem
  | .broken => True
theorem mergeOne_wf {s : State} (h : Memory.wf s.mem) (e : Ev) : (s.mergeOne e).Wf := by
  unfold State.mergeOne
  split
  · trivial
  · next c u b hx =>
    obtain ⟨c', -, hx⟩ := Option.bind_eq_some_iff.mp hx
    obtain ⟨y, hy, hx⟩ := Option.map_eq_some_iff.mp hx
    obtain ⟨rfl, rfl⟩ := Prod.mk.inj hx
    have hu := some_wf hy (traceBlk_keeps _ _) h
    dsimp only
    split
    · exact hu
    · split
      · trivial
      · next v hv =>
        obtain ⟨z, hz, hv⟩ := Option.bind_eq_some_iff.mp hv
        have hz := some_wf hz (writeRecords_keeps _ _ _ _ _) hu
        have hv := some_wf hv (agentWrite_keeps _ _ _ _ _) hz
        exact hv
@[simp] theorem breakTrace_wf {s : State} (h : Memory.wf s.mem) (vf lost : Nat) : Memory.wf (s.breakTrace vf lost).mem := by
  unfold State.breakTrace
  dsimp only
  split <;> split <;> simp_all
@[simp] theorem refresh_wf {s : State} (h : Memory.wf s.mem) (vf : Nat) : Memory.wf (s.refresh vf).mem := by
  unfold State.refresh
  split
  · exact h
  · split
    · next u b hu =>
      have hu := some_wf hu (traceBlk_keeps _ _) h
      simpa
    · split <;> simp [h]
@[simp] theorem countLost_wf {s : State} (h : Memory.wf s.mem) (vf : Nat) : Memory.wf (s.countLost vf).mem := by
  unfold State.countLost
  dsimp only
  split
  · exact h
  · split
    · next u hu =>
      obtain ⟨c, -, hu⟩ := Option.bind_eq_some_iff.mp hu
      obtain ⟨x, hx, hu⟩ := Option.bind_eq_some_iff.mp hu
      have hx := some_wf hx (traceBlk_keeps _ _) h
      have hu := some_wf hu (agentWrite_keeps _ _ _ _ _) hx
      simpa
    · exact h
@[simp] theorem holdEvent_mem (e : Ev) : (s.holdEvent e).mem = s.mem := by simp [State.holdEvent]
@[simp] theorem noRoom_mem (e : Ev) : (s.noRoom e).mem = s.mem := by simp [State.noRoom]
theorem mergeAll_wf {s : State} (h : Memory.wf s.mem) (l : List Ev) : Memory.wf (s.mergeAll l).mem := by
  induction l generalizing s with
  | nil => exact h
  | cons e l ih =>
    have hm := mergeOne_wf h e
    unfold State.mergeAll
    split
    · exact ih h
    · split
      · exact ih (by simpa)
      · split <;> rename_i hc
        · rw [hc] at hm
          exact ih hm
        · exact ih (breakTrace_wf h ..)
        · rw [hc] at hm
          exact ih (by rw [noRoom_mem]; exact hm)
@[simp] theorem countWaits_mem : s.countWaits.mem = s.mem := rfl
@[simp] theorem refreshAll_wf {s : State} (h : Memory.wf s.mem) : Memory.wf s.refreshAll.mem := by
  have hf := foldl_wf (f := State.refresh) (fun _ _ h => refresh_wf h _) h (s.traces.map (·.1))
  exact hf
theorem watermarkStep_keeps : s.Keeps (execWatermarkStep s) := by
  refine event_keeps (Triple.iff.mpr fun h => ?_)
  refine foldl_wf (fun _ _ h => countLost_wf h _) (mergeAll_wf ?_ _) _
  exact refreshAll_wf (s := s.countWaits) h
theorem mergeCounterRead_keeps : s.Keeps (execMergeCounterRead s) := by
  refine event_keeps ?_
  mvcgen [some_spec]
  simp_all

/-! ### The debug block -/

/-- What a debugger's write does with main memory in canonical form. -/
def DbgWrote.Wf : DbgWrote → Prop
  | .done t => Memory.wf t.mem
  | _ => True
theorem DbgWrote.ite_wf {c : Prop} [Decidable c] {x y : DbgWrote} (hx : x.Wf) (hy : y.Wf) : (if c then x else y).Wf := by
  split <;> assumption
open DbgWrote in
theorem debugWrite_wf {s : State} (h : Memory.wf s.mem) (n : Nat) (v : Word) : (s.debugWrite n v).Wf := by
  have hsame : (DbgWrote.done s).Wf := h
  have hno : DbgWrote.refused.Wf := trivial
  unfold State.debugWrite
  extract_lets t put
  have hput (t : Thread) : (put t).Wf := h
  refine ite_wf ?sys <| ite_wf hsame <| ite_wf (hput _) <| ite_wf (hput _) <| ite_wf (hput _) <| ite_wf (ite_wf (hput _) hno) <|
    ite_wf hsame <| ite_wf (hput _) <| ite_wf ?desc hno
  case sys =>
    split
    · refine ite_wf ?_ hno
      split
      · next u hu => exact ok_wf hu (sysWrite_keeps _ _ _) h
      · trivial
    · exact hno
  case desc =>
    extract_lets
    split
    · exact hput _
    · exact hno
@[simp] theorem setSlotDbg_mem (d : Dbg) : (s.setDbg d).mem = s.mem := rfl
@[simp] theorem dropLogged_mem (mask : Word) : (s.dropLogged mask).mem = s.mem := rfl
theorem debugCmd_keeps (cmd : Nat) : ⦃⌜Memory.wf s.mem⌝⦄ s.debugCmd cmd ⦃canonOr id⦄ := by
  unfold State.debugCmd
  mvcgen [some_spec, none_spec]
  next hw h =>
    have hd := debugWrite_wf h s.curDbg.num.toNat s.curDbg.data
    rw [hw] at hd
    exact hd
theorem commandEvent_keeps (cmd : Nat) (num : Option (BitVec 16)) (data : Option Word) :
    ⦃⌜Memory.wf s.mem⌝⦄ commandEvent cmd num data s ⦃canonOr id⦄ :=
  debugCmd_keeps (s.setDbg _) cmd
theorem haltSlot_keeps : s.Keeps (execHaltSlot s) := slotEvent_keeps fun s => commandEvent_keeps s _ _ _
theorem resumeSlot_keeps : s.Keeps (execResumeSlot s) := slotEvent_keeps fun s => commandEvent_keeps s _ _ _
theorem stepSlot_keeps : s.Keeps (execStepSlot s) := slotEvent_keeps fun s => commandEvent_keeps s _ _ _
theorem dbgRead_keeps : s.Keeps (execDbgRead s) := slotEvent_keeps fun s => commandEvent_keeps s _ _ _
theorem dbgWrite_keeps : s.Keeps (execDbgWrite s) := slotEvent_keeps fun s => commandEvent_keeps s _ _ _
theorem dbgSample_keeps : s.Keeps (execDbgSample s) := slotEvent_keeps fun s => commandEvent_keeps s _ _ _
theorem droplog_keeps : s.Keeps (execDroplog s) := slotEvent_keeps fun s => commandEvent_keeps s _ _ _
theorem debugSet_keeps (r : Nat) (v : Word) : ⦃⌜Memory.wf s.mem⌝⦄ s.debugSet r v ⦃canonOr id⦄ := by
  unfold State.debugSet
  mvcgen [some_spec, debugCmd_keeps]
end
end Sys2Proof.Machine
end

section
/-!
PROOFS. Main memory keeps its canonical form: items from other devices, control operations and the CTRL family.
-/
namespace Sys2Proof.Machine
open Std.Do
set_option mvcgen.warning false

section
variable (s : State)

/-! ### Items from another device -/

theorem groupOfRecord_keeps (a : Adopted) (va : Nat) : ⦃⌜Memory.wf s.mem⌝⦄ s.groupOfRecord a va ⦃canonOr id⦄ := by
  unfold State.groupOfRecord
  mvcgen [agentRead_keeps, some_spec, none_spec]
theorem joinRecords_keeps (a : Adopted) (uid : Nat) (hb : List Byte) : ⦃⌜Memory.wf s.mem⌝⦄ s.joinRecords a uid hb ⦃canonOr id⦄ := by
  mvcgen [State.joinRecords, groupOfRecord_keeps, some_spec] invariants
  · post⟨fun x => ⌜Memory.wf x.2.mem⌝, fun _ => ⌜True⌝⟩
  all_goals exact id
theorem adopt_keeps (a : Adopted) : ⦃⌜Memory.wf s.mem⌝⦄ s.adopt a ⦃canonOr id⦄ := by
  mvcgen [State.adopt, agentRead_keeps, joinRecords_keeps, some_spec]

/-! ### Control operations -/

@[simp] theorem answerWord_mem (v : Word) : (s.answerWord v).mem = s.mem := rfl
theorem control_keeps (c : Control) : ⦃⌜Memory.wf s.mem⌝⦄ s.control c ⦃canonOr id⦄ := by
  have hp off := find_keeps (debugPlace off)
  cases c with
  | powerRead off => exact Triple.iff.mpr fun h => h
  | powerWrite off v =>
    unfold State.control
    mvcgen [some_spec]
    simpa
  | traceBlock c =>
    unfold State.control
    mvcgen [some_spec, none_spec]
  | debugRead by' off =>
    unfold State.control
    mvcgen [hp, some_spec, none_spec]
  | debugWrite by' off v =>
    unfold State.control
    mvcgen [hp, debugSet_keeps, none_spec]
    simp_all
  | portPart n p =>
    unfold State.control
    mvcgen [some_spec, none_spec]
  | partition c =>
    unfold State.control
    mvcgen [some_spec, none_spec]
  | ringName n w =>
    unfold State.control
    apply map_keeps
    exact fun _ h => h
  | receive qp pa layout key len => exact Triple.iff.mpr fun h => h
  | ptpPort p => exact Triple.iff.mpr fun h => h
  | timeWrite t =>
    unfold State.control
    mvcgen [discipline_keeps, none_spec]
  | adopt a => exact @adopt_keeps s a
theorem systemCoreAccess_keeps : s.Keeps (execSystemCoreAccess s) := by
  refine event_keeps ?_
  mvcgen [outside_keeps, control_keeps, none_spec]

/-! ### The CTRL family -/

theorem nop_keeps (f : FE) : s.Keeps (execNop f s) := pureOp_keeps fun h => h
theorem exitThread_keeps (f : FE) : s.Keeps (execExitThread f s) := by
  refine issue_keeps ?_
  mvcgen [ok_spec]
theorem yieldSlot_keeps (f : FE) : s.Keeps (execYieldSlot f s) := issue_keeps (Triple.iff.mpr fun h => h)
theorem trap_keeps (f : FE) : s.Keeps (execTrap f s) := issue_keeps (Triple.iff.mpr fun h => h)
theorem eret_keeps (f : FE) : s.Keeps (execEret f s) := by
  refine issue_keeps ?_
  mvcgen [waitFor_keeps]
  simp_all
theorem sysr_keeps (f : FE) : s.Keeps (execSysr f s) := pureOp_keeps fun h => by simpa
theorem sysw_keeps (f : FE) : s.Keeps (execSysw f s) := by
  refine issue_keeps ?_
  mvcgen [sysWrite_keeps]
theorem sysx_keeps (f : FE) : s.Keeps (execSysx f s) := by
  refine issue_keeps ?_
  mvcgen [sysWrite_keeps]
  simp_all
theorem brk_keeps (f : FE) : s.Keeps (execBrk f s) := issue_keeps (Triple.iff.mpr fun h => h)
theorem tstamp_keeps (f : FE) : s.Keeps (execTstamp f s) := pureOp_keeps fun h => by simpa
theorem evt_keeps (f : FE) : s.Keeps (execEvt f s) := pureOp_keeps fun h => by simpa
end
end Sys2Proof.Machine
end

section
/-!
PROOFS. Main memory keeps its canonical form: the COPY family.
-/
namespace Sys2Proof.Machine
open Std.Do
set_option mvcgen.warning false

section
variable (s : State)

/-! ### Channels -/

@[simp] theorem setChan_mem (k : Nat) (c : Chan) : (s.setChan k c).mem = s.mem := rfl
@[simp] theorem setHead_mem (k : Nat) (c : Copy) : (s.setHead k c).mem = s.mem := by
  unfold State.setHead
  dsimp only
  split <;> rfl
@[simp] theorem finishBatch_mem (b : Option (BitVec 16)) : (s.finishBatch b).mem = s.mem := by
  unfold State.finishBatch
  split
  · rfl
  · split <;> simp
@[simp] theorem copyDone_mem (k : Nat) (batch : Option (BitVec 16)) : (s.copyDone k batch).mem = s.mem := by simp [State.copyDone]
@[simp] theorem completeCopy_mem (k : Nat) (c : Copy) : (s.completeCopy k c).mem = s.mem := by simp [State.completeCopy]
@[simp] theorem passMasked_mem (k n : Nat) : (s.passMasked k n).mem = s.mem := by
  induction n generalizing s with
  | zero => rfl
  | succ n ih =>
    unfold State.passMasked
    split
    · rfl
    · split
      · rfl
      · split
        · simp [ih]
        · split <;> simp [ih]
@[simp] theorem passHead_mem (k : Nat) : (s.passHead k).mem = s.mem := by simp [State.passHead]
theorem pushCopy_keeps (f : FQ) (c : Copy) : ⦃⌜Memory.wf s.mem⌝⦄ s.pushCopy f c ⦃canon (·.st)⦄ := by
  mvcgen [State.pushCopy, waitFor_keeps]
  simp_all +zetaDelta

/-! ### Issue -/

theorem cpioForm_keeps (fn : Nat) (kind : CopyKind) (f : FQ) : s.Keeps (cpioForm fn kind f s) := by
  refine issue_keeps ?_
  mvcgen [need_keeps, powered_keeps, pushCopy_keeps]
theorem gatherForm_keeps (fn : Nat) (kind : CopyKind) (f : FQ) : s.Keeps (gatherForm fn kind f s) := by
  refine issue_keeps ?_
  mvcgen [need_keeps, powered_keeps, pushCopy_keeps]
theorem cpp_keeps (f : FQ) : s.Keeps (execCpp f s) := by
  refine issue_keeps ?_
  mvcgen [need_keeps, forM_keeps, powered_keeps, pushCopy_keeps]
theorem copyNothing_keeps (f : FQ) : ⦃⌜Memory.wf s.mem⌝⦄ s.copyNothing f ⦃canon (·.st)⦄ := by
  mvcgen [State.copyNothing, waitFor_keeps]
  simp_all +zetaDelta
theorem cpm_keeps (f : FQ) : s.Keeps (execCpm f s) := by
  refine issue_keeps ?_
  mvcgen [need_keeps, copyNothing_keeps, pushCopy_keeps]
theorem seal_keeps (f : FQ) : s.Keeps (execSeal f s) := by
  refine issue_keeps ?_
  mvcgen [waitFor_keeps]
  simp_all +zetaDelta
theorem waitb_keeps (f : FQ) : s.Keeps (execWaitb f s) := by
  refine issue_keeps ?_
  mvcgen [waitFor_keeps]
theorem wptr_keeps (f : FQ) : s.Keeps (execWptr f s) := pureOp_keeps fun h => by simpa
theorem cpstat_keeps (f : FQ) : s.Keeps (execCpstat f s) := pureOp_keeps fun h => by simpa

/-! ### Units -/

theorem copyRead_keeps (vas : List Word) : ⦃⌜Memory.wf s.mem⌝⦄ s.copyRead vas ⦃canonOr (·.1)⦄ := by
  mvcgen [State.copyRead, agentLocs_keeps, error_spec]
@[simp] theorem putBits_wf {s : State} (h : Memory.wf s.mem) (m : MBits) (l : Loc × Nat) : Memory.wf (s.putBits m l).mem := putBytes_wf h _
theorem copyWrite_keeps (ms : List MBits) : ⦃⌜Memory.wf s.mem⌝⦄ s.copyWrite ms ⦃canonOr (·.1)⦄ := by
  mvcgen [State.copyWrite, agentLocs_keeps]
  exact foldl_wf (fun _ _ h => putBits_wf h ..) ‹_› _
@[simp] theorem covered_mem (c : Copy) (hit : List Loc) : (c.covered s hit).1.mem = s.mem := by
  unfold Copy.covered
  split <;> simp [clearPoison_mem]
theorem moveElems_keeps (c : Copy) (d a : Place) (xs : List (Nat × Nat × Nat)) :
    ⦃⌜Memory.wf s.mem⌝⦄ s.moveElems c d a xs ⦃canonOr (·.1)⦄ := by
  unfold State.moveElems
  mvcgen [copyRead_keeps, copyWrite_keeps, ok_spec, error_spec]
  all_goals simp_all
@[simp] theorem cleanRows_mem (c : Copy) (d : Place) (xs : List (Nat × Nat × Nat)) : (s.cleanRows c d xs).mem = s.mem := by
  refine foldl_mem _ (fun s x => ?_) _
  dsimp only
  split <;> simp

/-- How a copy stands with main memory in canonical form. -/
def Served.Wf : Served → Prop
  | .on t .. => Memory.wf t.mem
  | .held t _ => Memory.wf t.mem
  | .fault t .. => Memory.wf t.mem

theorem moveGrid_keeps (c : Copy) (xs : List (Nat × Nat × Nat)) : ⦃⌜Memory.wf s.mem⌝⦄ s.moveGrid c xs ⦃canonOr (·.1)⦄ := by
  have hp t es : ⦃⌜True⌝⦄ s.copyPlace c t es ⦃post⟨fun _ => ⌜True⌝, fun _ => ⌜True⌝⟩⦄ :=
    except_triple_iff.mpr fun _ => ⟨fun _ _ => trivial, fun _ _ => trivial⟩
  mvcgen [State.moveGrid, hp, ok_spec, error_spec]
  next h _ _ _ _ hm _ _ =>
    have hm := ok_wf hm (moveElems_keeps _ _ _ _ _) h
    simpa
theorem serveGrid_wf {s : State} (h : Memory.wf s.mem) (c : Copy) (budget : Nat) : (s.serveGrid c budget).Wf := by
  unfold State.serveGrid
  split
  · exact h
  · extract_lets xs own moved
    have hmoved (u : State) (d : Copy) (n : Nat) (hu : Memory.wf u.mem) : (moved u d n).Wf := by
      unfold moved
      split <;> exact hu
    split
    · exact h
    · split
      · next r hr => exact hmoved _ _ _ (ok_wf hr (moveGrid_keeps _ _ _) h)
      · split
        · next r hr => exact hmoved _ _ _ (ok_wf hr (moveGrid_keeps _ _ _) h)
        · exact h
        · exact h
theorem cpmRead_keeps (a : Word) (n : Nat) : ⦃⌜Memory.wf s.mem⌝⦄ s.cpmRead a n ⦃canonOr (·.1)⦄ := by
  unfold State.cpmRead
  mvcgen [ok_spec, error_spec]
  next hu h => exact ok_wf hu (resolveBytes_keeps _ _ _ _) h
theorem cpmWrite_keeps (dst : Word) (done : Nat) (bs : List Byte) : ⦃⌜Memory.wf s.mem⌝⦄ s.cpmWrite dst done bs ⦃canonOr id⦄ := by
  unfold State.cpmWrite
  mvcgen [ok_spec, error_spec]
  next hu v _ _ h =>
    have hu := ok_wf hu (resolveBytes_keeps _ _ _ _) h
    exact putBytes_wf hu _
  next hu v _ _ _ _ _ h =>
    have hu := ok_wf hu (resolveBytes_keeps _ _ _ _) h
    change Memory.wf (State.clearPoison _ _).mem
    rw [clearPoison_mem]
    exact putBytes_wf hu _
  next hu v _ _ _ _ h =>
    have hu := ok_wf hu (resolveBytes_keeps _ _ _ _) h
    exact putBytes_wf hu _
theorem cpmBuffer_wf {s : State} (h : Memory.wf s.mem) (src : Word) (n k u : Nat) (l : List Byte) :
    Memory.wf (s.cpmBuffer src n k u l).1.mem := by
  induction k generalizing s u l with
  | zero => exact h
  | succ k ih =>
    unfold State.cpmBuffer
    split
    · next v bs hv => exact ih (ok_wf hv (cpmRead_keeps _ _ _) h) _ _
    · exact h
theorem cpmBytes_keeps (c : Copy) (o n : Nat) : ⦃⌜Memory.wf s.mem⌝⦄ s.cpmBytes c o n ⦃canonOr (·.1)⦄ := by
  unfold State.cpmBytes
  mvcgen [cpmRead_keeps, ok_spec]
theorem cpmMove_keeps (c : Copy) (o n : Nat) : ⦃⌜Memory.wf s.mem⌝⦄ s.cpmMove c o n ⦃canonOr id⦄ := by
  mvcgen [State.cpmMove, cpmBytes_keeps, cpmWrite_keeps]
theorem serveCpm_wf {s : State} (h : Memory.wf s.mem) (c : Copy) (budget : Nat) : (s.serveCpm c budget).Wf := by
  have hserve (u : State) (d : Copy) (hu : Memory.wf u.mem) (o n : Nat) : Served.Wf (if n = 0 then .on u d 0
      else match u.cpmMove d o n with
        | .error t => .fault u d t
        | .ok u =>
          let e := { d with written := d.written + n, part := d.part + n }
          if d.part + n < min 32 (d.len - 32 * d.units) then .on u e 0 else .on u e.delivered (budget - 8 * n)) := by
    split
    · exact hu
    · split
      · exact hu
      · next v hv =>
        have hv := ok_wf hv (cpmMove_keeps _ _ _ _) hu
        extract_lets
        split <;> exact hv
  unfold State.serveCpm
  split
  next u d hd =>
    refine hserve u d ?_ (32 * d.units + d.part) (d.cpmTake budget)
    split at hd <;> obtain ⟨rfl, -⟩ := Prod.mk.inj hd
    · exact cpmBuffer_wf h ..
    · exact h
theorem pointerLocs_keeps (gid : Option Nat) (store : Bool) (vas : List Word) :
    ⦃⌜Memory.wf s.mem⌝⦄ s.pointerLocs gid store vas ⦃canonOr (·.1)⦄ := by
  unfold State.pointerLocs
  mvcgen [ok_spec, error_spec]
  next hu h =>
    have hu := ok_wf hu (resolveBytes_keeps _ _ _ _) h
    exact hu
@[simp] theorem setGathered_mem (d : Ten) (g : Gather) (f : Row → Row) : (s.setGathered d g f).mem = s.mem := by
  unfold State.setGathered
  dsimp only
  split <;> simp
theorem gathered_mem (d : Ten) (f : Gather → Row → Row) (l : List Gather) : (l.foldl (fun s g => s.setGathered d g (f g)) s).mem = s.mem :=
  foldl_mem s (fun _ _ => setGathered_mem ..) l
theorem askSectors_wf {s : State} (h : Memory.wf s.mem) (c : Copy) : (s.askSectors c).Wf := by
  unfold State.askSectors
  extract_lets d
  split
  · exact h
  · extract_lets u e
    change Memory.wf u.mem
    rwa [gathered_mem s d (fun g r => { r with data := r.data &&& BitVec.ofNat 256 (2 ^ (32 * g.words) - 1) })]
theorem scatterWord_keeps (a : Ten) (gid : Option Nat) (w : Nat) (hit : List Loc) (l : List Gather) :
    ⦃⌜Memory.wf s.mem⌝⦄ s.scatterWord a gid w hit l ⦃canonOr (·.1)⦄ := by
  induction l generalizing s hit with
  | nil => exact Triple.iff.mpr fun h => h
  | cons g r ih =>
    unfold State.scatterWord
    mvcgen [ih, error_spec]
    next hu h => exact putBytes_wf (ok_wf hu (pointerLocs_keeps _ _ _ _) h) _
theorem scatter_wf {s : State} (h : Memory.wf s.mem) (a : Ten) (c : Copy) (budget : Nat) (l : List Nat) : (s.scatter a c budget l).Wf := by
  induction l generalizing s c budget with
  | nil => exact h
  | cons w r ih =>
    unfold State.scatter
    extract_lets n
    split
    · exact h
    · split
      · exact h
      · exact h
      · next u hit hu =>
        have hu := ok_wf hu (scatterWord_keeps _ _ _ _ _ _) h
        exact ih (s := (c.covered u hit).1) (by rw [covered_mem]; exact hu) _ _
theorem serveCps_wf {s : State} (h : Memory.wf s.mem) (c : Copy) (budget : Nat) : (s.serveCps c budget).Wf := by
  unfold State.serveCps
  extract_lets a
  split
  · exact scatter_wf h ..
  · split
    · exact h
    · exact scatter_wf h ..
theorem serveKind_wf {s : State} (h : Memory.wf s.mem) (c : Copy) (budget : Nat) : (s.serveKind c budget).Wf := by
  unfold State.serveKind
  split
  · exact serveGrid_wf h ..
  · exact serveGrid_wf h ..
  · exact serveGrid_wf h ..
  · exact serveCpm_wf h ..
  · exact askSectors_wf h ..
  · exact serveCps_wf h ..
theorem Served.wf_map {r : Served} (h : r.Wf) {f : State → State} (hf : ∀ s, (f s).mem = s.mem) : (r.map f).Wf := by
  cases r <;> (change Memory.wf (f _).mem; rw [hf]; exact h)
theorem serveUnit_wf {s : State} (h : Memory.wf s.mem) (c : Copy) (budget : Nat) : (s.serveUnit c budget).Wf :=
  Served.wf_map (serveKind_wf (s := s.withRoot c.root) h c budget) fun _ => rfl

/-! ### Bursts -/

@[simp] theorem dropHead_mem (k : Nat) : (s.dropHead k).mem = s.mem := rfl
@[simp] theorem failCopy_mem (k : Nat) (c : Copy) (t : Trap) : (s.failCopy k c t).mem = s.mem := by simp [State.failCopy]
@[simp] theorem gatherDone_mem (k : Nat) (c : Copy) : (s.gatherDone k c).mem = s.mem := by
  unfold State.gatherDone
  extract_lets u d
  rw [completeCopy_mem, setHead_mem]
  exact gathered_mem s _ (fun _ r => { r with poison := false }) _
@[simp] theorem burst_wf {s : State} (h : Memory.wf s.mem) (k left n : Nat) : Memory.wf (s.burst k left n).mem := by
  induction n generalizing s left with
  | zero => exact h
  | succ n ih =>
    unfold State.burst
    split
    · exact h
    · next c _ =>
      have hu := serveUnit_wf h c left
      split
      · exact h
      · split
        · simpa
        · split
          · exact h
          · split
            · exact h
            · split <;> rename_i hc <;> rw [hc] at hu
              · rw [setHead_mem]
                exact hu
              · rw [failCopy_mem]
                exact hu
              · extract_lets v
                have hv : Memory.wf v.mem := by
                  rw [addEnergy_mem]
                  exact hu
                split
                · simpa
                · exact ih (by simpa) _
@[simp] theorem restoreSlack_mem (k no : Nat) : (s.restoreSlack k no).mem = s.mem := rfl
theorem copyBurst_keeps : s.Keeps (execCopyBurst s) := by
  refine event_keeps ?_
  have hc := find_keeps ((s.readyCopies s.input.unit)[s.input.aux]?)
  mvcgen [hc, some_spec, none_spec]
  simp_all
theorem copySlackDecay_keeps : s.Keeps (execCopySlackDecay s) := by
  refine slotEvent_keeps fun s => ?_
  have hc := find_keeps (s.chan s.input.unit).queue.head?
  mvcgen [hc, some_spec, none_spec]
  simp_all
theorem fillSector_keeps (d : Ten) (gid : Option Nat) (q : Nat) (openSectors : List Nat) (l : List Gather) :
    ⦃⌜Memory.wf s.mem⌝⦄ s.fillSector d gid q openSectors l ⦃canonOr id⦄ := by
  induction l generalizing s with
  | nil => exact Triple.iff.mpr fun h => h
  | cons g r ih =>
    unfold State.fillSector
    mvcgen [ih, pointerLocs_keeps]
    simpa
theorem cpgSectorArrival_keeps : s.Keeps (execCpgSectorArrival s) := by
  refine slotEvent_keeps fun s => ?_
  have hc := find_keeps (s.chan s.input.unit).queue.head?
  mvcgen [hc, some_spec, none_spec]
  next => simpa
  next h _ _ _ _ v hv w _ _ u =>
    have hv := ok_wf hv (fillSector_keeps _ _ _ _ _ _) h
    have hw : Memory.wf w.mem := hv
    have hu : Memory.wf u.mem := by rwa [addEnergy_mem]
    simpa
end
end Sys2Proof.Machine
end

section
/-!
PROOFS. Main memory keeps its canonical form: pointer builders, the MATRIX family and the NET family.
-/
namespace Sys2Proof.Machine
open Std.Do
set_option mvcgen.warning false

section
variable (s : State)

/-! ### Pointer builders -/

theorem ptrmk_keeps (f : FB) : s.Keeps (execPtrmk f s) := by
  refine issue_keeps ?_
  mvcgen [need_keeps]
theorem ptrsp_keeps (f : FB) : s.Keeps (execPtrsp f s) := by
  refine issue_keeps ?_
  mvcgen [need_keeps]
theorem ptrrk_keeps (f : FB) : s.Keeps (execPtrrk f s) := by
  refine issue_keeps ?_
  mvcgen [need_keeps]
theorem pladr_keeps (f : FB) : s.Keeps (execPladr f s) := by
  refine issue_keeps ?_
  mvcgen [need_keeps]

/-! ### The MATRIX family -/

theorem poweredAll_keeps (t : Ten) (r : List Ten) : ⦃⌜True⌝⦄ s.poweredAll t r ⦃canonWait⦄ := powered_keeps s _
@[simp] theorem loadUnit_mem (c : Nat) (w : WPlane) : (s.loadUnit c w).mem = s.mem := rfl
theorem wld_keeps (f : FQ) : s.Keeps (execWld f s) := by
  refine issue_keeps ?_
  mvcgen [need_keeps, poweredAll_keeps, begin_keeps]
  exact foldl_wf (fun _ _ h => by simpa) ‹_› _
theorem wswap_keeps (f : FQ) : s.Keeps (execWswap f s) := by
  refine issue_keeps ?_
  mvcgen [need_keeps, poweredAll_keeps, begin_keeps]
  exact foldl_wf (fun _ _ h => by simpa) ‹_› _
@[simp] theorem putBlock_mem (t : Ten) (d : Nat) (b : BlockId) (a : Acc) (poison : Bool) : (s.putBlock t d b a poison).mem = s.mem := by
  unfold State.putBlock
  extract_lets
  split
  · rfl
  · rw [setRow_mem, setRow_mem]
@[simp] theorem stream_mem (x : Stream) : (s.stream x).1.mem = s.mem := by
  unfold State.stream
  split
  · exact foldl_mem _ (fun _ _ => putBlock_mem ..) _
  · exact writeElems_mem ..
theorem mstream_keeps (f : FQ) : s.Keeps (execMstream f s) := by
  refine issue_keeps ?_
  mvcgen [need_keeps, raise_spec, poweredAll_keeps, begin_keeps]
  all_goals simp_all
@[simp] theorem mapBlocks_mem (t : Ten) (g : Acc → Acc) (fresh : Bool) : (s.mapBlocks t g fresh).1.mem = s.mem :=
  foldl_mem _ (fun _ _ => putBlock_mem ..) _
theorem accForm_keeps (fn : Nat) (fresh : Bool) (g : FQ → Acc → Acc) (f : FQ) : s.Keeps (accForm fn fresh g f s) := by
  refine issue_keeps ?_
  mvcgen [need_keeps, poweredAll_keeps, begin_keeps]
  simp_all
theorem accrd_keeps (f : FQ) : s.Keeps (execAccrd f s) := by
  refine issue_keeps ?_
  mvcgen [need_keeps, poweredAll_keeps, begin_keeps]
  simp_all

/-! ### The NET family -/

@[simp] theorem reduceNow_mem (o : PlaneOp) (fn : Nat) (td ta tc : BitVec 256) (edge : Word) (sat : Bool) (imm : BitVec 18) :
    (s.reduceNow o fn td ta tc edge sat imm).mem = s.mem := by
  unfold State.reduceNow
  extract_lets
  split
  · rfl
  · rw [setOp_mem, writeElems_mem]
theorem reduceForm_keeps (fn : Nat) (f : FT) : s.Keeps (reduceForm fn f s) := by
  refine issue_keeps ?_
  mvcgen [need_keeps, powered_keeps, begin_keeps]
theorem reductionRoot_keeps : s.Keeps (execReductionRoot s) := by
  refine slotEvent_keeps fun s => ?_
  have ho := find_keeps (s.opNamed s.input.unit)
  mvcgen [ho, some_spec, none_spec]
  simp_all
theorem bcastForm_keeps (fn : Nat) (f : FT) : s.Keeps (bcastForm fn f s) := issue_keeps (vrun_keeps s _ _)
theorem dred_keeps (f : FT) : s.Keeps (execDred f s) := by
  refine issue_keeps ?_
  mvcgen [need_keeps, powered_keeps, waitFor_keeps, begin_keeps]
theorem dredCombine_keeps : s.Keeps (execDredCombine s) := by
  refine slotEvent_keeps fun s => ?_
  have ho := find_keeps (s.opNamed s.input.unit)
  mvcgen [ho, some_spec, none_spec]
  simp_all
theorem dredTimeout_keeps : s.Keeps (execDredTimeout s) := by
  refine slotEvent_keeps fun s => ?_
  have ho := find_keeps (s.opNamed s.input.unit)
  mvcgen [ho, some_spec, none_spec]
theorem planeOpComplete_keeps : s.Keeps (execPlaneOpComplete s) := by
  refine slotEvent_keeps fun s => ?_
  have ho := find_keeps (s.opNamed s.input.unit)
  mvcgen [ho, some_spec, none_spec]
  simp_all +zetaDelta

/-! ### The STACK family -/

@[simp] theorem pushDoubles_mem (nm : Named) (a : Word) (vs : List (Nat × Word)) : (s.pushDoubles nm a vs).mem = s.mem :=
  foldl_mem s (fun _ _ => pushStore_mem ..) _
theorem enter_keeps (f : FA) : s.Keeps (execEnter f s) := by
  refine issue_keeps ?_
  mvcgen [need_keeps, resolve_keeps, storeClaims_keeps]
theorem leavef_keeps (f : FA) : s.Keeps (execLeavef f s) := by
  refine issue_keeps ?_
  mvcgen [need_keeps, loadWaits_keeps, loadValue_keeps]
theorem resolveDoubles_keeps (w : Want) (a : Word) (n : Nat) : ⦃⌜Memory.wf s.mem⌝⦄ s.resolveDoubles w a n ⦃canon (·.1)⦄ := by
  induction n with
  | zero => exact Triple.iff.mpr fun h => h
  | succ n ih =>
    unfold State.resolveDoubles
    mvcgen [ih, resolve_keeps]
theorem spill_keeps (f : FA) : s.Keeps (execSpill f s) := by
  refine issue_keeps ?_
  mvcgen [need_keeps, resolveDoubles_keeps, storeClaims_keeps]
  exact foldl_wf (fun _ _ h => by simpa) ‹_› _

/-! ### Starts and service -/

@[simp] theorem mirrorBoot_wf {s : State} (h : Memory.wf s.mem) : Memory.wf s.mirrorBoot.mem := by
  unfold State.mirrorBoot
  split
  · exact h
  · exact foldl_wf (fun _ _ h => put_wf h ..) h _
theorem setBoot_wf {s : State} (h : Memory.wf s.mem) (b : Boot) : Memory.wf (s.setBoot b).mem := mirrorBoot_wf (s := { s with boot := b }) h
/-- Memory after a start holds nothing. -/
theorem wiped_wf : Memory.wf s.wiped.mem := rfl
theorem clearMemory_wf {s : State} (h : Memory.wf s.mem) : Memory.wf s.clearMemory.mem := by
  unfold State.clearMemory
  apply mirrorBoot_wf
  exact h
@[simp] theorem retireClusters_mem (l : List (BitVec 8)) : (s.retireClusters l).mem = s.mem := by
  have hoff : (l.foldl (fun (s : State) (c : BitVec 8) => s.setCluster c.toNat { s.cluster c.toNat with on := false }) s).mem = s.mem :=
    foldl_mem s (fun _ _ => setCluster_mem ..) l
  unfold State.retireClusters
  extract_lets u
  split
  · exact hoff
  · rw [foldl_mem u revolt_mem, hoff]
@[simp] theorem configure_mem (c : StartCfg) : (s.configure c).mem = s.mem := by
  unfold State.configure
  extract_lets s1 s2 s3 s4 s5 s6 s7 s8 s9
  have h2 : s2.mem = s1.mem := by
    apply foldl_mem
    exact fun _ _ => rfl
  have h3 : s3.mem = s2.mem := by
    apply foldl_mem
    exact fun _ _ => rfl
  have h4 : s4.mem = s3.mem := by
    apply foldl_mem
    exact fun _ _ => rfl
  have h5 : s5.mem = s4.mem := by
    apply foldl_mem
    exact fun _ _ => rfl
  have h6 : s6.mem = s5.mem := by
    apply foldl_mem
    exact fun _ _ => rfl
  have h7 : s7.mem = s6.mem := foldl_mem s6 setQueue_mem _
  have h8 : s8.mem = s7.mem := foldl_mem s7 (fun _ _ => setEngine_mem ..) _
  have h9 : s9.mem = s8.mem := by
    apply foldl_mem
    exact fun _ _ => rfl
  change (s9.retireClusters c.retiredClusters).mem = s.mem
  rw [retireClusters_mem, h9, h8, h7, h6, h5, h4, h3, h2]
theorem stepsTo_wf {s : State} (h : Memory.wf s.mem) (cold : Bool) (c : StartCfg) (n : Nat) : Memory.wf (s.stepsTo cold c n).mem := by
  have hcalibrate : Memory.wf (if 4 < n && s.runsStep cold c 4 then s.calibrate c else s).mem := by
    split <;> exact h
  unfold State.stepsTo
  extract_lets u v
  have hv : Memory.wf v.mem := by
    unfold v
    split
    · exact clearMemory_wf hcalibrate
    · exact hcalibrate
  split
  · rwa [configure_mem]
  · exact hv
theorem start_wf (cold : Bool) (c : StartCfg) : Memory.wf (s.start cold c).mem := by
  unfold State.start
  extract_lets _ b u
  have hu : Memory.wf u.mem := wiped_wf _
  split
  · extract_lets v
    have hv : Memory.wf v.mem := stepsTo_wf hu ..
    split
    · exact setBoot_wf hv _
    · exact hv
  · exact setBoot_wf (stepsTo_wf hu ..) _
@[simp] theorem startDue_wf {s : State} (h : Memory.wf s.mem) : Memory.wf s.startDue.mem := by
  unfold State.startDue
  split
  · split
    · exact start_wf ..
    · exact h
  · exact h
theorem coldStart_keeps : s.Keeps (execColdStart s) := by
  refine event_keeps ?_
  mvcgen [some_spec, none_spec]
  exact start_wf ..
theorem warmStart_keeps : s.Keeps (execWarmStart s) := by
  refine event_keeps ?_
  mvcgen [some_spec, none_spec]
  exact start_wf ..
theorem startWatchdog_keeps : s.Keeps (execStartWatchdog s) := by
  refine event_keeps ?_
  mvcgen [some_spec, none_spec]
  exact setBoot_wf ‹_› _
theorem inputPowerLoss_keeps : s.Keeps (execInputPowerLoss s) := event_keeps (Triple.iff.mpr fun _ => wiped_wf s)
theorem imageUpdate_keeps : s.Keeps (execImageUpdate s) := by
  refine event_keeps ?_
  mvcgen [none_spec, map_keeps]
  exact fun h _ => setBoot_wf h _
theorem hostAttach_keeps : s.Keeps (execHostAttach s) := by
  refine event_keeps ?_
  mvcgen [some_spec, none_spec]
theorem coolantFlowLow_keeps : s.Keeps (execCoolantFlowLow s) := by
  refine event_keeps ?_
  mvcgen [some_spec, none_spec]
theorem clusterRecalibration_keeps : s.Keeps (execClusterRecalibration s) := by
  refine event_keeps ?_
  mvcgen [some_spec, none_spec]
  simp_all
end
end Sys2Proof.Machine
end

section
/-!
PROOFS. Main memory keeps its canonical form: aggregated atomics, the walker, and the scalar and vector families.
-/
namespace Sys2Proof.Machine
open Std.Do
set_option mvcgen.warning false

section
variable (s : State)

/-! ### The VATOM family -/

theorem vatomForm_keeps (fn : Nat) (f : FT) : s.Keeps (vatomForm fn f s) := by
  refine issue_keeps ?_
  mvcgen [need_keeps, placesOf_keeps, powered_keeps, rmwWaits_keeps, loadWaits_keeps, begin_keeps]
@[simp] theorem rmwAll_wf {s : State} (h : Memory.wf s.mem) (fn n : Nat) (nm : Named) (l : List VElem) (olds : List (VElem × Nat)) :
    Memory.wf (s.rmwAll fn n nm l olds).1.mem := by
  induction l generalizing s olds with
  | nil => exact h
  | cons v r ih => exact ih (rmw_wf h ..) _
theorem writeOlds_keeps (gid : Option Nat) (td : BitVec 256) (olds : List (VElem × Nat)) :
    ⦃⌜Memory.wf s.mem⌝⦄ s.writeOlds gid td olds ⦃canon id⦄ := by
  unfold State.writeOlds
  mvcgen [placeAs_keeps, ok_spec]
  simp_all
theorem aggregate_keeps (fn n : Nat) (td : BitVec 256) (gid : Option Nat) (left able : List VElem) (v : VElem) :
    ⦃⌜Memory.wf s.mem⌝⦄ s.aggregate fn n td gid left able v ⦃canon (·.1)⦄ := by
  mvcgen [State.aggregate, resolve_keeps, writeOlds_keeps]
  simp_all
theorem aggregatorRmw_keeps : s.Keeps (execAggregatorRmw s) := by
  refine slotEvent_keeps fun s => ?_
  have ho := find_keeps (s.opNamed s.input.unit)
  have hf (l : List VElem) := find_keeps l.head?
  have hv (l : List VElem) := find_keeps (l.find? fun u => u.idx = s.input.aux)
  mvcgen [ho, hf, hv, some_spec, none_spec]
  next h _ _ _ _ _ _ _ _ _ _ _ _ _ _ _ hu =>
    have hu := ok_wf hu (aggregate_keeps _ _ _ _ _ _ _ _) h
    exact hu

/-! ### The WALK family -/

@[simp] theorem startWalker_mem (f : FQ) (n : BitVec 32) : (s.startWalker f n).mem = s.mem := by simp [State.startWalker]
theorem owloop_keeps (f : FQ) : s.Keeps (execOwloop f s) := by
  refine issueWith_keeps (fun h => h) ?_
  mvcgen [need_keeps, powered_keeps, claim_keeps, waitFor_keeps]
  simp_all
theorem owwin_keeps (f : FQ) : s.Keeps (execOwwin f s) := by
  refine issue_keeps ?_
  mvcgen [need_keeps]
theorem owRange_keeps (a l : Word) (w : Nat) : ⦃⌜True⌝⦄ s.owRange a l w ⦃canonWait⦄ := by
  mvcgen [State.owRange, need_keeps]
@[simp] theorem skipIteration_mem : s.skipIteration.mem = s.mem := by
  unfold State.skipIteration
  extract_lets
  split
  · rfl
  · rw [backEdge_mem]; rfl
theorem owdecl_keeps (f : FQ) : s.Keeps (execOwdecl f s) := by
  refine issue_keeps ?_
  mvcgen [need_keeps, owRange_keeps]
  simp_all +zetaDelta
theorem owchk_keeps (f : FQ) : s.Keeps (execOwchk f s) := by
  refine issue_keeps ?_
  mvcgen [owRange_keeps, claim_keeps]

/-! ### Scalar families -/

theorem ialu_keeps (fn : Nat) (r : Nat → Word → Word → Int) (f : FA) : s.Keeps (ialu fn r f s) := pureOp_keeps fun h => h
theorem icmp_keeps (fn : Nat) (t : Nat → Word → Word → Bool) (f : FA) : s.Keeps (icmp fn t f s) := pureOp_keeps fun h => by simpa
theorem plogic_keeps (fn : Nat) (t : Bool → Bool → Bool) (f : FA) : s.Keeps (plogic fn t f s) := pureOp_keeps fun h => by simpa
theorem falu_keeps (fn : Nat) (v : Val → Val → Val → Val) (f : FA) : s.Keeps (falu fn v f s) := pureOp_keeps fun h => h
theorem fcmp_keeps (fn : Nat) (t : Val → Val → Bool) (f : FA) : s.Keeps (fcmp fn t f s) := pureOp_keeps fun h => by simpa

/-! ### Vector families -/

theorem scalarForm_keeps (fn : Nat) (two mul : Bool) (fop : Mode → List Val → Val) (iop : List Int → Int) (f : FT) :
    s.Keeps (scalarForm fn two mul fop iop f s) := issue_keeps (vrun_keeps s _ _)
theorem vbcast_keeps (f : FT) : s.Keeps (execVbcast f s) := issue_keeps (vrun_keeps s _ _)
theorem viota_keeps (f : FT) : s.Keeps (execViota f s) := issue_keeps (vrun_keeps s _ _)
theorem moveForm_keeps (fn : Nat) (useTb : Bool) (ok : Ten → Ten → Ten → Bool) (k : State → FT → Ten → Nat → Nat → Nat) (f : FT) :
    s.Keeps (moveForm fn useTb ok k f s) := issue_keeps (vrun_keeps s _ _)
theorem vlut_keeps (f : FT) : s.Keeps (execVlut f s) := issue_keeps (vrun_keeps s _ _)
theorem vredc_keeps (f : FT) : s.Keeps (execVredc f s) := issue_keeps (vrun_keeps s _ _)
theorem vscanc_keeps (f : FT) : s.Keeps (execVscanc f s) := issue_keeps (vrun_keeps s _ _)
theorem vdotc_keeps (f : FT) : s.Keeps (execVdotc f s) := issue_keeps (vrun_keeps s _ _)
end
end Sys2Proof.Machine
end

section
/-!
PROOFS. Main memory keeps its canonical form: every instruction, engine word and event, and every step.
-/
namespace Sys2Proof.Machine
open Std.Do
set_option mvcgen.warning false

section
variable (s : State)

/-! ### Every instruction, engine word and event -/

/-- What each arm of `exec` does to main memory. -/
theorem exec_keeps (i : Instr) : s.Keeps (exec i s) :=
  match i with
  | .nop f => nop_keeps s f
  | .exitThread f => exitThread_keeps s f
  | .yieldSlot f => yieldSlot_keeps s f
  | .trap f => trap_keeps s f
  | .eret f => eret_keeps s f
  | .sysr f => sysr_keeps s f
  | .sysw f => sysw_keeps s f
  | .sysx f => sysx_keeps s f
  | .brk f => brk_keeps s f
  | .tstamp f => tstamp_keeps s f
  | .evt f => evt_keeps s f
  | .br f => br_keeps s f
  | .brl f => brl_keeps s f
  | .ret f => ret_keeps s f
  | .jt f => jt_keeps s f
  | .jtl f => jtl_keeps s f
  | .loop f => loop_keeps s f
  | .loopx f => loopx_keeps s f
  | .lbrk f => lbrk_keeps s f
  | .add f => (ialu_keeps s _ _ f : s.Keeps (execAdd f s))
  | .sub f => (ialu_keeps s _ _ f : s.Keeps (execSub f s))
  | .mul f => (ialu_keeps s _ _ f : s.Keeps (execMul f s))
  | .mulh f => (ialu_keeps s _ _ f : s.Keeps (execMulh f s))
  | .mulhu f => (ialu_keeps s _ _ f : s.Keeps (execMulhu f s))
  | .div f => (ialu_keeps s _ _ f : s.Keeps (execDiv f s))
  | .divu f => (ialu_keeps s _ _ f : s.Keeps (execDivu f s))
  | .rem f => (ialu_keeps s _ _ f : s.Keeps (execRem f s))
  | .remu f => (ialu_keeps s _ _ f : s.Keeps (execRemu f s))
  | .and f => (ialu_keeps s _ _ f : s.Keeps (execAnd f s))
  | .or f => (ialu_keeps s _ _ f : s.Keeps (execOr f s))
  | .xor f => (ialu_keeps s _ _ f : s.Keeps (execXor f s))
  | .andn f => (ialu_keeps s _ _ f : s.Keeps (execAndn f s))
  | .shl f => (ialu_keeps s _ _ f : s.Keeps (execShl f s))
  | .shr f => (ialu_keeps s _ _ f : s.Keeps (execShr f s))
  | .sar f => (ialu_keeps s _ _ f : s.Keeps (execSar f s))
  | .min f => (ialu_keeps s _ _ f : s.Keeps (execMin f s))
  | .minu f => (ialu_keeps s _ _ f : s.Keeps (execMinu f s))
  | .max f => (ialu_keeps s _ _ f : s.Keeps (execMax f s))
  | .maxu f => (ialu_keeps s _ _ f : s.Keeps (execMaxu f s))
  | .clz f => (ialu_keeps s _ _ f : s.Keeps (execClz f s))
  | .ctz f => (ialu_keeps s _ _ f : s.Keeps (execCtz f s))
  | .popc f => (ialu_keeps s _ _ f : s.Keeps (execPopc f s))
  | .brev f => (ialu_keeps s _ _ f : s.Keeps (execBrev f s))
  | .exts f => (ialu_keeps s _ _ f : s.Keeps (execExts f s))
  | .extz f => (ialu_keeps s _ _ f : s.Keeps (execExtz f s))
  | .ins f => (pureOp_keeps fun h => h : s.Keeps (execIns f s))
  | .sel f => (pureOp_keeps fun h => h : s.Keeps (execSel f s))
  | .ceq f => (icmp_keeps s _ _ f : s.Keeps (execCeq f s))
  | .cne f => (icmp_keeps s _ _ f : s.Keeps (execCne f s))
  | .clt f => (icmp_keeps s _ _ f : s.Keeps (execClt f s))
  | .cle f => (icmp_keeps s _ _ f : s.Keeps (execCle f s))
  | .cltu f => (icmp_keeps s _ _ f : s.Keeps (execCltu f s))
  | .cleu f => (icmp_keeps s _ _ f : s.Keeps (execCleu f s))
  | .pand f => (plogic_keeps s _ _ f : s.Keeps (execPand f s))
  | .por f => (plogic_keeps s _ _ f : s.Keeps (execPor f s))
  | .pxor f => (plogic_keeps s _ _ f : s.Keeps (execPxor f s))
  | .pnot f => (plogic_keeps s _ _ f : s.Keeps (execPnot f s))
  | .pmov f => (plogic_keeps s _ _ f : s.Keeps (execPmov f s))
  | .pget f => (icmp_keeps s _ _ f : s.Keeps (execPget f s))
  | .movi f => (pureOp_keeps fun h => h : s.Keeps (execMovi f s))
  | .movhi f => (pureOp_keeps fun h => h : s.Keeps (execMovhi f s))
  | .addi f => (pureOp_keeps fun h => h : s.Keeps (execAddi f s))
  | .ptrmk f => ptrmk_keeps s f
  | .ptrsp f => ptrsp_keeps s f
  | .ptrrk f => ptrrk_keeps s f
  | .ptroff f => (pureOp_keeps fun h => h : s.Keeps (execPtroff f s))
  | .pladr f => pladr_keeps s f
  | .fadd f => (falu_keeps s _ _ f : s.Keeps (execFadd f s))
  | .fsub f => (falu_keeps s _ _ f : s.Keeps (execFsub f s))
  | .fmul f => (falu_keeps s _ _ f : s.Keeps (execFmul f s))
  | .fma f => (falu_keeps s _ _ f : s.Keeps (execFma f s))
  | .fdiv f => (falu_keeps s _ _ f : s.Keeps (execFdiv f s))
  | .fsqrt f => (falu_keeps s _ _ f : s.Keeps (execFsqrt f s))
  | .frsq f => (falu_keeps s _ _ f : s.Keeps (execFrsq f s))
  | .fmin f => (falu_keeps s _ _ f : s.Keeps (execFmin f s))
  | .fmax f => (falu_keeps s _ _ f : s.Keeps (execFmax f s))
  | .fabs f => (pureOp_keeps fun h => h : s.Keeps (execFabs f s))
  | .fneg f => (pureOp_keeps fun h => h : s.Keeps (execFneg f s))
  | .fceq f => (fcmp_keeps s _ _ f : s.Keeps (execFceq f s))
  | .fclt f => (fcmp_keeps s _ _ f : s.Keeps (execFclt f s))
  | .fcle f => (fcmp_keeps s _ _ f : s.Keeps (execFcle f s))
  | .fcvt f => (pureOp_keeps fun h => h : s.Keeps (execFcvt f s))
  | .fclass f => (pureOp_keeps fun h => h : s.Keeps (execFclass f s))
  | .ld f => (loadForm_keeps s _ _ f : s.Keeps (execLd f s))
  | .ldz f => (loadForm_keeps s _ _ f : s.Keeps (execLdz f s))
  | .st f => st_keeps s f
  | .pref f => pref_keeps s f
  | .ldf f => (tagLoad_keeps s _ f : s.Keeps (execLdf f s))
  | .ldfe f => (tagLoad_keeps s _ f : s.Keeps (execLdfe f s))
  | .ste f => ste_keeps s f
  | .stf f => stf_keeps s f
  | .feq f => (tagLoad_keeps s _ f : s.Keeps (execFeq f s))
  | .aadd f => (atomForm_keeps s _ f : s.Keeps (execAadd f s))
  | .amin f => (atomForm_keeps s _ f : s.Keeps (execAmin f s))
  | .amax f => (atomForm_keeps s _ f : s.Keeps (execAmax f s))
  | .aminu f => (atomForm_keeps s _ f : s.Keeps (execAminu f s))
  | .amaxu f => (atomForm_keeps s _ f : s.Keeps (execAmaxu f s))
  | .aand f => (atomForm_keeps s _ f : s.Keeps (execAand f s))
  | .aor f => (atomForm_keeps s _ f : s.Keeps (execAor f s))
  | .axor f => (atomForm_keeps s _ f : s.Keeps (execAxor f s))
  | .axchg f => (atomForm_keeps s _ f : s.Keeps (execAxchg f s))
  | .acas f => (atomForm_keeps s _ f : s.Keeps (execAcas f s))
  | .afadd f => (atomForm_keeps s _ f : s.Keeps (execAfadd f s))
  | .ord f => ord_keeps s f
  | .fence f => fence_keeps s f
  | .qfence f => qfence_keeps s f
  | .enter f => enter_keeps s f
  | .leavef f => leavef_keeps s f
  | .spill f => spill_keeps s f
  | .vaadd f => (vatomForm_keeps s _ f : s.Keeps (execVaadd f s))
  | .vamin f => (vatomForm_keeps s _ f : s.Keeps (execVamin f s))
  | .vamax f => (vatomForm_keeps s _ f : s.Keeps (execVamax f s))
  | .vaxchg f => (vatomForm_keeps s _ f : s.Keeps (execVaxchg f s))
  | .vafadd f => (vatomForm_keeps s _ f : s.Keeps (execVafadd f s))
  | .spawn f => execSpawn_keeps s f
  | .cont f => cont_keeps s f
  | .park f => park_keeps s f
  | .gnew f => gnew_keeps s f
  | .joinGroup f => joinGroup_keeps s f
  | .leaveGroup f => leaveGroupForm_keeps s f
  | .gbar f => gbar_keeps s f
  | .grank f => grank_keeps s f
  | .gsize f => gsize_keeps s f
  | .launch f => launch_keeps s f
  | .plotgrow f => plotgrow_keeps s f
  | .plotinfo f => plotinfo_keeps s f
  | .tdset f => tdset_keeps s f
  | .tdget f => tdget_keeps s f
  | .tdld f => tdld_keeps s f
  | .tdst f => tdst_keeps s f
  | .tdmove f => tdmove_keeps s f
  | .tdsub f => tdsub_keeps s f
  | .edset f => edset_keeps s f
  | .edget f => edget_keeps s f
  | .vadd f => (ewise_keeps s _ f : s.Keeps (execVadd f s))
  | .vsub f => (ewise_keeps s _ f : s.Keeps (execVsub f s))
  | .vmul f => (ewise_keeps s _ f : s.Keeps (execVmul f s))
  | .vfma f => (ewise_keeps s _ f : s.Keeps (execVfma f s))
  | .vmin f => (ewise_keeps s _ f : s.Keeps (execVmin f s))
  | .vmax f => (ewise_keeps s _ f : s.Keeps (execVmax f s))
  | .vabs f => (ewise_keeps s _ f : s.Keeps (execVabs f s))
  | .vneg f => (ewise_keeps s _ f : s.Keeps (execVneg f s))
  | .vdiv f => (ewise_keeps s _ f : s.Keeps (execVdiv f s))
  | .vrcp f => (ewise_keeps s _ f : s.Keeps (execVrcp f s))
  | .vsqrt f => (ewise_keeps s _ f : s.Keeps (execVsqrt f s))
  | .vrsq f => (ewise_keeps s _ f : s.Keeps (execVrsq f s))
  | .vexp2 f => (ewise_keeps s _ f : s.Keeps (execVexp2 f s))
  | .vlog2 f => (ewise_keeps s _ f : s.Keeps (execVlog2 f s))
  | .vand f => (ewise_keeps s _ f : s.Keeps (execVand f s))
  | .vor f => (ewise_keeps s _ f : s.Keeps (execVor f s))
  | .vxor f => (ewise_keeps s _ f : s.Keeps (execVxor f s))
  | .vnot f => (ewise_keeps s _ f : s.Keeps (execVnot f s))
  | .vshl f => (ewise_keeps s _ f : s.Keeps (execVshl f s))
  | .vshr f => (ewise_keeps s _ f : s.Keeps (execVshr f s))
  | .vsar f => (ewise_keeps s _ f : s.Keeps (execVsar f s))
  | .vclz f => (ewise_keeps s _ f : s.Keeps (execVclz f s))
  | .vpopc f => (ewise_keeps s _ f : s.Keeps (execVpopc f s))
  | .vmov f => (ewise_keeps s _ f : s.Keeps (execVmov f s))
  | .vcvt f => vcvt_keeps s f
  | .vsel f => vsel_keeps s f
  | .vceq f => (ewise_keeps s _ f : s.Keeps (execVceq f s))
  | .vcne f => (ewise_keeps s _ f : s.Keeps (execVcne f s))
  | .vclt f => (ewise_keeps s _ f : s.Keeps (execVclt f s))
  | .vcle f => (ewise_keeps s _ f : s.Keeps (execVcle f s))
  | .vadds f => (scalarForm_keeps s _ _ _ _ _ f : s.Keeps (execVadds f s))
  | .vmuls f => (scalarForm_keeps s _ _ _ _ _ f : s.Keeps (execVmuls f s))
  | .vfmas f => (scalarForm_keeps s _ _ _ _ _ f : s.Keeps (execVfmas f s))
  | .vmins f => (scalarForm_keeps s _ _ _ _ _ f : s.Keeps (execVmins f s))
  | .vmaxs f => (scalarForm_keeps s _ _ _ _ _ f : s.Keeps (execVmaxs f s))
  | .vbcast f => vbcast_keeps s f
  | .viota f => viota_keeps s f
  | .vperm f => (moveForm_keeps s _ _ _ _ f : s.Keeps (execVperm f s))
  | .vrot f => (moveForm_keeps s _ _ _ _ f : s.Keeps (execVrot f s))
  | .vxch f => (moveForm_keeps s _ _ _ _ f : s.Keeps (execVxch f s))
  | .vredc f => vredc_keeps s f
  | .vscanc f => vscanc_keeps s f
  | .vdotc f => vdotc_keeps s f
  | .vlut f => vlut_keeps s f
  | .ppset f => (predForm_keeps s _ _ _ f : s.Keeps (execPpset f s))
  | .ppand f => (predForm_keeps s _ _ _ f : s.Keeps (execPpand f s))
  | .ppor f => (predForm_keeps s _ _ _ f : s.Keeps (execPpor f s))
  | .ppnot f => (predForm_keeps s _ _ _ f : s.Keeps (execPpnot f s))
  | .ppcnt f => (countForm_keeps s _ f : s.Keeps (execPpcnt f s))
  | .ppany f => (countForm_keeps s _ f : s.Keeps (execPpany f s))
  | .ppall f => (countForm_keeps s _ f : s.Keeps (execPpall f s))
  | .feset f => (tagForm_keeps s _ _ f : s.Keeps (execFeset f s))
  | .feclr f => (tagForm_keeps s _ _ f : s.Keeps (execFeclr f s))
  | .scroll f => (scrollForm_keeps s _ _ f : s.Keeps (execScroll f s))
  | .scrollx f => (scrollForm_keeps s _ _ f : s.Keeps (execScrollx f s))
  | .plcopy f => plcopy_keeps s f
  | .plfill f => plfill_keeps s f
  | .nredr f => (reduceForm_keeps s _ f : s.Keeps (execNredr f s))
  | .nredc f => (reduceForm_keeps s _ f : s.Keeps (execNredc f s))
  | .nredx f => (reduceForm_keeps s _ f : s.Keeps (execNredx f s))
  | .nbcr f => (bcastForm_keeps s _ f : s.Keeps (execNbcr f s))
  | .nbcc f => (bcastForm_keeps s _ f : s.Keeps (execNbcc f s))
  | .dred f => dred_keeps s f
  | .wld f => wld_keeps s f
  | .wswap f => wswap_keeps s f
  | .mstream f => mstream_keeps s f
  | .accz f => (accForm_keeps s _ _ _ f : s.Keeps (execAccz f s))
  | .accrd f => accrd_keeps s f
  | .accnrm f => (accForm_keeps s _ _ _ f : s.Keeps (execAccnrm f s))
  | .cpin f => (cpioForm_keeps s _ _ f : s.Keeps (execCpin f s))
  | .cpout f => (cpioForm_keeps s _ _ f : s.Keeps (execCpout f s))
  | .cpg f => (gatherForm_keeps s _ _ f : s.Keeps (execCpg f s))
  | .cps f => (gatherForm_keeps s _ _ f : s.Keeps (execCps f s))
  | .cpp f => cpp_keeps s f
  | .cpm f => cpm_keeps s f
  | .seal f => seal_keeps s f
  | .waitb f => waitb_keeps s f
  | .wptr f => wptr_keeps s f
  | .cpstat f => cpstat_keeps s f
  | .bkload f => bkload_keeps s f
  | .bkact f => bkact_keeps s f
  | .bkcall f => bkcall_keeps s f
  | .bkwait f => bkwait_keeps s f
  | .bkstat f => bkstat_keeps s f
  | .owloop f => owloop_keeps s f
  | .owwin f => owwin_keeps s f
  | .owdecl f => owdecl_keeps s f
  | .owchk f => owchk_keeps s f
  | .owstat f => (pureOp_keeps fun h => h : s.Keeps (execOwstat f s))
  | .pwrhint f => pwrhint_keeps s f
  | .chgrd f => chgrd_keeps s f
  | .bli f => bli_keeps s f
  | .baddi f => baddi_keeps s f
  | .badd f => badd_keeps s f
  | .bsub f => bsub_keeps s f
  | .bmul f => bmul_keeps s f
  | .bbz f => bbz_keeps s f
  | .bbnz f => bbnz_keeps s f
  | .bloop f => bloop_keeps s f
  | .bza f => bza_keeps s f
  | .bmac f => bmac_keeps s f
  | .bfmt f => bfmt_keeps s f
  | .bscl f => bscl_keeps s f
  | .brda f => brda_keeps s f
  | .bsend f => bsend_keeps s f
  | .brd f => brd_keeps s f
  | .bwr f => bwr_keeps s f
  | .bsig f => bsig_keeps s f
  | .bwait f => bwait_keeps s f
  | .bnop => bnop_keeps s
  | .bhalt => bhalt_keeps s
  | .feTimeout => feTimeout_keeps s
  | .aggregatorRmw => aggregatorRmw_keeps s
  | .scrollUnitStep => scrollUnitStep_keeps s
  | .planeOpComplete => planeOpComplete_keeps s
  | .reductionRoot => reductionRoot_keeps s
  | .dredCombine => dredCombine_keeps s
  | .dredTimeout => dredTimeout_keeps s
  | .copyBurst => copyBurst_keeps s
  | .copySlackDecay => copySlackDecay_keeps s
  | .cpgSectorArrival => cpgSectorArrival_keeps s
  | .engineProgramWrite => engineProgramWrite_keeps s
  | .engineActWrite => engineActWrite_keeps s
  | .engineCallStart => engineCallStart_keeps s
  | .callComplete => callComplete_keeps s
  | .callFaultReport => callFaultReport_keeps s
  | .bsendDelivery => bsendDelivery_keeps s
  | .bankTimeout => bankTimeout_keeps s
  | .hintExpiry => hintExpiry_keeps s
  | .loadComplete => loadComplete_keeps s
  | .storeLeavesQueue => storeLeavesQueue_keeps s
  | .pageWalk => pageWalk_keeps s
  | .loggedFaultTrap => loggedFaultTrap_keeps s
  | .lateTrap => execLateTrap_keeps s
  | .packetArrival => packetArrival_keeps s
  | .itemTerminate => itemTerminate_keeps s
  | .itemEnd => itemEnd_keeps s
  | .launchRingRead => launchRingRead_keeps s
  | .ringReset => ringReset_keeps s
  | .queueConfig => queueConfig_keeps s
  | .dispatchItem => dispatchItem_keeps s
  | .priorityAging => priorityAging_keeps s
  | .parkCheck => parkCheck_keeps s
  | .replicaAccept => replicaAccept_keeps s
  | .startTimeout => startTimeout_keeps s
  | .peerTimeout => peerTimeout_keeps s
  | .partitionReset => partitionReset_keeps s
  | .preemptRequest => preemptRequest_keeps s
  | .drainExpiry => drainExpiry_keeps s
  | .saveItem => saveItem_keeps s
  | .flushItem => flushItem_keeps s
  | .tlbinvVa => tlbinvVa_keeps s
  | .tlbinvAll => tlbinvAll_keeps s
  | .ptbaseWrite => ptbaseWrite_keeps s
  | .latecntWrite => latecntWrite_keeps s
  | .opldrop => opldrop_keeps s
  | .keySlotLoad => keySlotLoad_keeps s
  | .eccScrub => eccScrub_keeps s
  | .parityError => parityError_keeps s
  | .railctlWrite => railctlWrite_keeps s
  | .clctlWrite => clctlWrite_keeps s
  | .vfenergyWrite => vfenergyWrite_keeps s
  | .dvfsRequest => dvfsRequest_keeps s
  | .railRampDone => railRampDone_keeps s
  | .clockHop => clockHop_keeps s
  | .droopDetect => droopDetect_keeps s
  | .droopEnd => droopEnd_keeps s
  | .chargeCycle => chargeCycle_keeps s
  | .clusterSample => clusterSample_keeps s
  | .thermalThreshold => thermalThreshold_keeps s
  | .ptpAdjust => ptpAdjust_keeps s
  | .timeResync => timeResync_keeps s
  | .pcSample => pcSample_keeps s
  | .watermarkStep => watermarkStep_keeps s
  | .haltSlot => haltSlot_keeps s
  | .resumeSlot => resumeSlot_keeps s
  | .stepSlot => stepSlot_keeps s
  | .dbgRead => dbgRead_keeps s
  | .dbgWrite => dbgWrite_keeps s
  | .dbgSample => dbgSample_keeps s
  | .droplog => droplog_keeps s
  | .registerWrite => registerWrite_keeps s
  | .linkRetrain => linkRetrain_keeps s
  | .coldStart => coldStart_keeps s
  | .warmStart => warmStart_keeps s
  | .startWatchdog => startWatchdog_keeps s
  | .imageUpdate => imageUpdate_keeps s
  | .illegalEncoding => illegalEncoding_keeps s
  | .bankIllegal => bankIllegal_keeps s
  | .peerAccess => peerAccess_keeps s
  | .hostAccess => hostAccess_keeps s
  | .rdmaTransfer => rdmaTransfer_keeps s
  | .systemCoreAccess => systemCoreAccess_keeps s
  | .replicatedPacket => replicatedPacket_keeps s
  | .hostAttach => hostAttach_keeps s
  | .ptpLockChange => ptpLockChange_keeps s
  | .inputPowerLoss => inputPowerLoss_keeps s
  | .coolantFlowLow => coolantFlowLow_keeps s
  | .flitCrcReplay => flitCrcReplay_keeps s
  | .mergeCounterRead => mergeCounterRead_keeps s
  | .faultRingSpace => faultRingSpace_keeps s
  | .clusterRecalibration => clusterRecalibration_keeps s
  | .linkRetirement => linkRetirement_keeps s
  | .enginePartitionAssign => enginePartitionAssign_keeps s

/-! ### Turns and steps -/

theorem State.Keeps.trans {s u : State} {o : Host.Outcome State Fault Refusal} (hu : Memory.wf s.mem → Memory.wf u.mem) (h : u.Keeps o) :
    s.Keeps o :=
  let ⟨t, ho, ht⟩ := h
  ⟨t, ho, fun hs => ht (hu hs)⟩
theorem afterTurn_wf {s : State} (h : Memory.wf s.mem) (k : SlotNo) : Memory.wf (s.afterTurn k).mem := by
  unfold State.afterTurn
  extract_lets
  have hs := afterStep_wf h k
  split <;> exact hs
theorem touchPrefixed_wf {s : State} (h : Memory.wf s.mem) (i : Instr) : Memory.wf (s.touchPrefixed i).mem := by
  unfold State.touchPrefixed
  split <;> simp [h]
theorem finishTurn_keeps (k : SlotNo) {o : Host.Outcome State Fault Refusal} (h : s.Keeps o) : s.Keeps (finishTurn k o) := by
  obtain ⟨t, rfl, ht⟩ := h
  exact .next fun hs => afterTurn_wf (ht hs) k
theorem runInstr_keeps : s.Keeps s.runInstr := by
  have hu (h : Memory.wf s.mem) := touchCode_wf h s.thr.pc
  unfold State.runInstr
  split
  · exact .next fun h => afterTurn_wf (by simpa using hu h) _
  · exact .next hu
  next i _ => exact finishTurn_keeps s _ (.trans (fun h => touchPrefixed_wf (hu h) i) (exec_keeps _ i))
theorem slotTurn_keeps (k : SlotNo) : s.Keeps (s.slotTurn k) := by
  have ha : Memory.wf s.mem → Memory.wf (s.atSlot k).mem := by simp
  unfold State.slotTurn
  extract_lets
  split
  · exact .next ha
  · split
    next t ht => exact .next fun h => afterTurn_wf (some_wf ht (boundary_keeps _) (ha h)) k
    next => exact .trans ha (runInstr_keeps _)
theorem engineTurn_keeps (e : BitVec 10) : s.Keeps (s.engineTurn e) := by
  have ha : Memory.wf s.mem → Memory.wf (s.atEngine e).mem := by simp
  unfold State.engineTurn
  extract_lets
  split
  · exact .next ha
  · exact .trans ha (exec_keeps _ _)
theorem eventTurn_keeps (i : Instr) (inp : Input) : s.Keeps (s.eventTurn i inp) := by
  unfold State.eventTurn
  split
  · exact exec_keeps { s with input := inp } i
  · exact .next id
theorem take_keeps (t : Turn) : s.Keeps (s.take t) := by
  unfold State.take
  split
  · exact .next startDue_wf
  · cases t with
    | slot k => exact slotTurn_keeps s k
    | engine e => exact engineTurn_keeps s e
    | event i inp => exact eventTurn_keeps s i inp
theorem step_keeps : s.Keeps (step s) := by
  cases ht : s.turns with
  | cons t r => rw [step_of_turns ht]; exact take_keeps { s.tick with turns := r } t
  | nil =>
    change s.Keeps s.tick.move
    obtain ⟨hsome, hnone⟩ := move_of_noTurns (s := s.tick) ht
    cases hn : s.tick.nextTurn with
    | some t => rw [hsome t hn]; exact take_keeps s.tick t
    | none => rw [hnone hn]; exact .next fun h => startDue_wf (s := s.tick) h
end

/-- Settles O59: the meaning of each instruction keeps main memory canonical and answers a next state, and so does each turn. -/
theorem stepKeepsMemory : Obligations.StepKeepsMemory := by
  refine ⟨fun s => ?_, fun i s => ?_, fun s t hs ht => ?_⟩
  · obtain ⟨t, ht, _⟩ := step_keeps s
    exact ⟨t, ht⟩
  · obtain ⟨t, ht, _⟩ := exec_keeps s i
    exact ⟨t, ht⟩
  · obtain ⟨u, hu, hkeep⟩ := step_keeps s
    cases ht.symm.trans hu
    exact hkeep hs
end Sys2Proof.Machine
end

section
/-!
PROOFS. Immediates and the pointer builders (09 R212; 04 R82, R105-R107).
-/
namespace Sys2Proof.Machine

/-! ### Pointers -/

/-- SPACE, RANK and OFFSET are the digits of a pointer (04 R82). -/
theorem mkPtr_eq {space : BitVec 4} {rank : BitVec 12} {off : BitVec 48} {sp r o : Nat} (hs : space.toNat = sp) (hr : rank.toNat = r)
    (ho : off.toNat = o) : mkPtr space rank off = BitVec.ofNat 64 (sp * 2 ^ 60 + r * 2 ^ 48 + o) := by
  refine BitVec.eq_of_toNat_eq ?_
  have hs4 := space.isLt
  have hr12 := rank.isLt
  have ho48 := off.isLt
  rw [mkPtr, BitVec.toNat_append, BitVec.toNat_append, ← Nat.shiftLeft_add_eq_or_of_lt ho48, ← Nat.shiftLeft_add_eq_or_of_lt hr12,
    BitVec.toNat_ofNat, Nat.shiftLeft_eq, Nat.shiftLeft_eq]
  omega

theorem patSpace_toNat (f : FB) : (patSpace f).toNat = f.imm16.toNat % 16 := by simp [patSpace]
theorem patRank_toNat (f : FB) : (patRank f).toNat = f.imm16.toNat / 16 := by
  have := f.imm16.isLt
  simp only [patRank, BitVec.extractLsb'_toNat, Nat.shiftRight_eq_div_pow]
  omega
theorem patSpace_eq_iff (f : FB) (c : BitVec 4) : patSpace f = c ↔ f.imm16.toNat % 16 = c.toNat := by
  rw [← patSpace_toNat, BitVec.toNat_inj]
theorem patSpace_le_iff (f : FB) (c : BitVec 4) : patSpace f ≤ c ↔ f.imm16.toNat % 16 ≤ c.toNat := by
  rw [← patSpace_toNat, BitVec.le_def]
theorem patRank_eq_zero_iff (f : FB) : patRank f = 0 ↔ f.imm16.toNat / 16 = 0 := by
  rw [← patRank_toNat, ← BitVec.toNat_inj]
  rfl
theorem spaceOf_eq (a : Word) : spaceOf a = a.toNat / 2 ^ 60 := by
  have := a.isLt
  simp only [spaceOf, fld, bits]
  omega
theorem extract_space_toNat (a : Word) : (a.extractLsb' 60 4).toNat = a.toNat / 2 ^ 60 := by
  have := a.isLt
  simp only [BitVec.extractLsb'_toNat, Nat.shiftRight_eq_div_pow]
  omega
theorem extract_rank_toNat (a : Word) : (a.extractLsb' 48 12).toNat = a.toNat / 2 ^ 48 % 2 ^ 12 := by
  simp only [BitVec.extractLsb'_toNat, Nat.shiftRight_eq_div_pow]

/-- A pointer with another offset. -/
theorem mkPtr_extract (a : Word) {off : BitVec 48} {o : Nat} (ho : off.toNat = o) :
    mkPtr (a.extractLsb' 60 4) (a.extractLsb' 48 12) off = BitVec.ofNat 64 (a.toNat / 2 ^ 48 * 2 ^ 48 + o) := by
  rw [mkPtr_eq (extract_space_toNat a) (extract_rank_toNat a) ho]
  exact congrArg (BitVec.ofNat 64) (by omega)

/-! ### The immediate forms -/

section
variable {s : State} {f : FB}

theorem movi_eq (h : s.Issues (.b 0x12 0 f)) : execMovi f s = .next (s.after (.b 0x12 0 f) (s.setX f.xd (f.imm32.signExtend 64))) := by
  unfold execMovi
  exact pureOp_of_issues h _
theorem movhi_eq (h : s.Issues (.b 0x12 1 f)) :
    execMovhi f s = .next (s.after (.b 0x12 1 f) (s.setX f.xd (f.imm32 ++ (s.X f.xd).extractLsb' 0 32))) := by
  unfold execMovhi
  exact pureOp_of_issues h _
theorem addi_eq (h : s.Issues (.b 0x12 2 f)) : execAddi f s =
    .next (s.after (.b 0x12 2 f) (s.setX f.xd (((s.X f.xa + f.imm32.signExtend 64).setWidth (szBits f.sz)).signExtend 64))) := by
  refine (pureOp_of_issues h _).trans ?_
  rw [aluOut_eq, BitVec.ofInt_natCast, BitVec.ofNat_toNat]

/-! ### The pointer builders -/

theorem ptrmk_trap (h : s.Issues (.b 0x12 3 f)) (hbad : ¬ (patSpace f ≤ 4 ∧ (patRank f = 0 ∨ patSpace f = 2 ∨ patSpace f = 3))) :
    execPtrmk f s = .next (s.takeTrap ⟨cSPACE, 0, 0⟩) := by
  unfold execPtrmk
  exact issue_trap h _ (need_bind_not hbad ..)
theorem ptrmk_eq (h : s.Issues (.b 0x12 3 f)) (hgood : patSpace f ≤ 4 ∧ (patRank f = 0 ∨ patSpace f = 2 ∨ patSpace f = 3)) :
    execPtrmk f s = .next (s.after (.b 0x12 3 f)
      (s.setX f.xd (mkPtr (patSpace f) (patRank f) ((s.X f.xa + f.imm32.signExtend 64).setWidth 48)))) := by
  unfold execPtrmk
  exact issue_seq h _ (need_bind hgood ..)
theorem ptrsp_trap (h : s.Issues (.b 0x12 4 f)) (hbad : ¬ patSpace f ≤ 4) : execPtrsp f s = .next (s.takeTrap ⟨cSPACE, 0, 0⟩) := by
  unfold execPtrsp
  exact issue_trap h _ (need_bind_not hbad ..)
theorem ptrsp_eq (h : s.Issues (.b 0x12 4 f)) (hgood : patSpace f ≤ 4) : execPtrsp f s = .next (s.after (.b 0x12 4 f)
    (s.setX f.xd (mkPtr (patSpace f) (if patSpace f = 2 ∨ patSpace f = 3 then (s.X f.xa).extractLsb' 48 12 else 0)
      ((s.X f.xa).setWidth 48)))) := by
  unfold execPtrsp
  exact issue_seq h _ (need_bind hgood ..)
theorem ptrrk_trap_space (h : s.Issues (.b 0x12 5 f)) (hbad : ¬ (spaceOf (s.X f.xa) = 2 ∨ spaceOf (s.X f.xa) = 3)) :
    execPtrrk f s = .next (s.takeTrap ⟨cSPACE, 0, 0⟩) := by
  unfold execPtrrk
  exact issue_trap h _ (need_bind_not hbad ..)
theorem ptrrk_trap_rank (h : s.Issues (.b 0x12 5 f)) (hgood : spaceOf (s.X f.xa) = 2 ∨ spaceOf (s.X f.xa) = 3)
    (hbad : ¬ (0 ≤ (s.X f.xb).toNat + f.imm16.toInt ∧ (s.X f.xb).toNat + f.imm16.toInt ≤ 4095)) :
    execPtrrk f s = .next (s.takeTrap ⟨cRANK, 0, 0⟩) := by
  unfold execPtrrk
  exact issue_trap h _ ((need_bind hgood ..).trans (need_bind_not hbad ..))
theorem ptrrk_eq (h : s.Issues (.b 0x12 5 f)) (hspace : spaceOf (s.X f.xa) = 2 ∨ spaceOf (s.X f.xa) = 3)
    (hrank : 0 ≤ (s.X f.xb).toNat + f.imm16.toInt ∧ (s.X f.xb).toNat + f.imm16.toInt ≤ 4095) :
    execPtrrk f s = .next (s.after (.b 0x12 5 f) (s.setX f.xd (mkPtr ((s.X f.xa).extractLsb' 60 4)
      (BitVec.ofInt 12 ((s.X f.xb).toNat + f.imm16.toInt)) ((s.X f.xa).setWidth 48)))) := by
  unfold execPtrrk
  exact issue_seq h _ ((need_bind hspace ..).trans (need_bind hrank ..))
theorem ptroff_eq (h : s.Issues (.b 0x12 6 f)) : execPtroff f s = .next (s.after (.b 0x12 6 f)
    (s.setX f.xd (mkPtr ((s.X f.xa).extractLsb' 60 4) ((s.X f.xa).extractLsb' 48 12)
      ((s.X f.xa).setWidth 48 + (s.X f.xb + f.imm32.signExtend 64).setWidth 48)))) := by
  unfold execPtroff
  exact pureOp_of_issues h _
theorem pladr_trap_space (h : s.Issues (.b 0x12 7 f))
    (hbad : ¬ ((patSpace f = 1 ∨ patSpace f = 2 ∨ patSpace f = 3) ∧ (patRank f = 0 ∨ patSpace f ≠ 1))) :
    execPladr f s = .next (s.takeTrap ⟨cSPACE, 0, 0⟩) := by
  unfold execPladr
  exact issue_trap h _ (need_bind_not hbad ..)
theorem pladr_trap_bound (h : s.Issues (.b 0x12 7 f))
    (hspace : (patSpace f = 1 ∨ patSpace f = 2 ∨ patSpace f = 3) ∧ (patRank f = 0 ∨ patSpace f ≠ 1))
    (hbad : ¬ ((s.X f.xa).toNat ≤ 255 ∧ (s.X f.xb).toNat ≤ 255 ∧ 0 ≤ f.imm32.toInt ∧ f.imm32.toInt ≤ 8191)) :
    execPladr f s = .next (s.takeTrap ⟨cPLOT_BOUND, 0, 0⟩) := by
  unfold execPladr
  exact issue_trap h _ ((need_bind hspace ..).trans (need_bind_not hbad ..))
theorem pladr_eq (h : s.Issues (.b 0x12 7 f))
    (hspace : (patSpace f = 1 ∨ patSpace f = 2 ∨ patSpace f = 3) ∧ (patRank f = 0 ∨ patSpace f ≠ 1))
    (hbound : (s.X f.xa).toNat ≤ 255 ∧ (s.X f.xb).toNat ≤ 255 ∧ 0 ≤ f.imm32.toInt ∧ f.imm32.toInt ≤ 8191) :
    execPladr f s = .next (s.after (.b 0x12 7 f) (s.setX f.xd (mkPtr (patSpace f) (patRank f)
      (BitVec.ofNat 48 ((s.X f.xa).toNat * 2 ^ 21 + (s.X f.xb).toNat * 2 ^ 13 + f.imm32.toInt.toNat))))) := by
  unfold execPladr
  exact issue_seq h _ ((need_bind hspace ..).trans (need_bind hbound ..))
end

/-- Settles O3: each form's result where its checks pass, and its trap where one fails, with SPACE, RANK and OFFSET as digits. -/
theorem immediateResults : Obligations.ImmediateResults := by
  refine ⟨fun s f => ⟨movi_eq, movhi_eq, addi_eq⟩, fun s f => ?_⟩
  extract_lets space rank a b off gives traps grouped asp k
  have hspace : (patSpace f).toNat = space := patSpace_toNat f
  have hrank : (patRank f).toNat = rank := patRank_toNat f
  have hgrouped : patSpace f = 2 ∨ patSpace f = 3 ↔ space = 2 ∨ space = 3 := or_congr (patSpace_eq_iff f 2) (patSpace_eq_iff f 3)
  have hknown : patSpace f ≤ 4 ↔ ¬ 4 < space := (patSpace_le_iff f 4).trans Nat.not_lt.symm
  have hplain : patRank f = 0 ↔ rank = 0 := patRank_eq_zero_iff f
  have hlocal : patSpace f = 1 ↔ space = 1 := patSpace_eq_iff f 1
  have hasp : spaceOf a = asp := spaceOf_eq a
  have hresult {fn : Nat} {i : Instr} {p : Word} {r : Nat} (hp : p = BitVec.ofNat 64 r)
      (he : exec i s = .next (s.after (.b 0x12 fn f) (s.setX f.xd p))) : gives fn i r := by
    subst hp
    exact he
  refine ⟨fun h => ?_, fun h => ?_, fun h => ?_, fun h => ?_, fun h => ?_⟩
  · have hc : patSpace f ≤ 4 ∧ (patRank f = 0 ∨ patSpace f = 2 ∨ patSpace f = 3)
        ↔ ¬ (4 < space ∨ (rank ≠ 0 ∧ ¬ (space = 2 ∨ space = 3))) := by
      rw [hknown, hplain, hgrouped]
      omega
    split
    next hbad => exact ptrmk_trap h fun hgood => hc.mp hgood hbad
    next hgood => exact hresult (mkPtr_eq hspace hrank (BitVec.toNat_setWidth ..)) (ptrmk_eq h (hc.mpr hgood))
  · split
    next hbad => exact ptrsp_trap h fun hgood => hknown.mp hgood hbad
    next hgood =>
      refine hresult (mkPtr_eq hspace ?_ (BitVec.toNat_setWidth ..)) (ptrsp_eq h (hknown.mpr hgood))
      simp only [hgrouped]
      split
      · exact extract_rank_toNat a
      · rfl
  · split
    next hbad => exact ptrrk_trap_space h (by rw [hasp]; tauto)
    next hgood =>
      have hgood : spaceOf a = 2 ∨ spaceOf a = 3 := by rw [hasp]; tauto
      split
      next hbad => exact ptrrk_trap_rank h hgood fun hk => by change 0 ≤ k ∧ k ≤ 4095 at hk; omega
      next hk =>
        refine hresult (mkPtr_eq (extract_space_toNat a) ?_ (BitVec.toNat_setWidth ..)) (ptrrk_eq h hgood ⟨?_, ?_⟩)
        · change (BitVec.ofInt 12 k).toNat = k.toNat
          rw [BitVec.toNat_ofInt]
          omega
        · exact Int.not_lt.mp fun hlt => hk (.inl hlt)
        · exact Int.not_lt.mp fun hlt => hk (.inr hlt)
  · refine hresult (mkPtr_extract a ?_) (ptroff_eq h)
    change (a.setWidth 48 + (b + off).setWidth 48).toNat = (a + b + off).toNat % 2 ^ 48
    simp only [BitVec.toNat_add, BitVec.toNat_setWidth]
    omega
  · have hc : (patSpace f = 1 ∨ patSpace f = 2 ∨ patSpace f = 3) ∧ (patRank f = 0 ∨ patSpace f ≠ 1)
        ↔ ¬ (¬ (space = 1 ∨ space = 2 ∨ space = 3) ∨ (rank ≠ 0 ∧ space = 1)) := by
      rw [hgrouped, hplain, hlocal, Ne, hlocal]
      omega
    split
    next hbad => exact pladr_trap_space h fun hgood => hc.mp hgood hbad
    next hgood =>
      split
      next hbad => exact pladr_trap_bound h (hc.mpr hgood) fun hok => by change a.toNat ≤ 255 ∧ b.toNat ≤ 255 ∧ _ at hok; omega
      next hin =>
        have hok : a.toNat ≤ 255 ∧ b.toNat ≤ 255 ∧ 0 ≤ f.imm32.toInt ∧ f.imm32.toInt ≤ 8191 := by omega
        have hoff : (BitVec.ofNat 48 (a.toNat * 2 ^ 21 + b.toNat * 2 ^ 13 + f.imm32.toInt.toNat)).toNat
            = a.toNat * 2 ^ 21 + b.toNat * 2 ^ 13 + f.imm32.toInt.toNat := by
          rw [BitVec.toNat_ofNat]
          omega
        refine hresult ((mkPtr_eq hspace hrank hoff).trans ?_) (pladr_eq h (hc.mpr hgood) hok)
        simp only [Nat.add_assoc]
end Sys2Proof.Machine
end

section
/-!
PROOFS. The checks of an access, in their order (04 R100).
-/
namespace Sys2Proof.Machine

/-! ### The first failure of a list of checks -/

section
variable {α β : Type} {l : List α} {e : Stop}

theorem forM_bind_ok {f : α → Res Unit} (h : ∀ a ∈ l, f a = .ok ()) (k : Unit → Res β) : (l.forM f >>= k) = k () := by
  induction l with
  | nil => rfl
  | cons a r ih =>
    have hr := ih fun b hb => h b (List.mem_cons_of_mem _ hb)
    change ((f a >>= fun _ => r.forM f) >>= k) = k ()
    rw [h a List.mem_cons_self]
    exact hr

/-- The check that fails first ends the list of checks. -/
theorem forM_bind_first {f : α → Res Unit} {pre post : List α} {a : α} (hpre : ∀ b ∈ pre, f b = .ok ()) (ha : f a = .error e)
    (k : Unit → Res β) : ((pre ++ a :: post).forM f >>= k) = .error e := by
  induction pre with
  | nil =>
    change ((f a >>= fun _ => post.forM f) >>= k) = _
    rw [ha]
    rfl
  | cons b r ih =>
    have hr := ih fun c hc => hpre c (List.mem_cons_of_mem _ hc)
    change ((f b >>= fun _ => (r ++ a :: post).forM f) >>= k) = _
    rw [hpre b List.mem_cons_self]
    exact hr

theorem mapM_bind_ok {γ : Type} {f : α → Res β} {g : α → β} (h : ∀ a ∈ l, f a = .ok (g a)) (k : List β → Res γ) :
    (l.mapM f >>= k) = k (l.map g) := by
  suffices hm : l.mapM f = .ok (l.map g) by rw [hm]; rfl
  induction l with
  | nil => rfl
  | cons a r ih =>
    have hr := ih fun b hb => h b (List.mem_cons_of_mem _ hb)
    rw [List.mapM_cons, h a List.mem_cons_self, hr]
    rfl

theorem mapM_bind_first {γ : Type} {f : α → Res β} {g : α → β} {pre post : List α} {a : α} (hpre : ∀ b ∈ pre, f b = .ok (g b))
    (ha : f a = .error e) (k : List β → Res γ) : ((pre ++ a :: post).mapM f >>= k) = .error e := by
  suffices hm : (pre ++ a :: post).mapM f = .error e by rw [hm]; rfl
  induction pre with
  | nil =>
    rw [List.nil_append, List.mapM_cons, ha]
    rfl
  | cons b r ih =>
    have hr := ih fun c hc => hpre c (List.mem_cons_of_mem _ hc)
    rw [List.cons_append, List.mapM_cons, hpre b List.mem_cons_self, hr]
    rfl

theorem need_ok {c : Prop} [Decidable c] (h : c) (cause : BitVec 16) (a i : Word) : need c cause a i = .ok () := if_pos h
theorem need_trap {c : Prop} [Decidable c] (h : ¬ c) (cause : BitVec 16) (a i : Word) : need c cause a i = .error (.trap ⟨cause, a, i⟩) :=
  if_neg h
end

/-! ### The lowest byte of an access that fails -/

/-- `a` is the first element of `l` for which `p` holds. -/
def FirstOf {α : Type} (p : α → Prop) (l : List α) (a : α) : Prop :=
  ∃ pre post, l = pre ++ a :: post ∧ p a ∧ ∀ b ∈ pre, ¬ p b

section
variable {α β : Type} {p : α → Prop} {l : List α} {a : α}

theorem FirstOf.mem (h : FirstOf p l a) : a ∈ l := by
  obtain ⟨pre, post, rfl, -⟩ := h
  simp
theorem FirstOf.holds (h : FirstOf p l a) : p a :=
  let ⟨_, _, _, ha, _⟩ := h
  ha
theorem FirstOf.mono {q : α → Prop} (h : FirstOf p l a) (hq : ∀ b ∈ l, p b ↔ q b) : FirstOf q l a := by
  obtain ⟨pre, post, rfl, ha, hpre⟩ := h
  exact ⟨pre, post, rfl, (hq a (by simp)).mp ha, fun b hb hqb => hpre b hb ((hq b (by simp [hb])).mpr hqb)⟩
theorem FirstOf.filter {q : α → Bool} (h : FirstOf p l a) (ha : q a = true) : FirstOf p (l.filter q) a := by
  obtain ⟨pre, post, rfl, hp, hpre⟩ := h
  exact ⟨pre.filter q, post.filter q, by simp [ha], hp, fun b hb => hpre b (List.mem_of_mem_filter hb)⟩
theorem FirstOf.map {q : β → Prop} {g : α → β} (h : FirstOf p l a) (hq : ∀ b ∈ l, p b ↔ q (g b)) : FirstOf q (l.map g) (g a) := by
  obtain ⟨pre, post, rfl, hp, hpre⟩ := h
  refine ⟨pre.map g, post.map g, by simp, (hq a (by simp)).mp hp, fun c hc => ?_⟩
  obtain ⟨b, hb, rfl⟩ := List.mem_map.mp hc
  exact fun hqb => hpre b hb ((hq b (by simp [hb])).mpr hqb)

/-- Checks of which each fails just where `p` holds end at the first such element. -/
theorem FirstOf.forM_bind {e : Stop} {f : α → Res Unit} (h : FirstOf p l a) (hok : ∀ b ∈ l, ¬ p b → f b = .ok ()) (he : f a = .error e)
    (k : Unit → Res β) : (l.forM f >>= k) = .error e := by
  obtain ⟨pre, post, rfl, -, hpre⟩ := h
  exact forM_bind_first (fun b hb => hok b (by simp [hb]) (hpre b hb)) he k
end

/-- The first byte of an access, by its place among them. -/
theorem firstOf_bytesOf {p : Word → Prop} {ea a : Word} {n : Nat}
    (h : ∃ i, i < n ∧ a = ea + BitVec.ofNat 64 i ∧ p a ∧ ∀ j, j < i → ¬ p (ea + BitVec.ofNat 64 j)) : FirstOf p (bytesOf ea n) a := by
  obtain ⟨i, hi, rfl, hp, hpre⟩ := h
  have hr : List.range n = List.range i ++ i :: (List.range (n - i - 1)).map (i + 1 + ·) := by
    conv_lhs => rw [show n = i + 1 + (n - i - 1) by omega, List.range_add, List.range_succ]
    simp
  refine ⟨bytesOf ea i, (List.range (n - i - 1)).map fun k => ea + BitVec.ofNat 64 (i + 1 + k), ?_, hp, fun b hb => ?_⟩
  · rw [bytesOf, hr]
    simp [bytesOf, Function.comp_def]
  · obtain ⟨j, hj, rfl⟩ := List.mem_map.mp hb
    exact hpre j (List.mem_range.mp hj)

theorem forall_bytesOf {p : Word → Prop} {ea : Word} {n : Nat} : (∀ a ∈ bytesOf ea n, p a) ↔ ∀ i, i < n → p (ea + BitVec.ofNat 64 i) := by
  simp [bytesOf]

/-! ### Checks 1 to 6 -/

/-- Does a byte lie in a plot? -/
def isPlotted (a : Word) : Bool := spaceOf a = 1 || spaceOf a = 2 || spaceOf a = 3

/-- The place of a byte of a plot, where it has one. -/
def State.byteAt (s : State) (a : Word) : PlotByte :=
  match s.plotByte a with
  | .ok x => x
  | .error _ => ⟨s.thr.plot, 0, 0, 0, 0, false, false⟩

theorem byteAt_eq {s : State} {a : Word} {x : PlotByte} (h : s.plotByte a = .ok x) : s.byteAt a = x := by rw [State.byteAt, h]

theorem plotByte_noGroup {s : State} {a : Word} (h1 : spaceOf a ≠ 1) (hg : s.curGroup = none) :
    s.plotByte a = .error (.trap ⟨cGROUP, a, 1⟩) := by
  rw [State.plotByte, if_neg h1, hg]
  rfl
theorem plotByte_noRank {s : State} {a : Word} {g : Group} (h1 : spaceOf a ≠ 1) (hg : s.curGroup = some g)
    (hr : g.next ≤ rankOf a ∨ g.member (rankOf a) = none) : s.plotByte a = .error (.trap ⟨cRANK, a, 0⟩) := by
  have hnone : (if rankOf a < g.next then g.member (rankOf a) else none) = none := by
    split
    next hlt => exact hr.resolve_left (by omega)
    next => rfl
  rw [State.plotByte, if_neg h1, hg]
  simp only [hnone]
  rfl
theorem plotByte_own {s : State} {a : Word} (h1 : spaceOf a = 1) : ∃ x, s.plotByte a = .ok x := by
  rw [State.plotByte, if_pos h1]
  exact ⟨_, rfl⟩
theorem plotByte_member {s : State} {a : Word} {g : Group} (hg : s.curGroup = some g)
    (hp : ∀ m ∈ g.members, (s.plotOfUid m.uid).isSome = true) (hr : ¬ (g.next ≤ rankOf a ∨ g.member (rankOf a) = none)) :
    ∃ x, s.plotByte a = .ok x := by
  by_cases h1 : spaceOf a = 1
  · exact plotByte_own h1
  · obtain ⟨hlt, hmember⟩ := not_or.mp hr
    obtain ⟨m, hm⟩ := Option.ne_none_iff_exists'.mp hmember
    obtain ⟨q, hq⟩ := Option.isSome_iff_exists.mp (hp m (List.mem_of_find?_eq_some hm))
    rw [State.plotByte, if_neg h1, hg]
    simp only [if_pos (Nat.lt_of_not_le hlt), hm, hq]
    split <;> exact ⟨_, rfl⟩

section
variable {s : State} {w : Want} {ea : Word} {bs : List Word}

/-- Every byte has a form that its SPACE allows, and a place where it lies in a plot: checks 1 to 3. -/
structure Placed (s : State) (w : Want) (bs : List Word) : Prop where
  forms : ∀ a ∈ bs, s.formOk w.kind a = true
  places : ∀ a ∈ bs, isPlotted a = true → ∃ x, s.plotByte a = .ok x

/-- Checks 1 to 6 pass. -/
structure OnPlane (s : State) (w : Want) (ea : Word) (bs : List Word) : Prop extends Placed s w bs where
  aligned : w.align = 0 ∨ ea.toNat % w.align = 0
  inside : ∀ a ∈ bs, isPlotted a = true → (s.byteAt a).inside = true
  on : ∀ a ∈ bs, isPlotted a = true → s.isOff (s.byteAt a).cell = false

theorem mem_plotted {a : Word} : a ∈ bs.filter isPlotted ↔ a ∈ bs ∧ isPlotted a = true := List.mem_filter

theorem Placed.groups (h : Placed s w bs) : ∀ a ∈ bs.filter isPlotted, need (spaceOf a = 1 ∨ s.curGroup.isSome) cGROUP a 1 = .ok () := by
  intro a ha
  obtain ⟨hmem, hplot⟩ := mem_plotted.mp ha
  obtain ⟨x, hx⟩ := h.places a hmem hplot
  refine need_ok ?_ ..
  by_contra hc
  obtain ⟨h1, hg⟩ := not_or.mp hc
  rw [plotByte_noGroup h1 (by simpa using hg)] at hx
  cases hx
theorem Placed.pairs (h : Placed s w bs) :
    ∀ a ∈ bs.filter isPlotted, (do pure (a, ← s.plotByte a) : Res (Word × PlotByte)) = .ok (a, s.byteAt a) := by
  intro a ha
  obtain ⟨hmem, hplot⟩ := mem_plotted.mp ha
  obtain ⟨x, hx⟩ := h.places a hmem hplot
  rw [byteAt_eq hx, hx]
  rfl

/-- What is left of an access where checks 1 to 3 pass. -/
theorem Placed.bind {α : Type} (h : Placed s w bs) (k : List (Word × PlotByte) → Res α) :
    (do
      bs.forM fun a => need (s.formOk w.kind a = true) cSPACE a
      (bs.filter isPlotted).forM fun a => need (spaceOf a = 1 ∨ s.curGroup.isSome) cGROUP a 1
      let pbs ← (bs.filter isPlotted).mapM fun a => do pure (a, ← s.plotByte a)
      k pbs) = k ((bs.filter isPlotted).map fun a => (a, s.byteAt a)) :=
  (forM_bind_ok (fun a ha => need_ok (h.forms a ha) ..) _).trans <| (forM_bind_ok h.groups _).trans <| mapM_bind_ok h.pairs _

theorem resolveBytes_badForm {a : Word} (h : FirstOf (fun a => s.formOk w.kind a = false) bs a) :
    s.resolveBytes w ea bs = .error (.trap ⟨cSPACE, a, 0⟩) :=
  h.forM_bind (fun _ _ hb => need_ok (by simpa using hb) ..) (need_trap (by simpa using h.holds) ..) _

theorem resolveBytes_noGroup {a : Word} (hform : ∀ a ∈ bs, s.formOk w.kind a = true) (hg : s.curGroup = none)
    (h : FirstOf (fun a => spaceOf a = 2 ∨ spaceOf a = 3) bs a) : s.resolveBytes w ea bs = .error (.trap ⟨cGROUP, a, 1⟩) := by
  have hplot : isPlotted a = true := by rcases h.holds with h | h <;> simp [isPlotted, h]
  refine (forM_bind_ok (fun a ha => need_ok (hform a ha) ..) _).trans ((h.filter hplot).forM_bind (fun b hb hn => ?_) ?_ _)
  · have hb := (mem_plotted.mp hb).2
    exact need_ok (.inl (by simp_all [isPlotted])) ..
  · refine need_trap ?_ ..
    rcases h.holds with h | h <;> simp [h, hg]

theorem resolveBytes_noRank {a : Word} {g : Group} (hform : ∀ a ∈ bs, s.formOk w.kind a = true) (hg : s.curGroup = some g)
    (hp : ∀ m ∈ g.members, (s.plotOfUid m.uid).isSome = true)
    (h : FirstOf (fun a => (spaceOf a = 2 ∨ spaceOf a = 3) ∧ (g.next ≤ rankOf a ∨ g.member (rankOf a) = none)) bs a) :
    s.resolveBytes w ea bs = .error (.trap ⟨cRANK, a, 0⟩) := by
  obtain ⟨hgrouped, hrank⟩ := h.holds
  have hplot : isPlotted a = true := by rcases hgrouped with h | h <;> simp [isPlotted, h]
  refine (forM_bind_ok (fun a ha => need_ok (hform a ha) ..) _).trans ((forM_bind_ok (fun a _ => need_ok (by simp [hg]) ..) _).trans ?_)
  obtain ⟨pre, post, hsplit, -, hpre⟩ := h.filter hplot
  change ((bs.filter isPlotted).mapM _ >>= _) = _
  rw [hsplit]
  refine mapM_bind_first (g := fun a => (a, s.byteAt a)) (fun b hb => ?_) ?_ _
  · have hb' : isPlotted b = true := (mem_plotted (bs := bs).mp (hsplit ▸ by simp [hb])).2
    have hx : ∃ x, s.plotByte b = .ok x := by
      by_cases h1 : spaceOf b = 1
      · exact plotByte_own h1
      · exact plotByte_member hg hp fun hr => hpre b hb ⟨by simp_all [isPlotted], hr⟩
    obtain ⟨x, hx⟩ := hx
    rw [byteAt_eq hx, hx]
    rfl
  · rw [plotByte_noRank (by rcases hgrouped with h | h <;> simp [h]) hg hrank]
    rfl

theorem Placed.resolve_misaligned (h : Placed s w bs) (ha : ¬ (w.align = 0 ∨ ea.toNat % w.align = 0)) :
    s.resolveBytes w ea bs = .error (.trap ⟨cMISALIGN, ea, 0⟩) :=
  (h.bind _).trans <| need_bind_not ha ..

theorem Placed.resolve_outside (h : Placed s w bs) (ha : w.align = 0 ∨ ea.toNat % w.align = 0) {a : Word}
    (hf : FirstOf (fun a => isPlotted a = true ∧ (s.byteAt a).inside = false) bs a) :
    s.resolveBytes w ea bs = .error (.trap ⟨cPLOT_BOUND, a, 0⟩) := by
  refine (h.bind _).trans <| (need_bind ha ..).trans ?_
  refine ((hf.filter hf.holds.1).map (q := fun x => x.2.inside = false) fun b hb => ?_).forM_bind (fun x _ hx => ?_) ?_ _
  · simp [(mem_plotted.mp hb).2]
  · exact need_ok (by simpa using hx) ..
  · exact need_trap (by simp [hf.holds.2]) ..

theorem Placed.resolve_off (h : Placed s w bs) (ha : w.align = 0 ∨ ea.toNat % w.align = 0)
    (hin : ∀ a ∈ bs, isPlotted a = true → (s.byteAt a).inside = true) {a : Word}
    (hf : FirstOf (fun a => isPlotted a = true ∧ s.isOff (s.byteAt a).cell = true) bs a) :
    s.resolveBytes w ea bs = .error (.trap ⟨cPLANE_OFF, a, 0⟩) := by
  refine (h.bind _).trans <| (need_bind ha ..).trans <| (forM_bind_ok (fun x hx => ?_) _).trans ?_
  · obtain ⟨b, hb, rfl⟩ := List.mem_map.mp hx
    obtain ⟨hmem, hplot⟩ := mem_plotted.mp hb
    exact need_ok (hin b hmem hplot) ..
  · refine ((hf.filter hf.holds.1).map (q := fun x => s.isOff x.2.cell = true) fun b hb => ?_).forM_bind (fun x _ hx => ?_) ?_ _
    · simp [(mem_plotted.mp hb).2]
    · exact need_ok (by simpa using hx) ..
    · exact need_trap (by simp [hf.holds.2]) ..

/-! ### Checks 7 to 9 -/

/-- What is left of an access where checks 1 to 6 pass. -/
theorem OnPlane.bind {α : Type} (h : OnPlane s w ea bs) (k : List (Word × PlotByte) → Res α) :
    (do
      bs.forM fun a => need (s.formOk w.kind a = true) cSPACE a
      (bs.filter isPlotted).forM fun a => need (spaceOf a = 1 ∨ s.curGroup.isSome) cGROUP a 1
      let pbs ← (bs.filter isPlotted).mapM fun a => do pure (a, ← s.plotByte a)
      need (w.align = 0 ∨ ea.toNat % w.align = 0) cMISALIGN ea
      pbs.forM fun x => need (x.2.inside = true) cPLOT_BOUND x.1
      pbs.forM fun x => need (s.isOff x.2.cell = false) cPLANE_OFF x.1
      k pbs) = k ((bs.filter isPlotted).map fun a => (a, s.byteAt a)) := by
  have hpair {c : Word × PlotByte → Prop} (hc : ∀ a ∈ bs, isPlotted a = true → c (a, s.byteAt a)) :
      ∀ x ∈ (bs.filter isPlotted).map fun a => (a, s.byteAt a), c x := by
    intro x hx
    obtain ⟨b, hb, rfl⟩ := List.mem_map.mp hx
    obtain ⟨hmem, hplot⟩ := mem_plotted.mp hb
    exact hc b hmem hplot
  exact (h.toPlaced.bind _).trans <| (need_bind h.aligned ..).trans <|
    (forM_bind_ok (hpair fun a ha hplot => need_ok (h.inside a ha hplot) ..) _).trans <|
    forM_bind_ok (hpair fun a ha hplot => need_ok (h.on a ha hplot) ..) _

theorem OnPlane.resolve_notMapped (h : OnPlane s w ea bs) {va info : Nat}
    (hm : s.leaves (some s.cl) s.thr.root s.thr.vf w.store ((bs.filter fun a => spaceOf a = 0).map offsetOf) [] = .error (va, info)) :
    s.resolveBytes w ea bs = .error (.trap ⟨cNOTMAPPED, BitVec.ofNat 64 va, BitVec.ofNat 64 info⟩) := by
  refine (h.bind _).trans ?_
  extract_lets global root vf cl fps drained checked
  rw [hm]
  rfl

/-- The leaf that translates a byte. -/
def leafAt (lv : NMap XLeaf) (a : Word) : XLeaf := (lv.find (offsetOf a / 65536)).getD ⟨0, 0, 0, 0, false, []⟩
/-- The entry of that leaf. -/
def entryAt (lv : NMap XLeaf) (a : Word) : Word := ((lv.find (offsetOf a / 65536)).map (·.entry)).getD 0

theorem leafAt_entry (lv : NMap XLeaf) (a : Word) : (leafAt lv a).entry = entryAt lv a := by
  unfold leafAt entryAt
  cases lv.find (offsetOf a / 65536) <;> rfl

/-- Does the page of a byte deny a store: it is copy-on-write, or may not be written (04 R88)? -/
def Denied (w : Want) (lv : NMap XLeaf) (a : Word) : Prop :=
  w.store = true ∧ ((entryAt lv a).getLsbD 4 = true ∨ (entryAt lv a).getLsbD 1 = false)

/-- Check 8 of a byte. -/
def pageCheck (w : Want) (lv : NMap XLeaf) (a : Word) : Res Unit := do
  need (w.store = false ∨ (leafAt lv a).entry.getLsbD 4 = false) cCOW a
  need (w.store = false ∨ (leafAt lv a).entry.getLsbD 1 = true) cPERM a
  need (w.hostOk = true ∨ isMain (leafAt lv a).pa = true) cPERM a

theorem pageCheck_ok {lv : NMap XLeaf} {a : Word} (hhost : w.hostOk = true) (h : ¬ Denied w lv a) : pageCheck w lv a = .ok () := by
  unfold Denied at h
  unfold pageCheck
  rw [leafAt_entry, need_bind, need_bind, need_ok (.inl hhost)]
  all_goals cases hs : w.store <;> simp_all
theorem pageCheck_trap {lv : NMap XLeaf} {a : Word} (h : Denied w lv a) :
    pageCheck w lv a = .error (.trap ⟨if (entryAt lv a).getLsbD 4 then cCOW else cPERM, a, 0⟩) := by
  obtain ⟨hs, hd⟩ := h
  unfold pageCheck
  rw [leafAt_entry]
  cases h4 : (entryAt lv a).getLsbD 4 with
  | true => exact need_bind_not (by simp [hs]) ..
  | false => exact (need_bind (by simp) ..).trans (need_bind_not (by simp_all) ..)

theorem OnPlane.resolve_denied (h : OnPlane s w ea bs) (hhost : w.hostOk = true) (hall : ∀ a ∈ bs, spaceOf a = 0) {lv : NMap XLeaf}
    (hm : s.leaves (some s.cl) s.thr.root s.thr.vf w.store ((bs.filter fun a => spaceOf a = 0).map offsetOf) [] = .ok lv)
    {a : Word} (hf : FirstOf (Denied w lv) bs a) :
    s.resolveBytes w ea bs = .error (.trap ⟨if (entryAt lv a).getLsbD 4 then cCOW else cPERM, a, 0⟩) := by
  refine (h.bind _).trans ?_
  extract_lets global root vf cl fps drained checked
  rw [hm]
  exact (hf.filter (by simp [hall a hf.mem])).forM_bind (f := pageCheck w lv) (fun b _ hb => pageCheck_ok hhost hb) (pageCheck_trap hf.holds) _

/-- Check 9, of bytes at the locations that `loc` gives. -/
theorem poison_first {t : State} {loc : Word → Loc × Nat} {a : Word} {α : Type} (hf : FirstOf (fun a => t.isPoisoned (loc a).1 = true) bs a)
    (k : Unit → Res α) : ((bs.zip (bs.map loc)).forM (fun x => need (t.isPoisoned x.2.1 = false) cECC x.1) >>= k)
      = .error (.trap ⟨cECC, a, 0⟩) := by
  rw [← List.map_prod_left_eq_zip]
  refine (hf.map (q := fun x => t.isPoisoned x.2.1 = true) fun b _ => Iff.rfl).forM_bind (fun x _ hx => ?_) ?_ _
  · exact need_ok (by simpa using hx) ..
  · exact need_trap (by simp [hf.holds]) ..

theorem OnPlane.resolve_poisonedPage (h : OnPlane s w ea bs) (hhost : w.hostOk = true) (hall : ∀ a ∈ bs, spaceOf a = 0)
    (hea : spaceOf ea = 0) {lv : NMap XLeaf}
    (hm : s.leaves (some s.cl) s.thr.root s.thr.vf w.store ((bs.filter fun a => spaceOf a = 0).map offsetOf) [] = .ok lv)
    (hok : ∀ a ∈ bs, ¬ Denied w lv a) (hdata : w.data = true) {a : Word}
    (hf : FirstOf (fun a => (s.drainedFor w.before).isPoisoned (s.leafLoc (leafAt lv a) (offsetOf a)).1 = true) bs a) :
    s.resolveBytes w ea bs = .error (.trap ⟨cECC, a, 0⟩) := by
  refine (h.bind _).trans ?_
  extract_lets global root vf cl fps drained checked
  rw [hm]
  refine (forM_bind_ok (f := pageCheck w lv) (fun b hb => pageCheck_ok hhost (hok b (List.mem_of_mem_filter hb))) _).trans ?_
  extract_lets s' locs peers done watched sound
  have hsound : sound () = .error (.trap ⟨cECC, a, 0⟩) := by
    dsimp only [sound]
    rw [if_pos hdata]
    refine poison_first (hf.mono fun b hb => ?_) _
    rw [hall b hb]
    rfl
  rw [if_neg (by omega)]
  exact hsound

/-- The place of a plotted byte is among the places of the access. -/
theorem find_byteAt {a : Word} (ha : a ∈ bs) (hplot : isPlotted a = true) :
    ((bs.filter isPlotted).map fun a => (a, s.byteAt a)).find? (fun x => x.1 == a) = some (a, s.byteAt a) := by
  obtain ⟨x, hx⟩ : ∃ x, ((bs.filter isPlotted).map fun a => (a, s.byteAt a)).find? (fun x => x.1 == a) = some x :=
    Option.isSome_iff_exists.mp (List.find?_isSome.mpr
      ⟨_, List.mem_map.mpr ⟨a, mem_plotted.mpr ⟨ha, hplot⟩, rfl⟩, beq_self_eq_true a⟩)
  obtain ⟨b, -, rfl⟩ := List.mem_map.mp (List.mem_of_find?_eq_some hx)
  cases (by simpa using List.find?_some hx : b = a)
  exact hx

/-- Where a byte lies outside space 0, no page translates it. -/
theorem filter_space_zero (hall : ∀ a ∈ bs, spaceOf a ≠ 0) : bs.filter (fun a => spaceOf a = 0) = [] := by
  simpa [List.filter_eq_nil_iff] using hall

theorem spaceOf_of_plotted {a : Word} (h : isPlotted a = true) : spaceOf a = 1 ∨ spaceOf a = 2 ∨ spaceOf a = 3 := by
  simpa [isPlotted, or_assoc] using h

theorem OnPlane.resolve_poisonedPlot (h : OnPlane s w ea bs) (hall : ∀ a ∈ bs, isPlotted a = true) (hea : isPlotted ea = true)
    (hdata : w.data = true) {a : Word}
    (hf : FirstOf (fun a => (s.drainedFor w.before).isPoisoned (s.plotLoc (s.byteAt a)) = true) bs a) :
    s.resolveBytes w ea bs = .error (.trap ⟨cECC, a, 0⟩) := by
  have hglobal : bs.filter (fun a => spaceOf a = 0) = [] :=
    filter_space_zero fun a ha => by rcases spaceOf_of_plotted (hall a ha) with h | h | h <;> simp [h]
  refine (h.bind _).trans ?_
  extract_lets global root vf cl fps drained checked
  have hnil : global = [] := hglobal
  rw [hnil]
  refine (forM_bind_ok (f := pageCheck w []) (l := global) (by simp [hnil]) _).trans ?_
  extract_lets s' locs peers done watched sound
  have hsound : sound () = .error (.trap ⟨cECC, a, 0⟩) := by
    dsimp only [sound]
    rw [if_pos hdata]
    refine poison_first (hf.mono fun b hb => ?_) _
    have hspace := spaceOf_of_plotted (hall b hb)
    have hfind := find_byteAt (s := s) hb (hall b hb)
    split
    next h => omega
    next h => omega
    next =>
      split
      next x hx =>
        cases hfind.symm.trans hx
        rfl
      next hx => cases hfind.symm.trans hx
  rw [if_neg (by rcases spaceOf_of_plotted hea with h | h | h <;> omega)]
  exact hsound

/-- The range checks of the engines' space (04 R110). -/
theorem OnPlane.resolve_engine (h : OnPlane s w ea bs) (hall : ∀ a ∈ bs, spaceOf a = 4) (hea : spaceOf ea = 4) :
    match engRange (ea.toNat % 2 ^ 28) with
    | none => s.resolveBytes w ea bs = .error (.trap ⟨cPERM, ea, 0⟩)
    | some (last, writable) =>
      (w.store = true ∧ writable = false → s.resolveBytes w ea bs = .error (.trap ⟨cPERM, ea, 0⟩))
      ∧ (¬ (w.store = true ∧ writable = false) → last < ea.toNat % 2 ^ 28 + bs.length - 1 →
        s.resolveBytes w ea bs = .error (.trap ⟨cPERM, ea + BitVec.ofNat 64 (last + 1 - ea.toNat % 2 ^ 28), 0⟩)) := by
  have hglobal : bs.filter (fun a => spaceOf a = 0) = [] := filter_space_zero fun a ha => by simp [hall a ha]
  have ho : bits (offsetOf ea) 0 28 = ea.toNat % 2 ^ 28 := by
    simp only [bits, offsetOf, fld]
    omega
  have hrest (r : Res (State × Named)) (hr : ∀ k : Unit → Res (State × Named),
      (match engRange (ea.toNat % 2 ^ 28) with
        | none => raise cPERM ea >>= k
        | some (last, rw) => do
          need (w.store = false ∨ rw = true) cPERM ea
          need (ea.toNat % 2 ^ 28 + bs.length ≤ last + 1) cPERM (ea + BitVec.ofNat 64 (last + 1 - ea.toNat % 2 ^ 28))
          k ()) = r) : s.resolveBytes w ea bs = r := by
    refine (h.bind _).trans ?_
    extract_lets global root vf cl fps drained checked
    have hnil : global = [] := hglobal
    rw [hnil]
    refine (forM_bind_ok (f := pageCheck w []) (l := global) (by simp [hnil]) _).trans ?_
    extract_lets s' locs peers done watched sound
    rw [if_pos hea, ho]
    exact hr _
  split
  next he => exact hrest _ fun k => by rw [he]; rfl
  next last writable he =>
    refine ⟨fun hd => hrest _ fun k => ?_, fun hd hlast => hrest _ fun k => ?_⟩
    · rw [he]
      exact need_bind_not (by simp [hd]) ..
    · rw [he]
      exact (need_bind (by cases hs : w.store <;> simp_all) ..).trans (need_bind_not (by omega) ..)

/-! ### Pages that are found -/

theorem NMap.find_insert {α : Type} (v : α) (m : NMap α) (j k : Nat) (hm : ∀ c ∈ m, c.1 ≠ j) :
    NMap.find (NMap.insert j v m) k = if k = j then some v else NMap.find m k := by
  induction m with
  | nil => simp [NMap.insert, NMap.find, eq_comm]
  | cons c r ih =>
    have hc : c.1 ≠ j := hm c (by simp)
    have hr := ih fun x hx => hm x (by simp [hx])
    unfold NMap.insert
    split
    · simp [NMap.find, eq_comm]
    · by_cases hk : c.1 = k
      · simp [NMap.find, hk, show k ≠ j by omega]
      · simp [NMap.find, hk, hr]
theorem NMap.find_drop_other {α : Type} (m : NMap α) {j k : Nat} (h : k ≠ j) : NMap.find (NMap.drop m j) k = NMap.find m k := by
  induction m with
  | nil => rfl
  | cons c r ih =>
    by_cases hc : c.1 = j
    · simpa [NMap.drop, NMap.find, hc, Ne.symm h] using ih
    · by_cases hk : c.1 = k
      · simp [NMap.drop, NMap.find, hk, h]
      · simpa [NMap.drop, NMap.find, hc, hk] using ih
theorem NMap.find_set {α : Type} (m : NMap α) (j k : Nat) (v : α) :
    NMap.find (NMap.set m j v) k = if k = j then some v else NMap.find m k := by
  rw [NMap.set, NMap.find_insert _ _ _ _ (NMap.drop_ne m j)]
  split
  · rfl
  next h => exact NMap.find_drop_other m h

/-- The leaves of a list of addresses hold one for the page of each. -/
theorem leaves_found {cl : Option Nat} {root : BitVec 44} {vf : BitVec 6} {store : Bool} {l : List Nat} {m lv : NMap XLeaf}
    (h : s.leaves cl root vf store l m = .ok lv) :
    (∀ va ∈ l, (lv.find (va / 65536)).isSome = true) ∧ ∀ k, (m.find k).isSome = true → (lv.find k).isSome = true := by
  induction l generalizing m with
  | nil =>
    cases h
    exact ⟨nofun, fun _ hk => hk⟩
  | cons va r ih =>
    unfold State.leaves at h
    split at h
    next x hx =>
      obtain ⟨hr, hm⟩ := ih h
      exact ⟨List.forall_mem_cons.mpr ⟨hm _ (by rw [hx]; rfl), hr⟩, hm⟩
    next hx =>
      split at h
      · cases h
      next x _ =>
        obtain ⟨hr, hm⟩ := ih h
        refine ⟨List.forall_mem_cons.mpr ⟨hm _ (by simp [NMap.find_set]), hr⟩, fun k hk => hm k ?_⟩
        rw [NMap.find_set]
        split
        · rfl
        · exact hk
end

/-- Settles O13: each check fails at the first byte that it is not met for, once the checks before it pass for every byte. -/
theorem accessChecks : Obligations.AccessChecks := by
  intro s w ea n hn hhost
  extract_lets at' first all grouped plotted traps legal noRank placed outside off aligned onPlane global mapped
  have each {p : Word → Prop} (h : all p) : ∀ a ∈ bytesOf ea n, p a := forall_bytesOf.mpr h
  have hea : ea ∈ bytesOf ea n := List.mem_map.mpr ⟨0, List.mem_range.mpr hn, by simp⟩
  have hplotted (a : Word) : plotted a ↔ isPlotted a = true := by simp [plotted, grouped, isPlotted, or_assoc]
  have hplace (hp : placed) {a : Word} (ha : a ∈ bytesOf ea n) (h : plotted a) : s.plotByte a = .ok (s.byteAt a) := by
    obtain ⟨x, hx⟩ := each (p := fun a => plotted a → ∃ x, s.plotByte a = .ok x) hp a ha h
    rw [byteAt_eq hx, hx]
  have hplaced (hl : legal) (hp : placed) : Placed s w (bytesOf ea n) :=
    ⟨each hl, fun a ha h => ⟨_, hplace hp ha ((hplotted a).mpr h)⟩⟩
  have hbyte (hp : placed) {q : PlotByte → Prop} {a : Word} (ha : a ∈ bytesOf ea n) :
      (plotted a ∧ ∃ x, s.plotByte a = .ok x ∧ q x) ↔ isPlotted a = true ∧ q (s.byteAt a) := by
    refine ⟨fun ⟨h, x, hx, hq⟩ => ⟨(hplotted a).mp h, byteAt_eq hx ▸ hq⟩, fun ⟨h, hq⟩ => ?_⟩
    exact ⟨(hplotted a).mpr h, _, hplace hp ha ((hplotted a).mpr h), hq⟩
  have hnever (hp : placed) {q : PlotByte → Prop} (h : all fun a => ¬ (plotted a ∧ ∃ x, s.plotByte a = .ok x ∧ q x)) :
      ∀ a ∈ bytesOf ea n, isPlotted a = true → ¬ q (s.byteAt a) :=
    fun a ha hplot hq => each (p := fun a => ¬ (plotted a ∧ ∃ x, s.plotByte a = .ok x ∧ q x)) h a ha ((hbyte hp ha).mpr ⟨hplot, hq⟩)
  have hon : onPlane → OnPlane s w ea (bytesOf ea n) := by
    rintro ⟨hl, hp, ha, hin, hof⟩
    exact ⟨hplaced hl hp, ha, fun a hm h => by simpa using hnever hp hin a hm h, fun a hm h => by simpa using hnever hp hof a hm h⟩
  refine ⟨fun a h => resolveBytes_badForm (firstOf_bytesOf h), fun hl hg a h => resolveBytes_noGroup (each hl) hg (firstOf_bytesOf h),
    fun hl g hg hm a h => resolveBytes_noRank (each hl) hg hm (firstOf_bytesOf h), fun hl hp ha => (hplaced hl hp).resolve_misaligned ha,
    fun hl hp ha a h => ?_, fun hl hp ha hin a h => ?_, fun h va info hm => (hon h).resolve_notMapped hm,
    fun h hs lv hm => ⟨fun a hd => ?_, fun hd hdata a hf => ?_⟩, fun h hs hdata a hf => ?_, fun h hs => ?_⟩
  · exact (hplaced hl hp).resolve_outside ha ((firstOf_bytesOf h).mono fun b hb => hbyte hp hb)
  · exact (hplaced hl hp).resolve_off ha (fun a hm h => by simpa using hnever hp hin a hm h)
      ((firstOf_bytesOf h).mono fun b hb => hbyte hp hb)
  · exact (hon h).resolve_denied hhost (each hs) hm (firstOf_bytesOf hd)
  · have hf := firstOf_bytesOf (p := fun a => ∃ x, NMap.find lv (offsetOf a / 65536) = some x
      ∧ (s.drainedFor w.before).isPoisoned (s.leafLoc x (offsetOf a)).1 = true) hf
    have hzero : ∀ a ∈ bytesOf ea n, spaceOf a = 0 := each hs
    refine (hon h).resolve_poisonedPage hhost hzero (hzero ea hea) hm (each hd) hdata (hf.mono fun b hb => ?_)
    have hb' : b ∈ (bytesOf ea n).filter fun a => spaceOf a = 0 := List.mem_filter.mpr ⟨hb, by simpa using hzero b hb⟩
    obtain ⟨x, hx⟩ := Option.isSome_iff_exists.mp ((leaves_found hm).1 _ (List.mem_map_of_mem hb'))
    simp [leafAt, hx]
  · refine (hon h).resolve_poisonedPlot (fun a ha => (hplotted a).mp (each hs a ha)) ((hplotted ea).mp (each hs ea hea)) hdata
      ((firstOf_bytesOf hf).mono fun b hb => ?_)
    obtain ⟨-, hp, -⟩ := h
    have hb' := hplace hp hb (each hs b hb)
    exact ⟨fun ⟨x, hx, hq⟩ => byteAt_eq hx ▸ hq, fun hq => ⟨_, hb', hq⟩⟩
  · have hfour : ∀ a ∈ bytesOf ea n, spaceOf a = 4 := each hs
    have he := (hon h).resolve_engine hfour (hfour ea hea)
    have hlen : (bytesOf ea n).length = n := by simp [bytesOf]
    rename_i o
    rw [hlen] at he
    split at he
    next hr => rw [show engRange o = none from hr]; exact he
    next last writable hr =>
      rw [show engRange o = some (last, writable) from hr]
      obtain ⟨hdeny, hend⟩ := he
      change if w.store = true ∧ writable = false then _ else _
      split
      next hd => exact hdeny hd
      next hd => exact hend hd
end Sys2Proof.Machine
end

section
/-!
PROOFS. Stores: ST and the event in which a store leaves its queue (04 R101; 16 R337).
-/
namespace Sys2Proof.Machine

/-! ### What an access may change as it is translated (04 R89, R92) -/

/-- The state `s` with the memory and the translation caches of `u`. -/
def State.onMemory (s u : State) : State :=
  { s with mem := u.mem, memKey := u.memKey, extMem := u.extMem, extKey := u.extKey, clusters := u.clusters, l2tlb := u.l2tlb
           walkCache := u.walkCache }

section
variable (s : State)

theorem foldl_onMemory {α : Type} {f : State → α → State} (hf : ∀ s x, f s x = s.onMemory (f s x)) (l : List α) :
    l.foldl f s = s.onMemory (l.foldl f s) :=
  foldl_keeps (fun u => u = s.onMemory u) f (fun u x hu => by rw [hf u x, hu]; rfl) l s rfl
theorem putMem_onMemory (k : Nat) (key : KeyVal) (v : Byte) : s.putMem k key v = s.onMemory (s.putMem k key v) := by
  have hkey (sec : Nat) : s.rekey sec key = s.onMemory (s.rekey sec key) := by
    unfold State.rekey
    extract_lets
    split <;> rfl
  unfold State.putMem
  rw [hkey]
  rfl
theorem tableWrite_onMemory (pa : Nat) (v : Word) : s.tableWrite pa v = s.onMemory (s.tableWrite pa v) := by
  refine foldl_onMemory s (fun s i => ?_) _
  dsimp only
  split
  · exact putMem_onMemory ..
  · rfl
theorem commitLeaf_onMemory (cl : Option Nat) (root : BitVec 44) (vf : BitVec 6) (store : Bool) (x : XLeaf) :
    s.commitLeaf cl root vf store x = s.onMemory (s.commitLeaf cl root vf store x) := by
  have htable (c : Prop) [Decidable c] (e : Word) :
      (if c then s else s.tableWrite x.slot e) = s.onMemory (if c then s else s.tableWrite x.slot e) := by
    split
    · rfl
    · exact tableWrite_onMemory ..
  unfold State.commitLeaf
  extract_lets e u
  have hu : u = s.onMemory u := htable _ e
  split
  · split
    · exact hu
    · rw [hu]
      rfl
  · split
    · rfl
    · split <;> rfl

/-- Where the checks of an access pass, its state has the A and D bits of its pages and the filled caches, and nothing else that is
new. -/
theorem resolveBytes_onMemory (w : Want) (ea : Word) (bs : List Word) : (s.resolveBytes w ea bs).Gives fun r => r.1 = s.onMemory r.1 := by
  unfold State.resolveBytes
  refine .bind fun _ _ => .bind fun _ _ => .bind fun pbs _ => .bind fun _ _ => .bind fun _ _ => .bind fun _ _ => ?_
  extract_lets global root vf cl fps drained checked
  have hchecked (lv) : (checked lv).Gives fun r => r.1 = s.onMemory r.1 := by
    refine .bind fun _ _ => ?_
    extract_lets s' locs peers done watched sound
    have hdone : (done ()).Gives fun r => r.1 = s.onMemory r.1 := .ok (foldl_onMemory s (fun s x => commitLeaf_onMemory s ..) lv)
    have hwatched : (watched ()).Gives fun r => r.1 = s.onMemory r.1 := by
      dsimp only [watched]
      split
      · split
        · split <;> exact .bind fun _ _ => hdone
        · exact hdone
      · exact hdone
    have hsound : (sound ()).Gives fun r => r.1 = s.onMemory r.1 := by
      dsimp only [sound]
      split
      · exact .bind fun _ _ => hwatched
      · exact hwatched
    split
    · split
      · exact .bind fun _ _ => hsound
      · exact .bind fun _ _ => .bind fun _ _ => hsound
    · exact hsound
  split <;> exact .bind fun _ _ => hchecked _
end

section
variable {s s1 : State} {w : Want} {ea : Word} {n : Nat} {nm : Named}

theorem resolve_onMemory (h : s.resolve w ea n = .ok (s1, nm)) : s1 = s.onMemory s1 := resolveBytes_onMemory s w ea _ _ h
theorem resolve_thr (h : s.resolve w ea n = .ok (s1, nm)) : s1.thr = s.thr := by
  rw [resolve_onMemory h]
  rfl
theorem resolve_rows (h : s.resolve w ea n = .ok (s1, nm)) : s1.rows = s.rows := by
  rw [resolve_onMemory h]
  rfl
end

/-! ### Effective addresses and the bytes of a store -/

/-- The effective address of format M as 02 R27 writes it. -/
theorem ea_eq (s : State) (f : FM) :
    s.ea f = s.X f.xa + (if f.xb = 0 then 0 else s.X f.xb * BitVec.ofNat 64 (2 ^ f.scl.toNat)) + f.disp.signExtend 64 := by
  have hshift (v : Word) (k : Nat) : v <<< k = v * BitVec.ofNat 64 (2 ^ k) := by
    refine BitVec.eq_of_toNat_eq ?_
    simp [BitVec.toNat_mul, Nat.shiftLeft_eq]
  unfold State.ea
  rw [hshift]

theorem leBytes_getElem? (n v i : Nat) : (leBytes n v)[i]? = if i < n then some (BitVec.ofNat 8 (v / 256 ^ i)) else none := by
  induction n generalizing v i with
  | zero => simp [leBytes]
  | succ n ih =>
    cases i with
    | zero => simp [leBytes]
    | succ i => simp [leBytes, ih, Nat.div_div_eq_div_mul, Nat.pow_succ']

/-- A byte of a queued store is that of its value, at its location. -/
theorem SqEntry.Holds.getElem? {e : SqEntry} {locs : List (Loc × Nat)} {n v i : Nat} {b : SqByte} (h : e.Holds locs (leBytes n v))
    (hb : e.bytes[i]? = some b) : locs[i]? = some (b.loc, b.key) ∧ b.val = BitVec.ofNat 8 (v / 256 ^ i) := by
  rw [h, List.getElem?_map, Option.map_eq_some_iff] at hb
  obtain ⟨x, hx, rfl⟩ := hb
  obtain ⟨hloc, hval⟩ := List.getElem?_zip_eq_some.mp hx
  rw [leBytes_getElem?] at hval
  exact ⟨hloc, (Option.some.inj (Option.ite_none_right_eq_some.mp hval).2).symm⟩

/-! ### ST -/

section
variable {s : State} {f : FM}

theorem storeBytes_length (s : State) (f : FM) : (s.storeBytes f).length = 2 ^ f.size.toNat := leBytes_length ..

theorem st_trap {tr : Trap} (h : s.Issues (.m 0x30 2 f)) (hw : s.thr.walking = false)
    (hr : s.resolve (storeWant (atAlign f)) (s.ea f) (2 ^ f.size.toNat) = .error (.trap tr)) : execSt f s = .next (s.takeTrap tr) := by
  refine issue_trap h _ ?_
  rw [if_neg (by simp [hw]), storeBytes_length, hr]
  rfl
theorem st_eq {s1 : State} {nm : Named} (h : s.Issues (.m 0x30 2 f)) (hw : s.thr.walking = false)
    (hr : s.resolve (storeWant (atAlign f)) (s.ea f) (2 ^ f.size.toNat) = .ok (s1, nm)) (hc : s1.storeClaims nm 1 = .ok ()) :
    execSt f s = .next (s.after (.m 0x30 2 f) (s1.pushStore (s.ea f) nm (s.storeBytes f))) := by
  refine issue_seq h _ ?_
  rw [if_neg (by simp [hw]), storeBytes_length, hr, ok_bind]
  dsimp only
  rw [hc]
  rfl
end

/-! ### The oldest store leaves its queue -/

section
variable {s : State} {e : SqEntry}

/-- A store that is held back stays. -/
theorem storeLeavesQueue_held (h : (s.atSlot s.input.slot).thr.sq.head? = some e)
    (hheld : (s.atSlot s.input.slot).thr.sqStuck e = true
      ∨ (s.atSlot s.input.slot).thr.openOuts.any (fun o => o.no < e.no) = true ∧ (s.atSlot s.input.slot).savedPast e = false) :
    execStoreLeavesQueue s = .next s := by
  refine slotEvent_of_none ?_
  rw [h]
  refine if_pos ?_
  rcases hheld with hs | ⟨ho, hp⟩
  · simp [hs]
  · simp [ho, hp]

/-- A store that nothing holds back is written, or ends the item where a peer cannot be reached. -/
theorem storeLeavesQueue_goes (h : (s.atSlot s.input.slot).thr.sq.head? = some e) (hs : (s.atSlot s.input.slot).thr.sqStuck e = false)
    (ho : (s.atSlot s.input.slot).thr.openOuts.any (fun o => o.no < e.no) = false) :
    execStoreLeavesQueue s = .next (if e.peers.any fun p => !(s.atSlot s.input.slot).peerUp p then (s.atSlot s.input.slot).failStore e
      else ((s.atSlot s.input.slot).withThr { (s.atSlot s.input.slot).thr with
        sq := (s.atSlot s.input.slot).thr.sq.filter fun u => u.no ≠ e.no }).putBytes e.bytes) := by
  refine slotEvent_of_some ?_
  rw [h]
  refine (if_neg (by simp [hs, ho])).trans ?_
  exact (apply_ite some ..).symm

end

/-- Settles O16: what ST pushes is read off its entry, and the event of a queue is split by what holds its oldest store back. -/
theorem stores : Obligations.Stores := by
  refine ⟨fun s f => ?_, fun s e => ?_⟩
  · rw [← ea_eq]
    intro ea n want value h hsize hw
    refine ⟨fun tr hr => st_trap h hw hr, fun s1 nm hr hc => ?_⟩
    have hthr := resolve_thr hr
    have hlen := resolve_length hr
    refine ⟨_, _, st_eq h hw hr hc, rfl, hthr, resolve_rows hr, hlen, ?_, rfl, ?_, rfl, fun i b hb => ?_⟩
    · simp [hlen, storeBytes_length, n]
    · simp only [State.isSc, hthr]
    · refine SqEntry.Holds.getElem? (n := n) ?_ hb
      rfl
  · intro v left hhead
    refine ⟨fun hs => storeLeavesQueue_held hhead (.inl hs), fun ho hp => storeLeavesQueue_held hhead (.inr ⟨by simpa using ho, hp⟩),
      fun hs ho => ?_⟩
    have hgoes := storeLeavesQueue_goes hhead hs (by simpa using ho)
    refine ⟨fun hp => hgoes.trans (congrArg _ (if_neg (by simpa using hp))), fun hp ht => ?_⟩
    refine hgoes.trans (congrArg _ ((if_pos (by simpa using hp)).trans ?_))
    unfold State.failStore State.failNow Thread.fail
    rw [if_neg (by simpa using ht)]
    rfl
end Sys2Proof.Machine
end

section
/-!
PROOFS. Loads: LD, LDZ and PREF, and an outstanding load as it is performed (04 R99-R103; 02 R37; 20 R388).
-/
namespace Sys2Proof.Machine

/-! ### LD and LDZ -/

theorem leNat_lt (l : List Byte) : leNat l < 256 ^ l.length := by
  induction l with
  | nil => simp [leNat]
  | cons b r ih =>
    have := b.isLt
    rw [leNat, List.length_cons, Nat.pow_succ]
    omega

/-- The register image of a value that fits its bytes (04 R101). -/
theorem loadImage_signed {n v : Nat} (hn : 0 < n) (h8 : n ≤ 8) (hv : v < 256 ^ n) :
    loadImage true n v = (BitVec.ofNat (8 * n) v).signExtend 64 := by
  have hpow : 256 ^ n = 2 ^ (8 * n) := by rw [Nat.pow_mul]
  rw [← sext64_toNat (8 * n) _ (by omega) (by omega), BitVec.toNat_ofNat, ← hpow, Nat.mod_eq_of_lt hv]
  rfl
theorem loadImage_unsigned {n v : Nat} (hv : v < 256 ^ n) : loadImage false n v = (BitVec.ofNat (8 * n) v).setWidth 64 := by
  have hpow : 256 ^ n = 2 ^ (8 * n) := by rw [Nat.pow_mul]
  refine BitVec.eq_of_toNat_eq ?_
  rw [BitVec.toNat_setWidth, BitVec.toNat_ofNat, ← hpow, Nat.mod_eq_of_lt hv]
  rfl

section
variable {s : State} {f : FM} {fn : Nat} {signed : Bool}

/-- No byte of a load of a walker's body lies in a window (19 R372). -/
theorem loadForm_window {a : Word} (h : s.Issues (.m 0x30 fn f)) (hw : s.thr.walking = true)
    (ha : s.inWindow (s.ea f) (2 ^ f.size.toNat) = some a) :
    loadForm fn signed f s = .next (s.takeTrap ⟨cOW_READ, a, s.owInfo 0⟩) := by
  refine issue_trap h _ ?_
  extract_lets ea n rest
  rw [if_pos hw, show s.inWindow ea n = some a from ha]
  rfl

/-- A load that is performed at its issue (04 R101): `free` is what `State.loadWaits` waits for. -/
theorem loadForm_trap {tr : Trap} (h : s.Issues (.m 0x30 fn f)) (hla : f.hd.la = 0)
    (hw : s.thr.walking = true → s.inWindow (s.ea f) (2 ^ f.size.toNat) = none) (hfree : s.loadWaits = .ok ())
    (hr : s.resolve { align := atAlign f } (s.ea f) (2 ^ f.size.toNat) = .error (.trap tr)) :
    loadForm fn signed f s = .next (s.takeTrap tr) := by
  refine issue_trap h _ ?_
  extract_lets ea n rest
  have hrest : rest () = .error (.trap tr) := by
    dsimp only [rest]
    rw [if_pos hla, hfree, ok_bind, State.loadValue, show s.resolve _ ea n = _ from hr]
    rfl
  split
  next hwalk => rw [show s.inWindow ea n = none from hw hwalk]; exact hrest
  next => exact hrest
theorem loadForm_eq {s1 : State} {nm : Named} (h : s.Issues (.m 0x30 fn f)) (hla : f.hd.la = 0)
    (hw : s.thr.walking = true → s.inWindow (s.ea f) (2 ^ f.size.toNat) = none) (hfree : s.loadWaits = .ok ())
    (hr : s.resolve { align := atAlign f } (s.ea f) (2 ^ f.size.toNat) = .ok (s1, nm)) (hc : s1.claim nm.fps true = .ok ()) :
    loadForm fn signed f s = .next (s.after (.m 0x30 fn f)
      (s1.setLoaded signed f.xd (2 ^ f.size.toNat) (leNat (s1.drained.getBytes nm.locs)))) := by
  refine issue_seq h _ ?_
  extract_lets ea n rest
  have hrest : rest () = .ok { st := s1.setLoaded signed f.xd n (leNat (s1.drained.getBytes nm.locs)) } := by
    dsimp only [rest]
    rw [if_pos hla, hfree, ok_bind, State.loadValue, show s.resolve _ ea n = _ from hr, ok_bind]
    dsimp only
    rw [hc]
    rfl
  split
  next hwalk => rw [show s.inWindow ea n = none from hw hwalk]; exact hrest
  next => exact hrest

/-- A load with a latency enters the log of outstanding accesses, with every check but a watchpoint's left for later (20 R388). -/
theorem loadForm_stays (h : s.Issues (.m 0x30 fn f)) (hla : f.hd.la ≠ 0)
    (hw : s.thr.walking = true → s.inWindow (s.ea f) (2 ^ f.size.toNat) = none)
    (hstop : ∀ k, s.resolve { align := atAlign f } (s.ea f) (2 ^ f.size.toNat) ≠ .error (.stop k))
    (htrap : ∀ tr, s.resolve { align := atAlign f } (s.ea f) (2 ^ f.size.toNat) = .error (.trap tr) → tr.cause ≠ cWATCH)
    (hc : s.claim (ptrFp (s.ea f) (2 ^ f.size.toNat) false) true = .ok ()) :
    loadForm fn signed f s = .next (s.after (.m 0x30 fn f)
      (s.pushOut (outOf 0x30 fn f (s.ea f) (BitVec.ofNat 64 (atAlign f)) 0 (ptrFp (s.ea f) (2 ^ f.size.toNat) false)))) := by
  refine issue_seq h _ ?_
  extract_lets ea n rest
  have hissue : atIssue (s.resolve { align := atAlign f } ea n) = .ok () := by
    unfold atIssue
    split
    next k hk => exact absurd hk (hstop k)
    next tr htr => exact if_neg (htrap tr htr)
    next => rfl
  have hrest : rest () = .ok { st := s.pushOut (outOf 0x30 fn f ea (BitVec.ofNat 64 (atAlign f)) 0 (ptrFp ea n false)) } := by
    dsimp only [rest]
    rw [if_neg hla, hissue, ok_bind, show s.claim (ptrFp ea n false) true = .ok () from hc]
    rfl
  split
  next hwalk => rw [show s.inWindow ea n = none from hw hwalk]; exact hrest
  next => exact hrest

theorem loadWaits_ok (ho : s.thr.openOuts = []) (hq : ∀ e ∈ s.thr.sq, e.sc = false) (hs : s.isSc = true → s.thr.sq = []) :
    s.loadWaits = .ok () := by
  unfold State.loadWaits
  rw [waitFor_bind (by simp [ho]), waitFor_bind (by simpa using hq), State.waitFor, if_pos]
  cases h : s.isSc with
  | false => exact .inl rfl
  | true => exact .inr (by simp [hs h])

/-- What a load writes, with the value's image at its size. -/
theorem setLoaded_eq {u : State} {d : BitVec 6} {k v : Nat} {image : Nat → Word} (hi : k < 4 → loadImage signed (2 ^ k) v = image v) (hk : k ≤ 4) :
    u.setLoaded signed d (2 ^ k) v = if 2 ^ k = 16 then (u.setX d (BitVec.ofNat 64 v)).setX (d + 1) (BitVec.ofNat 64 (v / 2 ^ 64))
      else u.setX d (image v) := by
  unfold State.setLoaded
  split
  · rfl
  next hn =>
    have hk4 : k ≠ 4 := fun h => hn (by rw [h]; rfl)
    rw [hi (by omega)]

/-- PREF may fill the caches, and completes (04 R103). -/
theorem pref_eq (h : s.Issues (.m 0x30 8 f)) : ∃ t : State, execPref f s = .next (s.after (.m 0x30 8 f) t) ∧ t.thr = s.thr ∧ t.rows = s.rows := by
  refine ⟨_, pureOp_of_issues h _, ?_⟩
  dsimp only
  split
  · split
    · rw [commitLeaf_onMemory]
      exact ⟨rfl, rfl⟩
    · exact ⟨rfl, rfl⟩
  · exact ⟨rfl, rfl⟩
end

/-! ### An outstanding load is performed (20 R388) -/

section
variable {s v : State} {o : Out}

/-- A load performed writes registers of the thread alone. -/
theorem setLoaded_frame (u : State) (signed : Bool) (d : BitVec 6) (n w : Nat) :
    ∃ x xp, u.setLoaded signed d n w = u.withThr { u.thr with x := x, xp := xp } := by
  have hset (u : State) (d : BitVec 6) (v : Word) : ∃ x xp, u.setX d v = u.withThr { u.thr with x := x, xp := xp } :=
    ⟨_, _, congrArg u.withThr (Thread.setX_frame u.thr d v)⟩
  unfold State.setLoaded
  split
  · obtain ⟨x, xp, h⟩ := hset u d (BitVec.ofNat 64 w)
    rw [h]
    exact hset (u.withThr _) ..
  · exact hset ..

/-- Under the root of its issue, where the thread has kept it. -/
theorem rooted_own (f : State → Res State) : v.rooted v.thr.root f = match f v with
    | .ok u => .ok (u.withRoot v.thr.root)
    | .error (.wait u) => .error (.wait (u.withRoot v.thr.root))
    | .error r => .error r := rfl

/-- The bytes of an outstanding load. -/
def Out.size (o : Out) : Nat := if o.pair then 16 else 2 ^ fld o.desc 0 3

theorem size_eq (o : Out) : o.size = if o.pair then 16 else 2 ^ (o.desc.extractLsb' 0 3).toNat := by
  simp [Out.size, fld, bits]

theorem performOut_load (hopc : o.opc = 0x30) (hfn : o.fn.toNat < 3)
    (hsq : ∀ e ∈ v.thr.sq, o.no < e.no ∨ ((o.ord.any fun x => x.order = 4) = false ∧ e.sc = false)) :
    v.performOut o = v.performLoad o := by
  have hafter : o.afterStores = o.ord.any fun x => x.order = 4 := by
    have h3 : ¬ 3 ≤ o.fn.toNat := by omega
    simp [Out.afterStores, hopc, h3]
  have hwait : v.thr.sq.all (fun e => o.no < e.no || !(o.afterStores || e.sc)) = true := by
    rw [List.all_eq_true]
    intro e he
    rcases hsq e he with h | ⟨ho, hsc⟩
    · simp [h]
    · simp only [hafter, ho, hsc]
      simp
  unfold State.performOut
  rw [waitFor_bind hwait, hopc]
  exact if_neg (by omega)

theorem performLoad_eq {r : Res (State × Named)} (hw : o.walked = true → v.thr.walking = true → v.inWindow o.ea o.size = none)
    (hr : v.resolve { align := o.opB.toNat, watch := false, before := some o.no } o.ea o.size = r) :
    v.performLoad o = r >>= fun x => .ok (x.1.setLoaded (o.fn = 0) o.dest o.size (leNat ((x.1.drainedFor (some o.no)).getBytes x.2.locs))) := by
  subst hr
  unfold State.performLoad
  extract_lets n rest
  have hrest : rest () = v.resolve _ _ _ >>= _ := rfl
  split
  next h =>
    obtain ⟨h1, h2⟩ := Bool.and_eq_true_iff.mp h
    rw [show v.inWindow o.ea n = none from hw h1 h2]
    exact hrest
  next => exact hrest

/-- The oldest open access is performed. -/
theorem loadComplete_ok {u : State} {r : List Out} (hv : s.atSlot s.input.slot = v) (ho : v.thr.openOuts = o :: r) (hroot : o.root = v.thr.root)
    (hs : v.curDbg.stopped = false) (hp : v.performOut o = .ok u) :
    execLoadComplete s = .next ((u.withRoot v.thr.root).dropOut o.no) := by
  refine slotEvent_of_some ?_
  rw [hv]
  simp only [ho, List.head?_cons, hs, State.performOpen, hroot, rooted_own, hp, Option.bind_eq_bind, Option.bind_some]
  rfl
theorem loadComplete_trap {tr : Trap} {r : List Out} (hv : s.atSlot s.input.slot = v) (ho : v.thr.openOuts = o :: r) (hroot : o.root = v.thr.root)
    (hrun : v.thr.phase = .running) (hs : v.curDbg.stopped = false) (hp : v.performOut o = .error (.trap tr)) :
    execLoadComplete s = .next (v.failOut o tr) := by
  refine slotEvent_of_some ?_
  rw [hv]
  simp only [ho, List.head?_cons, hs, State.performOpen, hroot, rooted_own, hp, Option.bind_eq_bind, Option.bind_some, State.meetsTrap, hrun]
  rfl
end

/-! ### The accesses that a logged one holds back (16 R336) -/

/-- An access with `blocked` as it may be set when another is logged. -/
def Out.unblocked (p : Out) : Out := { p with blocked := false }

section
variable (g : List Out → Out → Bool)

/-- A list of accesses with `blocked` set by `g`, which sees those before each. -/
def blockAll (acc l : List Out) : List Out := l.foldl (fun l u => l ++ [{ u with blocked := g l u }]) acc

theorem blockAll_unblocked (acc l : List Out) : (blockAll g acc l).map Out.unblocked = acc.map Out.unblocked ++ l.map Out.unblocked := by
  induction l generalizing acc with
  | nil => simp [blockAll]
  | cons u r ih =>
    refine (ih _).trans ?_
    rw [List.map_append, List.append_assoc]
    rfl

/-- Each access was set by those before it. -/
theorem mem_blockAll {acc l : List Out} {p : Out} (h : p ∈ blockAll g acc l) :
    p ∈ acc ∨ ∃ pre u post, l = pre ++ u :: post ∧ p = { u with blocked := g (blockAll g acc pre) u } := by
  induction l generalizing acc with
  | nil => exact .inl h
  | cons u r ih =>
    rcases ih h with h | ⟨pre, u', post, rfl, hp⟩
    · rcases List.mem_append.mp h with h | h
      · exact .inl h
      · exact .inr ⟨[], u, r, rfl, List.mem_singleton.mp h⟩
    · exact .inr ⟨u :: pre, u', post, rfl, hp⟩
end

/-- The entry of an access that meets a trap. -/
def Out.meets (o : Out) (tr : Trap) (u : Out) : Out := if u.no = o.no then { u with faulted := some tr } else u

theorem meets_no (o : Out) (tr : Trap) (u : Out) : (o.meets tr u).no = u.no := by
  unfold Out.meets
  split <;> rfl

/-- Is an access held back by one of those before it? -/
def State.blocks (v : State) (l : List Out) (u : Out) : Bool :=
  u.blocked || (u.faulted.isNone && l.any fun x => v.holdsBack x u.no u.priv (v.outBytes u).1 (v.outBytes u).2 u.fps)

theorem failOut_outs (v : State) (o : Out) (tr : Trap) : (v.failOut o tr).thr.outs = blockAll v.blocks [] (v.thr.outs.map (o.meets tr)) := rfl

/-- An access that has met a trap holds back a younger one of its mode that shares a byte with it. -/
theorem holdsBack_of_shared {v : State} {q u : Out} {tr : Trap} (hq : q.faulted = some tr) (hno : q.no < u.no) (hpriv : u.priv = q.priv)
    (hopc : q.opc ≠ 0x63#8) (hu : u.opc ≠ 0x63#8) (hbytes : ∃ a ∈ u.bytes, a ∈ q.bytes) :
    v.holdsBack q u.no u.priv (v.outBytes u).1 (v.outBytes u).2 u.fps = true := by
  obtain ⟨a, ha, haq⟩ := hbytes
  have hvas : (v.outBytes u).1 = u.bytes := by
    unfold State.outBytes
    rw [if_neg hu]
  have hmeets : v.outMeets q (v.outBytes u).1 (v.outBytes u).2 u.fps = true := by
    have hany : q.bytes.any (fun a => (v.outBytes u).1.contains a || ((v.withRoot q.root).byteLoc a).any (v.outBytes u).2.contains) = true :=
      List.any_eq_true.mpr ⟨a, haq, by simp [hvas, ha]⟩
    unfold State.outMeets
    rw [hany]
    simp [hopc]
  simp [State.holdsBack, hq, hno, hpriv, hmeets]

/-- A younger access of the same mode that shares a byte with one that meets a trap waits behind it. -/
theorem failOut_blocks {v : State} {o p : Out} {tr : Trap} (ho : o ∈ v.thr.outs) (hopc : o.opc ≠ 0x63)
    (hsorted : v.thr.outs.Pairwise fun a b => a.no < b.no) (hp : p ∈ (v.failOut o tr).thr.outs) (hno : o.no < p.no) (hpriv : p.priv = o.priv)
    (hf : p.faulted = none) (hpc : p.opc ≠ 0x63) (hbytes : ∃ a ∈ p.bytes, a ∈ o.bytes) : p.blocked = true := by
  rw [failOut_outs] at hp
  obtain ⟨pre, u, post, hsplit, rfl⟩ := (mem_blockAll _ hp).resolve_left (by simp)
  have hmet : o.meets tr o = { o with faulted := some tr } := if_pos rfl
  have hpre : o.meets tr o ∈ pre := by
    have hmem : o.meets tr o ∈ pre ++ u :: post := hsplit ▸ List.mem_map_of_mem ho
    have hmarked : (pre ++ u :: post).Pairwise fun a b => a.no < b.no := by
      rw [← hsplit, List.pairwise_map]
      simpa only [meets_no] using hsorted
    obtain ⟨-, hpost, -⟩ := List.pairwise_append.mp hmarked
    have hpost := (List.pairwise_cons.mp hpost).1
    have hlt : (o.meets tr o).no < u.no := hmet ▸ hno
    rcases List.mem_append.mp hmem with h | h
    · exact h
    · rcases List.mem_cons.mp h with h | h
      · exact absurd hlt (h ▸ Nat.lt_irrefl _)
      · exact absurd hlt (Nat.lt_asymm (hpost _ h))
  obtain ⟨q, hq, hqo⟩ : ∃ q ∈ blockAll v.blocks [] pre, q.unblocked = (o.meets tr o).unblocked := by
    refine List.mem_map.mp ?_
    rw [blockAll_unblocked]
    exact List.mem_map_of_mem hpre
  rw [hmet] at hqo
  have hqf : q.faulted = some tr := (congrArg Out.faulted hqo :)
  have hqno : q.no = o.no := (congrArg Out.no hqo :)
  have hqpriv : q.priv = o.priv := (congrArg Out.priv hqo :)
  have hqopc : q.opc = o.opc := (congrArg Out.opc hqo :)
  have hqbytes : q.bytes = o.bytes := (congrArg Out.bytes hqo :)
  have hheld : v.holdsBack q u.no u.priv (v.outBytes u).1 (v.outBytes u).2 u.fps = true :=
    holdsBack_of_shared hqf (hqno ▸ hno) (hpriv.trans hqpriv.symm) (hqopc ▸ hopc) hpc (hqbytes ▸ hbytes)
  change u.faulted = none at hf
  change v.blocks (blockAll v.blocks [] pre) u = true
  unfold State.blocks
  rw [Bool.or_eq_true, Bool.and_eq_true]
  exact .inr ⟨by simp [hf], List.any_eq_true.mpr ⟨q, hq, hheld⟩⟩

/-- Settles O15: what each load does once no window holds a byte of it, and the oldest open access, performed or logged with its trap. -/
theorem loads : Obligations.Loads := by
  refine ⟨fun s f => ?_, fun s f => ?_, fun s o r => ?_⟩
  · rw [← ea_eq]
    intro ea n want free loads
    have hload (fn : Nat) (signed : Bool) (i : Instr) (image : Nat → Word) (hi : exec i s = loadForm fn signed f s)
        (himage : ∀ v, f.size.toNat < 4 → v < 256 ^ n → loadImage signed n v = image v) : loads fn i image := by
      intro h hsize
      rw [hi]
      refine ⟨fun a hw ha => loadForm_window h hw ha, fun hla hw ⟨ho, hq, hs⟩ => ?_⟩
      have hfree := loadWaits_ok ho hq hs
      refine ⟨fun tr hr => loadForm_trap h hla hw hfree hr, fun s1 nm hr hc => ?_⟩
      refine (loadForm_eq h hla hw hfree hr hc).trans ?_
      rw [setLoaded_eq (image := image) (fun h4 => himage _ h4 ?_) hsize]
      · have hlt := leNat_lt (s1.drained.getBytes nm.locs)
        rwa [State.getBytes, List.length_map, resolve_length hr] at hlt
    have hn8 (h4 : f.size.toNat < 4) : n ≤ 8 := Nat.pow_le_pow_right (n := 2) (by omega) (Nat.le_of_lt_succ h4)
    have hld : exec (.ld f) s = loadForm 0 true f s := show exec (.ld f) s = execLd f s from rfl
    have hldz : exec (.ldz f) s = loadForm 1 false f s := show exec (.ldz f) s = execLdz f s from rfl
    have hpref : exec (.pref f) s = execPref f s := rfl
    refine ⟨?_, ?_, ?_⟩
    · have h := hload 0 true (.ld f) (fun v => (BitVec.ofNat (8 * n) v).signExtend 64) hld
      exact h fun v h4 hv => loadImage_signed (Nat.two_pow_pos _) (hn8 h4) hv
    · have h := hload 1 false (.ldz f) (fun v => (BitVec.ofNat (8 * n) v).setWidth 64) hldz
      exact h fun v _ hv => loadImage_unsigned hv
    · rw [hpref]
      exact pref_eq
  · intro ea n align stays
    have hstays (fn : Nat) (signed : Bool) (i : Instr) (hi : exec i s = loadForm fn signed f s) : stays fn i := by
      intro h hla hw hstop htrap hc
      rw [hi]
      refine ⟨_, _, loadForm_stays h hla hw hstop htrap hc, rfl, rfl, rfl, rfl, rfl, rfl, rfl, rfl, rfl, rfl, rfl, rfl, rfl, rfl, rfl,
        fun hd => ?_, fun hsz hd => ?_⟩
      · simpa [Thread.pendingX, State.pushOut, outOf] using hd
      · simpa [Thread.pendingX, State.pushOut, outOf, hsz] using hd
    exact ⟨hstays 0 true (.ld f) (show exec (.ld f) s = execLd f s from rfl), hstays 1 false (.ldz f) (show exec (.ldz f) s = execLdz f s from rfl)⟩
  · intro v n want ho hopc hfn hroot hrun hs hsq hw
    have hn : o.size = n := size_eq o
    have hperform (res : Res (State × Named)) (hr : v.resolve want o.ea n = res) :=
      performLoad_eq (v := v) (o := o) (hn ▸ hw) (hn ▸ hr)
    rw [hn] at hperform
    have hout := performOut_load hopc hfn hsq
    have hexec : exec .loadComplete s = execLoadComplete s := rfl
    rw [hexec]
    refine ⟨fun s1 nm hr => ?_, fun tr hr => ?_⟩
    · intro w
      have hok := loadComplete_ok rfl ho hroot hs (hout.trans (hperform _ hr))
      obtain ⟨x, xp, hset⟩ := setLoaded_frame s1 (o.fn = 0) o.dest n w
      refine ⟨_, hok, ?_, fun m => ?_, ?_⟩
      · change (((s1.setLoaded (o.fn = 0) o.dest n w).withRoot v.thr.root).dropOut o.no).thr.outs = _
        rw [hset, ← resolve_thr hr]
        rfl
      · rfl
      · change s1.sameBytes (((s1.setLoaded (o.fn = 0) o.dest n w).withRoot v.thr.root).dropOut o.no)
        rw [hset]
        exact fun l key => by cases l <;> rfl
    · have hmem : o ∈ v.thr.outs := List.mem_of_mem_filter (ho ▸ List.mem_cons_self : o ∈ v.thr.openOuts)
      refine ⟨_, loadComplete_trap rfl ho hroot hrun hs (hout.trans (hperform _ hr)), rfl, ?_, ?_, fun hsorted p hp hno hpriv hf hpc hb => ?_⟩
      · rw [failOut_outs]
        refine (blockAll_unblocked ..).trans ?_
        rw [List.map_nil, List.nil_append, List.map_map]
        refine List.map_congr_left fun u _ => ?_
        unfold Out.meets Out.unblocked
        dsimp only [Function.comp]
        split <;> rfl
      · rw [State.failOut, List.map_map]
        rfl
      · exact failOut_blocks hmem (by rw [hopc]; decide) hsorted hp hno hpriv hf hpc hb
end Sys2Proof.Machine
end

section
/-!
PROOFS. What a read of memory gives after a write under the same key slot (04 R85, R90, R91).
-/
namespace Sys2Proof.Machine

/-! ### Maps written at a run of keys -/

section
variable {α : Type} (f : Nat → α) (m : NMap α) (a n k : Nat)

/-- A map with values put at `n` keys from `a`. -/
theorem get_foldl_put [DecidableEq α] (d : α) : NMap.get d ((List.range n).foldl (fun m i => NMap.put d m (a + i) (f i)) m) k
    = if a ≤ k ∧ k < a + n then f (k - a) else NMap.get d m k := by
  induction n with
  | zero => simp
  | succ n ih =>
    rw [List.range_succ, List.foldl_append]
    change NMap.get d (NMap.put d _ (a + n) (f n)) k = _
    by_cases hk : k = a + n
    · subst hk
      rw [NMap.get_put_same, if_pos (by omega), Nat.add_sub_cancel_left]
    · rw [NMap.get_put_other _ _ _ hk, ih]
      exact if_congr (by omega) rfl rfl
theorem find_foldl_set : NMap.find ((List.range n).foldl (fun m i => NMap.set m (a + i) (f i)) m) k
    = if a ≤ k ∧ k < a + n then some (f (k - a)) else NMap.find m k := by
  induction n with
  | zero => simp
  | succ n ih =>
    rw [List.range_succ, List.foldl_append]
    change NMap.find (NMap.set _ (a + n) (f n)) k = _
    rw [NMap.find_set, ih]
    by_cases hk : k = a + n
    · subst hk
      rw [if_pos rfl, if_pos (by omega), Nat.add_sub_cancel_left]
    · rw [if_neg hk]
      exact if_congr (by omega) rfl rfl
end

/-! ### Main memory -/

section
variable (s : State) (sec k : Nat) (key : KeyVal) (v : Byte)

/-- The bytes of a sector decide what it holds. -/
theorem sectorPlain_congr {m m' : List Host.Cell} {sec : Nat} (h : ∀ k, sectorOf k = sec → NMap.get (0 : Byte) m k = NMap.get 0 m' k) :
    sectorPlain m sec = sectorPlain m' sec := by
  unfold sectorPlain
  congr 2
  refine List.map_congr_left fun i hi => h _ ?_
  have := List.mem_range.mp hi
  unfold sectorOf
  omega

/-- A byte as it is read depends on its sector alone. -/
theorem memByte_congr {s u : State} {k : Nat} (hw : u.writerKey (sectorOf k) = s.writerKey (sectorOf k))
    (hm : ∀ j, sectorOf j = sectorOf k → NMap.get (0 : Byte) u.mem j = NMap.get 0 s.mem j) : u.memByte k key = s.memByte k key := by
  simp only [State.memByte, hw, hm k rfl, sectorPlain_congr hm]

/-- Rekeying a sector writes main memory alone. -/
theorem rekey_frame : ∃ m mk, s.rekey sec key = { s with mem := m, memKey := mk } := by
  unfold State.rekey
  extract_lets w g
  split
  · exact ⟨s.mem, s.memKey, rfl⟩
  · exact ⟨_, _, rfl⟩
theorem putMem_frame : ∃ m mk, s.putMem k key v = { s with mem := m, memKey := mk } := by
  obtain ⟨m, mk, h⟩ := rekey_frame s (sectorOf k) key
  unfold State.putMem
  rw [h]
  exact ⟨_, _, rfl⟩
theorem keyAt_putMem (n : Nat) : (s.putMem k key v).keyAt n = s.keyAt n := by
  obtain ⟨m, mk, h⟩ := putMem_frame s k key v
  rw [h]
  rfl

theorem rekey_writerKey : (s.rekey sec key).writerKey sec = key := by
  unfold State.rekey
  extract_lets w
  split
  next h => exact h
  next => exact NMap.get_put_same ..

/-- Rekeying a sector leaves what is read under its new key. -/
theorem memByte_rekey : (s.rekey sec key).memByte k key = s.memByte k key := by
  by_cases hw : s.writerKey sec = key
  · rw [State.rekey, if_pos hw]
  · have hmem (j : Nat) : NMap.get (0 : Byte) (s.rekey sec key).mem j = if sec * 32 ≤ j ∧ j < sec * 32 + 32
        then (Config.garble (sectorPlain s.mem sec) (s.writerKey sec) key sec).extractLsb' (8 * (j - sec * 32)) 8 else NMap.get 0 s.mem j := by
      rw [State.rekey, if_neg hw]
      exact get_foldl_put (fun i => (Config.garble (sectorPlain s.mem sec) (s.writerKey sec) key sec).extractLsb' (8 * i) 8) s.mem (sec * 32) 32 j 0
    by_cases hk : sectorOf k = sec
    · subst hk
      have hj : k - sectorOf k * 32 = k % 32 := by
        unfold sectorOf
        omega
      rw [State.memByte, rekey_writerKey, if_pos rfl, hmem, if_pos (by unfold sectorOf; omega), hj, State.memByte, if_neg hw]
    · refine memByte_congr key ?_ fun j hj => ?_
      · rw [State.rekey, if_neg hw]
        exact NMap.get_put_other _ _ _ hk
      · rw [hmem, if_neg]
        unfold sectorOf at hj hk
        omega

theorem memByte_putMem_same : (s.putMem k key v).memByte k key = v := by
  have hw : (s.putMem k key v).writerKey (sectorOf k) = key := rekey_writerKey ..
  rw [State.memByte, hw, if_pos rfl]
  exact NMap.get_put_same ..
theorem memByte_putMem_other {j : Nat} (h : j ≠ k) : (s.putMem k key v).memByte j key = s.memByte j key := by
  rw [← memByte_rekey s (sectorOf k)]
  have hget (i : Nat) (hi : i ≠ k) : NMap.get (0 : Byte) (s.putMem k key v).mem i = NMap.get 0 (s.rekey (sectorOf k) key).mem i :=
    NMap.get_put_other _ _ _ hi
  have hwriter (i : Nat) : (s.putMem k key v).writerKey i = (s.rekey (sectorOf k) key).writerKey i := rfl
  by_cases hs : sectorOf j = sectorOf k
  · rw [State.memByte, State.memByte, hwriter, hs, rekey_writerKey, if_pos rfl, if_pos rfl, hget j h]
  · exact memByte_congr key (hwriter _) fun i hi => hget i fun hik => hs (hi ▸ hik ▸ rfl)
end

/-! ### Memory of other devices -/

section
variable (s : State) (d pa slot : Nat) (v : Byte)

/-- A byte of a device as it is read depends on its sector alone. -/
theorem extGet_congr {s u : State} {d pa : Nat} (hw : u.extWriter d (sectorOf pa) = s.extWriter d (sectorOf pa))
    (hm : ∀ j slot, sectorOf j = sectorOf pa → u.extPlain d j slot = s.extPlain d j slot) : u.extGet d pa slot = s.extGet d pa slot := by
  have hsector (w : Nat) : u.extSector d (sectorOf pa) w slot = s.extSector d (sectorOf pa) w slot := by
    unfold State.extSector
    congr 3
    refine List.map_congr_left fun i hi => hm _ _ ?_
    have := List.mem_range.mp hi
    unfold sectorOf
    omega
  unfold State.extGet
  rw [hw, hm pa slot rfl]
  split
  · rfl
  · rw [hsector]

theorem extPut_extWriter (e j : Nat) : (s.extPut d pa slot v).extWriter e j
    = if e = d ∧ j = sectorOf pa then some slot else s.extWriter e j := by
  change ((NMap.find (NMap.set s.extKey d _) e).getD []).find j = _
  rw [NMap.find_set]
  by_cases he : e = d
  · subst he
    rw [if_pos rfl, Option.getD_some, NMap.find_set]
    by_cases hj : j = sectorOf pa
    · rw [if_pos hj, if_pos ⟨rfl, hj⟩]
    · rw [if_neg hj, if_neg (fun h => hj h.2)]
      rfl
  · rw [if_neg he, if_neg (fun h => he h.1)]
    rfl

/-- The byte map of a device with a sector brought to another slot. -/
def State.extRekeyed (s : State) (d sec slot : Nat) : NMap Byte :=
  match s.extWriter d sec with
  | none => (NMap.find s.extMem d).getD []
  | some w =>
    if w = slot then (NMap.find s.extMem d).getD []
    else (List.range 32).foldl (fun m i => NMap.set m (sec * 32 + i) ((s.extSector d sec w slot).extractLsb' (8 * i) 8))
      ((NMap.find s.extMem d).getD [])

theorem extPut_extPlain (e j k : Nat) : (s.extPut d pa slot v).extPlain e j k
    = if e = d then if j = pa then v else ((s.extRekeyed d (sectorOf pa) slot).find j).getD (Config.extByte d k j) else s.extPlain e j k := by
  change (((NMap.find (NMap.set s.extMem d (NMap.set (s.extRekeyed d (sectorOf pa) slot) pa v)) e).getD []).find j).getD _ = _
  rw [NMap.find_set]
  by_cases he : e = d
  · subst he
    rw [if_pos rfl, Option.getD_some, NMap.find_set, if_pos rfl]
    split <;> rfl
  · rw [if_neg he, if_neg he]
    rfl

/-- A sector brought to a slot reads there as it did. -/
theorem extRekeyed_same {j : Nat} (h : sectorOf j = sectorOf pa) :
    ((s.extRekeyed d (sectorOf pa) slot).find j).getD (Config.extByte d slot j) = s.extGet d j slot := by
  unfold State.extRekeyed State.extGet
  rw [h]
  cases s.extWriter d (sectorOf pa) with
  | none => rfl
  | some w =>
    by_cases hw : w = slot
    · simp only [if_pos hw]
      rfl
    · have hj : j - sectorOf pa * 32 = j % 32 := by
        rw [← h]
        unfold sectorOf
        omega
      simp only [if_neg hw]
      rw [find_foldl_set (fun i => (s.extSector d (sectorOf pa) w slot).extractLsb' (8 * i) 8), if_pos (by rw [← h]; unfold sectorOf; omega), hj]
      rfl
theorem extRekeyed_other {j k : Nat} (h : sectorOf j ≠ sectorOf pa) :
    ((s.extRekeyed d (sectorOf pa) slot).find j).getD (Config.extByte d k j) = s.extPlain d j k := by
  unfold State.extRekeyed
  cases s.extWriter d (sectorOf pa) with
  | none => rfl
  | some w =>
    by_cases hw : w = slot
    · simp only [if_pos hw]
      rfl
    · simp only [if_neg hw]
      rw [find_foldl_set (fun i => (s.extSector d (sectorOf pa) w slot).extractLsb' (8 * i) 8), if_neg (by unfold sectorOf at h ⊢; omega)]
      rfl

theorem extGet_extPut_same : (s.extPut d pa slot v).extGet d pa slot = v := by
  unfold State.extGet
  rw [extPut_extWriter, if_pos ⟨rfl, rfl⟩]
  dsimp only
  rw [if_pos rfl, extPut_extPlain, if_pos rfl, if_pos rfl]
theorem extGet_extPut_other {e j : Nat} (h : ¬ (e = d ∧ j = pa)) : (s.extPut d pa slot v).extGet e j slot = s.extGet e j slot := by
  by_cases he : e = d
  · subst he
    have hj : j ≠ pa := fun hj => h ⟨rfl, hj⟩
    by_cases hs : sectorOf j = sectorOf pa
    · rw [← extRekeyed_same s e pa slot hs, State.extGet, extPut_extWriter, if_pos ⟨rfl, hs⟩]
      dsimp only
      rw [if_pos rfl, extPut_extPlain, if_pos rfl, if_neg hj]
    · refine extGet_congr slot ?_ fun i k hi => ?_
      · rw [extPut_extWriter, if_neg (fun h => hs h.2)]
      · have hi' : sectorOf i ≠ sectorOf pa := hi ▸ hs
        rw [extPut_extPlain, if_pos rfl, if_neg (fun h => hi' (congrArg sectorOf h)), extRekeyed_other s e pa slot hi']
  · refine extGet_congr slot ?_ fun i k _ => ?_
    · rw [extPut_extWriter, if_neg (fun h => he h.1)]
    · rw [extPut_extPlain, if_neg he]
end

/-! ### Bytes of memory by location -/

/-- Where a byte of a page table lies (04 R85). -/
def tableLoc (pa : Nat) : Loc := if isMain pa then .mem (storageOf 0 pa) else .ext 256 pa

section
variable (s : State) (pa key : Nat) (v : Byte)

theorem put_tableLoc : s.put (tableLoc pa) key v = if isMain pa then s.putMem (storageOf 0 pa) (s.keyAt key) v else s.extPut 256 pa key v := by
  unfold tableLoc
  split <;> rfl
theorem get_put_tableLoc_same : (s.put (tableLoc pa) key v).get (tableLoc pa) key = v := by
  unfold tableLoc
  split
  next hm =>
    change (s.putMem _ (s.keyAt key) v).memByte (storageOf 0 pa) ((s.putMem _ (s.keyAt key) v).keyAt key) = v
    rw [keyAt_putMem]
    exact memByte_putMem_same ..
  next => exact extGet_extPut_same s 256 pa key v
theorem get_putMem_other {k : Nat} {l : Loc} (h : l ≠ .mem k) : (s.putMem k (s.keyAt key) v).get l key = s.get l key := by
  cases l with
  | mem j =>
    change (s.putMem k (s.keyAt key) v).memByte j ((s.putMem k (s.keyAt key) v).keyAt key) = s.memByte j (s.keyAt key)
    rw [keyAt_putMem]
    exact memByte_putMem_other s k (s.keyAt key) v fun hj => h (by rw [hj])
  | _ =>
    obtain ⟨m, mk, hput⟩ := putMem_frame s k (s.keyAt key) v
    rw [hput]
    rfl
theorem get_put_tableLoc_other {l : Loc} (h : l ≠ tableLoc pa) : (s.put (tableLoc pa) key v).get l key = s.get l key := by
  unfold tableLoc at h ⊢
  split at h
  next hm =>
    rw [if_pos hm]
    exact get_putMem_other s key v h
  next hm =>
    rw [if_neg hm]
    cases l with
    | ext d j => exact extGet_extPut_other s 256 pa key v fun ⟨hd, hj⟩ => h (by rw [hd, hj])
    | _ => rfl
end

/-! ### Page-table entries -/

/-- The device stripe gives each address of main memory a byte of its own (04 R80). -/
theorem storageOf_zero_inj {a b : Nat} (ha : isMain a = true) (hb : isMain b = true) (h : storageOf 0 a = storageOf 0 b) : a = b := by
  have hsplit (pa : Nat) (hm : isMain pa = true) : ∃ c low, storageOf 0 pa = c * 805306368 + low ∧ low < 805306368
      ∧ c = pa / 256 % 768 % 12 * 64 + pa / 256 % 768 / 12 ∧ low = pa / 256 / 768 * 256 + pa % 256 := by
    refine ⟨_, _, Nat.add_assoc .., ?_, rfl, rfl⟩
    have hm : pa < 618475290624 := of_decide_eq_true hm
    omega
  obtain ⟨ca, la, hsa, hla, hca, hlowa⟩ := hsplit a ha
  obtain ⟨cb, lb, hsb, hlb, hcb, hlowb⟩ := hsplit b hb
  have hc : ca = cb := by omega
  have hl : la = lb := by omega
  omega
theorem tableLoc_inj {a b : Nat} (h : tableLoc a = tableLoc b) : a = b := by
  unfold tableLoc at h
  split at h
  next ha =>
    split at h
    next hb => exact storageOf_zero_inj ha hb (Loc.mem.inj h)
    next => cases h
  next ha =>
    split at h
    next => cases h
    next => exact (Loc.ext.inj h).2

section
variable (s : State) (pa : Nat) (v : Word)

/-- The first `n` bytes of an entry written. -/
def State.tableBytes (s : State) (pa : Nat) (v : Word) (n : Nat) : State :=
  (List.range n).foldl (fun s i => s.put (tableLoc (pa + i)) 0 (v.extractLsb' (8 * i) 8)) s

theorem tableWrite_eq : s.tableWrite pa v = s.tableBytes pa v 8 := by
  unfold State.tableWrite State.tableBytes
  congr 1
  funext s i
  exact (put_tableLoc s (pa + i) 0 _).symm

theorem get_tableBytes (n : Nat) (l : Loc) :
    ((∀ i < n, l ≠ tableLoc (pa + i)) → (s.tableBytes pa v n).get l 0 = s.get l 0)
    ∧ ∀ i < n, l = tableLoc (pa + i) → (s.tableBytes pa v n).get l 0 = v.extractLsb' (8 * i) 8 := by
  induction n with
  | zero => exact ⟨fun _ => rfl, fun i hi => absurd hi (Nat.not_lt_zero i)⟩
  | succ n ih =>
    obtain ⟨hother, hsame⟩ := ih
    have hlast : s.tableBytes pa v (n + 1) = (s.tableBytes pa v n).put (tableLoc (pa + n)) 0 (v.extractLsb' (8 * n) 8) := by
      rw [State.tableBytes, List.range_succ, List.foldl_append]
      rfl
    rw [hlast]
    refine ⟨fun h => ?_, fun i hi h => ?_⟩
    · rw [get_put_tableLoc_other _ _ _ _ (h n n.lt_succ_self)]
      exact hother fun i hi => h i (Nat.lt_succ_of_lt hi)
    · by_cases hin : i = n
      · subst hin
        rw [h, get_put_tableLoc_same]
      · rw [get_put_tableLoc_other _ _ _ _ (fun hn => hin (Nat.add_left_cancel (tableLoc_inj (h.symm.trans hn))))]
        exact hsame i (by omega) h

/-- An entry reads as it was written. -/
theorem tableRead_tableWrite : (s.tableWrite pa v).tableRead pa = v := by
  have hbytes (u : State) : u.tableRead pa = BitVec.ofNat 64 (leNat ((List.range 8).map fun i => u.get (tableLoc (pa + i)) 0)) := by
    unfold State.tableRead
    congr 3
    funext i
    unfold tableLoc
    split <;> rfl
  have hle : ((List.range 8).map fun i => (s.tableWrite pa v).get (tableLoc (pa + i)) 0) = leBytes 8 v.toNat := by
    refine List.ext_getElem? fun i => ?_
    rw [leBytes_getElem?, List.getElem?_map]
    by_cases hi : i < 8
    · rw [List.getElem?_range hi, if_pos hi, Option.map_some, tableWrite_eq, (get_tableBytes s pa v 8 _).2 i hi rfl]
      refine congrArg some (BitVec.eq_of_toNat_eq ?_)
      rw [BitVec.extractLsb'_toNat, BitVec.toNat_ofNat, Nat.shiftRight_eq_div_pow, Nat.pow_mul]
    · rw [if_neg hi, List.getElem?_eq_none (by simpa using hi)]
      rfl
  rw [hbytes, hle, leNat_leBytes, Nat.mod_eq_of_lt (by simpa using v.isLt), BitVec.ofNat_toNat, BitVec.setWidth_eq]
/-- No other byte is written with it. -/
theorem get_tableWrite_other {l : Loc} (h : ∀ i < 8, l ≠ tableLoc (pa + i)) : (s.tableWrite pa v).get l 0 = s.get l 0 := by
  rw [tableWrite_eq]
  exact (get_tableBytes s pa v 8 l).1 h
end
end Sys2Proof.Machine
end

section
/-!
PROOFS. Walks and the translation caches, TLB invalidations and PTBASE (04 R89, R92, R95, R96).
-/
namespace Sys2Proof.Machine

/-! ### Maps whose entries have defaults of their own -/

section
variable {α : Type} [DecidableEq α]

theorem get_put_of_ne (d d' v : α) (m : NMap α) {j k : Nat} (h : k ≠ j) : NMap.get d' (NMap.put d m j v) k = NMap.get d' m k := by
  unfold NMap.put
  split
  · exact NMap.get_drop_other d' m h
  · rw [NMap.get_insert _ _ _ _ _ (NMap.drop_ne m j), if_neg h, NMap.get_drop_other d' m h]

/-- Each of the first `n` entries changed once. -/
theorem get_foldl_update (d : Nat → α) (upd : α → α) (m : NMap α) (n k : Nat) :
    NMap.get (d k) ((List.range n).foldl (fun m c => NMap.put (d c) m c (upd (NMap.get (d c) m c))) m) k
      = if k < n then upd (NMap.get (d k) m k) else NMap.get (d k) m k := by
  induction n with
  | zero => rfl
  | succ n ih =>
    rw [List.range_succ, List.foldl_append]
    change NMap.get (d k) (NMap.put (d n) _ n _) k = _
    by_cases hk : k = n
    · subst hk
      rw [NMap.get_put_same, ih, if_neg (Nat.lt_irrefl k), if_pos k.lt_succ_self]
    · rw [get_put_of_ne _ _ _ _ hk, ih]
      exact if_congr (by omega) rfl rfl
end

/-! ### Caches -/

section
variable (s : State)

theorem cluster_setCluster (c c' : Nat) (v : Cluster) : (s.setCluster c v).cluster c' = if c' = c then v else s.cluster c' := by
  unfold State.setCluster State.cluster
  split
  next h =>
    subst h
    exact NMap.get_put_same ..
  next h => exact get_put_of_ne _ _ _ _ h

/-- What is read depends on the clusters by their power alone. -/
theorem get_onCaches {clusters : NMap Cluster} {l2tlb walkCache : NMap (List TLeaf)}
    (h : ∀ c, (NMap.get (Cluster.atReset c) clusters c).on = (s.cluster c).on) (l : Loc) (key : Nat) :
    ({ s with clusters := clusters, l2tlb := l2tlb, walkCache := walkCache } : State).get l key = s.get l key := by
  cases l with
  | cell c r b =>
    have hvoid : ({ s with clusters := clusters, l2tlb := l2tlb, walkCache := walkCache } : State).isVoid c = s.isVoid c := by
      unfold State.isVoid State.isOff
      exact congrArg (fun b => s.voids.contains c || !b) (h _)
    simp only [State.get, hvoid]
    rfl
  | _ => rfl

theorem mem_cachePut {cap : Nat} (h : 0 < cap) (l : List TLeaf) (t : TLeaf) : t ∈ cachePut cap l t := by
  obtain ⟨n, rfl⟩ := Nat.exists_eq_succ_of_ne_zero (Nat.ne_of_gt h)
  exact List.mem_cons_self

theorem levelSpan_pos (level : Nat) : 0 < levelSpan level := by
  unfold levelSpan
  split <;> decide

/-- A leaf that is cached covers the first address of its page. -/
theorem covers_base (root : BitVec 44) (vf : BitVec 6) (level base : Nat) (entry : Word) :
    (⟨root, vf, level, base, entry⟩ : TLeaf).covers root vf base = true := by
  have := levelSpan_pos level
  simp [TLeaf.covers, this]

/-! ### A leaf that a walk or a cache gives is committed (04 R89, R92) -/

section
variable {s} {c : Nat} {root : BitVec 44} {vf : BitVec 6} {store : Bool} {x : XLeaf}

/-- A leaf from a cache goes into the cluster's, and no entry is written. -/
theorem commitLeaf_cached (hx : x.fresh = false) : ∃ t : State, s.commitLeaf (some c) root vf store x = t
    ∧ t = { s with clusters := t.clusters } ∧ ∃ e ∈ (t.cluster c).tlb, e.covers root vf x.base = true := by
  refine ⟨_, rfl, ?_⟩
  unfold State.commitLeaf
  rw [if_neg (by simp [hx])]
  dsimp only
  split
  next h => exact ⟨rfl, List.any_eq_true.mp h⟩
  next h =>
    refine ⟨rfl, _, ?_, covers_base root vf x.level x.base x.entry⟩
    rw [cluster_setCluster, if_pos rfl]
    exact mem_cachePut (by decide) _ _

/-- The entry with A, and D for a store (04 R89). -/
def XLeaf.marked (x : XLeaf) (store : Bool) : Word := x.entry ||| 0x20 ||| (if store then 0x40 else 0)

theorem marked_getLsbD (x : XLeaf) (store : Bool) {b : Nat} (hb : b < 64) :
    (x.marked store).getLsbD b = (x.entry.getLsbD b || b == 5 || (store && b == 6)) := by
  have ha : ∀ b : Fin 64, (0x20#64).getLsbD b = (b.val == 5) := by decide
  have hd : ∀ b : Fin 64, (0x40#64).getLsbD b = (b.val == 6) := by decide
  have ha := ha ⟨b, hb⟩
  have hd := hd ⟨b, hb⟩
  dsimp only at ha hd
  unfold XLeaf.marked
  rw [BitVec.getLsbD_or, BitVec.getLsbD_or]
  cases store <;> simp [ha, hd]

/-- The state with the walker's writes in the entry. -/
def State.markEntry (s : State) (x : XLeaf) (store : Bool) : State :=
  if x.marked store = x.entry then s else s.tableWrite x.slot (x.marked store)

theorem commitLeaf_fresh (hx : x.fresh = true) : s.commitLeaf (some c) root vf store x
    = (s.markEntry x store).cacheLeaf c ⟨root, vf, x.level, x.base, x.marked store⟩ x.path := if_pos hx

theorem markEntry_thr : (s.markEntry x store).thr = s.thr := by
  unfold State.markEntry
  split
  · rfl
  · rw [tableWrite_onMemory]
    rfl
theorem markEntry_tableRead (h : x.marked store ≠ x.entry) : (s.markEntry x store).tableRead x.slot = x.marked store := by
  rw [State.markEntry, if_neg h, tableRead_tableWrite]
theorem markEntry_get {l : Loc} (h : ∀ i < 8, l ≠ tableLoc (x.slot + i)) : (s.markEntry x store).get l 0 = s.get l 0 := by
  unfold State.markEntry
  split
  · rfl
  · exact get_tableWrite_other s x.slot _ h

/-- The caches of a cluster and its die hold the leaf that they take. -/
theorem mem_cacheLeaf (u : State) (t : TLeaf) (path : List TLeaf) :
    t ∈ ((u.cacheLeaf c t path).cluster c).tlb ∧ t ∈ NMap.get [] (u.cacheLeaf c t path).l2tlb (dieOf c) := by
  have hcluster : (u.cacheLeaf c t path).cluster c = { u.cluster c with tlb := cachePut 32 (u.cluster c).tlb t } := NMap.get_put_same ..
  have hdie : NMap.get [] (u.cacheLeaf c t path).l2tlb (dieOf c) = cachePut 16384 (NMap.get [] u.l2tlb (dieOf c)) t := by
    unfold State.cacheLeaf
    dsimp only
    exact NMap.get_put_same (α := List TLeaf) ..
  rw [hcluster, hdie]
  exact ⟨mem_cachePut (by decide) _ _, mem_cachePut (by decide) _ _⟩
theorem cacheLeaf_get (u : State) (t : TLeaf) (path : List TLeaf) (l : Loc) (key : Nat) : (u.cacheLeaf c t path).get l key = u.get l key := by
  refine get_onCaches u (fun c' => ?_) l key
  have h := cluster_setCluster u c c' { u.cluster c with tlb := cachePut 32 (u.cluster c).tlb t }
  refine (congrArg Cluster.on h).trans ?_
  split
  next hc => rw [hc]
  next => rfl
theorem cacheLeaf_thr (u : State) (t : TLeaf) (path : List TLeaf) : (u.cacheLeaf c t path).thr = u.thr := rfl
theorem cacheLeaf_tableRead (u : State) (t : TLeaf) (path : List TLeaf) (pa : Nat) : (u.cacheLeaf c t path).tableRead pa = u.tableRead pa := rfl
end
end

/-! ### A walk finishes (04 R89, R92, R93) -/

section
variable {s : State}

/-- What a PAGE_WALK asks for. -/
def State.walked (s : State) : Except Nat XLeaf :=
  s.lookup (some (s.input.unit % 256)) (s.input.value.extractLsb' 0 44) (s.input.value.extractLsb' 44 6)
    (s.input.value.extractLsb' 50 48).toNat (s.input.value.getLsbD 98)

theorem fld_va (v : BitVec 512) : fld v 50 48 = (v.extractLsb' 50 48).toNat := by
  rw [BitVec.extractLsb'_toNat, Nat.shiftRight_eq_div_pow]
  rfl

theorem pageWalk_error {w : Nat} (h : s.walked = .error w) : execPageWalk s = .next s := by
  unfold State.walked at h
  unfold execPageWalk
  rw [event_next]
  simp only [fld_va, h]
  rfl
theorem pageWalk_ok {x : XLeaf} (h : s.walked = .ok x) : execPageWalk s = .next (s.commitLeaf (some (s.input.unit % 256))
    (s.input.value.extractLsb' 0 44) (s.input.value.extractLsb' 44 6) (s.input.value.getLsbD 98) x) := by
  unfold State.walked at h
  unfold execPageWalk
  rw [event_next]
  simp only [fld_va, h]
  rfl
end

/-! ### Invalidations (04 R96) -/

/-- Does a TLBINV name an entry? -/
def TLeaf.Named (e : TLeaf) (root : BitVec 44) (vf : BitVec 6) (all : Bool) (page : Nat) : Prop :=
  e.root = root ∧ e.vf = vf ∧ (all = true ∨ e.base / 65536 ≤ page ∧ page < (e.base + levelSpan e.level) / 65536)

theorem mem_filter_invKeep {root : BitVec 44} {vf : BitVec 6} {all : Bool} {page : Nat} {l : List TLeaf} (e : TLeaf) :
    e ∈ l.filter (invKeep root vf all (page * 65536)) ↔ e ∈ l ∧ ¬ e.Named root vf all page := by
  have hpage : page * 65536 / 65536 = page := Nat.mul_div_cancel _ (by decide)
  rw [List.mem_filter]
  refine and_congr_right fun _ => ?_
  simp only [invKeep, hpage, Bool.not_eq_true', Bool.eq_false_iff, ne_eq, Bool.and_eq_true, Bool.or_eq_true, decide_eq_true_eq, beq_iff_eq,
    and_assoc]
  exact Iff.rfl

section
variable (s : State) (root : BitVec 44) (vf : BitVec 6) (all dev : Bool) (va cl : Nat)

theorem tlbInv_clusters : (s.tlbInv cl root vf all true va).clusters = (List.range 256).foldl (fun m c =>
    NMap.put (Cluster.atReset c) m c { NMap.get (Cluster.atReset c) m c with
      tlb := (NMap.get (Cluster.atReset c) m c).tlb.filter (invKeep root vf all va) }) s.clusters := by
  simp only [State.tlbInv, if_true]
theorem tlbInv_cluster {c : Nat} (hc : c < 256) : (s.tlbInv cl root vf all dev va).cluster c
    = if c = cl ∨ dev = true then { s.cluster c with tlb := (s.cluster c).tlb.filter (invKeep root vf all va) } else s.cluster c := by
  cases dev with
  | true =>
    have h := get_foldl_update Cluster.atReset (fun k => { k with tlb := k.tlb.filter (invKeep root vf all va) }) s.clusters 256 c
    rw [if_pos hc] at h
    rw [if_pos (.inr rfl), State.cluster, tlbInv_clusters, h]
    rfl
  | false =>
    refine (cluster_setCluster s cl c _).trans ?_
    by_cases h : c = cl
    · rw [if_pos h, if_pos (.inl h), h]
    · rw [if_neg h, if_neg (by simp [h])]
theorem tlbInv_walkCache {d : Nat} (hd : d < 2) : NMap.get [] (s.tlbInv cl root vf all dev va).walkCache d
    = if d = dieOf cl ∨ dev = true then (NMap.get [] s.walkCache d).filter (invKeep root vf all va) else NMap.get [] s.walkCache d := by
  cases dev with
  | true =>
    rw [if_pos (.inr rfl)]
    exact (get_foldl_update (fun _ => []) (List.filter (invKeep root vf all va)) s.walkCache 2 d).trans (if_pos hd)
  | false =>
    have hput : (s.tlbInv cl root vf all false va).walkCache = NMap.put [] s.walkCache (dieOf cl)
        ((NMap.get [] s.walkCache (dieOf cl)).filter (invKeep root vf all va)) := rfl
    rw [hput]
    by_cases h : d = dieOf cl
    · rw [if_pos (.inl h), h, NMap.get_put_same]
    · rw [if_neg (by simp [h]), NMap.get_put_other _ _ _ h]
theorem tlbInv_l2tlb {d : Nat} (hd : d < 2) : NMap.get [] (s.tlbInv cl root vf all dev va).l2tlb d
    = if dev = true then (NMap.get [] s.l2tlb d).filter (invKeep root vf all va) else NMap.get [] s.l2tlb d := by
  cases dev with
  | true => exact (get_foldl_update (fun _ => []) (List.filter (invKeep root vf all va)) s.l2tlb 2 d).trans (if_pos hd)
  | false => rfl
theorem tlbInv_thr : (s.tlbInv cl root vf all dev va).thr = s.thr := by
  cases dev <;> rfl
theorem tlbInv_sameBytes : s.sameBytes (s.tlbInv cl root vf all dev va) := by
  cases dev with
  | true =>
    refine get_onCaches s fun c => ?_
    have h := get_foldl_update Cluster.atReset (fun k => { k with tlb := k.tlb.filter (invKeep root vf all va) }) s.clusters 256 c
    refine (congrArg Cluster.on h).trans ?_
    split <;> rfl
  | false =>
    refine get_onCaches s fun c => ?_
    have h := cluster_setCluster s cl c { s.cluster cl with tlb := (s.cluster cl).tlb.filter (invKeep root vf all va) }
    refine (congrArg Cluster.on h).trans ?_
    split
    next hc => rw [hc]
    next => rfl
end

/-! ### TLBINV and PTBASE as events -/

/-- The ALL bit of TLBINV. -/
def allBit : Word := 1#64 <<< 63

theorem allBit_getLsbD (i : Nat) : allBit.getLsbD i = decide (i = 63) := by
  have h : ∀ i : Fin 64, allBit.getLsbD i = decide (i.val = 63) := by decide
  by_cases hi : i < 64
  · exact h ⟨i, hi⟩
  · rw [BitVec.getLsbD_of_ge _ _ (by omega), decide_eq_false (by omega)]

/-- A value of TLBINV with its ALL bit as the event says. -/
def invValue (all : Bool) (v : Word) : Word := if all then v ||| allBit else v &&& ~~~allBit

theorem invValue_getLsbD (all : Bool) (v : Word) {i : Nat} (hi : i < 64) :
    (invValue all v).getLsbD i = if i = 63 then all else v.getLsbD i := by
  cases all with
  | false =>
    change (v &&& ~~~allBit).getLsbD i = _
    rw [BitVec.getLsbD_and, BitVec.getLsbD_not, allBit_getLsbD, decide_eq_true hi]
    by_cases h : i = 63 <;> simp [h]
  | true =>
    change (v ||| allBit).getLsbD i = _
    rw [BitVec.getLsbD_or, allBit_getLsbD]
    by_cases h : i = 63 <;> simp [h]

theorem invValue_bits (all : Bool) (v : Word) : (invValue all v).getLsbD 63 = all ∧ (invValue all v).getLsbD 62 = v.getLsbD 62
    ∧ fld (invValue all v) 16 32 = (v.extractLsb' 16 32).toNat := by
  have hpage : (invValue all v).extractLsb' 16 32 = v.extractLsb' 16 32 := by
    refine BitVec.eq_of_getLsbD_eq fun i hi => ?_
    rw [BitVec.getLsbD_extractLsb', BitVec.getLsbD_extractLsb', invValue_getLsbD _ _ (by omega), if_neg (by omega)]
  refine ⟨invValue_getLsbD all v (by decide), invValue_getLsbD all v (by decide), ?_⟩
  rw [← hpage, BitVec.extractLsb'_toNat, Nat.shiftRight_eq_div_pow]
  rfl

section
variable {s x : State} {all : Bool} {v : Word}

/-- A TLBINV waits for the accesses before it; then the entries go. -/
theorem writeTlbinv_invValue (hr : x.thr.released = true)
    (ho : v.getLsbD 62 = true → x.invOutstanding x.thr.root x.thr.vf all ((v.extractLsb' 16 32).toNat * 65536) = false) :
    x.writeTlbinv (invValue all v)
      = .ok (x.tlbInv x.cl x.thr.root x.thr.vf all (v.getLsbD 62) ((v.extractLsb' 16 32).toNat * 65536)) := by
  obtain ⟨hall, hdev, hpage⟩ := invValue_bits all v
  unfold State.writeTlbinv
  rw [hall, hdev, hpage]
  dsimp only
  rw [waitFor_bind hr, waitFor_bind]
  · rfl
  · cases hd : v.getLsbD 62 with
    | false => exact .inl rfl
    | true => exact .inr (ho hd)
theorem writeTlbinv_wait (hr : x.thr.released = false) (w : Word) : x.writeTlbinv w = .error (.wait x) :=
  waitFor_bind_not (by simp [hr]) _
end

theorem tlbinvVa_eq (s : State) : execTlbinvVa s = slotEvent (fun s => Res.toOption (s.writeTlbinv (invValue false (Input.word s.input)))) s := rfl
theorem tlbinvAll_eq (s : State) : execTlbinvAll s = slotEvent (fun s => Res.toOption (s.writeTlbinv (invValue true (Input.word s.input)))) s := rfl

theorem ptbaseWrite_eq (s : State) : execPtbaseWrite s = .next ((s.atSlot s.input.slot).withThr
    { (s.atSlot s.input.slot).thr with root := (s.input.value.setWidth 64).extractLsb' 12 44 }) := by
  refine slotEvent_of_some ?_
  rw [atSlot_input]
  rfl

/-- Settles O49: a committed leaf read back from the entry and the caches, and each cache after an invalidation as a filter of itself. -/
theorem translationEvents : Obligations.TranslationEvents := by
  refine ⟨fun s => ?_, fun s => ?_⟩
  · intro v root vf store cl found
    have hexec : exec .pageWalk s = execPageWalk s := rfl
    rw [hexec]
    refine ⟨fun w h => pageWalk_error h, fun x h => ⟨fun hx => ?_, fun hx => ?_⟩⟩
    · obtain ⟨t, ht, hclusters, hcovers⟩ := commitLeaf_cached (s := s) (c := cl) (root := root) (vf := vf) (store := store) hx
      exact ⟨t, (pageWalk_ok h).trans (congrArg _ ht), hclusters, hcovers⟩
    · have hmem := mem_cacheLeaf (c := cl) (s.markEntry x store) ⟨root, vf, x.level, x.base, x.marked store⟩ x.path
      obtain ⟨hcluster, hdie⟩ := hmem
      refine ⟨(s.markEntry x store).cacheLeaf cl ⟨root, vf, x.level, x.base, x.marked store⟩ x.path,
        ⟨root, vf, x.level, x.base, x.marked store⟩, (pageWalk_ok h).trans (congrArg _ (commitLeaf_fresh hx)), rfl, rfl, rfl, rfl,
        fun b hb => marked_getLsbD x store hb, hcluster, hdie, fun he => ?_, fun l hl => ?_, ?_⟩
      · rw [cacheLeaf_tableRead, markEntry_tableRead he]
      · rw [cacheLeaf_get]
        exact markEntry_get hl
      · rw [cacheLeaf_thr, markEntry_thr]
  · intro x th v page dev die inv
    have hinv (i : Instr) (all : Bool) (hi : exec i s = slotEvent (fun s => Res.toOption (s.writeTlbinv (invValue all (Input.word s.input)))) s) :
        inv i all := by
      have hword : Input.word x.input = v := by
        rw [atSlot_input]
        rfl
      refine ⟨fun hr => hi.trans (slotEvent_of_none ?_), fun hr ho => ?_⟩
      · rw [writeTlbinv_wait hr]
        rfl
      · have hsome : Res.toOption (x.writeTlbinv (invValue all (Input.word x.input)))
            = some (x.tlbInv x.cl th.root th.vf all dev (page * 65536)) := by
          rw [hword, writeTlbinv_invValue hr ho]
          rfl
        refine ⟨_, hi.trans (slotEvent_of_some hsome), fun c hc => ?_, fun d hd => ?_, fun d hd => ?_, tlbInv_thr .., tlbInv_sameBytes x _ _ _ _ _ _⟩
        · rw [tlbInv_cluster _ _ _ _ _ _ _ hc]
          split
          · exact fun e => mem_filter_invKeep e
          · rfl
        · rw [tlbInv_walkCache _ _ _ _ _ _ _ hd]
          change if d = dieOf x.cl ∨ dev = true then _ else _
          split
          · exact fun e => mem_filter_invKeep e
          · rfl
        · rw [tlbInv_l2tlb _ _ _ _ _ _ _ hd]
          split
          · exact fun e => mem_filter_invKeep e
          · rfl
    refine ⟨hinv .tlbinvVa false (show exec .tlbinvVa s = execTlbinvVa s from rfl),
      hinv .tlbinvAll true (show exec .tlbinvAll s = execTlbinvAll s from rfl), ?_⟩
    have hexec : exec .ptbaseWrite s = execPtbaseWrite s := rfl
    rw [hexec]
    exact ptbaseWrite_eq s
end Sys2Proof.Machine
end

section
/-!
PROOFS. Encoding and decoding of the bank engines' words (05 R115, R116; 02 R44, R45).
-/
namespace Sys2Proof

/-- The fields of a word of a bank engine besides its op (02 R44). -/
def bankFields (w : Parcel) : FBk := ⟨bitsOf w 18 14, bitsOf w 14 4, bitsOf w 10 4, bitsOf w 6 4⟩

/-- A bank engine's word is its op and its fields and no more. -/
theorem bankWord_iff (f : FBk) (op : BitVec 6) (w : Parcel) :
    f.imm14 ++ f.rt ++ f.rs ++ f.rd ++ op = w ↔ f = bankFields w ∧ op = bitsOf w 0 6 := by
  obtain ⟨imm14, rt, rs, rd⟩ := f
  change ((imm14 ++ rt ++ rs ++ rd ++ op : BitVec (14 + 4 + 4 + 4 + 6)) = w ↔ _)
  simp (disch := decide) only [append_eq_iff, extractLsb'_extractLsb', bankFields, FBk.mk.injEq, and_assoc]

/-- The operation of an op value has that value and those fields as its encoding view. -/
theorem form_of_ofBank {op : Nat} {f : FBk} {i : Instr} (h : ofBank op f = some i) : i.form = .bank op f := by
  match op, h with
  | 0, h =>
    obtain ⟨rfl, h⟩ := Option.ite_none_right_eq_some.mp h
    cases h; rfl
  | 1, h =>
    obtain ⟨rfl, h⟩ := Option.ite_none_right_eq_some.mp h
    cases h; rfl
  | n + 2, h => exact (form_of_row (mk := fun k => .bank (k + 2) f) rfl h).1

/-- The ops of 20 to 63 name no operation (02 R45). -/
theorem ofBank_eq_none {op : Nat} (h : 20 ≤ op) (f : FBk) : ofBank op f = none := by
  obtain ⟨n, rfl⟩ := Nat.exists_eq_add_of_le' (show 2 ≤ op by omega)
  exact List.getElem?_eq_none (show 18 ≤ n by omega)

/-- The decoder takes the operation of the op where its fields are legal (05 R115). -/
theorem decodeBank_eq (w : Parcel) {op : Nat} (h : op = (bitsOf w 0 6).toNat) :
    decodeBank w = ((ofBank op (bankFields w)).filter fun _ => legalBank op (bankFields w)).getD .bankIllegal := by
  subst h
  unfold decodeBank bankFields
  dsimp only
  split
  next i hi =>
    rw [hi]
    split
    next hl => simp only [Option.filter, hl, if_true, Option.getD_some]
    next hl => simp only [Option.filter, hl, Bool.false_eq_true, if_false, Option.getD_none]
  next hn => rw [hn]; rfl

/-- What the decoder reads from a word that is not illegal: the well-formed operation that the word encodes. -/
theorem decodeBank_eq_iff {w : Parcel} {i : Instr} (hi : i ≠ .bankIllegal) :
    decodeBank w = i ↔ i.wf = true ∧ i.isBank = true ∧ encodeBank i = w := by
  have hd : decodeBank w = i ↔ ofBank (bitsOf w 0 6).toNat (bankFields w) = some i ∧ legalBank (bitsOf w 0 6).toNat (bankFields w) = true := by
    rw [decodeBank_eq w rfl, Option.getD_eq_iff, Option.filter_eq_some_iff]
    simp [hi.symm]
  rw [hd]
  constructor
  · rintro ⟨ho, hl⟩
    have hf := form_of_ofBank ho
    refine ⟨by simpa [Instr.wf, hf, Form.legal] using hl, by simp [Instr.isBank, hf], ?_⟩
    simp only [encodeBank, encode, hf, Form.parcels, List.headD_cons]
    exact (bankWord_iff ..).mpr ⟨rfl, by rw [BitVec.ofNat_toNat, BitVec.setWidth_eq]⟩
  · rintro ⟨hw, hb, rfl⟩
    have hn : i.form.instr = some i := by simp [form_instr, hb]
    cases hf : i.form with
    | bank op f =>
      rw [Instr.wf, hf] at hw
      rw [hf] at hn
      have hop : op < 20 := Nat.lt_of_not_le fun h => by simp [Form.instr, ofBank_eq_none h] at hn
      have he : encodeBank i = f.imm14 ++ f.rt ++ f.rs ++ f.rd ++ BitVec.ofNat 6 op := by simp [encodeBank, encode, hf, Form.parcels]
      obtain ⟨h1, h2⟩ := (bankWord_iff ..).mp he.symm
      rw [← h1, ← h2, BitVec.toNat_ofNat, Nat.mod_eq_of_lt (show op < 2 ^ 6 by omega)]
      exact ⟨hn, hw⟩
    | _ => simp [Instr.isBank, hf] at hb

/-- Settles O58: a bank engine's word is its op and its fields and no more (`bankWord_iff`), and each op value names one operation. -/
theorem encodeDecodeBank : Obligations.EncodeDecodeBank := by
  refine ⟨fun i hw hb => (decodeBank_eq_iff ?_).mpr ⟨hw, hb, rfl⟩, fun w hi => (decodeBank_eq_iff hi).mp rfl, fun w h => ?_⟩
  · rintro rfl; cases hb
  · rw [decodeBank_eq w rfl, ofBank_eq_none h]; rfl

end Sys2Proof
end

section
/-!
PROOFS. What a location reads as after a write event: the bytes written, and every other one as before (04 R90; 07 R168; 16 R334).
-/
namespace Sys2Proof.Machine

/-! ### Engines and rows read back -/

theorem engine_curE (s : State) : s.engine s.curE = s.eng := if_pos rfl

/-- What an engine is after one was replaced. -/
theorem engine_setEngine (s : State) (e k : BitVec 10) (g : Engine) : (s.setEngine e g).engine k = if k = e then g else s.engine k := by
  unfold State.setEngine
  split
  next he =>
    subst he
    unfold State.engine
    split <;> rfl
  next he =>
    unfold State.engine
    by_cases hk : k = s.curE
    · subst hk
      rw [if_pos rfl, if_neg (Ne.symm he), if_pos rfl]
    · rw [if_neg hk, if_neg hk]
      change NMap.get {} (NMap.put {} s.engines e.toNat g) k.toNat = _
      rw [NMap.get_put]
      exact if_congr BitVec.toNat_inj rfl rfl
/-- Engines below 1,024 are told apart by their numbers. -/
theorem ofNat_engine_inj {a b : Nat} (ha : a < 768) (hb : b < 768) (h : BitVec.ofNat 10 a = BitVec.ofNat 10 b) : a = b := by
  have := congrArg BitVec.toNat h
  simp only [BitVec.toNat_ofNat] at this
  omega

/-- A byte of a row after one was replaced. -/
theorem rowSet_extract (d : BitVec 256) {b k : Nat} (v : Byte) (hk : k < 32) :
    (rowSet d b v).extractLsb' (8 * k) 8 = if k = b then v else d.extractLsb' (8 * k) 8 := by
  have hmask (j : Nat) : (0xFF#256).getLsbD j = decide (j < 8) := by
    rw [show 0xFF#256 = (BitVec.allOnes 8).setWidth 256 by decide, BitVec.getLsbD_setWidth, BitVec.getLsbD_allOnes]
    exact Bool.eq_iff_iff.mpr (by simp only [Bool.and_eq_true, decide_eq_true_eq]; omega)
  ext i hi
  have h256 : 8 * k + i < 256 := by omega
  simp only [rowSet, BitVec.getElem_extractLsb', BitVec.getLsbD_or, BitVec.getLsbD_and, BitVec.getLsbD_not, BitVec.getLsbD_shiftLeft, hmask,
    BitVec.getLsbD_setWidth, h256, decide_true, Bool.true_and]
  split
  next hkb =>
    subst hkb
    simp [hi, show 8 * k + i - 8 * k = i by omega, show i < 256 by omega]
  next hkb =>
    rcases Nat.lt_or_gt_of_ne hkb with h | h
    · simp [show 8 * k + i < 8 * b by omega]
    · have h8 : 8 ≤ 8 * k + i - 8 * b := by omega
      simp [Nat.not_lt.mpr h8, BitVec.getLsbD_of_ge v _ h8]

/-! ### One byte -/

/-- Does a location keep a byte that is written to it? A void cell and the state of an engine do not (07 R168; 05 R110). -/
def State.keeps (s : State) : Loc → Prop
  | .cell c _ _ => s.isVoid c = false
  | .eng .. | .void => False
  | _ => True

section
variable (s : State) (key : Nat) (v : Byte)

theorem put_isVoid (l : Loc) (c : Nat) : (s.put l key v).isVoid c = s.isVoid c := by
  cases l with
  | mem k =>
    obtain ⟨m, mk, h⟩ := putMem_frame s k (s.keyAt key) v
    change (s.putMem k (s.keyAt key) v).isVoid c = _
    rw [h]
    rfl
  | cell c' r b =>
    unfold State.put
    dsimp only
    split <;> rfl
  | buf e b =>
    unfold State.put State.setEngine
    dsimp only
    split <;> rfl
  | _ => rfl

theorem get_put_same {l : Loc} (hk : s.keeps l) (hp : l.proper) : (s.put l key v).get l key = v := by
  cases l with
  | mem k =>
    change (s.putMem k (s.keyAt key) v).memByte k ((s.putMem k (s.keyAt key) v).keyAt key) = v
    rw [keyAt_putMem]
    exact memByte_putMem_same ..
  | ext d pa => exact extGet_extPut_same s d pa key v
  | cell c r b =>
    have hv : s.isVoid c = false := hk
    have hput : s.put (.cell c r b) key v = s.setRow c r { s.row c r with data := rowSet (s.row c r).data b v } := by
      simp only [State.put, hv, Bool.false_eq_true, if_false]
    rw [hput]
    change (if s.isVoid c then 0 else ((s.setRow c r _).row c r).data.extractLsb' (8 * b) 8) = v
    rw [hv, if_neg Bool.false_ne_true, State.row, State.setRow, NMap.get_put_same]
    exact (rowSet_extract _ _ hp.2).trans (if_pos rfl)
  | buf e b =>
    change NMap.get 0 ((s.setEngine (BitVec.ofNat 10 e) _).engine (BitVec.ofNat 10 e)).buf b = v
    rw [engine_setEngine, if_pos rfl]
    exact NMap.get_put_same ..
  | eng e off => exact hk.elim
  | void => exact hk.elim

/-- An engine shows a thread what it did where its buffer alone differs. -/
theorem engByte_setEngine_buf (e : BitVec 10) (b : NMap Byte) (p : List Nat) (k off : Nat) :
    (s.setEngine e { s.engine e with buf := b, bufPoison := p }).engByte k off = s.engByte k off := by
  have hq : (s.setEngine e { s.engine e with buf := b, bufPoison := p }).queueDepth k = s.queueDepth k := by
    unfold State.queueDepth
    rw [setEngine_cmdq]
  unfold State.engByte
  rw [engine_setEngine, hq]
  by_cases hk : BitVec.ofNat 10 k = e
  · rw [if_pos hk, hk]
    rfl
  · rw [if_neg hk]

theorem get_put_other {l i : Loc} (h : i ≠ l) (hl : l.proper) (hi : i.proper) : (s.put l key v).get i key = s.get i key := by
  cases l with
  | mem k => exact get_putMem_other s key v h
  | ext d pa =>
    cases i with
    | ext d' pa' => exact extGet_extPut_other s d pa key v fun ⟨hd, hp⟩ => h (by rw [hd, hp])
    | _ => rfl
  | cell c r b =>
    unfold State.put
    dsimp only
    split
    · rfl
    cases i with
    | cell c' r' b' =>
      change (if s.isVoid c' then 0 else ((s.setRow c r _).row c' r').data.extractLsb' (8 * b') 8)
        = if s.isVoid c' then 0 else (s.row c' r').data.extractLsb' (8 * b') 8
      refine if_congr Iff.rfl rfl ?_
      rw [State.row, State.setRow, NMap.get_put]
      obtain ⟨hr, -⟩ := hl
      obtain ⟨hr', hb'⟩ := hi
      split
      next he =>
        obtain ⟨rfl, rfl⟩ : c' = c ∧ r' = r := by omega
        exact (rowSet_extract _ _ hb').trans (if_neg fun hbb => h (by rw [hbb]))
      next => rfl
    | _ => rfl
  | buf e b =>
    change (s.setEngine (BitVec.ofNat 10 e) _).get i key = _
    cases i with
    | buf e' b' =>
      change NMap.get 0 ((s.setEngine (BitVec.ofNat 10 e) _).engine (BitVec.ofNat 10 e')).buf b' = _
      rw [engine_setEngine]
      split
      next he =>
        obtain rfl : e' = e := ofNat_engine_inj hi hl he
        exact NMap.get_put_other _ _ _ fun hb => h (by rw [hb])
      next => rfl
    | eng e' off => exact engByte_setEngine_buf ..
    | _ => unfold State.setEngine; split <;> rfl
  | eng e off => rfl
  | void => rfl
end

/-! ### The poison that a write event clears -/

section
variable (s : State) (i : Loc) (key : Nat)

theorem get_setRow_poison (c r : Nat) (p : Bool) : (s.setRow c r { s.row c r with poison := p }).get i key = s.get i key := by
  cases i with
  | cell c' r' b =>
    change (if s.isVoid c' then 0 else ((s.setRow c r _).row c' r').data.extractLsb' (8 * b) 8)
      = if s.isVoid c' then 0 else (s.row c' r').data.extractLsb' (8 * b) 8
    refine if_congr Iff.rfl rfl (congrArg (fun d => BitVec.extractLsb' (8 * b) 8 d) ?_)
    rw [State.row, State.setRow, NMap.get_put]
    split
    next he => rw [State.row, State.row, he]
    next => rfl
  | _ => rfl
theorem get_setEngine_poison (e : BitVec 10) (p : List Nat) :
    (s.setEngine e { s.engine e with bufPoison := p }).get i key = s.get i key := by
  cases i with
  | buf e' b =>
    change NMap.get 0 ((s.setEngine e _).engine (BitVec.ofNat 10 e')).buf b = NMap.get 0 (s.engine (BitVec.ofNat 10 e')).buf b
    rw [engine_setEngine]
    split
    next he => rw [he]
    next => rfl
  | eng e' off => exact engByte_setEngine_buf ..
  | _ => unfold State.setEngine; split <;> rfl

/-- Clearing poison changes no byte. -/
theorem clearPoison_get (ls : List Loc) : (s.clearPoison ls).get i key = s.get i key := by
  unfold State.clearPoison
  refine foldl_keeps (fun u => u.get i key = s.get i key) _ (fun u l hu => ?_) ls s rfl
  rw [← hu]
  dsimp only
  split
  · split <;> rfl
  · split
    · exact get_setRow_poison ..
    · rfl
  · split
    · exact get_setEngine_poison ..
    · rfl
  · rfl
end

/-! ### What a write event may change -/

/-- The state `s` with the stores of `u`: memory, the plane's rows and the engines' buffers. -/
def State.onStores (s u : State) : State :=
  { s with mem := u.mem, memKey := u.memKey, poison := u.poison, extMem := u.extMem, extKey := u.extKey, rows := u.rows
           eng := { s.eng with buf := u.eng.buf, bufPoison := u.eng.bufPoison }, engines := u.engines }

section
variable (s : State)

theorem foldl_onStores {α : Type} {f : State → α → State} (hf : ∀ s x, f s x = s.onStores (f s x)) (l : List α) :
    l.foldl f s = s.onStores (l.foldl f s) :=
  foldl_keeps (fun u => u = s.onStores u) f (fun u x hu => by rw [hf u x, hu]; rfl) l s rfl
theorem setEngine_onStores (e : BitVec 10) (b : NMap Byte) (p : List Nat) :
    s.setEngine e { s.engine e with buf := b, bufPoison := p } = s.onStores (s.setEngine e { s.engine e with buf := b, bufPoison := p }) := by
  unfold State.setEngine
  split
  next he =>
    rw [he, engine_curE]
    rfl
  next => rfl
theorem put_onStores (l : Loc) (key : Nat) (v : Byte) : s.put l key v = s.onStores (s.put l key v) := by
  cases l with
  | mem k =>
    obtain ⟨m, mk, h⟩ := putMem_frame s k (s.keyAt key) v
    change s.putMem k (s.keyAt key) v = s.onStores (s.putMem k (s.keyAt key) v)
    rw [h]
    rfl
  | cell c r b =>
    unfold State.put
    dsimp only
    split <;> rfl
  | buf e b => exact setEngine_onStores ..
  | _ => rfl
theorem clearPoison_onStores (ls : List Loc) : s.clearPoison ls = s.onStores (s.clearPoison ls) := by
  unfold State.clearPoison
  refine foldl_onStores s (fun u l => ?_) ls
  dsimp only
  split
  · split <;> rfl
  · split <;> rfl
  · split
    · exact setEngine_onStores ..
    · rfl
  · rfl
theorem putBytes_onStores (bs : List SqByte) : s.putBytes bs = s.onStores (s.putBytes bs) := by
  unfold State.putBytes
  rw [clearPoison_onStores, foldl_onStores s fun u (b : SqByte) => put_onStores u b.loc b.key b.val]
  rfl
@[simp] theorem putBytes_thr (bs : List SqByte) : (s.putBytes bs).thr = s.thr := by rw [putBytes_onStores]; rfl
@[simp] theorem putBytes_calls (bs : List SqByte) : (s.putBytes bs).calls = s.calls := by rw [putBytes_onStores]; rfl
@[simp] theorem putBytes_sends (bs : List SqByte) : (s.putBytes bs).sends = s.sends := by rw [putBytes_onStores]; rfl
@[simp] theorem putBytes_cmdq (bs : List SqByte) : (s.putBytes bs).cmdq = s.cmdq := by rw [putBytes_onStores]; rfl
@[simp] theorem putBytes_curE (bs : List SqByte) : (s.putBytes bs).curE = s.curE := by rw [putBytes_onStores]; rfl
theorem putBytes_isVoid (bs : List SqByte) (c : Nat) : (s.putBytes bs).isVoid c = s.isVoid c := by rw [putBytes_onStores]; rfl

/-- A write event that names no cell leaves the plane's rows. -/
theorem putBytes_rows {bs : List SqByte} (h : ∀ b ∈ bs, ∀ c r k, b.loc ≠ .cell c r k) : (s.putBytes bs).rows = s.rows := by
  refine List.foldlRecOn _ _ (motive := fun u : State => u.rows = s.rows) ?_ fun u hu l hl => ?_
  · refine List.foldlRecOn bs _ (motive := fun u : State => u.rows = s.rows) rfl fun u hu b hb => ?_
    rw [← hu]
    cases hloc : b.loc with
    | cell c r k => exact (h b hb c r k hloc).elim
    | mem k =>
      obtain ⟨m, mk, hput⟩ := putMem_frame u k (u.keyAt b.key) b.val
      change (u.putMem k (u.keyAt b.key) b.val).rows = u.rows
      rw [hput]
    | buf e k => exact setEngine_rows ..
    | _ => rfl
  · rw [← hu]
    obtain ⟨b, hb, rfl⟩ := List.mem_map.mp hl
    split
    · split <;> rfl
    next c r heq => exact (h b hb c r 0 heq).elim
    · split
      · exact setEngine_rows ..
      · rfl
    · rfl
end

/-! ### The bytes of one write event -/

section
variable {s : State} {bs : List SqByte} {key : Nat}

theorem get_foldl_put_other {i : Loc} (hi : i.proper) (hbs : ∀ b ∈ bs, b.loc.proper ∧ b.key = key) (h : i ∉ bs.map (·.loc)) :
    (bs.foldl (fun s b => s.put b.loc b.key b.val) s).get i key = s.get i key := by
  induction bs generalizing s with
  | nil => rfl
  | cons b r ih =>
    rw [List.map_cons, List.mem_cons, not_or] at h
    obtain ⟨hb, hk⟩ := hbs b (by simp)
    rw [List.foldl_cons, ih (fun c hc => hbs c (by simp [hc])) h.2, hk]
    exact get_put_other s key b.val h.1 hb hi
theorem get_putBytes_other {i : Loc} (hi : i.proper) (hbs : ∀ b ∈ bs, b.loc.proper ∧ b.key = key) (h : i ∉ bs.map (·.loc)) :
    (s.putBytes bs).get i key = s.get i key :=
  (clearPoison_get ..).trans (get_foldl_put_other hi hbs h)
theorem keeps_put {i l : Loc} {k : Nat} {v : Byte} (h : s.keeps i) : (s.put l k v).keeps i := by
  cases i with
  | cell c r b => exact (put_isVoid s k v l c).trans h
  | _ => exact h

/-- Each byte of a write event is where it was written. -/
theorem get_putBytes_of_mem {b : SqByte} (hb : b ∈ bs) (hk : s.keeps b.loc) (hbs : ∀ b ∈ bs, b.loc.proper ∧ b.key = key)
    (hn : (bs.map (·.loc)).Nodup) : (s.putBytes bs).get b.loc key = b.val := by
  refine (clearPoison_get ..).trans ?_
  induction bs generalizing s with
  | nil => cases hb
  | cons c r ih =>
    obtain ⟨hc, hck⟩ := hbs c (by simp)
    obtain ⟨hcr, hr⟩ := List.nodup_cons.mp hn
    have hbs' : ∀ b ∈ r, b.loc.proper ∧ b.key = key := fun b hb => hbs b (by simp [hb])
    rw [List.foldl_cons]
    rcases List.mem_cons.mp hb with rfl | hb
    · rw [get_foldl_put_other hc hbs' hcr, hck]
      exact get_put_same s key _ hk hc
    · exact ih hb (keeps_put hk) hbs' hr
end
end Sys2Proof.Machine
end

section
/-!
PROOFS. The words of a bank engine: control, scalar and memory operations, and what an engine fault does (05 R111, R115-R118, R122-R125).
-/
namespace Sys2Proof.Machine

/-! ### How a word ends (05 R115) -/

section
variable {s t : State} {n : Int} {body : State → EngEnd}

theorem engGo_one (h : s.eng.pc.toNat < 1023) : s.engGo 1 = { s with eng := { s.eng with pc := s.eng.pc + 1, waiting := false } } := by
  have hpc : BitVec.ofInt 10 ((s.eng.pc.toNat : Int) + 1) = s.eng.pc + 1 := by
    refine BitVec.eq_of_toNat_eq ?_
    simp only [BitVec.toNat_ofInt, BitVec.toNat_add, BitVec.ofNat_eq_ofNat, BitVec.toNat_ofNat]
    omega
  rw [State.engGo, if_pos (by omega), hpc]

/-- A word that goes on with the state `t`: to the word so many words away, and past the store it faults BANK_PC. -/
theorem engGo_cases {i : Instr} (hi : exec i s = .next (t.engGo n)) (hpc : t.eng.pc = s.eng.pc) :
    (0 ≤ (s.eng.pc.toNat : Int) + n → (s.eng.pc.toNat : Int) + n ≤ 1023 →
      exec i s = .next { t with eng := { t.eng with pc := BitVec.ofInt 10 ((s.eng.pc.toNat : Int) + n), waiting := false } })
    ∧ ((s.eng.pc.toNat : Int) + n < 0 ∨ 1023 < (s.eng.pc.toNat : Int) + n → exec i s = .next (t.engFault 6 0)) := by
  rw [hi, State.engGo, hpc]
  exact ⟨fun h0 h1 => by rw [if_pos ⟨h0, h1⟩], fun hout => by rw [if_neg (by omega)]⟩
theorem engStep_next (h : body s = .go t 1) (hpc : t.eng.pc = s.eng.pc) (hlt : s.eng.pc.toNat < 1023) :
    engStep body s = .next { t with eng := { t.eng with pc := s.eng.pc + 1, waiting := false } } := by
  rw [engStep, h]
  dsimp only
  rw [engGo_one (hpc ▸ hlt), hpc]
theorem engStep_fault {c : BitVec 8} {a : BitVec 32} (h : body s = .fault c a) : engStep body s = .next (s.engFault c a) := by rw [engStep, h]
theorem engStep_hold (h : body s = .hold t) : engStep body s = .next t := by rw [engStep, h]
theorem engOp_next {body : State → EngRes State} (h : body s = .ok t) (hpc : t.eng.pc = s.eng.pc) (hlt : s.eng.pc.toNat < 1023) :
    engOp body s = .next { t with eng := { t.eng with pc := s.eng.pc + 1, waiting := false } } :=
  engStep_next (by rw [h]) hpc hlt
theorem engOp_fault {body : State → EngRes State} {c : BitVec 8} {a : BitVec 32} (h : body s = .error (c, a)) :
    engOp body s = .next (s.engFault c a) :=
  engStep_fault (by rw [h])
end

theorem setB_eq (s : State) (n : BitVec 4) (v : BitVec 32) :
    s.setB n v = if n = 0 then s else { s with eng := { s.eng with b := s.eng.b.setIfInBounds n.toNat v } } := by
  unfold State.setB Engine.setB
  split <;> rfl
theorem setB_eng_pc (s : State) (n : BitVec 4) (v : BitVec 32) : (s.setB n v).eng.pc = s.eng.pc := by
  rw [setB_eq]
  split <;> rfl

/-! ### The end of a call on an engine, and a fault (05 R125) -/

/-- What a list of the map holds is listed in the map. -/
theorem NMap.mem_of_mem_get {α : Type} {m : NMap (List α)} {k : Nat} {x : α} (h : x ∈ NMap.get [] m k) : ∃ q ∈ m, x ∈ q.2 := by
  induction m with
  | nil => cases h
  | cons c r ih =>
    unfold NMap.get at h
    split at h
    · exact ⟨c, by simp, h⟩
    · obtain ⟨q, hq, hx⟩ := ih h
      exact ⟨q, by simp [hq], hx⟩

/-- An engine that has performed a command changes what is left of it alone: each command of a queue was in it. -/
theorem mem_finishCmd {s : State} {e no j : Nat} {k : Cmd} (h : k ∈ NMap.get [] (s.finishCmd e no).cmdq j) :
    ∃ c ∈ NMap.get [] s.cmdq j, k = c ∨ j = e / 64 ∧ c.no = no ∧ k = { c with left := c.left.filter (· ≠ e) } := by
  unfold State.finishCmd State.mapCmd at h
  dsimp only at h
  rw [NMap.get_put] at h
  split at h
  next hj =>
    subst hj
    obtain ⟨c, hc, rfl⟩ := List.mem_map.mp (List.mem_of_mem_filter h)
    refine ⟨c, hc, ?_⟩
    split
    next hno => exact .inr ⟨rfl, hno, rfl⟩
    next => exact .inl rfl
  next => exact ⟨k, h, .inl rfl⟩

/-- The state of an engine that ends its call. -/
def Engine.ended (g : Engine) (last : Bool) : Engine := { g with call := none, waiting := false, busy := last }

theorem Engine.ended_self {g : Engine} (hc : g.call = none) (hw : g.waiting = false) : g.ended g.busy = g := by
  rw [Engine.ended, ← hc, ← hw]

/-- An engine that has ended its call is busy while it has a send on its way; its queue loses at most what it has performed. -/
theorem settle_ended {s : State} (h : s.eng.call = none) (hw : s.eng.waiting = false) : ∃ q,
    s.settle s.curE.toNat = { s with cmdq := q, eng := s.eng.ended (s.eng.busy && s.sends.any (·.engine = s.curE.toNat)) }
    ∧ ∀ j, ∀ k ∈ NMap.get [] q j, ∃ c ∈ NMap.get [] s.cmdq j, c.uid = k.uid ∧ c.begun = k.begun := by
  have he : BitVec.ofNat 10 s.curE.toNat = s.curE := by rw [BitVec.ofNat_toNat, BitVec.setWidth_eq]
  have hset (g : Engine) : s.setEngine s.curE g = { s with eng := g } := if_pos rfl
  have hfree : ({ s.eng with busy := false } : Engine) = s.eng.ended false := by rw [Engine.ended, ← h, ← hw]
  unfold State.settle
  dsimp only
  rw [he, engine_curE, hset, hfree, h, Option.isSome_none, Bool.false_or]
  cases hb : s.eng.busy
  · refine ⟨s.cmdq, ?_, fun j k hk => ⟨k, hk, rfl, rfl⟩⟩
    rw [Bool.not_false, Bool.true_or, if_pos rfl, Bool.false_and, ← hb, Engine.ended_self h hw]
  cases hs : s.sends.any (·.engine = s.curE.toNat)
  · rw [Bool.not_true, Bool.false_or, if_neg Bool.false_ne_true]
    split
    · refine ⟨_, rfl, fun j k hk => ?_⟩
      obtain ⟨c, hc, rfl | ⟨-, -, rfl⟩⟩ := mem_finishCmd hk
      · exact ⟨k, hc, rfl, rfl⟩
      · exact ⟨c, hc, rfl, rfl⟩
    · exact ⟨s.cmdq, rfl, fun j k hk => ⟨k, hk, rfl, rfl⟩⟩
  · refine ⟨s.cmdq, ?_, fun j k hk => ⟨k, hk, rfl, rfl⟩⟩
    rw [Bool.or_true, if_pos rfl, Bool.true_and, ← hb, Engine.ended_self h hw]

/-- A call without the engine that has ended it. -/
def Call.without (c : Call) (e : Nat) : Call := { c with left := c.left.filter (· ≠ e) }

theorem engEnd_eq {s : State} {g : Engine} {id : Nat} (h : g.call = some id) : ∃ q,
    s.engEnd g = { s with eng := g.ended (g.busy && s.sends.any (·.engine = s.curE.toNat)), cmdq := q
                          calls := s.calls.map fun c => if c.id = id then c.without s.curE.toNat else c }
    ∧ ∀ j, ∀ k ∈ NMap.get [] q j, ∃ c ∈ NMap.get [] s.cmdq j, c.uid = k.uid ∧ c.begun = k.begun := by
  unfold State.engEnd
  rw [h]
  obtain ⟨q, hq, hk⟩ := settle_ended (s := ({ s with eng := { g with call := none, waiting := false } } : State).mapCall id
    fun c => c.without s.curE.toNat) rfl rfl
  exact ⟨q, hq, hk⟩

/-- The commands of an item that stay in a queue have begun (05 R125). -/
theorem dropBank_begun {s : State} {uid j : Nat} {k : Cmd} (hk : k ∈ NMap.get [] (s.dropBank uid).cmdq j) (hu : k.uid = uid) :
    k.begun = true := by
  obtain ⟨q, hq, hkq⟩ := NMap.mem_of_mem_get hk
  obtain ⟨q', -, hsome⟩ := List.mem_filterMap.mp hq
  obtain ⟨-, hq'⟩ := Option.ite_none_left_eq_some.mp hsome
  cases hq'
  have := (List.mem_filter.mp hkq).2
  simpa [hu] using this

/-- A call that some engine has begun wherever it is queued stays as it is (05 R125). -/
theorem dropBank_keeps_call {s : State} {uid : Nat} {c : Call} (hc : c ∈ s.calls)
    (hb : ∀ q ∈ s.cmdq, ∀ k ∈ q.2, k.kind = .call c.id → k.begun = true) : c ∈ (s.dropBank uid).calls := by
  refine List.mem_map.mpr ⟨c, hc, if_neg fun hids => ?_⟩
  obtain ⟨q, hq, hmem⟩ := List.mem_flatMap.mp (List.contains_iff_mem.mp hids)
  obtain ⟨k, hk, hsome⟩ := List.mem_filterMap.mp hmem
  split at hsome
  next id hkind =>
    obtain ⟨hdrop, hid⟩ := Option.ite_none_right_eq_some.mp hsome
    cases hid
    simp [hb q hq k hk hkind] at hdrop
  next => cases hsome

/-- The first fault of a call stays (05 R125). -/
theorem faultAt_eq (c : Call) (f : CallFault) : c.faultAt f = { c with fault := match c.fault with
    | some x => some x
    | none => some f } := by
  obtain ⟨⟩ := c
  unfold Call.faultAt
  dsimp only
  split
  next h =>
    obtain ⟨x, rfl⟩ := Option.isSome_iff_exists.mp h
    rfl
  next h =>
    obtain rfl := Option.not_isSome_iff_eq_none.mp h
    rfl

/-- An engine with the fault that it has met. -/
def Engine.failed (g : Engine) (code : BitVec 8) : Engine := { g with faulted := true, fault := code }

/-- The report that a fault of an engine makes. -/
def State.faultRec (s : State) (code : BitVec 8) (addr : BitVec 32) : CallFault := ⟨s.curE.toNat, code, s.eng.pc, addr, s.time⟩

section
variable {s : State} {c : Call} (hcall : s.eng.call = some c.id) (hc : s.calls.find? (fun k => k.id == c.id) = some c)
include hcall hc

/-- What a fault of an engine that runs a call does: the engine ends the call, which keeps its first fault, and of the item's commands
those stay that have begun. -/
theorem engFault_spec (code : BitVec 8) (addr : BitVec 32)
    (hb : ∀ q ∈ s.cmdq, ∀ k ∈ q.2, k.kind = .call c.id → k.begun = true) : ∃ (calls : List Call) (q : NMap (List Cmd)),
    s.engFault code addr = { s with calls := calls, cmdq := q, eng := ((s.eng.failed code).ended (s.eng.busy && s.sends.any (·.engine = s.curE.toNat))) }
    ∧ (c.faultAt (s.faultRec code addr)).without s.curE.toNat ∈ calls
    ∧ ∀ j, ∀ k ∈ NMap.get [] q j, k.uid = c.uid → k.begun = true := by
  have hid (f : CallFault) : (c.faultAt f).id = c.id := by rw [faultAt_eq]
  have hec : s.engCall = some c := by rw [State.engCall, hcall]; exact hc
  unfold State.engFault
  rw [hec]
  dsimp only
  obtain ⟨q, hq, hk⟩ := engEnd_eq (s := (s.mapCall c.id fun k => k.faultAt (s.faultRec code addr)).dropBank c.uid)
    (g := s.eng.failed code) hcall
  refine ⟨_, q, hq, ?_, fun j k hkq hu => ?_⟩
  · refine List.mem_map.mpr ⟨c.faultAt (s.faultRec code addr), dropBank_keeps_call ?_ (by rw [hid]; exact hb), by rw [if_pos (hid _)]; rfl⟩
    exact List.mem_map.mpr ⟨c, List.mem_of_find?_eq_some hc, if_pos rfl⟩
  · obtain ⟨c', hc', hu', hb'⟩ := hk j k hkq
    exact hb' ▸ dropBank_begun hc' (hu'.trans hu)
end

/-! ### The targets of an engine address (05 R111) -/

/-- The end that an access of a target may not pass (05 R111). -/
def ETarget.inside : ETarget → Nat → Prop
  | .buf off, n => off + n ≤ 65536
  | .region r off, n => off + n ≤ r.len

theorem fits_iff (t : ETarget) (n : Nat) : t.fits n = true ↔ t.inside n := by
  cases t <;> simp [ETarget.fits, ETarget.inside]

section
variable {g : Engine} {a : BitVec 32}

theorem fld_sel (a : BitVec 32) : fld a 28 4 = a.toNat / 2 ^ 28 := by
  unfold fld bits
  omega
theorem fld_off (a : BitVec 32) : fld a 0 28 = a.toNat % 2 ^ 28 := by
  unfold fld bits
  omega

theorem target_buffer (h : a.toNat / 2 ^ 28 = 0 ∧ a.toNat % 2 ^ 28 < 65536) : g.target a = some (.buf (a.toNat % 2 ^ 28)) := by
  obtain ⟨hs, ho⟩ := h
  unfold Engine.target
  rw [fld_sel, fld_off, hs]
  dsimp only
  rw [if_pos rfl, if_pos ho]
theorem target_region (h : 1 ≤ a.toNat / 2 ^ 28 ∧ a.toNat / 2 ^ 28 ≤ 4
    ∧ a.toNat % 2 ^ 28 < (g.regions.toArray.getD (a.toNat / 2 ^ 28 - 1) {}).len) :
    g.target a = some (.region (g.regions.toArray.getD (a.toNat / 2 ^ 28 - 1) {}) (a.toNat % 2 ^ 28)) := by
  obtain ⟨hs, hs4, ho⟩ := h
  unfold Engine.target
  rw [fld_sel, fld_off]
  dsimp only
  rw [if_neg (by omega), if_pos hs4, if_pos ho]
theorem target_eq_none (hb : ¬ (a.toNat / 2 ^ 28 = 0 ∧ a.toNat % 2 ^ 28 < 65536))
    (hr : ¬ (1 ≤ a.toNat / 2 ^ 28 ∧ a.toNat / 2 ^ 28 ≤ 4 ∧ a.toNat % 2 ^ 28 < (g.regions.toArray.getD (a.toNat / 2 ^ 28 - 1) {}).len)) :
    g.target a = none := by
  unfold Engine.target
  rw [fld_sel, fld_off]
  dsimp only
  split
  next hs => exact if_neg fun ho => hb ⟨hs, ho⟩
  next hs =>
    split
    next hs4 => exact if_neg fun ho => hr ⟨by omega, hs4, ho⟩
    next => rfl
end

/-! ### The checks of an engine's access (05 R119, R123, R124) -/

theorem engNeed_ok {c : Prop} [Decidable c] (h : c) (code : BitVec 8) (a : BitVec 32) : engNeed c code a = .ok () := if_pos h
theorem engNeed_fault {c : Prop} [Decidable c] (h : ¬ c) (code : BitVec 8) (a : BitVec 32) : engNeed c code a = .error (code, a) := if_neg h

section
variable {s : State} {a : BitVec 32} {al n : Nat} {t : ETarget}

theorem engTarget_none (h : s.eng.target a = none) : s.engTarget a al n = .error (2, a) := by
  unfold State.engTarget
  rw [h]
theorem engTarget_misaligned (h : s.eng.target a = some t) (ha : a.toNat % al ≠ 0) : s.engTarget a al n = .error (3, a) := by
  unfold State.engTarget
  rw [h]
  dsimp only
  rw [engNeed_fault ha]
  rfl
theorem engTarget_outside (h : s.eng.target a = some t) (ha : a.toNat % al = 0) (hn : ¬ t.inside n) : s.engTarget a al n = .error (2, a) := by
  unfold State.engTarget
  rw [h]
  dsimp only
  rw [engNeed_ok ha, engNeed_fault (mt (fits_iff t n).mp hn)]
  rfl
theorem engTarget_ok (h : s.eng.target a = some t) (ha : a.toNat % al = 0) (hn : t.inside n) : s.engTarget a al n = .ok t := by
  unfold State.engTarget
  rw [h]
  dsimp only
  rw [engNeed_ok ha, engNeed_ok ((fits_iff t n).mpr hn)]
  rfl

theorem engRead_poisoned (h : ¬ ∀ l ∈ t.locs s.curE.toNat n, s.isPoisoned l.1 = false) : s.engRead a t n = .error (5, a) := by
  unfold State.engRead
  dsimp only
  rw [engNeed_fault (by simpa using h)]
  rfl
theorem engRead_ok (h : ∀ l ∈ t.locs s.curE.toNat n, s.isPoisoned l.1 = false) : s.engRead a t n = .ok (s.getBytes (t.locs s.curE.toNat n)) := by
  unfold State.engRead
  dsimp only
  rw [engNeed_ok (by simpa using h)]
  rfl
end

/-! ### What a word leaves beside the engine -/

@[simp] theorem bankEnergy_eng (s : State) (n : Nat) : (s.bankEnergy n).eng = s.eng := by
  have hadd (k : SlotNo) (m : Nat) : (s.addEnergy k m).eng = s.eng := by simp only [State.addEnergy, setThread_eng]
  unfold State.bankEnergy
  split
  · exact hadd ..
  · rfl

end Sys2Proof.Machine
end

section
/-!
PROOFS. The memory operations of a bank engine, its sends and its waits (05 R117, R118, R122, R123).
-/
namespace Sys2Proof.Machine

/-! ### Fields and registers -/

theorem fld_eq {w : Nat} (v : BitVec w) (lo n : Nat) : fld v lo n = (v.extractLsb' lo n).toNat := by
  rw [BitVec.extractLsb'_toNat, Nat.shiftRight_eq_div_pow]
  rfl

section
variable {s : State} {f : FBk}

/-- A word that has used energy goes on with the engine as it left it. -/
theorem engOp_energy {body : State → EngRes State} {u : State} {n : Nat} (h : body s = .ok (u.bankEnergy n)) (hpc : u.eng.pc = s.eng.pc)
    (hlt : s.eng.pc.toNat < 1023) : ∃ v : State, v.eng = u.eng
      ∧ engOp body s = .next { v with eng := { v.eng with pc := s.eng.pc + 1, waiting := false } } :=
  ⟨u.bankEnergy n, bankEnergy_eng u n, engOp_next h ((congrArg (·.pc) (bankEnergy_eng u n)).trans hpc) hlt⟩

/-! ### BFMT and BSCL (R117, R118) -/

theorem bfmt_illegal (h : f.imm14.extractLsb' 12 2 ≠ 0 ∨ f.imm14.extractLsb' 2 2 = 3) : execBfmt f s = .next (s.engFault 1 0) := by
  refine engOp_fault (s := s) ?_
  dsimp only
  rw [engNeed_fault (by rw [fld_eq, fld_eq]; rintro ⟨h1, h2⟩; exact h.elim (fun h => h (BitVec.eq_of_toNat_eq h1)) fun h => h2 (by rw [h]; rfl))]
  rfl
theorem bfmt_eq (h1 : f.imm14.extractLsb' 12 2 = 0) (h2 : f.imm14.extractLsb' 2 2 ≠ 3) : execBfmt f s = engOp (fun s => .ok { s with
    eng := { s.eng with wfmt := f.imm14.extractLsb' 0 2, afmt := f.imm14.extractLsb' 2 2
                        cblo := f.imm14.extractLsb' 4 4, cbhi := f.imm14.extractLsb' 8 4 } }) s := by
  have hlegal : fld f.imm14 12 2 = 0 ∧ fld f.imm14 2 2 ≠ 3 := by
    rw [fld_eq, fld_eq, h1]
    exact ⟨rfl, fun h => h2 (BitVec.eq_of_toNat_eq h)⟩
  unfold execBfmt
  dsimp only
  rw [engNeed_ok hlegal]
  rfl

section
variable {t : ETarget} {r : Region} {off : Nat}

theorem engRegion_fault {a : BitVec 32} (h : ∀ r off, s.eng.target a ≠ some (.region r off)) : s.engRegion a = .error (2, a) := by
  unfold State.engRegion
  split
  next r off hr => exact (h r off hr).elim
  next => rfl
theorem engRegion_ok {a : BitVec 32} (h : s.eng.target a = some (.region r off)) : s.engRegion a = .ok () := by
  unfold State.engRegion
  rw [h]
theorem engBuffer_fault {a : BitVec 32} (h : ∀ off, s.eng.target a ≠ some (.buf off)) : s.engBuffer a = .error (2, a) := by
  unfold State.engBuffer
  split
  next off hb => exact (h off hb).elim
  next => rfl
theorem engBuffer_ok {a : BitVec 32} (h : s.eng.target a = some (.buf off)) : s.engBuffer a = .ok () := by
  unfold State.engBuffer
  rw [h]

theorem bscl_noRegion (h : ∀ r off, s.eng.target (s.B f.rs + immB f) ≠ some (.region r off)) :
    execBscl f s = .next (s.engFault 2 (s.B f.rs + immB f)) := by
  refine engOp_fault (s := s) ?_
  dsimp only
  rw [engRegion_fault h]
  rfl
theorem bscl_fault {x : BitVec 8 × BitVec 32} (h : s.eng.target (s.B f.rs + immB f) = some (.region r off))
    (hx : s.engTarget (s.B f.rs + immB f) 8 8 = .error x) : execBscl f s = .next (s.engFault x.1 x.2) := by
  refine engOp_fault (s := s) ?_
  dsimp only
  rw [engRegion_ok h, hx]
  rfl
theorem bscl_poisoned (h : s.eng.target (s.B f.rs + immB f) = some (.region r off))
    (ht : s.engTarget (s.B f.rs + immB f) 8 8 = .ok t) (hp : ¬ ∀ l ∈ t.locs s.curE.toNat 8, s.isPoisoned l.1 = false) :
    execBscl f s = .next (s.engFault 5 (s.B f.rs + immB f)) := by
  refine engOp_fault (s := s) ?_
  dsimp only
  rw [engRegion_ok h, ht]
  change (s.engRead _ t 8 >>= _) = _
  rw [engRead_poisoned hp]
  rfl
theorem bscl_eq (h : s.eng.target (s.B f.rs + immB f) = some (.region r off))
    (ht : s.engTarget (s.B f.rs + immB f) 8 8 = .ok t) (hp : ∀ l ∈ t.locs s.curE.toNat 8, s.isPoisoned l.1 = false)
    (hlt : s.eng.pc.toNat < 1023) : ∃ u : State, u.eng = { s.eng with
        ws := Vector.ofFn fun i => (s.getBytes (t.locs s.curE.toNat 8)).getD i.val 0, as' := (s.B f.rt).setWidth 8 }
      ∧ execBscl f s = .next { u with eng := { u.eng with pc := s.eng.pc + 1, waiting := false } } := by
  refine engOp_energy (n := 8) (u := { s with eng := { s.eng with
    ws := Vector.ofFn fun i => (s.getBytes (t.locs s.curE.toNat 8)).getD i.val 0, as' := (s.B f.rt).setWidth 8 } }) ?_ rfl hlt
  dsimp only
  rw [engRegion_ok h, ht]
  change (s.engRead _ t 8 >>= _) = _
  rw [engRead_ok hp]
  rfl
end

/-! ### BRD, BWR and BSIG (R123) -/

/-- May a word be written to the target (R112)? -/
def ETarget.writable : ETarget → Prop
  | .buf _ => True
  | .region r _ => r.w = true

section
variable {t : ETarget}

theorem word_fault {x : BitVec 8 × BitVec 32} (hx : s.engTarget (s.B f.rs + immB f) 4 4 = .error x) :
    execBrd f s = .next (s.engFault x.1 x.2) ∧ execBwr f s = .next (s.engFault x.1 x.2) ∧ execBsig f s = .next (s.engFault x.1 x.2) := by
  have hw : s.writeTarget (s.B f.rs + immB f) = .error x := by
    unfold State.writeTarget
    rw [hx]
    rfl
  refine ⟨engOp_fault (s := s) ?_, engOp_fault (s := s) ?_, engStep_fault (s := s) ?_⟩
  · dsimp only
    rw [hx]
    rfl
  · rw [hw]
    rfl
  · rw [hw]
variable (ht : s.engTarget (s.B f.rs + immB f) 4 4 = .ok t)
include ht

theorem brd_poisoned (hp : ¬ ∀ l ∈ t.locs s.curE.toNat 4, s.isPoisoned l.1 = false) :
    execBrd f s = .next (s.engFault 5 (s.B f.rs + immB f)) := by
  refine engOp_fault (s := s) ?_
  dsimp only
  rw [ht]
  change (s.engRead _ t 4 >>= _) = _
  rw [engRead_poisoned hp]
  rfl
theorem brd_eq (hp : ∀ l ∈ t.locs s.curE.toNat 4, s.isPoisoned l.1 = false) (hlt : s.eng.pc.toNat < 1023) :
    ∃ u : State, u.eng = (s.setB f.rd (BitVec.ofNat 32 (leNat (s.getBytes (t.locs s.curE.toNat 4))))).eng
      ∧ execBrd f s = .next { u with eng := { u.eng with pc := s.eng.pc + 1, waiting := false } } := by
  refine engOp_energy (n := 4) (u := s.setB f.rd (BitVec.ofNat 32 (leNat (s.getBytes (t.locs s.curE.toNat 4))))) ?_ (setB_eng_pc ..) hlt
  dsimp only
  rw [ht]
  change (s.engRead _ t 4 >>= _) = _
  rw [engRead_ok hp]
  rfl

theorem writeTarget_denied (hw : ¬ t.writable) : s.writeTarget (s.B f.rs + immB f) = .error (4, s.B f.rs + immB f) := by
  unfold State.writeTarget
  rw [ht]
  cases t with
  | buf off => exact (hw trivial).elim
  | region r off =>
    change (engNeed (r.w = true) 4 (s.B f.rs + immB f) >>= _) = _
    rw [engNeed_fault (c := r.w = true) hw]
    rfl
theorem writeTarget_ok (hw : t.writable) : s.writeTarget (s.B f.rs + immB f) = .ok t := by
  unfold State.writeTarget
  rw [ht]
  cases t with
  | buf off => rfl
  | region r off =>
    change (engNeed (r.w = true) 4 (s.B f.rs + immB f) >>= _) = _
    rw [engNeed_ok (c := r.w = true) hw]
    rfl
theorem write_denied (hw : ¬ t.writable) : execBwr f s = .next (s.engFault 4 (s.B f.rs + immB f))
    ∧ execBsig f s = .next (s.engFault 4 (s.B f.rs + immB f)) := by
  refine ⟨engOp_fault (s := s) ?_, engStep_fault (s := s) ?_⟩
  · rw [writeTarget_denied ht hw]
    rfl
  · rw [writeTarget_denied ht hw]
end

/-- A word write counts in the call that the engine runs (20 R393). -/
theorem countCall_frame (s : State) : ∃ cs, s.countCall = { s with calls := cs }
    ∧ ∀ id, s.eng.call = some id → cs = s.calls.map fun c => if c.id = id then { c with count := c.count + 1 } else c := by
  unfold State.countCall
  split
  next id h =>
    refine ⟨_, rfl, fun j hj => ?_⟩
    rw [h] at hj
    cases hj
    rfl
  next h => exact ⟨s.calls, rfl, fun j hj => by rw [h] at hj; cases hj⟩

/-- The bytes written at distinct places of one key are there. -/
theorem get_putBytes_zip {ls : List (Loc × Nat)} {bs : List Byte} {key : Nat} (hlen : bs.length = ls.length) (hn : (ls.map (·.1)).Nodup)
    (hls : ∀ l ∈ ls, l.1.proper ∧ l.2 = key ∧ s.keeps l.1) :
    ls.map (fun l => (s.putBytes ((ls.zip bs).map fun x => ⟨x.1.1, x.2, x.1.2⟩)).get l.1 key) = bs := by
  have hlocs : ((ls.zip bs).map fun x => (⟨x.1.1, x.2, x.1.2⟩ : SqByte)).map (·.loc) = ls.map (·.1) := by
    rw [List.map_map]
    conv_rhs => rw [← List.map_fst_zip (show ls.length ≤ bs.length by omega), List.map_map]
    rfl
  refine List.ext_getElem (by simp [hlen]) fun i hi hi' => ?_
  have hil : i < ls.length := by simpa using hi
  have hmem : (⟨ls[i].1, bs[i], ls[i].2⟩ : SqByte) ∈ (ls.zip bs).map fun x => (⟨x.1.1, x.2, x.1.2⟩ : SqByte) :=
    List.mem_map.mpr ⟨(ls[i], bs[i]), by rw [← List.getElem_zip (h := by simp; omega)]; exact List.getElem_mem _, rfl⟩
  rw [List.getElem_map]
  refine get_putBytes_of_mem hmem (hls _ (List.getElem_mem _)).2.2 (fun b hb => ?_) (hlocs ▸ hn)
  obtain ⟨x, hx, rfl⟩ := List.mem_map.mp hb
  obtain ⟨hp, hk, -⟩ := hls _ (List.of_mem_zip hx).1
  exact ⟨hp, hk⟩

/-- The locations of a target are places of its own. -/
theorem ETarget.locs_nodup (t : ETarget) (e n : Nat) : ((t.locs e n).map (·.1)).Nodup := by
  cases t with
  | buf off =>
    rw [ETarget.locs, List.map_map]
    refine List.nodup_range.map fun i j h => ?_
    simpa using h
  | region r off =>
    rw [ETarget.locs, List.map_map]
    refine List.nodup_range.map fun i j h => ?_
    simpa using h

/-- The key slot under which a target is read back: a buffer has none. -/
def ETarget.readKey : ETarget → Nat → Nat
  | .buf _, key => key
  | .region r _, _ => r.key

theorem ETarget.mem_locs {t : ETarget} {e n : Nat} {l : Loc × Nat} (h : l ∈ t.locs e n) :
    l.2 = t.readKey 0 ∧ ((∃ i, l.1 = .buf e i) ∨ ∃ k, l.1 = .mem k) := by
  cases t with
  | buf off =>
    obtain ⟨i, -, rfl⟩ := List.mem_map.mp h
    exact ⟨rfl, .inl ⟨_, rfl⟩⟩
  | region r off =>
    obtain ⟨i, -, rfl⟩ := List.mem_map.mp h
    exact ⟨rfl, .inr ⟨_, rfl⟩⟩
theorem ETarget.get_readKey {t : ETarget} {e n : Nat} {l : Loc × Nat} (h : l ∈ t.locs e n) (u : State) (key : Nat) :
    u.get l.1 (t.readKey key) = u.get l.1 (t.readKey 0) := by
  cases t with
  | buf off =>
    obtain ⟨i, -, rfl⟩ := List.mem_map.mp h
    rfl
  | region r off => rfl
theorem ETarget.locs_length (t : ETarget) (e n : Nat) : (t.locs e n).length = n := by
  cases t <;> simp [ETarget.locs]

/-- What a word written leaves and what it sets. -/
structure State.WroteWord (s : State) (t : ETarget) (v : BitVec 32) (u : State) : Prop where
  bytes : ∀ key, (t.locs s.curE.toNat 4).map (fun l => u.get l.1 (t.readKey key)) = leBytes 4 v.toNat
  regs : u.eng.b = s.eng.b
  pc : u.eng.pc = s.eng.pc
  thr : u.thr = s.thr
  rows : u.rows = s.rows
  calls : ∀ id, s.eng.call = some id → u.calls = s.calls.map fun c => if c.id = id then { c with count := c.count + 1 } else c

/-- The bytes of a word at a target's locations, as one write event. -/
def ETarget.writes (t : ETarget) (e : Nat) (v : BitVec 32) : List SqByte :=
  ((t.locs e 4).zip (leBytes 4 v.toNat)).map fun x => ⟨x.1.1, x.2, x.1.2⟩

theorem get_writes (t : ETarget) (v : BitVec 32) (he : s.curE.toNat < 768) (key : Nat) :
    (t.locs s.curE.toNat 4).map (fun l => (s.putBytes (t.writes s.curE.toNat v)).get l.1 (t.readKey key)) = leBytes 4 v.toNat := by
  refine (List.map_congr_left fun l hl => ETarget.get_readKey hl ..).trans
    (get_putBytes_zip ((leBytes_length ..).trans (t.locs_length ..).symm) (t.locs_nodup ..) fun l hl => ?_)
  obtain ⟨hk, ⟨i, hi⟩ | ⟨k, hi⟩⟩ := ETarget.mem_locs hl
  · rw [hi]
    exact ⟨he, hk, trivial⟩
  · rw [hi]
    exact ⟨trivial, hk, trivial⟩
theorem rows_writes (t : ETarget) (v : BitVec 32) : (s.putBytes (t.writes s.curE.toNat v)).rows = s.rows := by
  refine putBytes_rows s fun b hb c r k hcell => ?_
  obtain ⟨x, hx, rfl⟩ := List.mem_map.mp hb
  obtain ⟨-, ⟨i, hi⟩ | ⟨j, hi⟩⟩ := ETarget.mem_locs (List.of_mem_zip hx).1
  · cases hi.symm.trans hcell
  · cases hi.symm.trans hcell

theorem engWrite_spec (t : ETarget) (v : BitVec 32) (he : s.curE.toNat < 768) : s.WroteWord t v (s.engWrite t v) := by
  obtain ⟨cs, hcs, hc⟩ := countCall_frame (s.putBytes (t.writes s.curE.toNat v))
  have hframe := putBytes_onStores s (t.writes s.curE.toNat v)
  have hu : s.engWrite t v = { s.putBytes (t.writes s.curE.toNat v) with calls := cs } := hcs
  rw [hu]
  refine ⟨fun key => get_writes t v he key, ?_, ?_, putBytes_thr .., rows_writes t v, fun id hid => ?_⟩
  · rw [hframe]
    rfl
  · rw [hframe]
    rfl
  · rw [← putBytes_calls s (t.writes s.curE.toNat v)]
    exact hc id ((congrArg (·.eng.call) hframe).trans hid)

section
variable {t : ETarget} (ht : s.engTarget (s.B f.rs + immB f) 4 4 = .ok t)
include ht

theorem bwr_eq (hw : t.writable) (he : s.curE.toNat < 768) (hlt : s.eng.pc.toNat < 1023) : ∃ u : State, s.WroteWord t (s.B f.rt) u
    ∧ execBwr f s = .next { u with eng := { u.eng with pc := s.eng.pc + 1, waiting := false } } := by
  have hspec := engWrite_spec t (s.B f.rt) he
  refine ⟨_, hspec, engOp_next (s := s) ?_ hspec.pc hlt⟩
  rw [writeTarget_ok ht hw]
  rfl
theorem bsig_eq (hw : t.writable) (he : s.curE.toNat < 768) (hlt : s.eng.pc.toNat < 1023)
    (hs : s.sends.any (·.engine = s.curE.toNat) = false) : ∃ u : State, s.WroteWord t (s.B f.rt) u
    ∧ execBsig f s = .next { u with eng := { u.eng with pc := s.eng.pc + 1, waiting := false } } := by
  have hspec := engWrite_spec t (s.B f.rt) he
  refine ⟨_, hspec, engStep_next (s := s) ?_ hspec.pc hlt⟩
  rw [writeTarget_ok ht hw, hs]
  exact if_neg Bool.false_ne_true
theorem bsig_holds (hw : t.writable) (hs : s.sends.any (·.engine = s.curE.toNat) = true) : execBsig f s = .next s := by
  refine engStep_hold (s := s) ?_
  rw [writeTarget_ok ht hw]
  exact if_pos hs

/-! ### BWAIT (R123) -/

theorem bwait_poisoned {off : Nat} (hb : s.eng.target (s.B f.rs + immB f) = some (.buf off))
    (hp : ¬ ∀ l ∈ t.locs s.curE.toNat 4, s.isPoisoned l.1 = false) : execBwait f s = .next (s.engFault 5 (s.B f.rs + immB f)) := by
  have hword : s.waitWord (s.B f.rs + immB f) = .error (5, s.B f.rs + immB f) := by
    unfold State.waitWord
    rw [engBuffer_ok hb, ht]
    change (s.engRead _ t 4 >>= _) = _
    rw [engRead_poisoned hp]
    rfl
  refine engStep_fault (s := s) ?_
  rw [hword]
theorem waitWord_eq {off : Nat} (hb : s.eng.target (s.B f.rs + immB f) = some (.buf off))
    (hp : ∀ l ∈ t.locs s.curE.toNat 4, s.isPoisoned l.1 = false) :
    s.waitWord (s.B f.rs + immB f) = .ok (BitVec.ofNat 32 (leNat (s.getBytes (t.locs s.curE.toNat 4)))) := by
  unfold State.waitWord
  rw [engBuffer_ok hb, ht]
  change (s.engRead _ t 4 >>= _) = _
  rw [engRead_ok hp]
  rfl
end

theorem bwait_noBuffer (h : ∀ off, s.eng.target (s.B f.rs + immB f) ≠ some (.buf off)) :
    execBwait f s = .next (s.engFault 2 (s.B f.rs + immB f)) := by
  have hword : s.waitWord (s.B f.rs + immB f) = .error (2, s.B f.rs + immB f) := by
    unfold State.waitWord
    rw [engBuffer_fault h]
    rfl
  refine engStep_fault (s := s) ?_
  rw [hword]
theorem bwait_fault {off : Nat} {x : BitVec 8 × BitVec 32} (hb : s.eng.target (s.B f.rs + immB f) = some (.buf off))
    (hx : s.engTarget (s.B f.rs + immB f) 4 4 = .error x) : execBwait f s = .next (s.engFault x.1 x.2) := by
  have hword : s.waitWord (s.B f.rs + immB f) = .error x := by
    unfold State.waitWord
    rw [engBuffer_ok hb, hx]
    rfl
  refine engStep_fault (s := s) ?_
  rw [hword]
theorem bwait_goes (h : s.waitWord (s.B f.rs + immB f) = .ok (s.B f.rt)) (hlt : s.eng.pc.toNat < 1023) :
    ∃ u : State, u.eng = s.eng ∧ execBwait f s = .next { u with eng := { u.eng with pc := s.eng.pc + 1, waiting := false } } := by
  refine ⟨s.bankEnergy 4, bankEnergy_eng s 4, engStep_next (s := s) ?_ (congrArg (·.pc) (bankEnergy_eng s 4)) hlt⟩
  rw [h]
  exact if_pos rfl
theorem bwait_waits {v : BitVec 32} (h : s.waitWord (s.B f.rs + immB f) = .ok v) (hv : v ≠ s.B f.rt) :
    execBwait f s = .next { s with eng := { s.eng with waiting := true } } := by
  refine engStep_hold (s := s) ?_
  rw [h]
  exact if_neg hv

theorem bankTimeout_eq (h : s.input.unit = s.curE.toNat) :
    execBankTimeout s = .next (if s.eng.busy && s.eng.waiting then s.engFault 7 0 else s) := by
  have hat : s.atEngine (BitVec.ofNat 10 s.input.unit) = s := by
    rw [h, BitVec.ofNat_toNat, BitVec.setWidth_eq]
    exact if_pos rfl
  unfold execBankTimeout event
  dsimp only
  rw [hat]
  split <;> rfl

/-! ### BSEND (R122) -/

/-- The bytes of a number with their places. -/
theorem mem_leBytes_zip {n v m : Nat} {b : Byte} : (b, m) ∈ (leBytes n v).zip (List.range n) ↔ m < n ∧ b = BitVec.ofNat 8 (v / 256 ^ m) := by
  have hrange (i : Nat) : (List.range n)[i]? = some m ↔ i = m ∧ m < n := by
    rw [List.getElem?_eq_some_iff]
    simp only [List.length_range, List.getElem_range]
    exact ⟨fun ⟨hi, h⟩ => ⟨h, h ▸ hi⟩, fun ⟨h, hm⟩ => ⟨h ▸ hm, h⟩⟩
  rw [List.mem_iff_getElem?]
  simp only [List.getElem?_zip_eq_some, leBytes_getElem?, hrange]
  constructor
  · rintro ⟨i, hb, rfl, hm⟩
    rw [if_pos hm] at hb
    exact ⟨hm, (Option.some.inj hb).symm⟩
  · rintro ⟨hm, rfl⟩
    exact ⟨m, if_pos hm, rfl, hm⟩

section
variable {x : SendTensor} {image : BitVec 512} {n0 : Nat} {sat : Bool} {l : Loc × Byte}

/-- A send of the accumulator's image: the 64 bytes of one block (R122). -/
theorem mem_sendBytes_image (h : (Ten.of x.desc).fmt = 16) : l ∈ x.bytes image n0 sat
    ↔ ∃ b < 64, l.1 = x.blockLoc (n0 / (Ten.of x.desc).cols) (n0 % (Ten.of x.desc).cols) b ∧ l.2 = BitVec.ofNat 8 (image.toNat / 256 ^ b) := by
  unfold SendTensor.bytes
  dsimp only
  rw [if_pos h, List.mem_map]
  constructor
  · rintro ⟨⟨v, b⟩, hy, rfl⟩
    obtain ⟨hb, rfl⟩ := mem_leBytes_zip.mp hy
    exact ⟨b, hb, rfl, rfl⟩
  · rintro ⟨b, hb, h1, h2⟩
    exact ⟨(_, b), mem_leBytes_zip.mpr ⟨hb, rfl⟩, Prod.ext h1.symm h2.symm⟩
/-- A send of eight elements, each in the format of the tensor (R122). -/
theorem mem_sendBytes_elems (h : (Ten.of x.desc).fmt ≠ 16) : l ∈ x.bytes image n0 sat
    ↔ ∃ k < 8, ∃ b < fmtBits (Ten.of x.desc).fmt / 8,
      l.1 = x.loc ((n0 + k) / (Ten.of x.desc).cols) ((n0 + k) % (Ten.of x.desc).cols) b
      ∧ l.2 = BitVec.ofNat 8 ((Acc.ofImage image).sendBits k (Ten.of x.desc).fmt sat / 256 ^ b) := by
  unfold SendTensor.bytes
  dsimp only
  rw [if_neg h, List.mem_flatMap]
  simp only [List.mem_range, List.mem_map, leBytes_length]
  refine exists_congr fun k => and_congr_right fun _ => ?_
  constructor
  · rintro ⟨⟨v, b⟩, hy, rfl⟩
    obtain ⟨hb, rfl⟩ := mem_leBytes_zip.mp hy
    exact ⟨b, hb, rfl, rfl⟩
  · rintro ⟨b, hb, h1, h2⟩
    exact ⟨(_, b), mem_leBytes_zip.mpr ⟨hb, rfl⟩, Prod.ext h1.symm h2.symm⟩
end

section
variable {c : Call} (hc : s.engCall = some c)
include hc

theorem bsend_noTensor (h : c.send = none) : execBsend f s = .next (s.engFault 2 0) := by
  refine engStep_fault (s := s) ?_
  rw [hc]
  dsimp only
  rw [h]

variable {x : SendTensor} (hx : c.send = some x)
include hx

theorem bsend_outside (h : (Ten.of x.desc).rows * (Ten.of x.desc).cols < (s.B f.rt + immB f).toNat + 8) :
    execBsend f s = .next (s.engFault 2 0) := by
  refine engStep_fault (s := s) ?_
  rw [hc]
  dsimp only
  rw [hx]
  exact if_pos (by omega)
variable (hin : (s.B f.rt + immB f).toNat + 8 ≤ (Ten.of x.desc).rows * (Ten.of x.desc).cols)
include hin

theorem bsend_misaligned (h : (Ten.of x.desc).fmt = 16 ∧ (s.B f.rt + immB f).toNat % 8 ≠ 0) : execBsend f s = .next (s.engFault 3 0) := by
  refine engStep_fault (s := s) ?_
  rw [hc]
  dsimp only
  rw [hx]
  exact (if_neg (by omega)).trans (if_pos h)
variable (hal : ¬ ((Ten.of x.desc).fmt = 16 ∧ (s.B f.rt + immB f).toNat % 8 ≠ 0))
include hal

theorem bsend_holds (h : 16 ≤ (s.sends.filter (·.engine = s.curE.toNat)).length) : execBsend f s = .next s := by
  refine engStep_hold (s := s) ?_
  rw [hc]
  dsimp only
  rw [hx]
  exact (if_neg (by omega)).trans ((if_neg hal).trans (if_pos h))
theorem bsend_eq (h : (s.sends.filter (·.engine = s.curE.toNat)).length < 16) (hlt : s.eng.pc.toNat < 1023) {u : State}
    (hu : u = { s with opNo := s.opNo + 1, sends := s.sends ++ [⟨s.opNo + 1, c.id, s.curE.toNat,
      x.bytes (s.eng.acc.toArray.getD f.rs.toNat 0) (s.B f.rt + immB f).toNat c.sat⟩] }) :
    execBsend f s = .next { u with eng := { u.eng with pc := s.eng.pc + 1, waiting := false } } := by
  refine engStep_next (s := s) ?_ (by rw [hu]) hlt
  rw [hc]
  dsimp only
  rw [hx, hu]
  exact (if_neg (by omega)).trans ((if_neg hal).trans (if_neg (by omega)))
end

end

/-! ### Every word of an engine (05 R111, R115-R118, R122-R125) -/

theorem sendTensor_blockLoc (x : SendTensor) (i j b : Nat) : x.blockLoc i j b =
    .cell ((x.row + (Ten.of x.desc).row0 + i / (Ten.of x.desc).ebr) * 256 + (x.col + (Ten.of x.desc).col0 + j / (Ten.of x.desc).ebc))
      (x.sbase + (Ten.of x.desc).layer
        + (64 * ((i % (Ten.of x.desc).ebr * (Ten.of x.desc).ebc + j % (Ten.of x.desc).ebc) / 8) + b) / 32)
      ((64 * ((i % (Ten.of x.desc).ebr * (Ten.of x.desc).ebc + j % (Ten.of x.desc).ebc) / 8) + b) % 32) := by
  rw [Nat.add_assoc x.row, Nat.add_assoc x.col]
  rfl

/-- Settles O40: each word by how it ends, an engine's address by what it names. -/
theorem engineOps : Obligations.EngineOps := by
  refine ⟨⟨fun s f => ?_, fun s c hcall hc => ?_⟩, fun s f hlt => ?_⟩
  · intro imm set B goes far
    have hset (r : BitVec 4) (v : BitVec 32) : set r v = s.setB r v := (setB_eq s r v).symm
    have hgo {i : Instr} {r : BitVec 4} {v : BitVec 32} {n : Int} (hi : exec i s = .next ((s.setB r v).engGo n)) : goes i (set r v) n := by
      dsimp only [goes]
      rw [hset]
      exact engGo_cases hi (setB_eng_pc ..)
    have hbranch {i : Instr} {n : Int} (hi : exec i s = .next (s.engGo n)) : goes i s n := engGo_cases hi rfl
    refine ⟨hbranch rfl, hgo rfl, hgo rfl, hgo rfl, hgo rfl, hgo rfl, hbranch ?_, hbranch ?_, hgo ?_, rfl⟩
    · exact congrArg (fun n => Host.Outcome.next (s.engGo n)) (if_congr decide_eq_true_iff rfl rfl)
    · exact congrArg (fun n => Host.Outcome.next (s.engGo n)) ((if_congr decide_eq_true_iff rfl rfl).trans (ite_not ..))
    · exact congrArg (fun n => Host.Outcome.next ((s.setB f.rd (s.B f.rd - 1)).engGo n))
        ((if_congr decide_eq_true_iff rfl rfl).trans (ite_not ..))
  · intro e last ends
    refine ⟨?_, fun code addr hb => ?_⟩
    · obtain ⟨q, hq, -⟩ := engEnd_eq (s := s) (g := s.eng) hcall
      exact ⟨_, congrArg Host.Outcome.next hq, ⟨rfl, rfl, rfl⟩, rfl⟩
    · obtain ⟨calls, q, hq, hmem, hk⟩ := engFault_spec hcall hc code addr hb
      rw [hq]
      refine ⟨⟨rfl, rfl, rfl⟩, ⟨_, hmem, ?_, ?_, ?_⟩, hk⟩
      · rw [faultAt_eq]
        rfl
      · rw [faultAt_eq]
        rfl
      · rw [faultAt_eq]
        rfl
  · intro imm B a off sel r e faults goes buffer region inside locs clean checks word fine may sends stored n0
    have hnamed (h : buffer ∨ region) : ∃ t, s.eng.target a = some t ∧ (∀ n, inside n ↔ t.inside n) ∧ (∀ n, locs n = t.locs e n)
        ∧ (may ↔ t.writable) ∧ ∀ key, ∀ l ∈ t.locs e 4, t.readKey key = if sel = 0 then key else l.2 := by
      obtain hb | hr := h
      · obtain ⟨hs, ho⟩ := id hb
        refine ⟨.buf off, target_buffer hb, fun n => ?_, fun n => ?_, ?_, fun key l hl => (if_pos hs).symm⟩
        · dsimp only [inside]
          rw [if_pos hs]
          rfl
        · dsimp only [locs]
          simp only [if_pos hs]
          rfl
        · exact ⟨fun _ => trivial, fun _ h => (h hs).elim⟩
      · obtain ⟨hs, -, -⟩ := id hr
        have hs : sel ≠ 0 := by omega
        refine ⟨.region r off, target_region hr, fun n => ?_, fun n => ?_, ?_, fun key l hl => ?_⟩
        · dsimp only [inside]
          rw [if_neg hs]
          rfl
        · dsimp only [locs]
          simp only [if_neg hs]
          rfl
        · exact ⟨fun h => h hs, fun h _ => h⟩
        · rw [if_neg hs, (ETarget.mem_locs hl).1]
          rfl
    have hsome : s.sends.any (·.engine = s.curE.toNat) = false ↔ sends = 0 := by
      simp [sends, e, List.filter_eq_nil_iff]
    have hok {al n : Nat} (h : buffer ∨ region) (hal : a.toNat % al = 0) (hin : inside n) : ∃ t, s.eng.target a = some t
        ∧ s.engTarget a al n = .ok t ∧ locs n = t.locs e n ∧ (may ↔ t.writable)
        ∧ ∀ key, ∀ l ∈ t.locs e 4, t.readKey key = if sel = 0 then key else l.2 := by
      obtain ⟨t, ht, hi, hl, hw, hk⟩ := hnamed h
      exact ⟨t, ht, engTarget_ok ht hal ((hi n).mp hin), hl n, hw, hk⟩
    have hbad {al n : Nat} {i : Instr} (hi : ∀ x, s.engTarget a al n = .error x → exec i s = .next (s.engFault x.1 x.2)) : checks i al n := by
      refine ⟨fun h => ?_, fun h hal => ?_, fun h hal hin => ?_⟩
      · exact hi (2, a) (engTarget_none (target_eq_none (fun hb => h (.inl hb)) fun hr => h (.inr hr)))
      · obtain ⟨t, ht, -⟩ := hnamed h
        exact hi (3, a) (engTarget_misaligned ht hal)
      · obtain ⟨t, ht, hti, -⟩ := hnamed h
        exact hi (2, a) (engTarget_outside ht hal (mt (hti n).mpr hin))
    have hstored {t : ETarget} {u : State} (hl : locs 4 = t.locs e 4) (hk : ∀ key, ∀ l ∈ t.locs e 4, t.readKey key = if sel = 0 then key else l.2)
        (hu : s.WroteWord t (s.B f.rt) u) : stored u := by
      refine ⟨fun key => ?_, hu.regs, hu.thr, hu.rows, hu.calls⟩
      rw [hl]
      exact (List.map_congr_left fun l hl => by rw [hk key l hl]).trans (hu.bytes key)
    have hclean {n : Nat} {t : ETarget} (hl : locs n = t.locs e n) : clean n ↔ ∀ l ∈ t.locs e n, s.isPoisoned l.1 = false := by
      dsimp only [clean]
      rw [hl]
    have hregion (h : region) : s.eng.target a = some (.region r off) := target_region h
    have hbuffer (h : buffer) : s.eng.target a = some (.buf off) := target_buffer h
    have hword (h : buffer) (hal : a.toNat % 4 = 0) (hin : inside 4) (hp : clean 4) : s.waitWord a = .ok (BitVec.ofNat 32 word) := by
      obtain ⟨t, -, ht, hl, -⟩ := hok (.inl h) hal hin
      dsimp only [word]
      rw [hl]
      exact waitWord_eq ht (hbuffer h) ((hclean hl).mp hp)
    refine ⟨bfmt_illegal, fun h1 h2 => ⟨_, rfl, (bfmt_eq h1 h2).trans (engOp_next rfl rfl hlt)⟩, fun h => ?_, fun h hal => ?_, fun h hal hin => ?_,
      fun h hal hin hp => ?_, fun h hal hin hp => ?_, hbad fun x hx => (word_fault hx).1, hbad fun x hx => (word_fault hx).2.1,
      hbad fun x hx => (word_fault hx).2.2, fun ⟨h, hal, hin⟩ hp => ?_, fun ⟨h, hal, hin⟩ hp => ?_, fun ⟨h, hal, hin⟩ hw => ?_,
      fun ⟨h, hal, hin⟩ hw he => ?_, fun ⟨h, hal, hin⟩ hw he hs => ?_, fun ⟨h, hal, hin⟩ hw hs => ?_, fun h => ?_, fun h hal => ?_,
      fun h hal hin hp => ?_, fun h hal hin hp hv => ?_, fun h hal hin hp hv => ?_, fun hb hu => ?_, fun hb hw hu => ?_, fun c hc => ?_⟩
    · refine bscl_noRegion fun r' off' ht => ?_
      by_cases hb : buffer
      · cases (hbuffer hb).symm.trans ht
      · cases (target_eq_none hb h).symm.trans ht
    · exact bscl_fault (x := (3, a)) (hregion h) (engTarget_misaligned (hregion h) hal)
    · obtain ⟨t, ht, hti, -⟩ := hnamed (.inr h)
      exact bscl_fault (x := (2, a)) (hregion h) (engTarget_outside ht hal (mt (hti 8).mpr hin))
    · obtain ⟨t, -, ht, hl, -⟩ := hok (.inr h) hal hin
      exact bscl_poisoned (hregion h) ht (mt (hclean hl).mpr hp)
    · obtain ⟨t, -, ht, hl, -⟩ := hok (.inr h) hal hin
      obtain ⟨u, hu, hx⟩ := bscl_eq (hregion h) ht ((hclean hl).mp hp) hlt
      refine ⟨u, ?_, hx⟩
      rw [hl]
      exact hu
    · obtain ⟨t, -, ht, hl, -⟩ := hok h hal hin
      exact brd_poisoned ht (mt (hclean hl).mpr hp)
    · obtain ⟨t, -, ht, hl, -⟩ := hok h hal hin
      obtain ⟨u, hu, hx⟩ := brd_eq ht ((hclean hl).mp hp) hlt
      refine ⟨u, ?_, hx⟩
      dsimp only [word]
      rw [hu, hl, setB_eq]
      split <;> rfl
    · obtain ⟨t, -, ht, -, hmay, -⟩ := hok h hal hin
      exact write_denied ht (mt hmay.mpr hw)
    · obtain ⟨t, -, ht, hl, hmay, hk⟩ := hok h hal hin
      obtain ⟨u, hu, hx⟩ := bwr_eq ht (hmay.mp hw) he hlt
      exact ⟨u, hstored hl hk hu, hx⟩
    · obtain ⟨t, -, ht, hl, hmay, hk⟩ := hok h hal hin
      obtain ⟨u, hu, hx⟩ := bsig_eq ht (hmay.mp hw) he hlt (hsome.mpr hs)
      exact ⟨u, hstored hl hk hu, hx⟩
    · obtain ⟨t, -, ht, -, hmay, -⟩ := hok h hal hin
      exact bsig_holds ht (hmay.mp hw) (Bool.of_not_eq_false (mt hsome.mp hs))
    · refine bwait_noBuffer fun off' ht => ?_
      by_cases hr : region
      · cases (hregion hr).symm.trans ht
      · cases (target_eq_none h hr).symm.trans ht
    · exact bwait_fault (x := (3, a)) (hbuffer h) (engTarget_misaligned (hbuffer h) hal)
    · obtain ⟨t, -, ht, hl, -⟩ := hok (.inl h) hal hin
      exact bwait_poisoned ht (hbuffer h) (mt (hclean hl).mpr hp)
    · exact bwait_goes ((hword h hal hin hp).trans (congrArg _ hv)) hlt
    · exact bwait_waits (hword h hal hin hp) hv
    · refine (bankTimeout_eq hu).trans (congrArg _ (if_neg ?_))
      rcases hb with hb | hb <;> simp [hb]
    · exact (bankTimeout_eq hu).trans (congrArg _ (if_pos (by simp [hb, hw])))
    · refine ⟨bsend_noTensor hc, fun x hx => ?_⟩
      intro t
      refine ⟨bsend_outside hc hx, fun hin h16 hal => bsend_misaligned hc hx hin ⟨h16, hal⟩, fun hin hal hs => ?_, fun hin hal hs => ?_⟩
      · exact bsend_holds hc hx hin (fun ⟨h16, h8⟩ => h8 (hal h16)) hs
      · refine ⟨_, ⟨_, rfl, rfl, rfl, rfl, fun l => ?_⟩, bsend_eq hc hx hin (fun ⟨h16, h8⟩ => h8 (hal h16)) hs hlt rfl⟩
        by_cases h16 : t.fmt = 16
        · simp only [if_pos h16]
          refine (mem_sendBytes_image h16).trans ⟨?_, ?_⟩
          · rintro ⟨b, hb, h1, h2⟩
            exact ⟨0, b, Nat.one_pos, hb, h1.trans (sendTensor_blockLoc ..), h2⟩
          · rintro ⟨-, b, -, hb, h1, h2⟩
            exact ⟨b, hb, h1.trans (sendTensor_blockLoc ..).symm, h2⟩
        · simp only [if_neg h16]
          refine (mem_sendBytes_elems h16).trans ⟨?_, ?_⟩
          · rintro ⟨k, hk, b, hb, h1, h2⟩
            exact ⟨k, b, hk, hb, h1, h2⟩
          · rintro ⟨k, b, hk, hb, h1, h2⟩
            exact ⟨k, hk, b, hb, h1, h2⟩

end Sys2Proof.Machine
end

section
/-!
PROOFS. The accumulators of a bank engine: BMAC, BZA and BRDA (05 R119-R121).
-/
namespace Sys2Proof.Machine

/-! ### Exact dot products (R119) -/

/-- An exact sum with a product added: one that is not finite adds nothing. -/
def Dyadic.plus (v : Dyadic) : Val → Dyadic
  | .fin neg m x => Dyadic.add v (if neg then -(m : Int) else m, x)
  | _ => v

/-- The status bit of a value, where it is met among the products. -/
def metBit (ps : List Val) (v : Val) (bit : Nat) : Nat := if ps.any (fun p => p = v) then bit else 0

/-- The status bits of a list of products: NaN, +infinity and -infinity. -/
def metBits (ps : List Val) : Nat := metBit ps .nan 1 ||| metBit ps (.inf false) 2 ||| metBit ps (.inf true) 4

theorem metBit_cons (p v : Val) (r : List Val) (bit : Nat) : metBit (p :: r) v bit = (if p = v then bit else 0) ||| metBit r v bit := by
  unfold metBit
  rw [List.any_cons]
  by_cases hp : p = v <;> cases hr : r.any fun p => p = v <;> simp [hp]

theorem metBits_cons (p : Val) (r : List Val) : metBits (p :: r) = metBits [p] ||| metBits r := by
  unfold metBits
  rw [metBit_cons p .nan r, metBit_cons p (.inf false) r, metBit_cons p (.inf true) r, metBit_cons p .nan [], metBit_cons p (.inf false) [],
    metBit_cons p (.inf true) []]
  have h0 (v : Val) (b : Nat) : metBit [] v b = 0 := rfl
  simp only [h0, Nat.or_zero]
  ac_rfl

/-- One product of a dot product: what it adds to the sum and to the status bits. -/
def dotStep (a : Dyadic × Nat) (p : Val) : Dyadic × Nat := (a.1.plus p, a.2 ||| metBits [p])

theorem dotLine_eq_foldl (ws xs : List Val) : dotLine ws xs = (ws.zip xs).foldl (fun a y => dotStep a (y.1.mul y.2)) ((0, 0), 0) := by
  unfold dotLine
  congr 1
  funext a y
  unfold dotStep
  cases y.1.mul y.2 with
  | nan => rfl
  | inf neg => cases neg <;> rfl
  | fin neg m e => simp [Dyadic.plus, metBits, metBit]

theorem foldl_dotStep (ps : List Val) (v : Dyadic) (st : Nat) : ps.foldl dotStep (v, st) = (ps.foldl Dyadic.plus v, st ||| metBits ps) := by
  induction ps generalizing v st with
  | nil => simp [metBits, metBit]
  | cons p r ih =>
    rw [List.foldl_cons, List.foldl_cons, metBits_cons, ← Nat.or_assoc]
    exact ih ..

/-- A dot product of `n` weights and activations: its exact sum and the status bits of its products. -/
theorem dotLine_map (w x : Nat → Val) (n : Nat) : dotLine ((List.range n).map w) ((List.range n).map x)
    = (((List.range n).map fun k => (w k).mul (x k)).foldl Dyadic.plus (0, 0), metBits ((List.range n).map fun k => (w k).mul (x k))) := by
  have h := foldl_dotStep ((List.range n).map fun k => (w k).mul (x k)) (0, 0) 0
  rw [List.foldl_map, Nat.zero_or] at h
  rw [dotLine_eq_foldl, List.zip_map', List.foldl_map]
  exact h

/-! ### The sums of a line (R119, R120) -/

theorem wfmt_cases (w : BitVec 2) : w = 0 ∨ w = 1 ∨ w = 2 ∨ w = 3 := by
  revert w
  decide

section
variable (g : Engine)

theorem kLine_eq : kLine g.wfmt = if g.wfmt = 0 then 64 else if g.wfmt = 3 then 8 else 16 := by
  rcases wfmt_cases g.wfmt with h | h | h | h <;> rw [h] <;> rfl
theorem actFmt_eq : actFmt g.afmt = if g.afmt = 0 then 11 else if g.afmt = 1 then 12 else 9 := by
  rcases wfmt_cases g.afmt with h | h | h | h <;> rw [h] <;> rfl

theorem weight_eq (seg : List Byte) (k : Nat) : g.weight seg k =
    if g.wfmt = 0 then valOf ((cb2 (leNat ((seg.drop (2 * (k / 8))).take 2)) g.cblo.toNat g.cbhi.toNat).getD (k % 8) 0) (-2) false
    else if g.wfmt = 1 then elemValue 11 (seg.getD k 0).toNat
    else if g.wfmt = 2 then elemValue 12 (seg.getD k 0).toNat
    else elemValue 9 (leNat ((seg.drop (2 * k)).take 2)) := by
  unfold Engine.weight
  rcases wfmt_cases g.wfmt with h | h | h | h <;> rw [h] <;> rfl

/-- A weight lies in the first 16 bytes of its segment. -/
theorem weight_take (l : List Byte) {k : Nat} (hk : k < kLine g.wfmt) : g.weight (l.take 16) k = g.weight l k := by
  have hpair {i : Nat} (hi : i + 2 ≤ 16) : ((l.take 16).drop i).take 2 = (l.drop i).take 2 := by
    rw [List.drop_take, List.take_take, Nat.min_eq_left (by omega)]
  have hbyte (hi : k < 16) : (l.take 16).getD k 0 = l.getD k 0 := by
    rw [List.getD_eq_getElem?_getD, List.getD_eq_getElem?_getD, List.getElem?_take_of_lt hi]
  rw [kLine_eq] at hk
  rw [weight_eq, weight_eq]
  rcases wfmt_cases g.wfmt with h | h | h | h
  · rw [if_pos h] at hk
    rw [if_pos h, if_pos h, hpair (by omega)]
  · rw [h] at hk
    rw [hbyte hk]
    simp only [h]
    rfl
  · rw [h] at hk
    rw [hbyte hk]
    simp only [h]
    rfl
  · rw [h] at hk
    have hk8 : k < 8 := hk
    rw [hpair (show 2 * k + 2 ≤ 16 by omega)]
    simp only [h]
    rfl

/-- The products of segment `j` of a line with the activations `x`. -/
def Engine.products (line : List Byte) (x : Nat → Val) (j : Nat) : List Val :=
  (List.range (kLine g.wfmt)).map fun k => (g.weight (line.drop (16 * j)) k).mul (x k)

/-- Is the scale of segment `j` or of the activations a NaN (R118)? -/
def Engine.nanScale (j : Nat) : Bool := g.ws.toArray.getD j 0 == 255 || g.as' == 255

/-- What segment `j` adds to its element of the accumulator: its dot product under the scales. -/
def Engine.term (line : List Byte) (x : Nat → Val) (j : Nat) : Dyadic :=
  let d := (g.products line x j).foldl Dyadic.plus (0, 0)
  if g.nanScale j then (0, 0) else (d.1, d.2 + (g.ws.toArray.getD j 0).toNat - 127 + g.as'.toNat - 127)

theorem dotLine_products (line : List Byte) (x : Nat → Val) (j : Nat) :
    dotLine ((List.range (kLine g.wfmt)).map (g.weight ((line.drop (16 * j)).take 16))) ((List.range (kLine g.wfmt)).map x)
      = ((g.products line x j).foldl Dyadic.plus (0, 0), metBits (g.products line x j)) := by
  have hw : (List.range (kLine g.wfmt)).map (g.weight ((line.drop (16 * j)).take 16)) = (List.range (kLine g.wfmt)).map (g.weight (line.drop (16 * j))) :=
    List.map_congr_left fun k hk => weight_take g _ (List.mem_range.mp hk)
  rw [hw, dotLine_map]
  rfl

/-- The accumulator after a line: each element with its term, and the status bits of its products. -/
theorem macLine_eq (line : List Byte) (x : Nat → Val) (acc : Acc) : g.macLine line ((List.range (kLine g.wfmt)).map x) acc =
    ({ (acc.update ((List.range 8).map (g.term line x))).1 with
        stat := (List.range 8).map fun j => acc.stat.getD j 0 ||| metBits (g.products line x j) },
      (acc.update ((List.range 8).map (g.term line x))).2.1, (List.range 8).any g.nanScale) := by
  unfold Engine.macLine
  dsimp only
  simp only [dotLine_products]
  rfl
end

/-! ### Registers of an engine -/

section
variable {g : Engine} {n q : BitVec 4} {v : BitVec 32}

theorem B_setB_same (h : n ≠ 0) : (g.setB n v).B n = v := by
  have hn : n.toNat < 16 := n.isLt
  rw [Engine.setB, if_neg h, Engine.B, if_neg h]
  simp [hn]
theorem B_setB_other (h : q ≠ n) : (g.setB n v).B q = g.B q := by
  have hq : q.toNat < 16 := q.isLt
  have hne : n.toNat ≠ q.toNat := fun he => h (BitVec.eq_of_toNat_eq he.symm)
  unfold Engine.B Engine.setB
  split
  · rfl
  · split
    · rfl
    · simp [hq, hne]
theorem setB_frame (g : Engine) (n : BitVec 4) (v : BitVec 32) : g.setB n v = { g with b := (g.setB n v).b } := by
  unfold Engine.setB
  split <;> rfl
end

/-- The engine with the sums of a line made: what BMAC does before it moves its registers on. -/
def Engine.summed (g : Engine) (f : FBk) (line : List Byte) (acts : List Val) : Engine :=
  let r := g.macLine line acts (Acc.ofImage (g.acc.toArray.getD f.rd.toNat 0))
  { g with acc := g.acc.setIfInBounds f.rd.toNat r.1.image, renorm := g.renorm + (if r.2.1 then 1 else 0), scaleNan := g.scaleNan || r.2.2 }

theorem mac_eq_of_stay {g : Engine} {f : FBk} (h : f.imm14 = 0) (line : List Byte) (acts : List Val) : g.mac f line acts = g.summed f line acts := by
  unfold Engine.mac
  dsimp only
  rw [if_neg (by rw [h]; decide)]
  rfl
theorem mac_eq_of_move {g : Engine} {f : FBk} (h : f.imm14 = 1) (line : List Byte) (acts : List Val) : g.mac f line acts =
    ((g.summed f line acts).setB f.rs (g.B f.rs + 128)).setB f.rt (g.B f.rt + BitVec.ofNat 32 (kLine g.wfmt * actBytes g.afmt)) := by
  unfold Engine.mac
  dsimp only
  rw [if_pos h]
  rfl

/-! ### BMAC's checks (R119; log 66) -/

section
variable {s : State} {f : FBk}

theorem bmac_illegal (h : ¬ (f.imm14.toNat ≤ 1 ∧ ¬ (f.imm14 = 1 ∧ f.rs = f.rt))) : execBmac f s = .next (s.engFault 1 0) := by
  refine engOp_fault (s := s) ?_
  rw [engNeed_fault h]
  rfl

variable (hlegal : f.imm14.toNat ≤ 1 ∧ ¬ (f.imm14 = 1 ∧ f.rs = f.rt))
include hlegal

theorem bmac_noRegion (h : ∀ r off, s.eng.target (s.B f.rs) ≠ some (.region r off)) : execBmac f s = .next (s.engFault 2 (s.B f.rs)) := by
  refine engOp_fault (s := s) ?_
  rw [engNeed_ok hlegal]
  change (s.engRegion (s.B f.rs) >>= _) = _
  rw [engRegion_fault h]
  rfl

variable {r : Region} {off : Nat} (hr : s.eng.target (s.B f.rs) = some (.region r off))
include hr

theorem bmac_noBuffer (h : ∀ off, s.eng.target (s.B f.rt) ≠ some (.buf off)) : execBmac f s = .next (s.engFault 2 (s.B f.rt)) := by
  refine engOp_fault (s := s) ?_
  rw [engNeed_ok hlegal]
  change (s.engRegion (s.B f.rs) >>= _) = _
  rw [engRegion_ok hr]
  change (s.engBuffer (s.B f.rt) >>= _) = _
  rw [engBuffer_fault h]
  rfl

variable {xoff : Nat} (hb : s.eng.target (s.B f.rt) = some (.buf xoff))
include hb

/-- Past the kinds of both addresses, BMAC is the rest of its checks and its sums. -/
theorem bmac_checked : execBmac f s = engOp (fun s => do
    engNeed ((s.B f.rs).toNat % 128 = 0) bALIGN (s.B f.rs)
    engNeed ((s.B f.rt).toNat % actBytes s.eng.afmt = 0) bALIGN (s.B f.rt)
    let tw ← s.engTarget (s.B f.rs) 128 128
    let tx ← s.engTarget (s.B f.rt) (actBytes s.eng.afmt) (kLine s.eng.wfmt * actBytes s.eng.afmt)
    let line ← s.engRead (s.B f.rs) tw 128
    let bs ← s.engRead (s.B f.rt) tx (kLine s.eng.wfmt * actBytes s.eng.afmt)
    pure ({ s with eng := s.eng.mac f line ((List.range (kLine s.eng.wfmt)).map fun k =>
      elemValue (actFmt s.eng.afmt) (leNat ((bs.drop (k * actBytes s.eng.afmt)).take (actBytes s.eng.afmt)))) }.bankEnergy
        (128 + kLine s.eng.wfmt * actBytes s.eng.afmt))) s := by
  unfold execBmac engOp engStep
  dsimp only
  rw [engNeed_ok hlegal, engRegion_ok hr, engBuffer_ok hb]
  rfl

theorem bmac_misalignedWeights (h : (s.B f.rs).toNat % 128 ≠ 0) : execBmac f s = .next (s.engFault 3 (s.B f.rs)) := by
  rw [bmac_checked hlegal hr hb]
  refine engOp_fault (s := s) ?_
  rw [engNeed_fault h]
  rfl

variable (hw : (s.B f.rs).toNat % 128 = 0)
include hw

theorem bmac_misalignedActs (h : (s.B f.rt).toNat % actBytes s.eng.afmt ≠ 0) : execBmac f s = .next (s.engFault 3 (s.B f.rt)) := by
  rw [bmac_checked hlegal hr hb]
  refine engOp_fault (s := s) ?_
  rw [engNeed_ok hw]
  change (engNeed _ _ _ >>= _) = _
  rw [engNeed_fault h]
  rfl

variable (hx : (s.B f.rt).toNat % actBytes s.eng.afmt = 0)
include hx

theorem bmac_weightsOutside (h : ¬ off + 128 ≤ r.len) : execBmac f s = .next (s.engFault 2 (s.B f.rs)) := by
  rw [bmac_checked hlegal hr hb]
  refine engOp_fault (s := s) ?_
  rw [engNeed_ok hw, engNeed_ok hx, engTarget_outside hr hw h]
  rfl

variable (hwin : off + 128 ≤ r.len)
include hwin

theorem bmac_actsOutside (h : ¬ xoff + kLine s.eng.wfmt * actBytes s.eng.afmt ≤ 65536) : execBmac f s = .next (s.engFault 2 (s.B f.rt)) := by
  rw [bmac_checked hlegal hr hb]
  refine engOp_fault (s := s) ?_
  rw [engNeed_ok hw, engNeed_ok hx, engTarget_ok hr hw hwin, engTarget_outside hb hx h]
  rfl

variable (hxin : xoff + kLine s.eng.wfmt * actBytes s.eng.afmt ≤ 65536)
include hxin

/-- Past every check of its addresses, BMAC reads its line and its activations. -/
theorem bmac_reads : execBmac f s = engOp (fun s => do
    let line ← s.engRead (s.B f.rs) (.region r off) 128
    let bs ← s.engRead (s.B f.rt) (.buf xoff) (kLine s.eng.wfmt * actBytes s.eng.afmt)
    pure ({ s with eng := s.eng.mac f line ((List.range (kLine s.eng.wfmt)).map fun k =>
      elemValue (actFmt s.eng.afmt) (leNat ((bs.drop (k * actBytes s.eng.afmt)).take (actBytes s.eng.afmt)))) }.bankEnergy
        (128 + kLine s.eng.wfmt * actBytes s.eng.afmt))) s := by
  rw [bmac_checked hlegal hr hb]
  unfold engOp engStep
  dsimp only
  rw [engNeed_ok hw, engNeed_ok hx, engTarget_ok hr hw hwin, engTarget_ok hb hx hxin]
  rfl

theorem bmac_weightsPoisoned (h : ¬ ∀ l ∈ (ETarget.region r off).locs s.curE.toNat 128, s.isPoisoned l.1 = false) :
    execBmac f s = .next (s.engFault 5 (s.B f.rs)) := by
  rw [bmac_reads hlegal hr hb hw hx hwin hxin]
  refine engOp_fault (s := s) ?_
  rw [engRead_poisoned h]
  rfl
theorem bmac_actsPoisoned (hl : ∀ l ∈ (ETarget.region r off).locs s.curE.toNat 128, s.isPoisoned l.1 = false)
    (h : ¬ ∀ l ∈ (ETarget.buf xoff).locs s.curE.toNat (kLine s.eng.wfmt * actBytes s.eng.afmt), s.isPoisoned l.1 = false) :
    execBmac f s = .next (s.engFault 5 (s.B f.rt)) := by
  rw [bmac_reads hlegal hr hb hw hx hwin hxin]
  refine engOp_fault (s := s) ?_
  rw [engRead_ok hl, engRead_poisoned h]
  rfl

/-- The sums that BMAC makes, with the bytes that it reads (R119, R120). -/
theorem bmac_eq (hl : ∀ l ∈ (ETarget.region r off).locs s.curE.toNat 128, s.isPoisoned l.1 = false)
    (ha : ∀ l ∈ (ETarget.buf xoff).locs s.curE.toNat (kLine s.eng.wfmt * actBytes s.eng.afmt), s.isPoisoned l.1 = false)
    (hlt : s.eng.pc.toNat < 1023) {acts : List Byte}
    (hacts : acts = s.getBytes ((ETarget.buf xoff).locs s.curE.toNat (kLine s.eng.wfmt * actBytes s.eng.afmt))) :
    ∃ t : State, t.eng = s.eng.mac f (s.getBytes ((ETarget.region r off).locs s.curE.toNat 128)) ((List.range (kLine s.eng.wfmt)).map fun k =>
        elemValue (actFmt s.eng.afmt) (leNat ((acts.drop (k * actBytes s.eng.afmt)).take (actBytes s.eng.afmt))))
      ∧ execBmac f s = .next { t with eng := { t.eng with pc := s.eng.pc + 1, waiting := false } } := by
  subst hacts
  have hpc (line : List Byte) (acts : List Val) : (s.eng.mac f line acts).pc = s.eng.pc := by
    unfold Engine.mac
    dsimp only
    split
    · rw [setB_frame, setB_frame]
    · rfl
  rw [bmac_reads hlegal hr hb hw hx hwin hxin]
  refine engOp_energy (n := 128 + kLine s.eng.wfmt * actBytes s.eng.afmt) (u := { s with eng := s.eng.mac f _ _ }) ?_ (hpc ..) hlt
  rw [engRead_ok hl, engRead_ok ha]
  rfl
end

/-! ### BZA and BRDA (R121) -/

section
variable {s : State} {f : FBk}

theorem bza_illegal (h : ¬ ((f.rt = 0 ∧ -2048 ≤ f.imm14.toInt ∧ f.imm14.toInt ≤ 2047) ∨ (f.rt = 1 ∧ f.imm14 = 0))) :
    execBza f s = .next (s.engFault 1 0) := by
  refine engOp_fault (s := s) ?_
  dsimp only
  rw [engNeed_fault h]
  rfl
theorem bza_eq (h : (f.rt = 0 ∧ -2048 ≤ f.imm14.toInt ∧ f.imm14.toInt ≤ 2047) ∨ (f.rt = 1 ∧ f.imm14 = 0)) (hlt : s.eng.pc.toNat < 1023) {u : State}
    (hu : u = { s with eng := { s.eng with acc := s.eng.acc.setIfInBounds f.rd.toNat (Acc.cleared f.imm14.toInt (f.rt = 1)).image } }) :
    execBza f s = .next { u with eng := { u.eng with pc := s.eng.pc + 1, waiting := false } } := by
  refine engOp_next (s := s) ?_ (by rw [hu]) hlt
  dsimp only
  rw [engNeed_ok h, hu]
  rfl
theorem brda_illegal (h : ¬ f.imm14.toNat ≤ 7) : execBrda f s = .next (s.engFault 1 0) := by
  refine engOp_fault (s := s) ?_
  dsimp only
  rw [engNeed_fault h]
  rfl
theorem brda_eq (h : f.imm14.toNat ≤ 7) (hlt : s.eng.pc.toNat < 1023) {u : State}
    (hu : u = s.setB f.rd (BitVec.ofNat 32 ((Acc.ofImage (s.eng.acc.toArray.getD f.rs.toNat 0)).read32 f.imm14.toNat))) :
    execBrda f s = .next { u with eng := { u.eng with pc := s.eng.pc + 1, waiting := false } } := by
  refine engOp_next (s := s) ?_ (by rw [hu, setB_eng_pc]) hlt
  dsimp only
  rw [engNeed_ok h, hu]
  rfl
end

/-! ### The obligation -/

theorem region_clean_iff {s : State} {r : Region} {off e n : Nat} : (∀ l ∈ (ETarget.region r off).locs e n, s.isPoisoned l.1 = false)
    ↔ ∀ i < n, s.isPoisoned (.mem (e * chanBytes + r.off + off + i)) = false := by
  simp [ETarget.locs]
theorem buffer_clean_iff {s : State} {off e n : Nat} : (∀ l ∈ (ETarget.buf off).locs e n, s.isPoisoned l.1 = false)
    ↔ ∀ i < n, s.isPoisoned (.buf e (off + i)) = false := by
  simp [ETarget.locs]

/-- BMAC's immediate is 0, or 1 with two registers to move on (R119). -/
theorem bmac_legal_iff {f : FBk} : (f.imm14 = 0 ∨ f.imm14 = 1 ∧ f.rs ≠ f.rt) ↔ f.imm14.toNat ≤ 1 ∧ ¬ (f.imm14 = 1 ∧ f.rs = f.rt) := by
  have hle : f.imm14.toNat ≤ 1 ↔ f.imm14 = 0 ∨ f.imm14 = 1 := by
    rw [← BitVec.toNat_inj, ← BitVec.toNat_inj]
    change _ ↔ _ = 0 ∨ _ = 1
    omega
  rw [hle]
  constructor
  · rintro (h | ⟨h, hne⟩)
    · exact ⟨.inl h, fun ⟨h1, _⟩ => by rw [h] at h1; exact absurd h1 (by decide)⟩
    · exact ⟨.inr h, fun ⟨_, he⟩ => hne he⟩
  · rintro ⟨h | h, hne⟩
    · exact .inl h
    · exact .inr ⟨h, fun he => hne ⟨h, he⟩⟩

/-- The engine after BMAC's sums: the accumulator, its counters, and nothing else but the registers that BMAC moves on. -/
theorem mac_frame (g : Engine) (f : FBk) (line : List Byte) (acts : List Val) :
    g.mac f line acts = { g.summed f line acts with b := (g.mac f line acts).b } := by
  unfold Engine.mac
  dsimp only
  split
  · rw [setB_frame, setB_frame]
    rfl
  · rfl

theorem mac_moves {g : Engine} {f : FBk} (h : f.imm14 = 1) (hne : f.rs ≠ f.rt) (line : List Byte) (acts : List Val) :
    (f.rs ≠ 0 → (g.mac f line acts).B f.rs = g.B f.rs + 128)
    ∧ (f.rt ≠ 0 → (g.mac f line acts).B f.rt = g.B f.rt + BitVec.ofNat 32 (kLine g.wfmt * actBytes g.afmt))
    ∧ ∀ q, q ≠ f.rs → q ≠ f.rt → (g.mac f line acts).B q = g.B q := by
  rw [mac_eq_of_move h]
  refine ⟨fun hs => ?_, fun ht => B_setB_same ht, fun q hq hq' => ?_⟩
  · rw [B_setB_other hne, B_setB_same hs]
  · rw [B_setB_other hq', B_setB_other hq]
    rfl

/-- Settles O41: each check of BMAC by its own lemma, and its sums as `Engine.summed`. -/
theorem engineSums : Obligations.EngineSums := by
  intro s f hlt g B goes faults wa xa e r off n sz legal region line acts x w nan plus dot meets old up stats new a j st
  have hlegal : legal ↔ _ := bmac_legal_iff
  have hr (h : region) : s.eng.target (s.B f.rs) = some (.region r off) := target_region h
  have hb (h : xa.toNat < 65536) : s.eng.target (s.B f.rt) = some (.buf xa.toNat) := by
    have ho : xa.toNat % 2 ^ 28 = xa.toNat := Nat.mod_eq_of_lt (by omega)
    have ht := target_buffer (g := s.eng) (a := xa) ⟨by omega, by omega⟩
    rwa [ho] at ht
  have hn : n = kLine g.wfmt := (kLine_eq g).symm
  have hin (h : xa.toNat + n * sz ≤ 65536) : xa.toNat + kLine s.eng.wfmt * actBytes s.eng.afmt ≤ 65536 := by
    rwa [hn] at h
  have hb' (h : xa.toNat + n * sz ≤ 65536) : xa.toNat < 65536 := by
    have : 0 < n * sz := by
      dsimp only [n, sz]
      split <;> split <;> try split
      all_goals decide
    omega
  refine ⟨fun h => bmac_illegal (mt hlegal.mpr h), fun h hnr => ?_, fun h h1 h2 => ?_, fun h h1 h2 h3 => ?_, fun h h1 h2 h3 h4 => ?_,
    fun h h1 h2 h3 h4 h5 => ?_, fun h h1 h2 h3 h4 h5 h6 => ?_, fun h h1 h3 h4 h5 h6 h7 => ?_, fun h h1 h3 h4 h5 h6 h7 h8 => ?_,
    fun h h1 h3 h4 h5 h6 h7 h8 => ?_, bza_illegal, fun h => ?_, fun h => brda_illegal (by omega), fun h => ?_⟩
  · refine bmac_noRegion (hlegal.mp h) fun r' off' ht => ?_
    by_cases hbuf : wa.toNat / 2 ^ 28 = 0 ∧ wa.toNat % 2 ^ 28 < 65536
    · cases (target_buffer hbuf).symm.trans ht
    · cases (target_eq_none hbuf hnr).symm.trans ht
  · refine bmac_noBuffer (hlegal.mp h) (hr h1) fun o ht => ?_
    by_cases hreg : 1 ≤ xa.toNat / 2 ^ 28 ∧ xa.toNat / 2 ^ 28 ≤ 4
        ∧ xa.toNat % 2 ^ 28 < (s.eng.regions.toArray.getD (xa.toNat / 2 ^ 28 - 1) {}).len
    · cases (target_region hreg).symm.trans ht
    · cases (target_eq_none (by omega) hreg).symm.trans ht
  · exact bmac_misalignedWeights (hlegal.mp h) (hr h1) (hb h2) h3
  · exact bmac_misalignedActs (hlegal.mp h) (hr h1) (hb h2) h3 h4
  · exact bmac_weightsOutside (hlegal.mp h) (hr h1) (hb h2) h3 h4 (Nat.not_le.mpr h5)
  · refine bmac_actsOutside (hlegal.mp h) (hr h1) (hb h2) h3 h4 h5 ?_
    rw [← hn]
    exact Nat.not_le.mpr h6
  · have hin := hin h6
    refine bmac_weightsPoisoned (hlegal.mp h) (hr h1) (hb (hb' h6)) h3 h4 h5 hin fun hc => ?_
    obtain ⟨i, hi, hp⟩ := h7
    rw [region_clean_iff.mp hc i hi] at hp
    cases hp
  · have hin := hin h6
    refine bmac_actsPoisoned (hlegal.mp h) (hr h1) (hb (hb' h6)) h3 h4 h5 hin (region_clean_iff.mpr h7) fun hc => ?_
    obtain ⟨i, hi, hp⟩ := h8
    rw [hn] at hi
    rw [buffer_clean_iff.mp hc i hi] at hp
    cases hp
  · have hin := hin h6
    have hacts : acts = s.getBytes ((ETarget.buf xa.toNat).locs s.curE.toNat (kLine s.eng.wfmt * actBytes s.eng.afmt)) := by
      rw [← hn]
      rfl
    obtain ⟨t, ht, ho⟩ := bmac_eq (hlegal.mp h) (hr h1) (hb (hb' h6)) h3 h4 h5 hin (region_clean_iff.mpr h7)
      (buffer_clean_iff.mpr fun i hi => h8 i (hn ▸ hi)) hlt hacts
    have hxs : ((List.range (kLine s.eng.wfmt)).map fun k =>
        elemValue (actFmt s.eng.afmt) (leNat ((acts.drop (k * actBytes s.eng.afmt)).take (actBytes s.eng.afmt)))) = (List.range (kLine g.wfmt)).map x := by
      rw [actFmt_eq]
      rfl
    have hprod (j : Nat) : (List.range n).map (fun k => (w j k).mul (x k)) = g.products line x j := by
      rw [hn]
      exact List.map_congr_left fun k _ => congrArg (·.mul (x k)) (weight_eq ..).symm
    have hdot (j : Nat) : dot j = (g.products line x j).foldl Dyadic.plus (0, 0) := by
      rw [← hprod, List.foldl_map]
      rfl
    have hmeets (j : Nat) (v : Val) (bit : Nat) : meets j v bit = metBit (g.products line x j) v bit := by
      rw [← hprod, metBit, List.any_map]
      rfl
    have hup : up = old.update ((List.range 8).map (g.term line x)) := by
      dsimp only [up]
      simp only [hdot]
      rfl
    have hstats : stats = (List.range 8).map fun j => old.stat.getD j 0 ||| metBits (g.products line x j) := by
      dsimp only [stats]
      simp only [hmeets]
      rfl
    have hnew : new = { (old.update ((List.range 8).map (g.term line x))).1 with
        stat := (List.range 8).map fun j => old.stat.getD j 0 ||| metBits (g.products line x j) } := by
      dsimp only [new]
      rw [hup, hstats]
    have hsum : g.summed f line ((List.range (kLine g.wfmt)).map x) = { g with
        acc := g.acc.setIfInBounds f.rd.toNat new.image, renorm := g.renorm + (if up.2.1 then 1 else 0)
        scaleNan := g.scaleNan || (List.range 8).any nan } := by
      unfold Engine.summed
      dsimp only
      rw [macLine_eq, hup, hnew]
      rfl
    rw [hxs] at ht
    have hfr := mac_frame g f line ((List.range (kLine g.wfmt)).map x)
    rw [hsum] at hfr
    refine ⟨_, ho, g.mac f line ((List.range (kLine g.wfmt)).map x), ⟨congrArg Engine.acc hfr, congrArg Engine.renorm hfr,
      congrArg Engine.scaleNan hfr, ?_, fun h0 => ?_, fun hmove => ?_⟩, ?_⟩
    · rw [hfr]
    · rw [mac_eq_of_stay h0, hsum]
    · obtain hz | ⟨-, hne⟩ := h
      · rw [hz] at hmove
        exact absurd hmove (by decide)
      · obtain ⟨hs, ht', ho'⟩ := mac_moves hmove hne line ((List.range (kLine g.wfmt)).map x)
        refine ⟨hs, fun h0 => (ht' h0).trans ?_, ho'⟩
        rw [hn]
        rfl
    · rw [ht]
      rfl
  · refine ⟨_, bza_eq h hlt rfl, _, ?_, rfl⟩
    have hc : Acc.cleared f.imm14.toInt (f.rt = 1) = ⟨List.replicate 8 0, if f.rt = 1 then 0 else f.imm14.toInt, if f.rt = 1 then 2 else 0,
        List.replicate 8 0⟩ := by
      unfold Acc.cleared
      rw [if_congr decide_eq_true_iff rfl rfl, if_congr decide_eq_true_iff rfl rfl]
    rw [hc]
  · refine ⟨_, brda_eq (by omega) hlt rfl, _, ?_, rfl⟩
    rw [setB_eq]
    split <;> rfl

end Sys2Proof.Machine
end

section
/-!
PROOFS. The BANK forms of a thread: sets, queues, BKLOAD, BKACT, BKCALL, BKWAIT and BKSTAT (05 R112, R127-R136).
-/
namespace Sys2Proof.Machine

/-! ### Engine sets (R127) -/

/-- A range set is one in that its fields are in bounds; its engines are those that it names. -/
theorem rangeSet_eq (v : Word) : rangeSet v = if v.toNat / 2 ^ 30 = 0 ∧ v.toNat / 2 ^ 10 % 1024 ≠ 0 ∧ v.toNat / 2 ^ 20 % 1024 ≠ 0
      ∧ v.toNat / 2 ^ 10 % 1024 ≤ 768 ∧ v.toNat % 1024 + (v.toNat / 2 ^ 10 % 1024 - 1) * (v.toNat / 2 ^ 20 % 1024) ≤ 767
    then some ((List.range (v.toNat / 2 ^ 10 % 1024)).map fun i => v.toNat % 1024 + i * (v.toNat / 2 ^ 20 % 1024)) else none := by
  have hv := v.isLt
  have hten (lo : Nat) : fld v lo 10 = v.toNat / 2 ^ lo % 1024 := rfl
  have hzero : fld v 30 34 = v.toNat / 2 ^ 30 := by
    unfold fld bits
    omega
  unfold rangeSet
  dsimp only
  rw [hten, hten, hten, hzero, Nat.pow_zero, Nat.div_one]
  generalize (v.toNat / 2 ^ 10 % 1024 - 1) * (v.toNat / 2 ^ 20 % 1024) = d
  split
  · rw [if_neg (by omega)]
  · rw [if_pos (by omega)]

section
variable {s : State}

theorem mayName_iff {e : Nat} : s.mayName e = true ↔ e ≤ 767 ∧ (s.engine (BitVec.ofNat 10 e)).part = some s.thr.part := by
  simp [State.mayName]

section
variable {f : FQ} (hf : f.flg.getLsbD 0 = false)
include hf

/-- Without `.mask`, the set is the range of XB. -/
theorem bankSet_range : s.bankSet f = match rangeSet (s.X f.xb) with
    | none => raise cSPACE
    | some es => need (es.all s.mayName = true) cSPACE >>= fun _ => pure (s, es) := by
  unfold State.bankSet
  rw [hf, if_neg Bool.false_ne_true]
  rfl
theorem bankSet_trap (h : ∀ es, rangeSet (s.X f.xb) = some es → ¬ ∀ e ∈ es, s.mayName e = true) :
    s.bankSet f = .error (.trap ⟨cSPACE, 0, 0⟩) := by
  rw [bankSet_range hf]
  cases hr : rangeSet (s.X f.xb) with
  | none => rfl
  | some es => exact need_bind_not (mt List.all_eq_true.mp (h es hr)) ..
theorem bankSet_ok {s1 : State} {es : List Nat} (h : s.bankSet f = .ok (s1, es)) : s1 = s ∧ rangeSet (s.X f.xb) = some es := by
  rw [bankSet_range hf] at h
  cases hr : rangeSet (s.X f.xb) with
  | none =>
    rw [hr] at h
    cases h
  | some l =>
    rw [hr] at h
    dsimp only at h
    by_cases hl : l.all s.mayName = true
    · rw [need_bind hl] at h
      cases h
      exact ⟨rfl, rfl⟩
    · rw [need_bind_not hl] at h
      cases h
end

/-! ### Command queues (R135) -/

theorem nodup_eraseDups (n : Nat) : ∀ l : List Nat, l.length = n → l.eraseDups.Nodup := by
  induction n using Nat.strongRecOn with
  | ind n ih =>
    intro l hl
    cases l with
    | nil => simp
    | cons a r =>
      rw [List.eraseDups_cons, List.nodup_cons]
      refine ⟨fun h => ?_, ih _ ?_ _ rfl⟩
      · simp [List.mem_eraseDups] at h
      · rw [← hl, List.length_cons]
        exact Nat.lt_succ_of_le (List.length_filter_le ..)

theorem mem_stacksOf {es : List Nat} {k : Nat} : k ∈ stacksOf es ↔ ∃ e ∈ es, e / 64 = k := by
  simp [stacksOf, List.mem_eraseDups]

/-- Entries added to the queues of distinct stacks. -/
theorem get_foldl_append {α : Type} [DecidableEq α] (c : Nat → α) {ks : List Nat} (hks : ks.Nodup) (m : NMap (List α)) (k : Nat) :
    NMap.get [] (ks.foldl (fun m k => NMap.put [] m k (NMap.get [] m k ++ [c k])) m) k = NMap.get [] m k ++ if k ∈ ks then [c k] else [] := by
  induction ks generalizing m with
  | nil => simp
  | cons j r ih =>
    obtain ⟨hj, hr⟩ := List.nodup_cons.mp hks
    rw [List.foldl_cons, ih hr, NMap.get_put]
    by_cases h : k = j
    · subst h
      simp [hj]
    · simp [h]

section
variable (kind : CmdKind) (es : List Nat)

@[simp] theorem pushCmd_thr : (s.pushCmd kind es).thr = s.thr := rfl
@[simp] theorem pushCmd_calls : (s.pushCmd kind es).calls = s.calls := rfl

theorem get_pushCmd (k : Nat) : NMap.get [] (s.pushCmd kind es).cmdq k = NMap.get [] s.cmdq k ++ if ∃ e ∈ es, e / 64 = k
    then [{ uid := s.thr.src.uid, no := s.opNo + 1, kind := kind, left := es.filter fun e => e / 64 = k }] else [] := by
  refine (get_foldl_append (fun k => ({ uid := s.thr.src.uid, no := s.opNo + 1, kind := kind, left := es.filter (· / 64 = k) } : Cmd))
    (nodup_eraseDups _ _ rfl) ..).trans ?_
  exact congrArg _ (if_congr mem_stacksOf rfl rfl)
end
end

/-! ### BKLOAD and BKACT (R130, R131) -/

/-- What BKLOAD and BKACT do once their own operands are checked: the set, the source, a place in every queue, the command. -/
def State.enterCmd (f : FQ) (src : Word) (n : Nat) (kind : List Byte → CmdKind) (s : State) : Res Done := do
  s.waitFor s.thr.openOuts.isEmpty
  let (s, es) ← s.bankSet f
  let (s, bs) ← s.bankLoad 0 src n
  s.waitFor (s.queueRoom es = true)
  pure { st := s.pushCmd (kind bs) es }

section
variable {s : State} {f : FQ} {src : Word} {n : Nat} {kind : List Byte → CmdKind}

theorem enterCmd_outs (h : s.thr.openOuts ≠ []) : s.enterCmd f src n kind = .error (.wait s) :=
  waitFor_bind_not (by simpa using h) _

variable (ho : s.thr.openOuts = [])
include ho

theorem enterCmd_trap (h : s.bankSet f = .error (.trap ⟨cSPACE, 0, 0⟩)) : s.enterCmd f src n kind = .error (.trap ⟨cSPACE, 0, 0⟩) := by
  unfold State.enterCmd
  rw [waitFor_bind (by simp [ho]), h]
  rfl

variable {s1 s2 : State} {es : List Nat} {bs : List Byte} (hes : s.bankSet f = .ok (s1, es)) (hbs : s1.bankLoad 0 src n = .ok (s2, bs))
include hes hbs

theorem enterCmd_full (h : s2.queueRoom es = false) : s.enterCmd f src n kind = .error (.wait s2) := by
  unfold State.enterCmd
  rw [waitFor_bind (by simp [ho]), hes]
  dsimp only [ok_bind]
  rw [hbs]
  exact waitFor_bind_not (by simp [h]) _
theorem enterCmd_ok (h : s2.queueRoom es = true) : s.enterCmd f src n kind = .ok { st := s2.pushCmd (kind bs) es } := by
  unfold State.enterCmd
  rw [waitFor_bind (by simp [ho]), hes]
  dsimp only [ok_bind]
  rw [hbs]
  exact waitFor_bind h _
end

section
variable {s : State} {f : FQ}

theorem bkload_eq : exec (.bkload f) s = issue (.q 0xB0 0 f) (fun s => do
    need (f.imm32.toNat ≤ 1023) cILLEGAL_FIELD
    need (fld (s.X f.xa) 0 48 % 4 = 0) cMISALIGN (BitVec.ofNat 64 (fld (s.X f.xa) 0 48))
    need (fld (s.X f.xa) 48 16 ≠ 0 ∧ f.imm32.toNat + fld (s.X f.xa) 48 16 ≤ 1024) cSPACE
    s.enterCmd f (BitVec.ofNat 64 (fld (s.X f.xa) 0 48)) (4 * fld (s.X f.xa) 48 16)
      fun bs => .program f.imm32.toNat (wordsOf bs (fld (s.X f.xa) 48 16))) s := rfl
theorem bkact_eq : exec (.bkact f) s = issue (.q 0xB0 1 f) (fun s => do
    need (spaceOf (s.X f.xa) ≤ 1) cSPACE (s.X f.xa)
    need ((s.X f.xa).toNat % 32 = 0 ∧ (s.X f.xc).toNat % 32 = 0 ∧ f.imm32.toNat % 32 = 0) cMISALIGN (s.X f.xa)
    need (f.imm32.toNat + (s.X f.xc).toNat ≤ 65536) cSPACE
    need (s.thr.plot.inCell (s.X f.xa) (s.X f.xc).toNat = true) cPLOT_BOUND (s.X f.xa)
    s.enterCmd f (s.X f.xa) (s.X f.xc).toNat fun bs => .activations f.imm32.toNat bs) s := rfl

end

/-! ### BKCALL (R132) -/

/-- What BKCALL does once its block and its regions are checked: the send tensor, the waits, the call. -/
def State.enterCall (f : FQ) (blk : Nat) (es : List Nat) (parts : List CallPart) (s : State) : Res Done := do
  let td := Ten.of (s.T f.td)
  if f.td ≠ 0 then s.checkSend td
  let fps := if f.td = 0 then [] else td.fp true
  s.waitFor ((s.callsOf s.thr.src.uid).length < 16)
  s.waitFor (s.entryFree = true)
  s.claim fps
  s.waitFor (s.queueRoom es = true)
  let s := s.startCall f blk es parts fps
  pure { st := s.setX f.xc (s.thr.callNo.setWidth 64) }

/-- BKCALL's own checks, its set, its block and its regions, before the rest. -/
def State.checkCall (f : FQ) (s : State) : Res Done := do
  need (f.imm32.toNat ≤ 1023) cILLEGAL_FIELD
  need (spaceOf (s.X f.xa) = 0) cSPACE (s.X f.xa)
  need ((s.X f.xa).toNat % 128 = 0) cMISALIGN (s.X f.xa)
  s.waitFor (s.thr.released = true)
  let (t, es) ← s.bankSet f
  let (t, bs) ← t.bankLoad 0 (s.X f.xa) 128
  let (t, parts) ← t.checkParts (leNat bs) es
  t.enterCall f (leNat bs) es parts

/-- A thread that has given a call the next token (R132). -/
def State.nextToken (s : State) : State := s.withThr { s.thr with callNo := s.thr.callNo + 1 }

/-- The record of a call (R132). -/
def State.newCall (s : State) (f : FQ) (blk : Nat) (es : List Nat) (parts : List CallPart) (fps : List Fp) : Call :=
  { id := s.opNo + 1, uid := s.thr.src.uid, root := s.thr.root, vf := s.thr.vf, no := s.opNo + 1, pc := s.thr.pc, token := s.thr.callNo + 1
    parts := parts, left := es, send := if f.td = 0 then none else some ⟨s.T f.td, s.thr.row.toNat, s.thr.col.toNat, s.thr.sbase.toNat⟩
    sat := f.flg.getLsbD 1, entry := f.imm32.setWidth 10, args := (List.range 14).map fun i => BitVec.ofNat 32 (bits blk (512 + 32 * i) 32)
    fps := fps, fault := none, count := 0 }

section
variable {s : State} {f : FQ}

theorem bkcall_eq : exec (.bkcall f) s = issue (.q 0xB0 2 f) (State.checkCall f) s := rfl

theorem bind_of_ok {α β : Type} {x : Res α} {a : α} (h : x = .ok a) (g : α → Res β) : (x >>= g) = g a := by
  rw [h]
  rfl

section
variable (ho : f.imm32.toNat ≤ 1023) (hs : spaceOf (s.X f.xa) = 0) (ha : (s.X f.xa).toNat % 128 = 0)
include ho hs ha

theorem checkCall_wait (h : s.thr.released = false) : s.checkCall f = .error (.wait s) :=
  (need_bind ho ..).trans ((need_bind hs ..).trans ((need_bind ha ..).trans (waitFor_bind_not (by simp [h]) _)))
theorem checkCall_eq (h : s.thr.released = true) {s1 s2 s3 : State} {es : List Nat} {bs : List Byte} {parts : List CallPart}
    (hes : s.bankSet f = .ok (s1, es)) (hbs : s1.bankLoad 0 (s.X f.xa) 128 = .ok (s2, bs)) (hps : s2.checkParts (leNat bs) es = .ok (s3, parts)) :
    s.checkCall f = s3.enterCall f (leNat bs) es parts :=
  (need_bind ho ..).trans ((need_bind hs ..).trans ((need_bind ha ..).trans ((waitFor_bind h _).trans ((bind_of_ok hes _).trans
    ((bind_of_ok hbs _).trans (bind_of_ok hps _))))))
end

theorem emitItem_untraced (h : s.thr.tracedItem = false) (kind payload : Nat) : s.emitItem kind payload = s := by
  rw [State.emitItem, if_neg (by simp [h])]

section
variable (h : s.thr.tracedItem = false) (blk : Nat) (es : List Nat) (parts : List CallPart) (fps : List Fp)
include h

/-- A call of the empty set is complete at once (R127). -/
theorem startCall_empty : s.startCall f blk [] parts fps = s.nextToken := by
  have hx : s.startCall f blk [] parts fps = (s.nextToken.emitItem 0x22 s.nextToken.thr.callNo.toNat).emitItem 0x23 s.nextToken.thr.callNo.toNat := rfl
  rw [hx, emitItem_untraced (s := s.nextToken) h, emitItem_untraced (s := s.nextToken) h]
theorem startCall_queued (hes : es ≠ []) : s.startCall f blk es parts fps =
    { s.nextToken.pushCmd (.call (s.opNo + 1)) es with calls := s.calls ++ [s.newCall f blk es parts fps] } := by
  have hx : s.startCall f blk es parts fps = (if es.isEmpty then
      (s.nextToken.emitItem 0x22 s.nextToken.thr.callNo.toNat).emitItem 0x23 s.nextToken.thr.callNo.toNat
    else { (s.nextToken.emitItem 0x22 s.nextToken.thr.callNo.toNat).pushCmd (.call (s.opNo + 1)) es with
      calls := (s.nextToken.emitItem 0x22 s.nextToken.thr.callNo.toNat).calls ++ [s.newCall f blk es parts fps] }) := rfl
  rw [hx, emitItem_untraced (s := s.nextToken) h]
  exact if_neg (by simpa using hes)
end

/-- The arguments of a call: the words of its block from byte 64 on (R113). -/
theorem newCall_arg {blk i : Nat} {es : List Nat} {parts : List CallPart} {fps : List Fp} (hi : i < 14) :
    (s.newCall f blk es parts fps).args[i]? = some (BitVec.ofNat 32 (blk / 2 ^ (512 + 32 * i))) := by
  have hbits : BitVec.ofNat 32 (bits blk (512 + 32 * i) 32) = BitVec.ofNat 32 (blk / 2 ^ (512 + 32 * i)) :=
    BitVec.eq_of_toNat_eq (by simp [bits])
  rw [← hbits]
  exact (List.getElem?_map ..).trans (by simp [hi])

/-! The checks of a send tensor -/

section
variable {t : Ten}

theorem sendFmt_iff (c : Nat) : sendFmt c = true ↔ c ∈ [8, 9, 10, 11, 12, 4, 16] := by
  simp [sendFmt, or_assoc]
theorem sendTensor_iff : ((t.kind = 1 || t.kind = 2) && decide (sendFmt t.fmt = true)) = true
    ↔ (t.kind = 1 ∨ t.kind = 2) ∧ t.fmt ∈ [8, 9, 10, 11, 12, 4, 16] := by
  rw [Bool.and_eq_true, decide_eq_true_iff, sendFmt_iff, Bool.or_eq_true, decide_eq_true_iff, decide_eq_true_iff]

theorem checkSend_format (h : ¬ ((t.kind = 1 ∨ t.kind = 2) ∧ t.fmt ∈ [8, 9, 10, 11, 12, 4, 16])) :
    s.checkSend t = .error (.trap ⟨cSPACE, 0, 0⟩) :=
  need_bind_not (mt sendTensor_iff.mp h) ..

variable (hf : (t.kind = 1 ∨ t.kind = 2) ∧ t.fmt ∈ [8, 9, 10, 11, 12, 4, 16])
include hf

theorem checkSend_outside (h : t.inPlot s.thr.plot = false) : s.checkSend t = .error (.trap ⟨cPLOT_BOUND, 0, 0⟩) :=
  (need_bind (sendTensor_iff.mpr hf) ..).trans (need_bind_not (by simp [h]) ..)
theorem checkSend_off (hp : t.inPlot s.thr.plot = true) (h : s.touchesOff t = true) : s.checkSend t = .error (.trap ⟨cPLANE_OFF, 0, 0⟩) :=
  (need_bind (sendTensor_iff.mpr hf) ..).trans ((need_bind hp ..).trans (need_trap (by simp [h]) ..))
theorem checkSend_ok (hp : t.inPlot s.thr.plot = true) (h : s.touchesOff t = false) : s.checkSend t = .ok () :=
  (need_bind (sendTensor_iff.mpr hf) ..).trans ((need_bind hp ..).trans (need_ok h ..))
end

/-! The waits of a call and its entry -/

section
variable {blk : Nat} {es : List Nat} {parts : List CallPart}

theorem enterCall_trap (h0 : f.td ≠ 0) {e : Stop} (h : s.checkSend (Ten.of (s.T f.td)) = .error e) : s.enterCall f blk es parts = .error e := by
  unfold State.enterCall
  dsimp only
  rw [if_pos h0, h]
  rfl

variable (hs : f.td ≠ 0 → s.checkSend (Ten.of (s.T f.td)) = .ok ())
include hs

/-- Past its send tensor, a call has its waits and its entry left. -/
theorem enterCall_sent : s.enterCall f blk es parts = (do
    s.waitFor ((s.callsOf s.thr.src.uid).length < 16)
    s.waitFor (s.entryFree = true)
    s.claim (if f.td = 0 then [] else (Ten.of (s.T f.td)).fp true)
    s.waitFor (s.queueRoom es = true)
    let s := s.startCall f blk es parts (if f.td = 0 then [] else (Ten.of (s.T f.td)).fp true)
    pure { st := s.setX f.xc (s.thr.callNo.setWidth 64) }) := by
  unfold State.enterCall
  dsimp only
  by_cases h0 : f.td ≠ 0
  · rw [if_pos h0, hs h0]
    rfl
  · rw [if_neg h0]

theorem enterCall_full (h : 16 ≤ (s.callsOf s.thr.src.uid).length ∨ s.entryFree = false) : s.enterCall f blk es parts = .error (.wait s) := by
  rw [enterCall_sent hs]
  by_cases hl : (s.callsOf s.thr.src.uid).length < 16
  · rw [waitFor_bind hl, waitFor_bind_not]
    rcases h with h | h
    · omega
    · simp [h]
  · rw [waitFor_bind_not hl]

variable (hl : (s.callsOf s.thr.src.uid).length < 16) (he : s.entryFree = true)
  (hc : s.claim (if f.td = 0 then [] else (Ten.of (s.T f.td)).fp true) = .ok ())
include hl he hc

theorem enterCall_noRoom (h : s.queueRoom es = false) : s.enterCall f blk es parts = .error (.wait s) := by
  rw [enterCall_sent hs, waitFor_bind hl, waitFor_bind he, hc]
  exact waitFor_bind_not (by simp [h]) _
theorem enterCall_ok (h : s.queueRoom es = true) {t : State}
    (ht : t = s.startCall f blk es parts (if f.td = 0 then [] else (Ten.of (s.T f.td)).fp true)) :
    s.enterCall f blk es parts = .ok { st := t.setX f.xc (t.thr.callNo.setWidth 64) } := by
  rw [ht, enterCall_sent hs, waitFor_bind hl, waitFor_bind he, hc]
  exact waitFor_bind h _
end
end

/-! ### BKWAIT and BKSTAT (R133, R134) -/

section
variable {s : State} {f : FQ}

theorem record_untraced (h : s.thr.tracedItem = false) (v : Word) : s.record v = s := by
  rw [State.record, if_neg (by simp [h])]

theorem bkwait_eq : exec (.bkwait f) s = issue (.q 0xB0 3 f) (fun s => do
    s.waitFor ((s.callsOf s.thr.src.uid).all (fun c => !waitsCall (f.flg.getLsbD 0) s.thr.callNo ((s.X f.xa).setWidth 16) c.token) = true)
    pure { st := s }) s := rfl
theorem bkstat_eq : exec (.bkstat f) s = issue (.q 0xB0 4 f) (fun s => do
    need (s.mayName (s.X f.xa).toNat = true) cSPACE
    let v := (s.engine (BitVec.ofNat 10 (s.X f.xa).toNat)).status (s.queueDepth (s.X f.xa).toNat)
    pure { st := (s.record v).setX f.xc v }) s := rfl
end

theorem waitsCall_iff {all : Bool} {last t token : BitVec 16} : waitsCall all last t token = true
    ↔ (all = true ∨ 32768 ≤ (last - t).toNat) ∨ (last - t).toNat ≤ (last - token).toNat := by
  simp [waitsCall, or_assoc]

/-! ### The obligation -/

theorem inCell_iff {p : Plot} {a : Word} {n : Nat} : p.inCell a n = true
    ↔ (spaceOf a = 1 → offsetOf a / 2 ^ 21 % 256 < p.h ∧ offsetOf a / 2 ^ 13 % 256 < p.w ∧ offsetOf a % 2 ^ 13 + n ≤ 32 * p.d) := by
  have hb : bits (offsetOf a) 0 13 = offsetOf a % 2 ^ 13 := by
    unfold bits
    omega
  unfold Plot.inCell
  rw [hb, Nat.mul_comm p.d]
  by_cases h : spaceOf a = 1
  · rw [Bool.or_eq_true, Bool.and_eq_true, Bool.and_eq_true, decide_eq_true_iff, decide_eq_true_iff, decide_eq_true_iff, and_assoc]
    simp only [h, bits]
    simp
  · simp [h]

/-- Settles O38: BKLOAD and BKACT through `enterCmd`, BKCALL through `enterCall`, check by check. -/
theorem bankForms : Obligations.BankForms := by
  refine ⟨fun s f => ?_, fun s f => ?_⟩
  · intro set first count stride range isSet mine waits queued commands h va n off len row col inCell calls t age all e g depth
    have hset (es : List Nat) : rangeSet set = some es ↔ isSet ∧ es = range := by
      rw [rangeSet_eq]
      change (if isSet then some range else none) = _ ↔ _
      split
      next hi => simp [hi, eq_comm]
      next hi => simp [hi]
    have hcommands {fn : Nat} {i : Instr} {src : Word} {n : Nat} {kind : List Byte → CmdKind} {body : State → Res Done}
        (hi : s.Issues (.q 0xB0 fn f)) (hx : exec i s = issue (.q 0xB0 fn f) body s) (hb : body s = s.enterCmd f src n kind) :
        commands fn i src n kind := by
      refine ⟨fun ho => ?_, fun ho hf hbad => ?_, fun ho s1 es s2 bs hes hbs => ⟨fun hf => ?_, fun hr => ?_, fun hr => ?_⟩⟩
      · exact hx.trans (issue_wait hi _ (hb.trans (enterCmd_outs ho)))
      · refine hx.trans (issue_trap hi _ (hb.trans (enterCmd_trap ho (bankSet_trap hf fun es hes hall => hbad ?_))))
        obtain ⟨his, rfl⟩ := (hset es).mp hes
        exact ⟨his, fun e he => mayName_iff.mp (hall e he)⟩
      · obtain ⟨h1, h2⟩ := bankSet_ok hf hes
        exact ⟨h1, ((hset es).mp h2).2⟩
      · exact ⟨_, hx.trans (issue_seq hi _ (hb.trans (enterCmd_ok ho hes hbs hr))), rfl, rfl, get_pushCmd _ _⟩
      · exact hx.trans (issue_wait hi _ (hb.trans (enterCmd_full ho hes hbs hr)))
    have hva : fld h 0 48 = va := by
      dsimp only [va]
      unfold fld bits
      omega
    have hn : fld h 48 16 = n := by
      have := h.isLt
      dsimp only [n]
      unfold fld bits
      omega
    refine ⟨fun hi => ⟨fun ho => ?_, fun ho ha => ?_, fun ho ha hn' => ?_, fun ho ha hn1 hn2 => ?_⟩,
      fun hi => ⟨fun hs => ?_, fun hs ha => ?_, fun hs ha hl hf hb => ?_, fun hs ha hl hf hb hc => ?_, fun hs ha hl hf hb hc => ?_⟩,
      fun hi => ⟨fun hc => ?_, fun hc => ?_⟩, fun hi => ⟨fun hm => ?_, fun hm ht => ?_⟩⟩
    · refine bkload_eq.trans (issue_trap hi _ ?_)
      exact need_bind_not (Nat.not_le.mpr ho) ..
    · rw [← hva] at ha ⊢
      refine bkload_eq.trans (issue_trap hi _ ?_)
      exact (need_bind ho ..).trans (need_bind_not ha ..)
    · rw [← hva] at ha
      have hbad : ¬ (fld h 48 16 ≠ 0 ∧ f.imm32.toNat + fld h 48 16 ≤ 1024) := by
        rw [hn]
        omega
      refine bkload_eq.trans (issue_trap hi _ ?_)
      exact (need_bind ho ..).trans ((need_bind ha ..).trans (need_bind_not hbad ..))
    · rw [← hn] at hn1 hn2
      rw [← hva] at ha ⊢
      rw [← hn]
      exact hcommands hi bkload_eq ((need_bind ho ..).trans ((need_bind ha ..).trans (need_bind (And.intro hn1 hn2) ..)))
    · refine bkact_eq.trans (issue_trap hi _ ?_)
      exact need_bind_not (Nat.not_le.mpr hs) ..
    · have hbad : ¬ (h.toNat % 32 = 0 ∧ len % 32 = 0 ∧ off % 32 = 0) := by omega
      refine bkact_eq.trans (issue_trap hi _ ?_)
      exact (need_bind hs ..).trans (need_bind_not hbad ..)
    · refine bkact_eq.trans (issue_trap hi _ ?_)
      exact (need_bind hs ..).trans ((need_bind (And.intro ha ⟨hl, hf⟩) ..).trans (need_bind_not (Nat.not_le.mpr hb) ..))
    · refine bkact_eq.trans (issue_trap hi _ ?_)
      exact (need_bind hs ..).trans ((need_bind (And.intro ha ⟨hl, hf⟩) ..).trans ((need_bind hb ..).trans
        (need_bind_not (mt inCell_iff.mp hc) ..)))
    · exact hcommands hi bkact_eq ((need_bind hs ..).trans ((need_bind (And.intro ha ⟨hl, hf⟩) ..).trans ((need_bind hb ..).trans
        (need_bind (inCell_iff.mpr hc) ..))))
    · refine bkwait_eq.trans (issue_wait hi _ ?_)
      refine waitFor_bind_not (fun hall => ?_) _
      obtain ⟨c, hc, hw⟩ := hc
      have hno := List.all_eq_true.mp hall c hc
      rw [waitsCall_iff.mpr hw] at hno
      cases hno
    · refine bkwait_eq.trans (issue_seq hi _ ?_)
      refine waitFor_bind (List.all_eq_true.mpr fun c hmem => ?_) _
      rw [Bool.not_eq_true', ← Bool.not_eq_true, waitsCall_iff]
      exact hc c hmem
    · refine bkstat_eq.trans (issue_trap hi _ ?_)
      exact need_bind_not (mt mayName_iff.mp hm) ..
    · refine bkstat_eq.trans (issue_seq hi _ ?_)
      refine (need_bind (mayName_iff.mpr hm) ..).trans ?_
      exact congrArg (fun u : State => Except.ok ({ st := u.setX f.xc (g.status depth) } : Done)) (record_untraced ht _)
  · intro p waits td send fps hi
    refine ⟨fun ho => ?_, fun ho hs => ?_, fun ho hs ha => ?_, fun ho hs ha => ⟨fun hr => ?_, fun hr htr s1 es s2 bs s3 parts hes hbs hps hT ht => ?_⟩⟩
    · refine bkcall_eq.trans (issue_trap hi _ ?_)
      exact need_bind_not (Nat.not_le.mpr ho) ..
    · refine bkcall_eq.trans (issue_trap hi _ ?_)
      exact (need_bind ho ..).trans (need_bind_not hs ..)
    · refine bkcall_eq.trans (issue_trap hi _ ?_)
      exact (need_bind ho ..).trans ((need_bind hs ..).trans (need_bind_not ha ..))
    · exact bkcall_eq.trans (issue_wait hi _ (checkCall_wait ho hs ha hr))
    · have htd : Ten.of (s3.T f.td) = td := congrArg Ten.of hT
      have hfps : (if f.td = 0 then [] else (Ten.of (s3.T f.td)).fp true) = fps := by rw [htd]
      have hbody : s.checkCall f = s3.enterCall f (leNat bs) es parts := checkCall_eq ho hs ha hr hes hbs hps
      have htrap {c : BitVec 16} (h0 : f.td ≠ 0) (h : s3.checkSend td = .error (.trap ⟨c, 0, 0⟩)) :
          exec (.bkcall f) s = .next (s.takeTrap ⟨c, 0, 0⟩) :=
        bkcall_eq.trans (issue_trap hi _ (hbody.trans (enterCall_trap h0 (htd ▸ h))))
      have hplot {b : Bool} (h : td.inPlot s.thr.plot = b) : td.inPlot s3.thr.plot = b := by rwa [ht]
      refine ⟨fun h0 hf => htrap h0 (checkSend_format hf), fun h0 hf hp => htrap h0 (checkSend_outside hf (hplot hp)),
        fun h0 hf hp hoff => htrap h0 (checkSend_off hf (hplot hp) hoff), fun hsent => ?_⟩
      intro outstanding token
      have hsend (h0 : f.td ≠ 0) : s3.checkSend (Ten.of (s3.T f.td)) = .ok () := by
        obtain ⟨hf, hp, hoff⟩ := hsent h0
        rw [htd]
        exact checkSend_ok hf (hplot hp) hoff
      have hout : (s3.callsOf s3.thr.src.uid).length = outstanding := by
        rw [ht]
        rfl
      refine ⟨fun hw => ?_, fun hl he hc => ⟨fun hroom => ?_, fun hroom => ?_⟩⟩
      · exact bkcall_eq.trans (issue_wait hi _ (hbody.trans (enterCall_full hsend (by rwa [hout]))))
      · exact bkcall_eq.trans (issue_wait hi _ (hbody.trans (enterCall_noRoom hsend (by rwa [hout]) he (by rwa [hfps]) hroom)))
      · have htr3 : s3.thr.tracedItem = false := by rwa [ht]
        have hex {t : State} (hst : s3.startCall f (leNat bs) es parts fps = t) (htok : t.thr.callNo = token) :
            exec (.bkcall f) s = .next (s.after (.q 0xB0 2 f) (t.setX f.xc (token.setWidth 64))) := by
          rw [← htok]
          refine bkcall_eq.trans (issue_seq hi _ (hbody.trans (enterCall_ok hsend (by rwa [hout]) he (by rwa [hfps]) hroom ?_)))
          rw [hfps, hst]
        have htok : s3.nextToken.thr.callNo = token := congrArg (fun u : Thread => u.callNo + 1) ht
        have hthr : s3.nextToken.thr = { s3.thr with callNo := token } := by
          rw [← htok]
          rfl
        by_cases hes0 : es = []
        · subst hes0
          exact ⟨s3.nextToken, hex (startCall_empty htr3 ..) htok, hthr, fun _ => ⟨rfl, rfl⟩, fun h => (h rfl).elim⟩
        · refine ⟨_, hex (startCall_queued htr3 _ _ _ _ hes0) htok, hthr, fun h => (hes0 h).elim, fun _ => ⟨s3.newCall f (leNat bs) es parts fps,
            rfl, rfl, rfl, congrArg (·.src.uid) ht, congrArg Thread.pc ht, htok, rfl, rfl, rfl, rfl, rfl, rfl, rfl, ?_, fun i hi => ?_, fun k hk => ?_⟩⟩
          · change (if f.td = 0 then none else some (SendTensor.mk (s3.T f.td) s3.thr.row.toNat s3.thr.col.toNat s3.thr.sbase.toNat)) = _
            rw [hT, ht]
          · exact newCall_arg hi
          · refine ⟨_, (get_pushCmd (s := s3.nextToken) ..).trans (congrArg _ (if_pos hk)), rfl, rfl⟩

end Sys2Proof.Machine
end

section
/-!
PROOFS. A call that faulted is reported (05 R125; 20 R392): O39 fails where its report has no place.
-/
namespace Sys2Proof.Machine

/-! ### A report without a place (20 R392, R393) -/

/-- A partition without a configuration has no fault ring. -/
theorem pushReport_eq_none {s : State} {t : Thread} (h : (NMap.get {} s.parts t.part.toNat).cfg = none) (k : SlotNo) (f : FaultRec) :
    s.pushReport k t f = none := by
  unfold State.pushReport
  rw [h]
  rfl

/-- A running item that is terminated stops at once, although its report has no place. -/
theorem terminate_eq_abandon {s : State} {f : FaultRec} (ht : s.thr.term = some f) (hp : s.thr.phase = .running) (hr : s.thr.reported = false)
    (h : (s.abandon f.cause).pushReport (s.abandon f.cause).cur (s.abandon f.cause).thr f = none) : s.terminate = some (s.abandon f.cause) := by
  unfold State.terminate
  rw [ht]
  change (if _ then _ else _) = _
  rw [if_neg (by simp [hp, hr]), if_pos (by simp [hp])]
  change (match (s.abandon f.cause).pushReport (s.abandon f.cause).cur (s.abandon f.cause).thr f with
    | some v => some (v.withThr { v.thr with reported := true })
    | none => if s.thr.phase != Phase.ended .failed then some (s.abandon f.cause) else none) = _
  rw [h]
  exact if_pos (by simp [hp])

/-- A running item with no asynchronous fault before ends by that of its call. -/
theorem callFaultReport_eq {s : State} {c : Call} {x : CallFault} {k : SlotNo} (hc : s.endedCall s.input.unit = some c) (hx : c.fault = some x)
    (hk : s.slotOfUid c.uid = some k) (ht : (s.atSlot k).thr.term = none) {z : State}
    (hz : z = (s.atSlot k).withThr { (s.atSlot k).thr with term := some (c.report x) }) :
    exec .callFaultReport s = .next ((z.terminate.getD z).dropCall c.id) := by
  have hfail : (s.atSlot k).thr.fail (c.report x) = { (s.atSlot k).thr with term := some (c.report x) } := if_neg (by simp [ht])
  have hno : ¬ (s.atSlot k).thr.term.isSome = true := by simp [ht]
  change execCallFaultReport s = _
  unfold execCallFaultReport
  rw [event_next]
  simp only [hc, Option.bind_eq_bind, Option.bind_some, hx, hk, hno, hfail, hz]
  rfl

/-! ### The counterexample -/

/-- A call of item 0 that engine 0 has ended with a fault. -/
def faultedCall : Call :=
  { id := 3, uid := 0, root := 0, vf := 0, no := 3, pc := 0, token := 1, parts := [], left := [], send := none, sat := false, entry := 0
    args := [], fps := [], fault := some ⟨0, 6, 0, 0, 0⟩, count := 0 }

/-- Item 0 runs in slot 0, in a partition that has no fault ring, and its call has faulted. -/
def unreported : State := { thr := { phase := .running }, calls := [faultedCall], input := { unit := 3 } }

/-- Refutes O39: the report of a faulted call has no place, and the thread has stopped all the same, as 20 R392 has it, where the
statement leaves it as it was. -/
theorem not_bankEvents : ¬ Obligations.BankEvents := by
  intro h
  obtain ⟨-, -, h⟩ := h
  obtain ⟨-, -, h⟩ := h unreported faultedCall rfl rfl (fun x hx => by cases hx)
  obtain ⟨-, h, -⟩ := h ⟨0, 6, 0, 0, 0⟩ 0 rfl rfl rfl
  obtain ⟨t, hx, ht, -⟩ := h rfl rfl (pushReport_eq_none rfl _ _)
  have hz := terminate_eq_abandon (s := unreported.withThr { unreported.thr with term := some (faultedCall.report ⟨0, 6, 0, 0, 0⟩) })
    rfl rfl rfl (pushReport_eq_none rfl _ _)
  have hstop := callFaultReport_eq (s := unreported) (c := faultedCall) rfl rfl (k := 0) rfl rfl rfl
  rw [hx, show unreported.atSlot 0 = unreported from rfl, hz] at hstop
  cases hstop
  cases congrArg Thread.phase ht

end Sys2Proof.Machine
end

section
/-!
PROOFS. What the steps of a partition reset keep: writes of an agent, events, reports and the ends of launches.
-/
namespace Sys2Proof.Machine

/-! ### What the steps of a reset keep -/

/-- `t` has the slots of `s`, and no item, group, packet or launch that `s` has not. -/
structure State.Base (s t : State) : Prop where
  cur : t.cur = s.cur
  slots : t.slots = s.slots
  parked : ∀ p ∈ t.parked, ∃ q ∈ s.parked, q.thr = p.thr
  saved : t.saved = s.saved
  groups : t.groups = s.groups
  flights : t.flights = s.flights
  launches : ∀ l ∈ t.launches, ∃ m ∈ s.launches, m.id = l.id ∧ m.part = l.part

/-- The same, with the thread that acts and every engine. -/
structure State.Still (s t : State) : Prop extends State.Base s t where
  thr : t.thr = s.thr
  engine : ∀ e, t.engine e = s.engine e

/-- Every thread is kept, and no item, group or packet is new; another slot may act. -/
structure State.Calm (s t : State) : Prop where
  thread : ∀ k, t.thread k = s.thread k
  parked : ∀ p ∈ t.parked, ∃ q ∈ s.parked, q.thr = p.thr
  saved : t.saved = s.saved
  groups : t.groups = s.groups
  flights : t.flights = s.flights

theorem State.Base.of {s t : State} (hc : t.cur = s.cur) (hs : t.slots = s.slots) (hp : t.parked = s.parked) (hv : t.saved = s.saved)
    (hg : t.groups = s.groups) (hf : t.flights = s.flights) (hl : t.launches = s.launches) : s.Base t :=
  ⟨hc, hs, fun p h => ⟨p, hp ▸ h, rfl⟩, hv, hg, hf, fun l h => ⟨l, hl ▸ h, rfl, rfl⟩⟩
theorem State.Base.refl (s : State) : s.Base s := .of rfl rfl rfl rfl rfl rfl rfl
theorem State.Base.trans {s t u : State} (h : s.Base t) (g : t.Base u) : s.Base u := by
  refine ⟨g.cur.trans h.cur, g.slots.trans h.slots, fun p hp => ?_, g.saved.trans h.saved, g.groups.trans h.groups, g.flights.trans h.flights,
    fun l hl => ?_⟩
  · obtain ⟨q, hq, hqp⟩ := g.parked p hp
    obtain ⟨r, hr, hrq⟩ := h.parked q hq
    exact ⟨r, hr, hrq.trans hqp⟩
  · obtain ⟨m, hm, hid, hpart⟩ := g.launches l hl
    obtain ⟨n, hn, hid', hpart'⟩ := h.launches m hm
    exact ⟨n, hn, hid'.trans hid, hpart'.trans hpart⟩
theorem State.Still.refl (s : State) : s.Still s := ⟨.refl s, rfl, fun _ => rfl⟩
theorem State.Still.trans {s t u : State} (h : s.Still t) (g : t.Still u) : s.Still u :=
  ⟨h.toBase.trans g.toBase, g.thr.trans h.thr, fun e => (g.engine e).trans (h.engine e)⟩
theorem State.Calm.refl (s : State) : s.Calm s := ⟨fun _ => rfl, fun p hp => ⟨p, hp, rfl⟩, rfl, rfl, rfl⟩
theorem State.Calm.trans {s t u : State} (h : s.Calm t) (g : t.Calm u) : s.Calm u := by
  refine ⟨fun k => (g.thread k).trans (h.thread k), fun p hp => ?_, g.saved.trans h.saved, g.groups.trans h.groups, g.flights.trans h.flights⟩
  obtain ⟨q, hq, hqp⟩ := g.parked p hp
  obtain ⟨r, hr, hrq⟩ := h.parked q hq
  exact ⟨r, hr, hrq.trans hqp⟩

theorem State.Still.calm {s t : State} (h : s.Still t) : s.Calm t := by
  refine ⟨fun k => ?_, h.parked, h.saved, h.groups, h.flights⟩
  unfold State.thread
  rw [h.cur, h.slots, h.thr]

theorem State.Still.getD {s : State} {o : Option State} (h : ∀ t, o = some t → s.Still t) : s.Still (o.getD s) := by
  cases o with
  | none => exact .refl s
  | some t => exact h t rfl

theorem foldl_still {α : Type} {f : State → α → State} (hf : ∀ (s : State) x, s.Still (f s x)) (l : List α) (s : State) : s.Still (l.foldl f s) :=
  foldl_keeps (fun u => s.Still u) f (fun u x hu => hu.trans (hf u x)) l s (.refl s)

/-- What every step of a fold in `Option` keeps, the fold keeps. -/
theorem foldlM_rel {α : Type} {R : State → State → Prop} (hr : ∀ s, R s s) (ht : ∀ {a b c}, R a b → R b c → R a c) {f : State → α → Option State}
    {l : List α} (hf : ∀ x ∈ l, ∀ s t, f s x = some t → R s t) {s t : State} (h : l.foldlM f s = some t) : R s t := by
  induction l generalizing s with
  | nil =>
    cases h
    exact hr _
  | cons x r ih =>
    rw [List.foldlM_cons] at h
    obtain ⟨u, hu, hur⟩ := Option.bind_eq_some_iff.mp h
    exact ht (hf x (.head _) s u hu) (ih (fun y hy => hf y (.tail _ hy)) hur)

/-- A fold in `Option` that fails has a step that does. -/
theorem exists_of_foldlM_eq_none {α : Type} {f : State → α → Option State} {l : List α} {s : State} (h : l.foldlM f s = none) :
    ∃ x ∈ l, ∃ u, f u x = none := by
  induction l generalizing s with
  | nil => cases h
  | cons x r ih =>
    rw [List.foldlM_cons] at h
    cases hx : f s x with
    | none => exact ⟨x, .head _, s, hx⟩
    | some u =>
      rw [hx] at h
      obtain ⟨y, hy, v, hv⟩ := ih h
      exact ⟨y, .tail _ hy, v, hv⟩

/-! ### Memory written by an agent -/

theorem onMemory_still {s t : State} (h : t = s.onMemory t) : s.Still t := by
  rw [h]
  exact ⟨.of rfl rfl rfl rfl rfl rfl rfl, rfl, fun _ => rfl⟩

/-- A write event that names no buffer leaves every engine. -/
theorem putBytes_engine {s : State} {bs : List SqByte} (h : ∀ b ∈ bs, ∀ e k, b.loc ≠ .buf e k) (e : BitVec 10) :
    (s.putBytes bs).engine e = s.engine e := by
  refine List.foldlRecOn _ _ (motive := fun u : State => u.engine e = s.engine e) ?_ fun u hu l hl => ?_
  · refine List.foldlRecOn bs _ (motive := fun u : State => u.engine e = s.engine e) rfl fun u hu b hb => ?_
    rw [← hu]
    cases hloc : b.loc with
    | cell c r k =>
      change (if u.isVoid c then u else _ : State).engine e = u.engine e
      split <;> rfl
    | mem k =>
      obtain ⟨m, mk, hput⟩ := putMem_frame u k (u.keyAt b.key) b.val
      change (u.putMem k (u.keyAt b.key) b.val).engine e = u.engine e
      rw [hput]
      rfl
    | buf e' k => exact (h b hb e' k hloc).elim
    | _ => rfl
  · rw [← hu]
    obtain ⟨b, hb, rfl⟩ := List.mem_map.mp hl
    split
    · split <;> rfl
    · split <;> rfl
    next e' k heq => exact (h b hb e' k heq).elim
    · rfl

theorem putBytes_base (s : State) (bs : List SqByte) : s.Base (s.putBytes bs) := by
  rw [putBytes_onStores]
  exact .of rfl rfl rfl rfl rfl rfl rfl
theorem putBytes_still {s : State} {bs : List SqByte} (h : ∀ b ∈ bs, ∀ e k, b.loc ≠ .buf e k) : s.Still (s.putBytes bs) :=
  ⟨putBytes_base s bs, putBytes_thr s bs, putBytes_engine h⟩

section
variable {s u : State} {root : BitVec 44} {vf : BitVec 6}

theorem leafLoc_ne_buf (x : XLeaf) (va e k : Nat) : (s.leafLoc x va).1 ≠ .buf e k := by
  unfold State.leafLoc
  dsimp only
  split
  · split <;> simp
  · simp

/-- What an agent reaches is memory. -/
theorem agentLocs_ok {cl : Option Nat} {store : Bool} {vas : List Word} {ls : List (Loc × Nat)} (h : s.agentLocs cl root vf store vas = .ok (u, ls)) :
    s.Still u ∧ ∀ l ∈ ls, ∀ e k, l.1 ≠ .buf e k := by
  unfold State.agentLocs at h
  split at h
  · cases h
  · split at h
    · cases h
    · dsimp only at h
      split at h
      · cases h
      · cases h
        refine ⟨onMemory_still (foldl_onMemory s (fun s x => commitLeaf_onMemory s ..) _), fun l hl e k => ?_⟩
        obtain ⟨a, -, rfl⟩ := List.mem_map.mp hl
        exact leafLoc_ne_buf _ _ e k

theorem put_still {cl : Option Nat} {store : Bool} {vas : List Word} {ls : List (Loc × Nat)} (h : s.agentLocs cl root vf store vas = .ok (u, ls))
    (bs : List Byte) : s.Still (u.putBytes ((ls.zip bs).map fun x => ⟨x.1.1, x.2, x.1.2⟩)) := by
  obtain ⟨hu, hls⟩ := agentLocs_ok h
  refine hu.trans (putBytes_still fun b hb e k => ?_)
  obtain ⟨x, hx, rfl⟩ := List.mem_map.mp hb
  exact hls x.1 (List.of_mem_zip hx).1 e k

theorem agentRead_still {a n : Nat} {bs : List Byte} (h : s.agentRead root vf a n = some (u, bs)) : s.Still u := by
  unfold State.agentRead at h
  split at h
  · cases h
  next v ls hl =>
    split at h
    · cases h
    · cases h
      exact (agentLocs_ok hl).1
theorem agentWrite_still {a : Nat} {bs : List Byte} (h : s.agentWrite root vf a bs = some u) : s.Still u := by
  unfold State.agentWrite at h
  split at h
  · cases h
  next v ls hl =>
    cases h
    exact put_still hl bs
theorem agentAdd_still {a v : Word} (h : s.agentAdd root vf a v = some u) : s.Still u := by
  unfold State.agentAdd at h
  split at h
  · cases h
  next w ls hl =>
    split at h
    · cases h
    · cases h
      exact put_still hl _
theorem ringBlk_still {a : Nat} {b : RingBlk} (h : s.ringBlk root vf a = some (u, b)) : s.Still u := by
  obtain ⟨⟨v, bs⟩, hv, hb⟩ := Option.bind_eq_some_iff.mp h
  cases hb
  exact agentRead_still hv
end

/-! ### Events, reports and launches -/

section
variable (s : State)

theorem emit_still (kind src vf payload : Nat) (st : Option (BitVec 384)) : s.Still (s.emit kind src vf payload st) := by
  obtain ⟨ev, h⟩ := emit_frame s kind src vf payload st
  rw [h]
  exact ⟨.of rfl rfl rfl rfl rfl rfl rfl, rfl, fun _ => rfl⟩
theorem mapLaunch_still (id : Nat) {f : Launch → Launch} (hf : ∀ l, (f l).id = l.id ∧ (f l).part = l.part) : s.Still (s.mapLaunch id f) := by
  refine ⟨⟨rfl, rfl, fun p hp => ⟨p, hp, rfl⟩, rfl, rfl, rfl, fun l hl => ?_⟩, rfl, fun _ => rfl⟩
  obtain ⟨m, hm, rfl⟩ := List.mem_map.mp hl
  refine ⟨m, hm, ?_⟩
  split
  · exact ⟨(hf m).1.symm, (hf m).2.symm⟩
  · exact ⟨rfl, rfl⟩
theorem emitItem_still (kind payload : Nat) : s.Still (s.emitItem kind payload) := by
  unfold State.emitItem
  split
  · exact emit_still ..
  · exact .refl s
theorem emitEnd_still (code : Nat) (failed : Bool) : s.Still (s.emitEnd code failed) := by
  unfold State.emitEnd
  generalize hu : s.emitItem 0x03 (code * 65536 + if failed then s.thr.endCause.toNat else 0) = u
  have hs : s.Still u := hu ▸ emitItem_still s 0x03 _
  dsimp only
  split
  · exact hs.trans (emit_still u ..)
  · exact hs
theorem raiseVec_still (r : Nat) : s.Still (s.raiseVec r) := by
  unfold State.raiseVec
  split
  · exact .refl s
  · split
    · exact .refl s
    next u b hb =>
      split
      · exact ringBlk_still hb
      · exact (ringBlk_still hb).trans ⟨.of rfl rfl rfl rfl rfl rfl rfl, rfl, fun _ => rfl⟩
theorem emitLaunch_still (l : Launch) (kind payload : Nat) : s.Still (s.emitLaunch l kind payload) := by
  unfold State.emitLaunch
  split
  · exact emit_still ..
  · exact .refl s

variable {s} in
theorem pushReport_still {t : State} {k : SlotNo} {th : Thread} {f : FaultRec} (h : s.pushReport k th f = some t) : s.Still t := by
  unfold State.pushReport at h
  simp only [Option.bind_eq_bind, Option.bind_eq_some_iff] at h
  obtain ⟨c, -, ⟨u, b⟩, hu, h⟩ := h
  dsimp only at h
  split at h
  · cases h
  · simp only [Option.bind_eq_some_iff] at h
    obtain ⟨v, hv, w, hw, h⟩ := h
    cases h
    refine (((ringBlk_still hu).trans (agentWrite_still hv)).trans (agentWrite_still hw)).trans (State.Still.trans ?_ (mapLaunch_still _ _ fun _ => ⟨rfl, rfl⟩))
    split
    · exact emit_still ..
    · exact .refl w

theorem finishLaunch_still (l : Launch) (status : Nat) : s.Still (s.finishLaunch l status) := by
  unfold State.finishLaunch
  dsimp only
  generalize hu : (s.agentWrite l.root l.vf l.done.toNat (s.recordBytes l status)).getD s = u
  generalize hv : (if l.signal = 0 ∨ l.signal.toNat % 8 ≠ 0 then u else (u.agentAdd l.root l.vf l.signal 1).getD u) = v
  have hsu : s.Still u := hu ▸ .getD fun t ht => agentWrite_still ht
  have huv : u.Still v := by
    rw [← hv]
    split
    · exact .refl u
    · exact .getD fun t ht => agentAdd_still ht
  refine ((hsu.trans huv).trans ((raiseVec_still v l.ring.toNat).trans (emitLaunch_still _ l 0x53 l.seq.toNat))).trans ?_
  exact ⟨⟨rfl, rfl, fun p hp => ⟨p, hp, rfl⟩, rfl, rfl, rfl, fun m hm => ⟨m, (List.mem_filter.mp hm).1, rfl, rfl⟩⟩, rfl, fun _ => rfl⟩
theorem finishLaunch_launches (l : Launch) (status : Nat) : ∀ m ∈ (s.finishLaunch l status).launches, m.id ≠ l.id := by
  intro m hm
  simpa using (List.mem_filter.mp hm).2
end

end Sys2Proof.Machine
end

section
/-!
PROOFS. A partition reset (05 R109, R138; 14 R295; log 62), the assignment of engines (05 R108) and a peer that does not answer (14 R304).
-/
namespace Sys2Proof.Machine

/-! ### The slot that acts -/

theorem thread_atSlot (s : State) (k j : SlotNo) : (s.atSlot k).thread j = s.thread j := by
  unfold State.atSlot
  split
  · rfl
  next hk =>
    unfold State.thread
    dsimp only
    by_cases hj : j = k
    · subst hj
      rw [if_pos rfl, if_neg hk]
    · have hne : j.toNat ≠ k.toNat := fun h => hj (BitVec.eq_of_toNat_eq h)
      rw [if_neg hj, NMap.get_put_other _ _ _ hne]
      by_cases hc : j = s.cur
      · rw [if_pos hc, hc, NMap.get_put_same]
      · rw [if_neg hc, NMap.get_put_other _ _ _ fun h => hc (BitVec.eq_of_toNat_eq h)]

/-- What is common to a state and to the same with another slot that acts. -/
theorem atSlot_frame (s : State) (k : SlotNo) : (s.atSlot k).parked = s.parked ∧ (s.atSlot k).saved = s.saved ∧ (s.atSlot k).groups = s.groups
    ∧ (s.atSlot k).flights = s.flights ∧ ∀ e, (s.atSlot k).engine e = s.engine e := by
  unfold State.atSlot
  split
  · exact ⟨rfl, rfl, rfl, rfl, fun _ => rfl⟩
  · exact ⟨rfl, rfl, rfl, rfl, fun _ => rfl⟩
theorem atSlot_calm (s : State) (k : SlotNo) : s.Calm (s.atSlot k) := by
  obtain ⟨hp, hv, hg, hf, -⟩ := atSlot_frame s k
  exact ⟨thread_atSlot s k, fun p h => ⟨p, hp ▸ h, rfl⟩, hv, hg, hf⟩

theorem withThr_base (s : State) (t : Thread) : s.Base (s.withThr t) := .of rfl rfl rfl rfl rfl rfl rfl

/-- Work done in the name of a thread, with the thread that acts as before it. -/
theorem State.Base.restore {s u : State} (h : s.Base u) : s.Calm (u.withThr s.thr) := by
  refine ⟨fun k => ?_, h.parked, h.saved, h.groups, h.flights⟩
  change (if k = u.cur then s.thr else NMap.get {} u.slots k.toNat) = _
  rw [h.cur, h.slots]
  rfl

/-! ### The end of an item that a reset ends -/

section
variable {s t : State}

theorem resolve_base {w : Want} {a : Word} {n : Nat} {nm : Named} (h : s.resolve w a n = .ok (t, nm)) : s.Base t :=
  (onMemory_still (resolve_onMemory h)).toBase
theorem joinAdd_base {a v : Word} {watch : Bool} (h : s.joinAdd a v watch = .ok t) : s.Base t := by
  unfold State.joinAdd at h
  cases hr : s.resolve { kind := .atomic, store := true, align := 8, watch := watch } a 8 with
  | error e =>
    rw [hr] at h
    cases h
  | ok r =>
    rw [hr] at h
    cases h
    exact (resolve_base hr).trans (putBytes_base ..)

theorem wake_base (s : State) (p : Parked) : s.Base (s.wake p) := by
  refine ⟨rfl, rfl, fun q hq => ?_, rfl, rfl, rfl, fun l hl => ⟨l, hl, rfl, rfl⟩⟩
  obtain ⟨x, hx, rfl⟩ := List.mem_map.mp hq
  refine ⟨x, hx, ?_⟩
  split <;> rfl
theorem parkWord_base {p : Parked} {v : Word} (h : s.parkWord p = .ok (t, v)) : s.Base t := by
  unfold State.parkWord at h
  cases hr : (s.withThr p.thr).resolve { watch := false } p.wait 8 with
  | error e =>
    rw [hr] at h
    cases h
  | ok r =>
    rw [hr] at h
    cases h
    exact ((withThr_base s _).trans (resolve_base hr)).trans (withThr_base ..)
theorem wakeOn_base (s : State) (th : Thread) (j : Word) : s.Base (s.wakeOn th j) := by
  unfold State.wakeOn
  refine foldl_keeps (fun u => s.Base u) _ (fun u p hu => hu.trans ?_) _ s (.refl s)
  split
  next v w hp =>
    split
    · exact (parkWord_base hp).trans (wake_base ..)
    · exact parkWord_base hp
  · exact .refl u

theorem resetJoin_calm {k : SlotNo} {th : Thread} (h : s.resetJoin false k th = some t) : s.Calm t := by
  unfold State.resetJoin at h
  split at h
  · cases h
    exact .refl s
  · dsimp only at h
    split at h
    next u hu =>
      cases h
      exact (atSlot_calm s k).trans (((withThr_base ..).trans (joinAdd_base hu)).trans (wakeOn_base ..)).restore
    · split at h
      · cases h
        exact .refl s
      · obtain ⟨u, hu, rfl⟩ := Option.map_eq_some_iff.mp h
        exact (atSlot_calm s k).trans ((withThr_base ..).trans (pushReport_still hu).toBase).restore
    · cases h
      exact .refl s
theorem resetJoin_of_none {k : SlotNo} {th : Thread} (h : th.src.join = 0) : s.resetJoin false k th = some s := if_pos h

theorem resetReport_calm {k : SlotNo} {th : Thread} (h : s.resetReport false k th = some t) : s.Calm t := by
  unfold State.resetReport at h
  split at h
  · split at h
    · cases h
      exact .refl s
    · exact (pushReport_still h).calm
  · cases h
    exact .refl s
theorem resetReport_of_done {k : SlotNo} {th : Thread} (h : ¬ (th.term.isSome = true ∧ th.reported = false)) : s.resetReport false k th = some s := by
  unfold State.resetReport
  split
  next f hf => exact if_pos (by simpa [hf] using h)
  · rfl

theorem resetEnd_calm (s : State) (k : SlotNo) (th : Thread) : s.Calm (s.resetEnd k th) :=
  (atSlot_calm s k).trans ((withThr_base ..).trans (emitEnd_still ..).toBase).restore
theorem resetEnd_engine (s : State) (k : SlotNo) (th : Thread) (e : BitVec 10) : (s.resetEnd k th).engine e = s.engine e := by
  have h := (emitEnd_still ((s.atSlot k).withThr th) 3 true).engine e
  obtain ⟨-, -, -, -, hk⟩ := atSlot_frame s k
  exact h.trans (hk e)

theorem resetCount_still (s : State) (th : Thread) : s.Still (s.resetCount th) := mapLaunch_still _ _ fun _ => ⟨rfl, rfl⟩

theorem resetItem_calm {x : Option SlotNo × Thread} (h : s.resetItem false x = some t) : s.Calm t := by
  obtain ⟨u, hu, h⟩ := Option.bind_eq_some_iff.mp h
  obtain ⟨v, hv, h⟩ := Option.bind_eq_some_iff.mp h
  cases h
  refine ((resetReport_calm hu).trans (resetJoin_calm hv)).trans (State.Calm.trans ?_ (resetCount_still ..).calm)
  split
  · exact resetEnd_calm ..
  · exact .refl v
/-- An item with neither a join counter nor a report that is due ends without an effect on engines. -/
theorem resetItem_engine {x : Option SlotNo × Thread} (hj : x.2.src.join = 0) (hr : ¬ (x.2.term.isSome = true ∧ x.2.reported = false))
    (h : s.resetItem false x = some t) (e : BitVec 10) : t.engine e = s.engine e := by
  unfold State.resetItem at h
  rw [resetReport_of_done hr, Option.bind_eq_bind, Option.bind_some, resetJoin_of_none hj] at h
  cases h
  refine ((resetCount_still ..).engine e).trans ?_
  split
  · exact resetEnd_engine ..
  · rfl
/-- An item that a reset waits for has a join counter, or a report that is due. -/
theorem resetItem_eq_none {x : Option SlotNo × Thread} (h : s.resetItem false x = none) :
    x.2.src.join ≠ 0 ∨ x.2.term.isSome = true ∧ x.2.reported = false := by
  by_contra hc
  obtain ⟨hj, hr⟩ := not_or.mp hc
  unfold State.resetItem at h
  rw [resetReport_of_done hr, Option.bind_eq_bind, Option.bind_some, resetJoin_of_none (not_not.mp hj)] at h
  cases h
end

/-! ### A slot given up -/

/-- What a slot keeps of its thread while it leaves what it waits in. -/
def Thread.Like (a b : Thread) : Prop := a.x = b.x ∧ a.pc = b.pc ∧ a.phase = b.phase

theorem Thread.Like.refl (a : Thread) : a.Like a := ⟨rfl, rfl, rfl⟩
theorem Thread.Like.trans {a b c : Thread} (h : a.Like b) (g : b.Like c) : a.Like c :=
  ⟨h.1.trans g.1, h.2.1.trans g.2.1, h.2.2.trans g.2.2⟩

/-- The threads of `t` are those of `s` but for what they wait for, and its engines are the same. -/
structure State.Alike (s t : State) : Prop where
  cur : t.cur = s.cur
  thread : ∀ k, (t.thread k).Like (s.thread k)
  engine : ∀ e, t.engine e = s.engine e

theorem State.Alike.refl (s : State) : s.Alike s := ⟨rfl, fun _ => .refl _, fun _ => rfl⟩
theorem State.Alike.trans {s t u : State} (h : s.Alike t) (g : t.Alike u) : s.Alike u :=
  ⟨g.cur.trans h.cur, fun k => (g.thread k).trans (h.thread k), fun e => (g.engine e).trans (h.engine e)⟩

theorem turnAway_alike (s : State) (x : FeWait) : s.Alike (s.turnAway x) := by
  have hthread (k : SlotNo) : ((s.turnAway x).thread k).Like (s.thread k) := by
    unfold State.turnAway
    rw [thread_setThread]
    split
    next hk =>
      rw [hk]
      exact ⟨rfl, rfl, rfl⟩
    · exact .refl _
  have hrest : (s.turnAway x).cur = s.cur ∧ ∀ e, (s.turnAway x).engine e = s.engine e := by
    unfold State.turnAway State.setThread
    dsimp only
    split
    · exact ⟨rfl, fun _ => rfl⟩
    · exact ⟨rfl, fun _ => rfl⟩
  obtain ⟨hc, he⟩ := hrest
  exact ⟨hc, hthread, he⟩
theorem dropWaiters_alike (s : State) (p : Plot) : s.Alike (s.dropWaiters p) :=
  foldl_keeps (fun u => s.Alike u) _ (fun u x hu => hu.trans (turnAway_alike u x)) _ _ ⟨rfl, fun _ => .refl _, fun _ => rfl⟩
theorem leaveEvery_alike (s : State) : s.Alike s.leaveEvery := by
  obtain ⟨cl, q, h⟩ := leaveQueues_frame s
  unfold State.leaveEvery
  rw [h]
  refine ⟨rfl, fun k => ?_, fun _ => rfl⟩
  unfold State.thread
  dsimp only
  split
  · exact ⟨rfl, rfl, rfl⟩
  · exact .refl _

theorem resetSlot_frame (s : State) (k : SlotNo) {u : State} (hu : u = (s.atSlot k).leaveEvery.dropWaiters (s.atSlot k).thr.plot) :
    ∃ cl d, s.resetSlot k = { u with thr := u.thr.vacant, clusters := cl, dbg := d } := by
  unfold State.resetSlot
  rw [← hu]
  exact ⟨_, _, rfl⟩

/-- A slot is given up by a reset: it is idle, and every other slot keeps its thread. -/
theorem resetSlot_spec (s : State) (k : SlotNo) :
    ((s.resetSlot k).thread k).phase = .idle ∧ (∀ j, j ≠ k → ((s.resetSlot k).thread j).Like (s.thread j))
    ∧ ∀ e, (s.resetSlot k).engine e = s.engine e := by
  have ha : (s.atSlot k).Alike ((s.atSlot k).leaveEvery.dropWaiters (s.atSlot k).thr.plot) := (leaveEvery_alike _).trans (dropWaiters_alike ..)
  obtain ⟨-, -, -, -, he⟩ := atSlot_frame s k
  obtain ⟨cl, d, h⟩ := resetSlot_frame s k rfl
  generalize (s.atSlot k).leaveEvery.dropWaiters (s.atSlot k).thr.plot = u at h ha
  have hc : u.cur = k := ha.cur.trans (atSlot_cur s k)
  rw [h]
  refine ⟨?_, fun j hj => ?_, fun e => (ha.engine e).trans (he e)⟩
  · rw [← hc, thread_same]
    rfl
  · have hne : j ≠ u.cur := by rwa [hc]
    have hl := ha.thread j
    rw [thread_atSlot] at hl
    unfold State.thread at hl ⊢
    rw [if_neg hne] at hl ⊢
    exact hl

/-- Slots given up one after the other. -/
theorem foldl_resetSlot (ks : List SlotNo) (s : State) :
    (∀ j ∈ ks, ((ks.foldl State.resetSlot s).thread j).phase = .idle) ∧ (∀ j, j ∉ ks → ((ks.foldl State.resetSlot s).thread j).Like (s.thread j))
    ∧ ∀ e, (ks.foldl State.resetSlot s).engine e = s.engine e := by
  induction ks generalizing s with
  | nil => exact ⟨fun j hj => (List.not_mem_nil hj).elim, fun j _ => .refl _, fun _ => rfl⟩
  | cons k r ih =>
    obtain ⟨hidle, hother, he⟩ := ih (s.resetSlot k)
    obtain ⟨hk, hj, he'⟩ := resetSlot_spec s k
    refine ⟨fun j hm => ?_, fun j hm => ?_, fun e => (he e).trans (he' e)⟩
    · by_cases hr : j ∈ r
      · exact hidle j hr
      · obtain rfl | hm := List.mem_cons.mp hm
        · exact (hother _ hr).2.2.trans hk
        · exact (hr hm).elim
    · obtain ⟨hne, hr⟩ := not_or.mp (mt List.mem_cons.mpr hm)
      exact (hother j hr).trans (hj j hne)

theorem mem_of_get_ne {α : Type} {d : α} {m : NMap α} {k : Nat} (h : NMap.get d m k ≠ d) : (k, NMap.get d m k) ∈ m := by
  induction m with
  | nil => exact (h rfl).elim
  | cons x r ih =>
    obtain ⟨j, v⟩ := x
    unfold NMap.get at h ⊢
    split
    next hj =>
      subst hj
      exact .head _
    next hj =>
      rw [if_neg hj] at h
      exact .tail _ (ih h)

/-- Every slot with an item is live. -/
theorem mem_liveSlots {s : State} {k : SlotNo} (h : (s.thread k).phase ≠ .idle) : k ∈ s.liveSlots := by
  unfold State.liveSlots
  dsimp only
  by_cases hk : k = s.cur
  · rw [hk, thread_same] at h
    rw [if_neg h, hk]
    exact List.mem_append_right _ (.head _)
  · rw [State.thread, if_neg hk] at h
    have hmem : k ∈ s.slots.filterMap fun c => if c.2.phase = .idle then none else some (BitVec.ofNat 11 c.1) := by
      refine List.mem_filterMap.mpr ⟨_, mem_of_get_ne (d := ({} : Thread)) (k := k.toNat) fun hd => h (by rw [hd]), ?_⟩
      rw [if_neg h]
      simp
    split
    · exact hmem
    · have hne : k.toNat ≠ s.cur.toNat := fun he => hk (BitVec.eq_of_toNat_eq he)
      rcases Nat.lt_or_gt_of_ne hne with hlt | hgt
      · exact List.mem_append_left _ (List.mem_filter.mpr ⟨hmem, by simpa using hlt⟩)
      · exact List.mem_append_right _ (.tail _ (List.mem_filter.mpr ⟨hmem, by simpa using hgt⟩))

/-! ### The engines and the groups of a partition -/

section
variable (s : State) (part : BitVec 4)

/-- An engine of a partition cleared (05 R109). -/
def State.clearEngine (part : BitVec 4) (s : State) (e : Nat) : State :=
  if (s.engine (BitVec.ofNat 10 e)).part = some part then s.setEngine (BitVec.ofNat 10 e) { part := some part } else s

theorem setEngine_base (e : BitVec 10) (g : Engine) : s.Base (s.setEngine e g) := by
  unfold State.setEngine
  split
  · exact .of rfl rfl rfl rfl rfl rfl rfl
  · exact .of rfl rfl rfl rfl rfl rfl rfl
theorem clearEngine_base (e : Nat) : s.Base (State.clearEngine part s e) ∧ (State.clearEngine part s e).thr = s.thr := by
  unfold State.clearEngine
  split
  · exact ⟨setEngine_base .., setEngine_thr ..⟩
  · exact ⟨.refl s, rfl⟩

/-- The first `n` engines cleared, where they are of the partition. -/
theorem foldl_clearEngine {n k : Nat} (hn : n ≤ 768) (hk : k < 768) : ((List.range n).foldl (State.clearEngine part) s).engine (BitVec.ofNat 10 k)
    = if k < n ∧ (s.engine (BitVec.ofNat 10 k)).part = some part then { part := some part } else s.engine (BitVec.ofNat 10 k) := by
  induction n with
  | zero =>
    rw [if_neg (by omega)]
    rfl
  | succ n ih =>
    rw [List.range_succ, List.foldl_append]
    generalize (List.range n).foldl (State.clearEngine part) s = u at ih
    have ih := ih (by omega)
    change (State.clearEngine part u n).engine (BitVec.ofNat 10 k) = _
    unfold State.clearEngine
    by_cases hkn : k = n
    · subst hkn
      rw [if_neg (by omega)] at ih
      rw [ih]
      split
      next hp => rw [engine_setEngine, if_pos rfl, if_pos ⟨by omega, hp⟩]
      next hp => rw [ih, if_neg (by simp [hp])]
    · have hne : BitVec.ofNat 10 k ≠ BitVec.ofNat 10 n := fun h => hkn (ofNat_engine_inj hk (by omega) h)
      have hset : (if (u.engine (BitVec.ofNat 10 n)).part = some part then u.setEngine (BitVec.ofNat 10 n) { part := some part } else u).engine
          (BitVec.ofNat 10 k) = u.engine (BitVec.ofNat 10 k) := by
        split
        · rw [engine_setEngine, if_neg hne]
        · rfl
      rw [hset, ih, if_congr (by rw [show k < n ↔ k < n + 1 by omega]) rfl rfl]
theorem foldl_clearEngine_base (es : List Nat) : s.Base (es.foldl (State.clearEngine part) s) ∧ (es.foldl (State.clearEngine part) s).thr = s.thr := by
  refine foldl_keeps (fun u => s.Base u ∧ u.thr = s.thr) _ (fun u e hu => ?_) es s ⟨.refl s, rfl⟩
  obtain ⟨hb, ht⟩ := clearEngine_base u part e
  exact ⟨hu.1.trans hb, ht.trans hu.2⟩

theorem resetEngines_frame (uids : List Nat) : ∃ u calls sends q, u = (List.range 768).foldl (State.clearEngine part) s
    ∧ s.resetEngines part uids = { u with calls := calls, sends := sends, cmdq := q } := ⟨_, _, _, _, rfl, rfl⟩
theorem resetEngines_base (uids : List Nat) : s.Base (s.resetEngines part uids) ∧ (s.resetEngines part uids).thr = s.thr := by
  obtain ⟨u, calls, sends, q, hu, h⟩ := resetEngines_frame s part uids
  have hfold := foldl_clearEngine_base s part (List.range 768)
  rw [← hu] at hfold
  rw [h]
  exact ⟨hfold.1.trans (.of rfl rfl rfl rfl rfl rfl rfl), hfold.2⟩
theorem resetEngines_engine (uids : List Nat) {k : Nat} (hk : k < 768) : (s.resetEngines part uids).engine (BitVec.ofNat 10 k)
    = if (s.engine (BitVec.ofNat 10 k)).part = some part then { part := some part } else s.engine (BitVec.ofNat 10 k) := by
  obtain ⟨u, calls, sends, q, hu, h⟩ := resetEngines_frame s part uids
  have hfold := foldl_clearEngine s part (Nat.le_refl 768) hk
  rw [← hu] at hfold
  rw [h]
  exact hfold.trans (if_congr (and_iff_right hk) rfl rfl)

/-- The groups of a partition dissolved: the others stay, and with them all that is no group. -/
theorem resetGroups_still : State.Still { s with groups := s.groups.filter fun g => g.part ≠ part } (s.resetGroups part) :=
  foldl_still (fun _ _ => .getD fun _ ht => agentWrite_still ht) _ _

/-! ### The launches of a partition -/

theorem cancelLaunches_still : s.Still (s.cancelLaunches part) := foldl_still (fun s _ => finishLaunch_still s _ 5) _ s
theorem resetQueues_still : s.Still (s.resetQueues part) := ⟨.of rfl rfl rfl rfl rfl rfl rfl, rfl, fun _ => rfl⟩
theorem resetTrace_still : s.Still (s.resetTrace part) := ⟨.of rfl rfl rfl rfl rfl rfl rfl, rfl, fun _ => rfl⟩

/-- Launches ended one after the other are gone. -/
theorem foldl_finishLaunch (g : Launch → Launch) (hg : ∀ l, (g l).id = l.id) (ls : List Launch) (status : Nat) :
    ∀ m ∈ (ls.foldl (fun s l => s.finishLaunch (g l) status) s).launches, ∀ l ∈ ls, m.id ≠ l.id := by
  induction ls generalizing s with
  | nil => exact fun m _ l hl => (List.not_mem_nil hl).elim
  | cons x r ih =>
    intro m hm l hl
    obtain rfl | hl := List.mem_cons.mp hl
    · obtain ⟨n, hn, hid, -⟩ := (foldl_still (fun s l => finishLaunch_still s (g l) status) r (s.finishLaunch (g l) status)).launches m hm
      rw [← hid, ← hg l]
      exact finishLaunch_launches s _ status n hn
    · exact ih (s.finishLaunch (g x) status) m hm l hl

theorem cancelLaunches_launches : ∀ l ∈ (s.cancelLaunches part).launches, l.part ≠ part := by
  intro l hl hp
  obtain ⟨m, hm, hid, hpart⟩ := (cancelLaunches_still s part).launches l hl
  refine foldl_finishLaunch s (fun l => { l with cancelled := true, failed := BitVec.ofNat 32 (l.expected - l.ok.toNat) }) (fun _ => rfl)
    (s.launches.filter fun l => l.part = part) 5 l hl m (List.mem_filter.mpr ⟨hm, ?_⟩) hid.symm
  simpa using hpart.trans hp
end

/-! ### The reset of a partition -/

/-- The items that a reset ends: those in slots, the parked and the saved. -/
def State.endsOf (s : State) (part : BitVec 4) : List (Option SlotNo × Thread) :=
  ((s.liveSlots.filter fun k => (s.thread k).part = part).map fun k => (some k, s.thread k))
    ++ ((s.parked.filter fun p => p.thr.part = part).map fun p => (some p.slot, p.thr))
    ++ (s.saved.filter fun v => v.thr.part = part).map fun v => (none, v.thr)

/-- Parked and saved items of a partition, and packets that carry its number, dropped. -/
def State.dropItems (s : State) (part : BitVec 4) : State :=
  { s with parked := s.parked.filter fun p => p.thr.part ≠ part, saved := s.saved.filter fun v => v.thr.part ≠ part
           flights := s.flights.filter fun f => f.part ≠ part }

/-- The engines and the groups of a partition cleared, and the matrix claims of its items released. -/
def State.clearHeld (s : State) (part : BitVec 4) (uids : List Nat) : State :=
  let u := (s.resetEngines part uids).resetGroups part
  { u with units := u.units.filter fun x => !uids.any fun uid => x.2.owner = some uid }

/-- The state in which a reset ends its items: their slots given up, and what they have dropped and cleared. -/
def State.beforeEnds (s : State) (part : BitVec 4) : State :=
  (((s.liveSlots.filter fun k => (s.thread k).part = part).foldl State.resetSlot s).dropItems part).clearHeld part
    ((s.endsOf part).map fun x => x.2.src.uid)

section
variable {s : State} {part : BitVec 4}

theorem resetPartition_eq : s.resetPartition part = (((s.endsOf part).foldlM (fun u x => State.resetItem u false x) (s.beforeEnds part)).map
    fun u => ((u.resetQueues part).cancelLaunches part).resetTrace part) := by
  have hslots : ((s.liveSlots.filter fun k => (s.thread k).part = part).map fun k => (some k, s.thread k)).filterMap (·.1)
      = s.liveSlots.filter fun k => (s.thread k).part = part := by
    rw [List.filterMap_map]
    exact List.filterMap_some
  unfold State.resetPartition State.beforeEnds State.clearHeld State.dropItems
  dsimp only
  rw [hslots]
  exact Option.map_eq_bind.symm

theorem clearHeld_spec (s : State) (part : BitVec 4) (uids : List Nat) : (∀ k, (s.clearHeld part uids).thread k = s.thread k)
    ∧ (∀ p ∈ (s.clearHeld part uids).parked, ∃ q ∈ s.parked, q.thr = p.thr) ∧ (s.clearHeld part uids).saved = s.saved
    ∧ (s.clearHeld part uids).flights = s.flights ∧ (∀ g ∈ (s.clearHeld part uids).groups, g.part ≠ part)
    ∧ ∀ k < 768, (s.clearHeld part uids).engine (BitVec.ofNat 10 k)
        = if (s.engine (BitVec.ofNat 10 k)).part = some part then { part := some part } else s.engine (BitVec.ofNat 10 k) := by
  obtain ⟨hb, ht⟩ := resetEngines_base s part uids
  have hk (k) := resetEngines_engine s part uids (k := k)
  obtain ⟨v, hv⟩ : ∃ v, v = s.resetEngines part uids := ⟨_, rfl⟩
  unfold State.clearHeld
  rw [← hv] at hb ht hk ⊢
  have hg := resetGroups_still v part
  have hc := hg.calm
  refine ⟨fun k => (hc.thread k).trans ?_, fun p hp => ?_, hc.saved.trans hb.saved, hc.flights.trans hb.flights, fun g hm => ?_, fun k hk768 =>
    (hg.engine _).trans (hk k hk768)⟩
  · unfold State.thread
    dsimp only
    rw [hb.cur, hb.slots, ht]
  · obtain ⟨q, hq, hqp⟩ := hc.parked p hp
    obtain ⟨r, hr, hrq⟩ := hb.parked q hq
    exact ⟨r, hr, hrq.trans hqp⟩
  · change g ∈ (v.resetGroups part).groups at hm
    rw [hc.groups] at hm
    simpa using (List.mem_filter.mp hm).2

/-- What stands before a reset ends its items: its slots are idle, the others keep their threads, and nothing of it is parked, saved, grouped
or on its way. -/
theorem beforeEnds_spec (s : State) (part : BitVec 4) :
    (∀ k, (s.thread k).part = part → ((s.beforeEnds part).thread k).phase = .idle)
    ∧ (∀ k, (s.thread k).part ≠ part → ((s.beforeEnds part).thread k).Like (s.thread k))
    ∧ (∀ p ∈ (s.beforeEnds part).parked, p.thr.part ≠ part) ∧ (∀ v ∈ (s.beforeEnds part).saved, v.thr.part ≠ part)
    ∧ (∀ g ∈ (s.beforeEnds part).groups, g.part ≠ part) ∧ (∀ f ∈ (s.beforeEnds part).flights, f.part ≠ part)
    ∧ ∀ k < 768, (s.beforeEnds part).engine (BitVec.ofNat 10 k)
        = if (s.engine (BitVec.ofNat 10 k)).part = some part then { part := some part } else s.engine (BitVec.ofNat 10 k) := by
  obtain ⟨hidle, hother, he⟩ := foldl_resetSlot (s.liveSlots.filter fun k => (s.thread k).part = part) s
  obtain ⟨u, hu⟩ : ∃ u, u = (s.liveSlots.filter fun k => (s.thread k).part = part).foldl State.resetSlot s := ⟨_, rfl⟩
  obtain ⟨hthr, hparked, hsaved, hflights, hgroups, heng⟩ := clearHeld_spec (u.dropItems part) part ((s.endsOf part).map fun x => x.2.src.uid)
  unfold State.beforeEnds
  rw [← hu] at hidle hother he ⊢
  refine ⟨fun k hk => ?_, fun k hk => ?_, fun p hp => ?_, fun v hv => ?_, hgroups, fun f hf => ?_, fun k hk => ?_⟩
  · rw [hthr]
    change (u.thread k).phase = .idle
    by_cases hlive : k ∈ s.liveSlots.filter fun k => (s.thread k).part = part
    · exact hidle k hlive
    · refine (hother k hlive).2.2.trans ?_
      by_contra hne
      exact hlive (List.mem_filter.mpr ⟨mem_liveSlots hne, by simpa using hk⟩)
  · rw [hthr]
    exact hother k fun h => hk (by simpa using (List.mem_filter.mp h).2)
  · obtain ⟨q, hq, hqp⟩ := hparked p hp
    rw [← hqp]
    simpa using (List.mem_filter.mp hq).2
  · rw [hsaved] at hv
    simpa using (List.mem_filter.mp hv).2
  · rw [hflights] at hf
    simpa using (List.mem_filter.mp hf).2
  · have hdrop (e : BitVec 10) : (u.dropItems part).engine e = s.engine e := he e
    rw [heng k hk, hdrop]

/-- Has an item a join counter, or a report that is due (log 62)? -/
def Thread.owes (t : Thread) : Prop := t.src.join ≠ 0 ∨ t.term.isSome = true ∧ t.reported = false

theorem mem_endsOf {s : State} {part : BitVec 4} {x : Option SlotNo × Thread} (h : x ∈ s.endsOf part) : x.2.part = part
    ∧ ((∃ k, s.thread k = x.2) ∨ (∃ p ∈ s.parked, p.thr = x.2) ∨ ∃ v ∈ s.saved, v.thr = x.2) := by
  obtain h | h := List.mem_append.mp h
  · obtain h | h := List.mem_append.mp h
    · obtain ⟨k, hk, rfl⟩ := List.mem_map.mp h
      exact ⟨by simpa using (List.mem_filter.mp hk).2, .inl ⟨k, rfl⟩⟩
    · obtain ⟨p, hp, rfl⟩ := List.mem_map.mp h
      exact ⟨by simpa using (List.mem_filter.mp hp).2, .inr (.inl ⟨p, (List.mem_filter.mp hp).1, rfl⟩)⟩
  · obtain ⟨v, hv, rfl⟩ := List.mem_map.mp h
    exact ⟨by simpa using (List.mem_filter.mp hv).2, .inr (.inr ⟨v, (List.mem_filter.mp hv).1, rfl⟩)⟩

/-- A reset that waits has an item that owes something. -/
theorem owes_of_resetPartition_eq_none {s : State} {part : BitVec 4} (h : s.resetPartition part = none) : ∃ x ∈ s.endsOf part, x.2.owes := by
  rw [resetPartition_eq, Option.map_eq_none_iff] at h
  obtain ⟨x, hx, u, hu⟩ := exists_of_foldlM_eq_none h
  exact ⟨x, hx, resetItem_eq_none hu⟩

/-- A reset that is made ends its items one by one, and then its launches. -/
theorem resetPartition_some {s t : State} {part : BitVec 4} (h : s.resetPartition part = some t) : (s.beforeEnds part).Calm t
    ∧ (∀ l ∈ t.launches, l.part ≠ part)
    ∧ ((∀ x ∈ s.endsOf part, ¬ x.2.owes) → ∀ e, t.engine e = (s.beforeEnds part).engine e) := by
  rw [resetPartition_eq] at h
  obtain ⟨u, hu, rfl⟩ := Option.map_eq_some_iff.mp h
  have htail := ((resetQueues_still u part).trans (cancelLaunches_still (u.resetQueues part) part)).trans (resetTrace_still _ part)
  refine ⟨State.Calm.trans ?_ htail.calm, cancelLaunches_launches (u.resetQueues part) part, fun howes e => (htail.engine e).trans ?_⟩
  · exact foldlM_rel State.Calm.refl (fun h g => h.trans g) (fun x _ a b hab => resetItem_calm hab) hu
  · refine foldlM_rel (R := fun a b => ∀ e, b.engine e = a.engine e) (fun _ _ => rfl) (fun h g e => (g e).trans (h e)) (fun x hx a b hab => ?_) hu e
    obtain ⟨hj, hr⟩ := not_or.mp (howes x hx)
    exact resetItem_engine (not_not.mp hj) hr hab
end

/-! ### The assignment of engines (05 R108) -/

theorem setEngine_frame (s : State) (e : BitVec 10) (g : Engine) :
    s.setEngine e g = { s with eng := (s.setEngine e g).eng, engines := (s.setEngine e g).engines } := by
  unfold State.setEngine
  split <;> rfl

theorem queueDepth_pos {s : State} {e : Nat} : 0 < s.queueDepth e ↔ ∃ c ∈ NMap.get [] s.cmdq (e / 64), e ∈ c.left := by
  rw [State.queueDepth, List.length_pos_iff_exists_mem]
  simp [List.mem_filter]

/-- An engine that is busy, or that a queued command is addressed to, is not moved. -/
theorem enginePartitionAssign_eq {s : State} (he : s.input.unit < 768) : exec .enginePartitionAssign s = .next (
    if (s.engine (BitVec.ofNat 10 s.input.unit)).busy = true ∨ 0 < s.queueDepth s.input.unit then s
    else s.setEngine (BitVec.ofNat 10 s.input.unit) { s.engine (BitVec.ofNat 10 s.input.unit) with
      part := if s.input.flag then none else some (BitVec.ofNat 4 s.input.aux) }) := by
  change execEnginePartitionAssign s = _
  unfold execEnginePartitionAssign
  rw [event_next]
  dsimp only
  rw [if_neg (by omega)]
  by_cases h : (s.engine (BitVec.ofNat 10 s.input.unit)).busy = true ∨ 0 < s.queueDepth s.input.unit
  · rw [if_pos h, if_pos (by simpa using h)]
    rfl
  · rw [if_neg h, if_neg (by simpa using h)]
    rfl

/-! ### A peer that does not answer (14 R304) -/

/-- A queued store whose peer has not answered. -/
def State.storeTimeout (s : State) : Option State := do
  let e ← s.thr.sq.head?
  if e.peers.isEmpty || s.thr.sqStuck e then none else some (s.failStore e)

/-- An open access whose peer has not answered. -/
def State.loadTimeout (s : State) : Option State := do
  let o ← s.thr.openOuts.head?
  let a ← (s.outBytes o).1.find? fun a => ((s.withRoot o.root).peerLeaf a).isSome
  some (s.meetsTrap o ⟨cNOTMAPPED, a, BitVec.ofNat 64 (((s.withRoot o.root).peerLeaf a).getD 0)⟩)

theorem peerTimeout_eq (s : State) : exec .peerTimeout s = slotEvent (fun s => if s.input.flag then s.storeTimeout else s.loadTimeout) s := rfl

section
variable {s : State}

theorem peerTimeout_store (h : s.input.flag = true) : exec .peerTimeout s = .next ((s.atSlot s.input.slot).storeTimeout.getD s) := by
  rw [peerTimeout_eq, slotEvent, event_next, atSlot_input, if_pos h]
theorem peerTimeout_load (h : s.input.flag = false) : exec .peerTimeout s = .next ((s.atSlot s.input.slot).loadTimeout.getD s) := by
  rw [peerTimeout_eq, slotEvent, event_next, atSlot_input, h, if_neg Bool.false_ne_true]

theorem storeTimeout_eq {q : SqEntry} (h : s.thr.sq.head? = some q) :
    s.storeTimeout = if q.peers = [] ∨ s.thr.sqStuck q = true then none else some (s.failStore q) := by
  unfold State.storeTimeout
  rw [h]
  exact if_congr (by simp) rfl rfl

/-- The store leaves the queue, and the item ends unless it was to end already. -/
theorem failStore_spec (s : State) (q : SqEntry) : (s.failStore q).thr.sq = s.thr.sq.filter (fun e => e.no ≠ q.no) ∧ s.sameBytes (s.failStore q)
    ∧ (s.failStore q).thr.term = match s.thr.term with
      | some f => some f
      | none => some { cause := 0x0101, pc := q.pc, addr := q.ea, time := s.time, info := 4 } := by
  refine ⟨?_, fun l key => by cases l <;> rfl, ?_⟩
  · change ((Thread.fail _ _).sq : List SqEntry) = _
    unfold Thread.fail
    split <;> rfl
  · change (Thread.fail { s.thr with sq := s.thr.sq.filter fun u => u.no ≠ q.no } _).term = _
    unfold Thread.fail
    dsimp only
    cases s.thr.term <;> rfl

/-- A byte of a peer: its leaf names another device, or the walk to it has met one (04 R91, R94). -/
theorem peerLeaf_eq_some {a : Word} {n : Nat} : s.peerLeaf a = some n ↔ spaceOf a = 0 ∧
    match s.lookup (some s.cl) s.thr.root s.thr.vf (offsetOf a) false with
    | .ok y => y.peer ≠ 0 ∧ y.peer ≠ s.deviceId.toNat ∧ n = whyInfo y.level 4
    | .error w => w % 16 = 4 ∧ n = w := by
  unfold State.peerLeaf
  by_cases hs : spaceOf a = 0
  · rw [if_neg (by simp [hs])]
    cases s.lookup (some s.cl) s.thr.root s.thr.vf (offsetOf a) false with
    | ok y =>
      dsimp only
      rw [Option.ite_none_right_eq_some, Option.some_inj, Bool.and_eq_true, decide_eq_true_iff, decide_eq_true_iff, and_assoc,
        eq_comm (a := whyInfo y.level 4)]
      exact (and_iff_right hs).symm
    | error w =>
      dsimp only
      rw [Option.ite_none_right_eq_some, Option.some_inj, eq_comm (a := w)]
      exact (and_iff_right hs).symm
  · rw [if_pos hs]
    simp [hs]

/-- The oldest open access faults at its first byte of a peer. -/
theorem loadTimeout_eq {o : Out} (h : s.thr.openOuts.head? = some o) (ho : o.opc ≠ 0x63) : s.loadTimeout =
    (o.bytes.find? fun a => ((s.withRoot o.root).peerLeaf a).isSome).map fun a =>
      s.meetsTrap o ⟨cNOTMAPPED, a, BitVec.ofNat 64 (((s.withRoot o.root).peerLeaf a).getD 0)⟩ := by
  have hb : (s.outBytes o).1 = o.bytes := by
    unfold State.outBytes
    exact congrArg Prod.fst (if_neg ho)
  unfold State.loadTimeout
  rw [h, ← hb]
  exact Option.map_eq_bind.symm

theorem meetsTrap_running {o : Out} {t : Trap} (h : ∀ k, s.thr.phase ≠ .ended k) : s.meetsTrap o t = s.failOut o t := by
  unfold State.meetsTrap
  split
  next k hk => exact (h k hk).elim
  · rfl

/-- The first element of a list that satisfies a predicate, by its place. -/
theorem find?_of_first {α : Type} {p : α → Bool} {l : List α} {d : α} {i : Nat} (hi : i < l.length) (h : p (l.getD i d) = true)
    (hfirst : ∀ j < i, p (l.getD j d) = false) : l.find? p = some (l.getD i d) := by
  refine List.find?_eq_some_iff_getElem.mpr ⟨h, i, hi, (List.getD_eq_getElem _ _ hi).symm, fun j hj => ?_⟩
  rw [← List.getD_eq_getElem _ d (hj.trans hi), hfirst j hj]
  rfl
end

/-! ### The obligation -/

/-- Settles O48: a reset keeps what is no item, group or packet of its partition through each of its steps (`Calm`). -/
theorem partitionsAndPeers : Obligations.PartitionsAndPeers := by
  refine ⟨fun s => ?_, fun s => ?_⟩
  · intro part e g joins
    refine ⟨fun h => ?_, fun h => ?_, fun t h => ⟨?_, ?_⟩, fun he => ⟨fun hb => ?_, fun hb hc => ?_⟩⟩
    · exact congrArg (fun o : Option State => Host.Outcome.next (o.getD s)) h
    · obtain ⟨x, hx, howes⟩ := owes_of_resetPartition_eq_none h
      obtain ⟨hp, ⟨k, hk⟩ | ⟨p, hpm, hk⟩ | ⟨v, hv, hk⟩⟩ := mem_endsOf hx
      · exact .inl ⟨k, hk ▸ ⟨hp, howes⟩⟩
      · exact .inr (.inl ⟨p, hpm, hk ▸ ⟨hp, howes⟩⟩)
      · exact .inr (.inr ⟨v, hv, hk ▸ ⟨hp, howes⟩⟩)
    · exact congrArg (fun o : Option State => Host.Outcome.next (o.getD s)) h
    · obtain ⟨hidle, hother, hparked, hsaved, hgroups, hflights, heng⟩ := beforeEnds_spec s part
      obtain ⟨hcalm, hlaunches, hengine⟩ := resetPartition_some h
      refine ⟨fun k hk => ?_, fun k hk => ?_, fun p hp => ?_, fun v hv => ?_, fun g hg => ?_, hlaunches, fun f hf => ?_, fun hs hp hv k hk => ?_⟩
      · rw [hcalm.thread]
        exact hidle k hk
      · rw [hcalm.thread]
        exact hother k hk
      · obtain ⟨q, hq, hqp⟩ := hcalm.parked p hp
        exact hqp ▸ hparked q hq
      · exact hsaved v (hcalm.saved ▸ hv)
      · exact hgroups g (hcalm.groups ▸ hg)
      · exact hflights f (hcalm.flights ▸ hf)
      · refine (hengine (fun x hx howes => ?_) _).trans (heng k hk)
        obtain ⟨hpart, ⟨k, hk⟩ | ⟨p, hpm, hk⟩ | ⟨v, hvm, hk⟩⟩ := mem_endsOf hx
        · exact hs k (hk ▸ ⟨hpart, howes⟩)
        · exact hp p hpm (hk ▸ ⟨hpart, howes⟩)
        · exact hv v hvm (hk ▸ ⟨hpart, howes⟩)
    · refine (enginePartitionAssign_eq he).trans (congrArg _ (if_pos ?_))
      exact hb.imp_right queueDepth_pos.mpr
    · have hfree : ¬ (g.busy = true ∨ 0 < s.queueDepth e) := by
        rintro (hbusy | hdepth)
        · rw [hb] at hbusy
          cases hbusy
        · obtain ⟨c, hm, hl⟩ := queueDepth_pos.mp hdepth
          exact hc c hm hl
      refine ⟨_, (enginePartitionAssign_eq he).trans (congrArg _ (if_neg hfree)), ?_, fun k hk => ?_, setEngine_frame ..⟩
      · rw [engine_setEngine, if_pos rfl]
      · rw [engine_setEngine, if_neg hk]
  · intro x peer
    have hpeer (o : Out) (a : Word) (n : Nat) : (x.withRoot o.root).peerLeaf a = some n ↔ peer (x.withRoot o.root) a n := peerLeaf_eq_some
    refine ⟨fun hf hq => ?_, fun q hf hq => ⟨fun hno => ?_, fun hp hst => ?_⟩, fun o hf ho hopc => ?_⟩
    · rw [peerTimeout_store hf, State.storeTimeout, hq]
      rfl
    · rw [peerTimeout_store hf, storeTimeout_eq hq, if_pos hno]
      rfl
    · rw [peerTimeout_store hf, storeTimeout_eq hq, if_neg (by simp [hp, hst])]
      exact ⟨_, rfl, failStore_spec ..⟩
    · intro bytes u
      have hbytes : o.bytes = bytes := by rw [Out.bytes, fld_eq]
      have hfind := loadTimeout_eq (s := x) ho hopc
      rw [hbytes] at hfind
      have hno {a : Word} (h : ∀ n, ¬ peer u a n) : (u.peerLeaf a).isSome = false := by
        rw [Option.isSome_eq_false_iff, Option.isNone_iff_eq_none, Option.eq_none_iff_forall_ne_some]
        exact fun n hn => h n ((hpeer o a n).mp hn)
      refine ⟨fun hall => ?_, fun i n hi hn hfirst hph => ?_⟩
      · rw [peerTimeout_load hf, hfind, List.find?_eq_none.mpr fun a ha => Bool.eq_false_iff.mp (hno (hall a ha))]
        rfl
      · have hleaf : u.peerLeaf (bytes.getD i 0) = some n := (hpeer o _ n).mpr hn
        rw [find?_of_first hi (d := 0) (by rw [hleaf]; rfl) fun j hj => hno (hfirst j hj), Option.map_some, hleaf, meetsTrap_running hph] at hfind
        rw [peerTimeout_load hf, hfind]
        have hmem : o ∈ x.thr.outs := (List.mem_filter.mp (List.mem_of_mem_head? ho)).1
        obtain ⟨-, -, hp, -⟩ := failOut_spec x ⟨cNOTMAPPED, bytes.getD i 0, BitVec.ofNat 64 n⟩ hmem
        exact ⟨_, rfl, fun l key => by cases l <;> rfl, rfl, hp⟩

end Sys2Proof.Machine
end

section
/-!
PROOFS. The channels of a thread: what stands at their heads, and what enters and leaves them (06 R139-R145, R148, R159).
-/
namespace Sys2Proof.Machine

/-! ### What a channel holds -/

section
variable {s : State}

/-- No thread, number or event holds a byte of a location. -/
theorem sameBytes_withThr (t : Thread) : s.sameBytes (s.withThr t) := fun l key => by cases l <;> rfl
theorem sameBytes_opNo (n : Nat) : s.sameBytes { s with opNo := n } := fun l key => by cases l <;> rfl
theorem sameBytes_events (ev : List Ev) : s.sameBytes { s with events := ev } := fun l key => by cases l <;> rfl
theorem sameBytes_setChan (k : Nat) (h : Chan) : s.sameBytes (s.setChan k h) := sameBytes_withThr _

theorem State.sameBytes.trans {t u : State} (h : s.sameBytes t) (g : t.sameBytes u) : s.sameBytes u :=
  fun l key => (g l key).trans (h l key)

theorem chan_setChan {k : Nat} (hk : k < 4) (h : Chan) (j : Nat) : (s.setChan k h).chan j = if j = k then h else s.chan j := by
  change (s.thr.chans.setIfInBounds k h).toArray.getD j {} = if j = k then h else s.thr.chans.toArray.getD j {}
  by_cases hjk : j = k
  · subst hjk
    simp [Array.getD, hk]
  · by_cases hj : j < 4
    · simp [Array.getD, hj, hjk, Ne.symm hjk]
    · simp [Array.getD, hj, hjk]
theorem chan_setChan_same {k : Nat} (hk : k < 4) (h : Chan) : (s.setChan k h).chan k = h := by rw [chan_setChan hk, if_pos rfl]
theorem setChan_setChan (k : Nat) (g h : Chan) : (s.setChan k g).setChan k h = s.setChan k h := by
  simp [State.setChan]

/-- The unfinished copies of a thread stand in its four channels. -/
theorem mem_copies {c : Copy} : c ∈ s.thr.copies ↔ ∃ j < 4, c ∈ (s.chan j).queue := by
  unfold Thread.copies State.chan
  rw [List.mem_flatMap]
  constructor
  · rintro ⟨h, hm, hc⟩
    obtain ⟨j, hj, rfl⟩ := List.mem_iff_getElem.mp hm
    have hj4 : j < 4 := by simpa using hj
    exact ⟨j, hj4, by simpa [Array.getD, hj4] using hc⟩
  · rintro ⟨j, hj, hc⟩
    exact ⟨s.thr.chans[j], by simp, by simpa [Array.getD, hj] using hc⟩

/-- A channel whose oldest copy has delivered so many more units. -/
def Chan.withHead (h : Chan) (c : Copy) (n : Nat) : Chan := { h with queue := c :: h.queue.drop 1, wp := h.wp + BitVec.ofNat 32 n }

theorem setHead_eq {k : Nat} {o : Copy} {r : List Copy} (h : (s.chan k).queue = o :: r) (c : Copy) :
    s.setHead k c = s.setChan k ((s.chan k).withHead c (c.units - o.units)) := by
  unfold State.setHead Chan.withHead
  dsimp only
  rw [h]
  rfl

/-! ### A copy completes (R148, R159) -/

/-- A channel that its oldest copy has left, counted there. -/
def Chan.counted (h : Chan) : Chan := { h with queue := h.queue.drop 1, done := h.done + 1 }

/-- The thread with its open batches replaced. -/
def State.withBatches (s : State) (bs : List (BitVec 16)) : State := s.withThr { s.thr with batches := bs }

theorem finishBatch_untraced (h : s.thr.tracedItem = false) (b : Option (BitVec 16)) : ∃ bs, s.finishBatch b = s.withBatches bs := by
  unfold State.finishBatch
  split
  · exact ⟨s.thr.batches, rfl⟩
  · split
    · exact ⟨s.thr.batches, rfl⟩
    · exact ⟨_, emitItem_untraced (by exact h) ..⟩

/-- A copy that completes leaves its channel and is counted there; a batch that it finishes is open no longer. -/
theorem completeCopy_untraced (h : s.thr.tracedItem = false) {k : Nat} (hk : k < 4) (c : Copy) :
    ∃ bs, s.completeCopy k c = (s.setChan k (s.chan k).counted).withBatches bs := by
  unfold State.completeCopy State.copyDone
  dsimp only
  rw [chan_setChan_same hk, setChan_setChan, emitItem_untraced (by exact h)]
  exact finishBatch_untraced (s := s.setChan k (s.chan k).counted) h c.batch

/-! ### What stands at the head of a channel (R141, R150, R151) -/

theorem stopsCopies_iff : s.stopsCopies = true
    ↔ s.thr.term.isSome = true ∨ s.thr.preempt = .flush ∧ s.rewound.flushable = true ∧ s.curDbg.stopped = false := by
  simp [State.stopsCopies, and_assoc]

/-- A handler is not flushed where it stands (20 R396). -/
theorem rewound_priv : s.rewound.thr.priv = s.thr.priv := by
  unfold State.rewound
  split
  · split <;> rfl
  · rfl
theorem not_flushable (h : s.thr.priv = true) : s.rewound.flushable = false := by
  have hp : s.rewound.thr.priv = true := rewound_priv.trans h
  simp [State.flushable, State.takable, hp]

/-- Nothing of the item holds back what stands at the head of a channel and needs no engine. -/
structure State.PassesOn (s : State) : Prop where
  untraced : s.thr.tracedItem = false
  running : s.thr.term = none
  unflushed : s.thr.preempt = .flush → s.thr.priv = true ∨ s.curDbg.stopped = true

theorem State.PassesOn.not_traceWaits (h : s.PassesOn) : s.traceWaits = false := by
  simp [State.traceWaits, State.heldEvents, h.untraced]
theorem State.PassesOn.not_stops (h : s.PassesOn) : s.stopsCopies = false := by
  rw [Bool.eq_false_iff, ne_eq, stopsCopies_iff, h.running]
  rintro (hn | ⟨hf, hr, hd⟩)
  · cases hn
  · rcases h.unflushed hf with hp | hs
    · rw [not_flushable hp] at hr
      cases hr
    · rw [hd] at hs
      cases hs
theorem State.PassesOn.setChan (h : s.PassesOn) (k : Nat) (c : Chan) : (s.setChan k c).PassesOn := ⟨h.untraced, h.running, h.unflushed⟩

section
variable {k : Nat}

theorem passMasked_empty (h : (s.chan k).queue = []) (n : Nat) : s.passMasked k n = s := by
  cases n with
  | zero => rfl
  | succ n =>
    unfold State.passMasked
    rw [h]
    rfl

/-- One step at the head of a channel. -/
theorem passMasked_succ {c : Copy} (h : (s.chan k).queue.head? = some c) (n : Nat) : s.passMasked k (n + 1) =
    if s.traceWaits || c.sectorsAsked || s.stopsCopies then s
    else if c.total ≤ c.units then (s.completeCopy k c).passMasked k n
    else if c.masked then (s.setHead k c.delivered).passMasked k n
    else s := by
  conv_lhs => unfold State.passMasked
  rw [h]

theorem passMasked_stops (h : s.stopsCopies = true) (n : Nat) : s.passMasked k n = s := by
  cases n with
  | zero => rfl
  | succ n =>
    cases hq : (s.chan k).queue.head? with
    | none => exact passMasked_empty (List.head?_eq_none_iff.mp hq) _
    | some c => rw [passMasked_succ hq, if_pos (by simp [h])]

/-- A unit that an engine has to move stays. -/
theorem passMasked_work {c : Copy} (hq : (s.chan k).queue.head? = some c) (hm : c.masked = false) (hu : c.units < c.total) (n : Nat) :
    s.passMasked k n = s := by
  cases n with
  | zero => rfl
  | succ n =>
    rw [passMasked_succ hq, if_neg (Nat.not_le.mpr hu), hm, if_neg Bool.false_ne_true]
    exact ite_self _

end
end

/-- A copy of element rows whose units from the next one on are all masked (R141). -/
structure Copy.AllMasked (c : Copy) : Prop where
  kind : c.kind = .cpin ∨ c.kind = .cpout ∨ c.kind = .cpp
  unasked : c.sectorsAsked = false
  empty : ∀ u, c.units ≤ u → u < c.total → c.grid.unitElems c.edge u = []

section
variable {c : Copy}

theorem Copy.AllMasked.masked (h : c.AllMasked) (hu : c.units < c.total) : c.masked = true := by
  have hrow : (c.grid.unitElems c.edge c.units).isEmpty = true := by rw [h.empty _ (Nat.le_refl _) hu]; rfl
  unfold Copy.masked
  rcases h.kind with hk | hk | hk <;> rw [hk] <;> exact hrow
theorem Copy.AllMasked.delivered (h : c.AllMasked) : c.delivered.AllMasked :=
  ⟨h.kind, h.unasked, fun u hu => h.empty u (Nat.le_of_succ_le hu)⟩
end

/-- A channel whose only copy has passed with so many units. -/
def Chan.passed (h : Chan) (m : Nat) : Chan := { h with queue := [], wp := h.wp + BitVec.ofNat 32 m, done := h.done + 1 }

/-- A copy alone in its channel whose units are all masked is delivered and completes, a unit at a time. -/
theorem passMasked_all {k : Nat} (hk : k < 4) (m : Nat) : ∀ {s : State} {c : Copy} {n : Nat}, s.PassesOn → (s.chan k).queue = [c] →
    c.AllMasked → c.total = c.units + m → m < n →
    (s.passMasked k n).chan k = (s.chan k).passed m ∧ s.sameBytes (s.passMasked k n) := by
  induction m with
  | zero =>
    intro s c n hs hq hc ht hn
    obtain ⟨n, rfl⟩ := Nat.exists_eq_add_one_of_ne_zero (Nat.ne_of_gt hn)
    obtain ⟨bs, hbs⟩ := completeCopy_untraced hs.untraced hk c
    have hchan : (s.completeCopy k c).chan k = (s.chan k).passed 0 := by
      have hcounted : (s.chan k).counted = (s.chan k).passed 0 := by simp [Chan.counted, Chan.passed, hq]
      rw [hbs, ← hcounted]
      exact chan_setChan_same hk _
    rw [passMasked_succ (congrArg List.head? hq), if_neg (by simp [hs.not_traceWaits, hc.unasked, hs.not_stops]), if_pos (by omega),
      passMasked_empty (congrArg Chan.queue hchan)]
    exact ⟨hchan, hbs ▸ (sameBytes_setChan _ _).trans (sameBytes_withThr _)⟩
  | succ m ih =>
    intro s c n hs hq hc ht hn
    obtain ⟨n, rfl⟩ := Nat.exists_eq_add_one_of_ne_zero (Nat.ne_of_gt (Nat.zero_lt_of_lt hn))
    rw [passMasked_succ (congrArg List.head? hq), if_neg (by simp [hs.not_traceWaits, hc.unasked, hs.not_stops]), if_neg (by omega),
      if_pos (hc.masked (by omega)), setHead_eq hq, show c.delivered.units - c.units = 1 from Nat.add_sub_cancel_left ..]
    have hstep := chan_setChan_same (s := s) hk ((s.chan k).withHead c.delivered 1)
    obtain ⟨hchan, hbytes⟩ := ih (hs.setChan k _) (by rw [hstep, Chan.withHead, hq]; rfl) hc.delivered
      (show c.total = c.units + 1 + m by omega) (Nat.lt_of_succ_lt_succ hn)
    refine ⟨hchan.trans ?_, (sameBytes_setChan _ _).trans hbytes⟩
    rw [hstep, Chan.passed, Chan.passed, Chan.withHead]
    simp only [BitVec.add_assoc, ← BitVec.ofNat_add, Nat.add_comm 1]

end Sys2Proof.Machine
end

section
/-!
PROOFS. The copy forms (06 R139-R160): the checks of each in their order, and a copy's entry into its channel.
-/
namespace Sys2Proof.Machine

/-! ### A copy enters its channel (R139, R145) -/

/-- What a copy captures of its thread at issue. -/
def Copy.issued (c : Copy) (s : State) (f : FQ) : Copy :=
  { c with no := s.opNo + 1, pc := s.thr.pc, ordinal := (s.chan f.ch.toNat).ordinal + 1, gid := s.curGid, slack := f.slack, slack0 := f.slack
           root := s.thr.root, priv := s.thr.priv }

/-- The state once a copy stands in its channel, before what needs no engine is passed. -/
def State.entered (s : State) (k : Nat) (c : Copy) : State :=
  { (s.setChan k ((s.chan k).push c)).withThr { (s.setChan k ((s.chan k).push c)).thr with unsealed := s.thr.unsealed + 1 } with
    opNo := s.opNo + 1 }

theorem entered_sameBytes (s : State) (k : Nat) (c : Copy) : s.sameBytes (s.entered k c) :=
  ((sameBytes_setChan k _).trans (sameBytes_withThr _)).trans (sameBytes_opNo (s.opNo + 1))

/-- A copy of which nothing is done yet. -/
structure Copy.Fresh (c : Copy) : Prop where
  units : c.units = 0
  part : c.part = 0
  batch : c.batch = none
  written : c.written = 0
  buffered : c.buffered = false
  asked : c.sectorsAsked = false
  cover : c.cover = []
  ahead : c.ahead = []

section
variable {s : State} {f : FQ}

section
variable {c : Copy}

/-- A copy form waits for a place in its channel, then for a scoreboard entry. -/
theorem noPlace_wait {α : Type} (h : 8 ≤ (s.chan f.ch.toNat).queue.length ∨ s.entryFree = false) (g : Unit → Res α) :
    (s.waitFor ((s.chan f.ch.toNat).queue.length < 8) >>= fun _ => s.waitFor (s.entryFree = true) >>= g) = .error (.wait s) := by
  by_cases hl : (s.chan f.ch.toNat).queue.length < 8
  · have he : s.entryFree = false := h.resolve_left (by omega)
    exact (waitFor_bind hl _).trans (waitFor_bind_not (by simp [he]) _)
  · exact waitFor_bind_not hl _

theorem pushCopy_ok (hl : (s.chan f.ch.toNat).queue.length < 8) (he : s.entryFree = true) :
    s.pushCopy f c = .ok { st := (s.entered f.ch.toNat (c.issued s f)).passHead f.ch.toNat } :=
  (waitFor_bind hl _).trans (waitFor_bind he _)
theorem pushCopy_wait (h : 8 ≤ (s.chan f.ch.toNat).queue.length ∨ s.entryFree = false) : s.pushCopy f c = .error (.wait s) :=
  noPlace_wait h _
end

/-! ### A check of every operand of a list -/

theorem forM_need_bind {α β : Type} {p : α → Prop} [DecidablePred p] {l : List α} (h : ∀ x ∈ l, p x) (cause : BitVec 16) (a i : Word)
    (k : Unit → Res β) : ((l.forM fun x => need (p x) cause a i) >>= k) = k () :=
  forM_bind_ok (fun x hx => need_ok (h x hx) cause a i) k
theorem forM_need_bind_not {α β : Type} {p : α → Prop} [DecidablePred p] {l : List α} (h : ¬ ∀ x ∈ l, p x) (cause : BitVec 16) (a i : Word)
    (k : Unit → Res β) : ((l.forM fun x => need (p x) cause a i) >>= k) = .error (.trap ⟨cause, a, i⟩) := by
  induction l with
  | nil => exact (h fun x hx => by cases hx).elim
  | cons x r ih =>
    change ((need (p x) cause a i >>= fun _ => r.forM _) >>= k) = _
    by_cases hx : p x
    · rw [need_bind hx]
      exact ih fun hr => h (List.forall_mem_cons.mpr ⟨hx, hr⟩)
    · rw [need_bind_not hx]
      rfl

/-! ### CPIN and CPOUT (R153, R154) -/

/-- The plane operand and the memory operand of a CPIN or CPOUT fit each other and the bound. -/
def Ten.fitsMem (p m : Ten) (e : Word) : Prop :=
  p.own = true ∧ m.kind = 4 ∧ p.fmt = m.fmt ∧ (p.fmt = 16 → p.cols % 8 = 0 ∧ p.cutsBlock e = false)

/-- Address, stride and slice stride are multiples of an element. -/
abbrev State.aligned (s : State) (f : FQ) (p m : Ten) : Prop :=
  (BitVec.ofNat 64 m.base + s.X f.xa).toNat % elemBytes p.fmt = 0 ∧ m.stride % elemBytes p.fmt = 0 ∧ f.imm32.toNat % elemBytes p.fmt = 0

/-- What CPIN and CPOUT do, by their plane operand and their memory operand. -/
def State.enterCpio (s : State) (f : FQ) (kind : CopyKind) (p m : Ten) : Res Done := do
  need (p.own && m.kind = 4 && p.fmt = m.fmt && p.blocksOk (s.E f.edm) = true) cSPACE
  need (s.aligned f p m) cMISALIGN
  need (p.inPlot s.thr.plot = true) cPLOT_BOUND
  s.powered [p]
  s.pushCopy f { copyOf kind p.rows with
    td := s.T f.td, ta := s.T f.ta, edge := s.E f.edm, addend := s.X f.xa, stride := f.imm32.signExtend 64 }

theorem cpin_eq : exec (.cpin f) s =
    issue (.q 0xA0 0 f) (fun s => s.enterCpio f .cpin (Ten.of (s.T f.td)) (Ten.of (s.T f.ta))) s := rfl
theorem cpout_eq : exec (.cpout f) s =
    issue (.q 0xA0 1 f) (fun s => s.enterCpio f .cpout (Ten.of (s.T f.ta)) (Ten.of (s.T f.td))) s := rfl

theorem powered_bind {α : Type} {l : List Ten} (h : ∀ t ∈ l, s.touchesOff t = false) (k : Unit → Res α) : (s.powered l >>= k) = k () :=
  need_bind (List.any_eq_false.mpr fun t ht => by simp [h t ht]) ..
theorem powered_bind_not {α : Type} {l : List Ten} (h : ∃ t ∈ l, s.touchesOff t = true) (k : Unit → Res α) :
    (s.powered l >>= k) = .error (.trap ⟨cPLANE_OFF, 0, 0⟩) :=
  need_bind_not (by simpa using h) ..

section
variable {kind : CopyKind} {p m : Ten}

theorem fitsMem_iff (e : Word) : (p.own && m.kind = 4 && p.fmt = m.fmt && p.blocksOk e = true) = true ↔ p.fitsMem m e := by
  simp [Ten.fitsMem, Ten.blocksOk, and_assoc, imp_iff_not_or]

theorem enterCpio_space (h : ¬ p.fitsMem m (s.E f.edm)) : s.enterCpio f kind p m = .error (.trap ⟨cSPACE, 0, 0⟩) :=
  need_bind_not (mt (fitsMem_iff _).mp h) ..

variable (hf : p.fitsMem m (s.E f.edm))
include hf

theorem enterCpio_misaligned (h : ¬ s.aligned f p m) : s.enterCpio f kind p m = .error (.trap ⟨cMISALIGN, 0, 0⟩) :=
  (need_bind ((fitsMem_iff _).mpr hf) ..).trans (need_bind_not h ..)

variable (ha : s.aligned f p m)
include ha

theorem enterCpio_outside (h : p.inPlot s.thr.plot = false) : s.enterCpio f kind p m = .error (.trap ⟨cPLOT_BOUND, 0, 0⟩) :=
  (need_bind ((fitsMem_iff _).mpr hf) ..).trans ((need_bind ha ..).trans (need_bind_not (by simp [h]) ..))

variable (hp : p.inPlot s.thr.plot = true)
include hp

theorem enterCpio_off (h : s.touchesOff p = true) : s.enterCpio f kind p m = .error (.trap ⟨cPLANE_OFF, 0, 0⟩) :=
  (need_bind ((fitsMem_iff _).mpr hf) ..).trans ((need_bind ha ..).trans ((need_bind hp ..).trans
    (powered_bind_not ⟨p, List.mem_singleton_self p, h⟩ _)))
theorem enterCpio_eq (h : s.touchesOff p = false) : s.enterCpio f kind p m = s.pushCopy f { copyOf kind p.rows with
    td := s.T f.td, ta := s.T f.ta, edge := s.E f.edm, addend := s.X f.xa, stride := f.imm32.signExtend 64 } :=
  (need_bind ((fitsMem_iff _).mpr hf) ..).trans ((need_bind ha ..).trans ((need_bind hp ..).trans
    (powered_bind (fun _ ht => List.mem_singleton.mp ht ▸ h) _)))
end

/-! ### CPG and CPS (R155) -/

/-- What CPG and CPS do, by their data operand, their pointers and their predicate plane. -/
def State.enterGather (s : State) (f : FQ) (kind : CopyKind) (d b : Ten) (c : Option Ten) : Res Done := do
  need (gatherOk d b c = true) cSPACE
  need ((d :: b :: c.toList).all (·.inPlot s.thr.plot) = true) cPLOT_BOUND
  s.powered (d :: b :: c.toList)
  s.pushCopy f { copyOf kind 1 with td := s.T f.td, ta := s.T f.ta, tb := s.T f.tb, tc := s.T f.tc }

theorem cpg_eq : exec (.cpg f) s =
    issue (.q 0xA0 2 f) (fun s => s.enterGather f .cpg (Ten.of (s.T f.td)) (Ten.of (s.T f.tb)) (s.optT f.tc)) s := rfl
theorem cps_eq : exec (.cps f) s =
    issue (.q 0xA0 3 f) (fun s => s.enterGather f .cps (Ten.of (s.T f.ta)) (Ten.of (s.T f.tb)) (s.optT f.tc)) s := rfl

section
variable {kind : CopyKind} {d b : Ten} {c : Option Ten}

theorem gatherOk_iff : gatherOk d b c = true ↔ d.kind = 1 ∧ d.depth = 1 ∧ b.kind = 1 ∧ b.fmt = 6 ∧ b.lbr = 0 ∧ b.lbc = 1 ∧ b.h = d.h ∧ b.w = d.w
    ∧ ∀ t, c = some t → t.kind = 3 ∧ t.h = d.h ∧ t.w = d.w ∧ t.lbr = d.lbr ∧ t.lbc = d.lbc := by
  cases c <;> simp [gatherOk, and_assoc]

theorem enterGather_space (h : ¬ gatherOk d b c = true) : s.enterGather f kind d b c = .error (.trap ⟨cSPACE, 0, 0⟩) := need_bind_not h ..

variable (hf : gatherOk d b c = true)
include hf

theorem enterGather_outside (h : ¬ ∀ t ∈ d :: b :: c.toList, t.inPlot s.thr.plot = true) :
    s.enterGather f kind d b c = .error (.trap ⟨cPLOT_BOUND, 0, 0⟩) :=
  (need_bind hf ..).trans (need_bind_not (mt List.all_eq_true.mp h) ..)

variable (hp : ∀ t ∈ d :: b :: c.toList, t.inPlot s.thr.plot = true)
include hp

theorem enterGather_off (h : ∃ t ∈ d :: b :: c.toList, s.touchesOff t = true) :
    s.enterGather f kind d b c = .error (.trap ⟨cPLANE_OFF, 0, 0⟩) :=
  (need_bind hf ..).trans ((need_bind (List.all_eq_true.mpr hp) ..).trans (powered_bind_not h _))
theorem enterGather_eq (h : ¬ ∃ t ∈ d :: b :: c.toList, s.touchesOff t = true) : s.enterGather f kind d b c =
    s.pushCopy f { copyOf kind 1 with td := s.T f.td, ta := s.T f.ta, tb := s.T f.tb, tc := s.T f.tc } :=
  (need_bind hf ..).trans ((need_bind (List.all_eq_true.mpr hp) ..).trans
    (powered_bind (fun t ht => Bool.eq_false_iff.mpr fun ho => h ⟨t, ht, ho⟩) _))
end

/-! ### CPP (R156) -/

/-- The formats and shapes of the operands of a CPP fit each other and the bound. -/
def Ten.fitsCopy (d a : Ten) (e : Word) : Prop :=
  (d.own = true ∨ d.member = true) ∧ (a.own = true ∨ a.member = true) ∧ d.fmt = a.fmt ∧ d.rows = a.rows ∧ d.cols = a.cols
    ∧ d.slices = a.slices ∧ (d.fmt = 16 → d.cutsBlock e = false ∧ a.cutsBlock e = false)

/-- A rank that the current group holds. -/
def State.holdsRank (s : State) (t : Ten) : Bool := (s.curGroup.bind fun g => if t.rank < g.next then g.member t.rank else none).isSome

/-- What CPP does, by its operands. -/
def State.enterCpp (s : State) (f : FQ) (d a : Ten) : Res Done := do
  need (d.cppKind && a.cppKind && d.fmt = a.fmt && d.rows = a.rows && d.cols = a.cols && d.slices = a.slices
    && (d.fmt ≠ 16 || (!d.cutsBlock (s.E f.edm) && !a.cutsBlock (s.E f.edm))) = true) cSPACE
  need ([d, a].filter (·.member) = [] ∨ s.curGroup.isSome) cGROUP 0 1
  ([d, a].filter (·.member)).forM fun t => need (s.holdsRank t) cRANK
  need ([d, a].all (fun t => !t.own || t.inPlot s.thr.plot) = true) cPLOT_BOUND
  s.powered [d, a]
  need (s.cppOverlap d a = false) cSPACE
  s.pushCopy f { copyOf .cpp d.rows with td := s.T f.td, ta := s.T f.ta, edge := s.E f.edm }

theorem cpp_eq : exec (.cpp f) s = issue (.q 0xA0 4 f) (fun s => s.enterCpp f (Ten.of (s.T f.td)) (Ten.of (s.T f.ta))) s := rfl

section
variable {d a : Ten}

theorem fitsCopy_iff (e : Word) : (d.cppKind && a.cppKind && d.fmt = a.fmt && d.rows = a.rows && d.cols = a.cols && d.slices = a.slices
    && (d.fmt ≠ 16 || (!d.cutsBlock e && !a.cutsBlock e)) = true) = true ↔ d.fitsCopy a e := by
  simp [Ten.fitsCopy, Ten.cppKind, and_assoc, imp_iff_not_or]
theorem members_eq_nil_iff : [d, a].filter (·.member) = [] ↔ ¬ (d.member = true ∨ a.member = true) := by
  simp
theorem mem_members {t : Ten} : t ∈ [d, a].filter (·.member) ↔ (t = d ∨ t = a) ∧ t.member = true := by
  simp
theorem holdsRank_iff {g : Group} (hg : s.curGroup = some g) (t : Ten) : s.holdsRank t = true ↔ t.rank < g.next ∧ (g.member t.rank).isSome = true := by
  unfold State.holdsRank
  rw [hg, Option.bind_some]
  split <;> simp [*]

theorem operandsInside_iff {p : Plot} : (∀ t ∈ [d, a], (!t.own || t.inPlot p) = true)
    ↔ ∀ t, t = d ∨ t = a → t.own = true → t.inPlot p = true := by
  simp [imp_iff_not_or]
theorem operandsOff_iff : (∃ t ∈ [d, a], s.touchesOff t = true) ↔ s.touchesOff d = true ∨ s.touchesOff a = true := by
  simp

theorem enterCpp_space (h : ¬ d.fitsCopy a (s.E f.edm)) : s.enterCpp f d a = .error (.trap ⟨cSPACE, 0, 0⟩) :=
  need_bind_not (mt (fitsCopy_iff _).mp h) ..

variable (hf : d.fitsCopy a (s.E f.edm))
include hf

theorem enterCpp_ungrouped (h : ¬ (d.member = true ∨ a.member = true → s.curGroup.isSome = true)) :
    s.enterCpp f d a = .error (.trap ⟨cGROUP, 0, 1⟩) := by
  refine (need_bind ((fitsCopy_iff _).mpr hf) ..).trans (need_bind_not ?_ ..)
  rwa [members_eq_nil_iff, ← imp_iff_not_or]

variable (hg : d.member = true ∨ a.member = true → s.curGroup.isSome = true)
include hg

/-- Past the formats and the group, the ranks and the places are left. -/
theorem enterCpp_grouped : s.enterCpp f d a = (do
    ([d, a].filter (·.member)).forM fun t => need (s.holdsRank t) cRANK
    need ([d, a].all (fun t => !t.own || t.inPlot s.thr.plot) = true) cPLOT_BOUND
    s.powered [d, a]
    need (s.cppOverlap d a = false) cSPACE
    s.pushCopy f { copyOf .cpp d.rows with td := s.T f.td, ta := s.T f.ta, edge := s.E f.edm }) := by
  refine (need_bind ((fitsCopy_iff _).mpr hf) ..).trans (need_bind ?_ ..)
  rwa [members_eq_nil_iff, ← imp_iff_not_or]

theorem enterCpp_rank (h : ¬ ∀ t ∈ [d, a].filter (·.member), s.holdsRank t = true) : s.enterCpp f d a = .error (.trap ⟨cRANK, 0, 0⟩) :=
  (enterCpp_grouped hf hg).trans (forM_need_bind_not h ..)

variable (hr : ∀ t ∈ [d, a].filter (·.member), s.holdsRank t = true)
include hr

theorem enterCpp_outside (h : ¬ ∀ t ∈ [d, a], (!t.own || t.inPlot s.thr.plot) = true) : s.enterCpp f d a = .error (.trap ⟨cPLOT_BOUND, 0, 0⟩) :=
  (enterCpp_grouped hf hg).trans ((forM_need_bind hr ..).trans (need_bind_not (mt List.all_eq_true.mp h) ..))

variable (hp : ∀ t ∈ [d, a], (!t.own || t.inPlot s.thr.plot) = true)
include hp

theorem enterCpp_off (h : ∃ t ∈ [d, a], s.touchesOff t = true) : s.enterCpp f d a = .error (.trap ⟨cPLANE_OFF, 0, 0⟩) :=
  (enterCpp_grouped hf hg).trans ((forM_need_bind hr ..).trans ((need_bind (List.all_eq_true.mpr hp) ..).trans (powered_bind_not h _)))

variable (ho : ∀ t ∈ [d, a], s.touchesOff t = false)
include ho

theorem enterCpp_overlap (h : s.cppOverlap d a = true) : s.enterCpp f d a = .error (.trap ⟨cSPACE, 0, 0⟩) :=
  (enterCpp_grouped hf hg).trans ((forM_need_bind hr ..).trans ((need_bind (List.all_eq_true.mpr hp) ..).trans ((powered_bind ho _).trans
    (need_bind_not (by simp [h]) ..))))
theorem enterCpp_eq (h : s.cppOverlap d a = false) :
    s.enterCpp f d a = s.pushCopy f { copyOf .cpp d.rows with td := s.T f.td, ta := s.T f.ta, edge := s.E f.edm } :=
  (enterCpp_grouped hf hg).trans ((forM_need_bind hr ..).trans ((need_bind (List.all_eq_true.mpr hp) ..).trans ((powered_bind ho _).trans
    (need_bind h ..))))
end

/-! ### CPM (R157) -/

/-- What CPM does, by its pointers and its length. -/
def State.enterCpm (s : State) (f : FQ) (src dst : Word) (n : Nat) : Res Done := do
  need (n < 2 ^ 40 ∧ cpmPtr src = true ∧ cpmPtr dst = true) cSPACE
  need (s.thr.plot.holds src n = true ∧ s.thr.plot.holds dst n = true) cPLOT_BOUND
  need ([src, dst].all (fun a => spaceOf a ≠ 1 || !s.isOff (s.thr.plot.cellAt a)) = true) cPLANE_OFF
  if n = 0 then s.copyNothing f
  else s.pushCopy f { copyOf .cpm ((n + 31) / 32) with src := src, dst := dst, len := n }

theorem cpm_eq : exec (.cpm f) s = issue (.q 0xA0 5 f) (fun s => s.enterCpm f (s.X f.xa) (s.X f.xb) (s.X f.xc).toNat) s := rfl

theorem cpmPtr_iff (a : Word) : cpmPtr a = true ↔ rankOf a = 0 ∧ (spaceOf a = 0 ∨ spaceOf a = 1 ∧ offsetOf a / 2 ^ 29 = 0) := by
  simp [cpmPtr]
theorem holds_iff {p : Plot} {a : Word} {n : Nat} : p.holds a n = true
    ↔ (spaceOf a = 1 → offsetOf a / 2 ^ 21 % 256 < p.h ∧ offsetOf a / 2 ^ 13 % 256 < p.w ∧ offsetOf a % 2 ^ 13 + n ≤ 32 * p.d) :=
  inCell_iff
/-- The cell that a pointer of space 1 names is off. -/
def State.coldAt (s : State) (a : Word) : Prop := spaceOf a = 1 ∧ s.isOff (s.thr.plot.cellAt a) = true
theorem notCold_iff {a : Word} : (spaceOf a ≠ 1 || !s.isOff (s.thr.plot.cellAt a)) = true ↔ ¬ s.coldAt a := by
  simp [State.coldAt, imp_iff_not_or]

section
variable {src dst : Word} {n : Nat}

theorem enterCpm_space (h : ¬ (n < 2 ^ 40 ∧ cpmPtr src = true ∧ cpmPtr dst = true)) :
    s.enterCpm f src dst n = .error (.trap ⟨cSPACE, 0, 0⟩) := need_bind_not h ..

variable (hf : n < 2 ^ 40 ∧ cpmPtr src = true ∧ cpmPtr dst = true)
include hf

theorem enterCpm_outside (h : ¬ (s.thr.plot.holds src n = true ∧ s.thr.plot.holds dst n = true)) :
    s.enterCpm f src dst n = .error (.trap ⟨cPLOT_BOUND, 0, 0⟩) :=
  (need_bind hf ..).trans (need_bind_not h ..)

variable (hp : s.thr.plot.holds src n = true ∧ s.thr.plot.holds dst n = true)
include hp

theorem enterCpm_off (h : s.coldAt src ∨ s.coldAt dst) : s.enterCpm f src dst n = .error (.trap ⟨cPLANE_OFF, 0, 0⟩) := by
  refine (need_bind hf ..).trans ((need_bind hp ..).trans (need_bind_not (fun hall => ?_) ..))
  have hwarm := List.all_eq_true.mp hall
  rcases h with h | h
  · exact notCold_iff.mp (hwarm src (by simp)) h
  · exact notCold_iff.mp (hwarm dst (by simp)) h
theorem enterCpm_eq (h : ¬ (s.coldAt src ∨ s.coldAt dst)) : s.enterCpm f src dst n = if n = 0 then s.copyNothing f
    else s.pushCopy f { copyOf .cpm ((n + 31) / 32) with src := src, dst := dst, len := n } := by
  refine (need_bind hf ..).trans ((need_bind hp ..).trans (need_bind (List.all_eq_true.mpr fun a ha => notCold_iff.mpr fun hc => h ?_) ..))
  rcases List.mem_pair.mp ha with rfl | rfl
  · exact .inl hc
  · exact .inr hc
end

theorem copyNothing_wait (h : 8 ≤ (s.chan f.ch.toNat).queue.length ∨ s.entryFree = false) : s.copyNothing f = .error (.wait s) :=
  noPlace_wait h _

/-- A copy of no batch is counted in its channel. -/
theorem copyDone_none (k : Nat) : ∃ ev, s.copyDone k none = { s.setChan k { s.chan k with done := (s.chan k).done + 1 } with events := ev } :=
  emitItem_frame ..

/-- One more copy issued to a channel, of which nothing stays there. -/
def State.issuedNothing (s : State) (k : Nat) : State :=
  (s.setChan k { s.chan k with ordinal := (s.chan k).ordinal + 1 }).withThr
    { (s.setChan k { s.chan k with ordinal := (s.chan k).ordinal + 1 }).thr with unsealed := s.thr.unsealed + 1 }

theorem issuedNothing_chan {k : Nat} (hk : k < 4) : (s.issuedNothing k).chan k = { s.chan k with ordinal := (s.chan k).ordinal + 1 } :=
  chan_setChan_same hk _

theorem copyNothing_eq (hl : (s.chan f.ch.toNat).queue.length < 8) (he : s.entryFree = true) :
    s.copyNothing f = .ok { st := (s.issuedNothing f.ch.toNat).copyDone f.ch.toNat none } :=
  (waitFor_bind hl _).trans (waitFor_bind he _)

/-- A CPM of no bytes counts as a copy of its channel that has completed (log 41). -/
theorem issuedNothing_done {k : Nat} (hk : k < 4) : ((s.issuedNothing k).copyDone k none).chan k
      = { s.chan k with ordinal := (s.chan k).ordinal + 1, done := (s.chan k).done + 1 }
    ∧ ((s.issuedNothing k).copyDone k none).thr
      = { s.thr with chans := ((s.issuedNothing k).copyDone k none).thr.chans, unsealed := s.thr.unsealed + 1 }
    ∧ s.sameBytes ((s.issuedNothing k).copyDone k none) := by
  obtain ⟨ev, hev⟩ := copyDone_none (s := s.issuedNothing k) k
  rw [hev, issuedNothing_chan hk]
  exact ⟨chan_setChan_same (s := s.issuedNothing k) hk _, rfl, ((sameBytes_setChan _ _).trans (sameBytes_withThr _)).trans
    ((sameBytes_setChan _ _).trans (sameBytes_events ev))⟩

/-! ### SEAL, WAITB, WPTR and CPSTAT (R148, R158-R160) -/

/-- An unfinished copy of the thread that no batch holds. -/
theorem unmarked_iff : s.thr.copies.any (·.batch.isNone) = true ↔ ∃ j, j < 4 ∧ ∃ c ∈ (s.chan j).queue, c.batch = none := by
  simp only [List.any_eq_true, mem_copies, Option.isNone_iff_eq_none]
  exact ⟨fun ⟨c, ⟨j, hj, hc⟩, hb⟩ => ⟨j, hj, c, hc, hb⟩, fun ⟨j, hj, c, hc, hb⟩ => ⟨c, ⟨j, hj, hc⟩, hb⟩⟩

/-- The thread whose unmarked copies the next batch has taken. -/
def State.sealed (s : State) : State := s.withThr { s.thr with
  batchNo := s.thr.batchNo + 1, unsealed := 0, chans := s.thr.chans.map (·.seal (s.thr.batchNo + 1))
  batches := if s.thr.copies.any (·.batch.isNone) then s.thr.batches ++ [s.thr.batchNo + 1] else s.thr.batches }

theorem sealed_chan (j : Nat) : s.sealed.chan j = { s.chan j with
    queue := (s.chan j).queue.map fun c => if c.batch = none then { c with batch := some (s.thr.batchNo + 1) } else c } := by
  have hseal : s.sealed.chan j = (s.chan j).seal (s.thr.batchNo + 1) := by
    change (s.thr.chans.map (·.seal (s.thr.batchNo + 1))).toArray.getD j {} = (s.thr.chans.toArray.getD j {}).seal (s.thr.batchNo + 1)
    by_cases hj : j < 4
    · simp [Array.getD, hj]
    · simp [Array.getD, hj, Chan.seal]
  simp only [hseal, Chan.seal, Option.isNone_iff_eq_none]

theorem seal_eq : exec (.seal f) s = issue (.q 0xA0 6 f) (fun s => do
    s.waitFor (s.thr.copies.any (·.batch.isNone) = false ∨ s.thr.batches.length < 16)
    let t := if s.thr.copies.any (·.batch.isNone) then s.sealed else s.sealed.emitItem 0x21 (s.thr.batchNo + 1).toNat
    pure { st := t.setX f.xc ((s.thr.batchNo + 1).setWidth 64) }) s := rfl
theorem waitb_eq : exec (.waitb f) s = issue (.q 0xA0 7 f) (fun s => do
    s.waitFor (s.thr.batches.length ≤ f.imm32.toNat)
    pure { st := s }) s := rfl

theorem wptr_eq : exec (.wptr f) s =
    pureOp (.q 0xA0 8 f) (fun s => (s.record (s.chan f.ch.toNat).wptr).setX f.xc (s.chan f.ch.toNat).wptr) s := rfl
theorem cpstat_eq : exec (.cpstat f) s =
    pureOp (.q 0xA0 9 f) (fun s => (s.record (s.cpstat f.ch.toNat)).setX f.xc (s.cpstat f.ch.toNat)) s := rfl
end

/-! ### The obligation -/

/-- Settles O36: the checks of each form in their order, a copy's entry (`pushCopy_ok`), and the passing of masked units by induction on
how many are left (`passMasked_all`). -/
theorem copyForms : Obligations.CopyForms := by
  refine ⟨fun s f => ?_, fun s f => ?_⟩
  · intro td ta tb tc e p k traps enters unit cpio gather src dst n pointer row col held cold
    have hk : k < 4 := f.ch.isLt
    have henters {fn : Nat} {i : Instr} {c : Copy} {new : Copy → Prop} {body : State → Res Done} (hi : s.Issues (.q 0xA0 fn f))
        (hx : exec i s = issue (.q 0xA0 fn f) body s) (hb : body s = s.pushCopy f c) (hc : c.Fresh) (hnew : new (c.issued s f)) :
        enters fn i new := by
      refine ⟨fun hl he => ⟨s.entered k (c.issued s f), c.issued s f, hx.trans (issue_seq hi _ (hb.trans (pushCopy_ok hl he))), hnew,
        rfl, rfl, rfl, rfl, hc.units, hc.part, hc.batch, hc.written, rfl, rfl, hc.buffered, hc.asked, hc.cover, hc.ahead, rfl, rfl,
        chan_setChan_same hk _, rfl, fun j hj => (chan_setChan hk _ j).trans (if_neg hj),
        entered_sameBytes s k _⟩, fun h => ?_⟩
      exact hx.trans (issue_wait hi _ (hb.trans (pushCopy_wait h)))
    have hcpio {fn : Nat} {i : Instr} {kind : CopyKind} {pl m : Ten} {body : State → Res Done}
        (hx : exec i s = issue (.q 0xA0 fn f) body s) (hb : body s = s.enterCpio f kind pl m) : cpio fn i kind pl m := by
      intro hi base fits aligned
      exact ⟨fun h => hx.trans (issue_trap hi _ (hb.trans (enterCpio_space h))),
        fun hf h => hx.trans (issue_trap hi _ (hb.trans (enterCpio_misaligned hf h))),
        fun hf ha h => hx.trans (issue_trap hi _ (hb.trans (enterCpio_outside hf ha h))),
        fun hf ha hp h => hx.trans (issue_trap hi _ (hb.trans (enterCpio_off hf ha hp h))),
        fun hf ha hp h => henters hi hx (hb.trans (enterCpio_eq hf ha hp h)) ⟨rfl, rfl, rfl, rfl, rfl, rfl, rfl, rfl⟩
          ⟨rfl, rfl, rfl, rfl, rfl, rfl, rfl⟩⟩
    have hgather {fn : Nat} {i : Instr} {kind : CopyKind} {d : Ten} {body : State → Res Done}
        (hx : exec i s = issue (.q 0xA0 fn f) body s) (hb : body s = s.enterGather f kind d tb tc) : gather fn i kind d := by
      intro hi fits inside off
      have hfits : gatherOk d tb tc = true ↔ fits := gatherOk_iff
      exact ⟨fun h => hx.trans (issue_trap hi _ (hb.trans (enterGather_space (mt hfits.mp h)))),
        fun hf h => hx.trans (issue_trap hi _ (hb.trans (enterGather_outside (hfits.mpr hf) h))),
        fun hf hp h => hx.trans (issue_trap hi _ (hb.trans (enterGather_off (hfits.mpr hf) hp h))),
        fun hf hp h => henters hi hx (hb.trans (enterGather_eq (hfits.mpr hf) hp h)) ⟨rfl, rfl, rfl, rfl, rfl, rfl, rfl, rfl⟩
          ⟨rfl, rfl, rfl, rfl, rfl, rfl⟩⟩
    refine ⟨hcpio cpin_eq rfl, hcpio cpout_eq rfl, hgather cpg_eq rfl, hgather cps_eq rfl, fun hi => ?_, fun hi => ?_,
      fun c hc hm hu => ?_, fun h => ?_, fun c hc hkind ha ht hr hf hu hall => ?_⟩
    · intro fits grouped ranked inside off
      have htrap {tr : Trap} (h : s.enterCpp f td ta = .error (.trap tr)) : exec (.cpp f) s = .next (s.takeTrap tr) :=
        cpp_eq.trans (issue_trap hi _ h)
      have hranked (hg : grouped) : ranked ↔ ∀ t ∈ [td, ta].filter (·.member), s.holdsRank t = true := by
        constructor
        · intro hr t ht
          obtain ⟨ht, hm⟩ := mem_members.mp ht
          obtain ⟨g, hcur⟩ := Option.isSome_iff_exists.mp (hg (by rcases ht with rfl | rfl <;> simp [hm]))
          exact (holdsRank_iff hcur t).mpr (hr t ht hm g hcur)
        · intro hr t ht hm g hcur
          exact (holdsRank_iff hcur t).mp (hr t (mem_members.mpr ⟨ht, hm⟩))
      have hinside : inside ↔ ∀ t ∈ [td, ta], (!t.own || t.inPlot s.thr.plot) = true := operandsInside_iff.symm
      have hoff : off ↔ ∃ t ∈ [td, ta], s.touchesOff t = true := operandsOff_iff.symm
      have hon (h : ¬ off) : ∀ t ∈ [td, ta], s.touchesOff t = false :=
        fun t ht => Bool.eq_false_iff.mpr fun ho => h (hoff.mpr ⟨t, ht, ho⟩)
      exact ⟨fun h => htrap (enterCpp_space h),
        fun hf h => htrap (enterCpp_ungrouped hf h),
        fun hf hg h => htrap (enterCpp_rank hf hg (mt (hranked hg).mpr h)),
        fun hf hg hr h => htrap (enterCpp_outside hf hg ((hranked hg).mp hr) (mt hinside.mpr h)),
        fun hf hg hr hp h => htrap (enterCpp_off hf hg ((hranked hg).mp hr) (hinside.mp hp) (hoff.mp h)),
        fun hf hg hr hp ho h => htrap (enterCpp_overlap hf hg ((hranked hg).mp hr) (hinside.mp hp) (hon ho) h),
        fun hf hg hr hp ho h => henters hi cpp_eq (enterCpp_eq hf hg ((hranked hg).mp hr) (hinside.mp hp) (hon ho) h)
          ⟨rfl, rfl, rfl, rfl, rfl, rfl, rfl, rfl⟩ ⟨rfl, rfl, rfl, rfl, rfl⟩⟩
    · have htrap {tr : Trap} (h : s.enterCpm f src dst n = .error (.trap tr)) : exec (.cpm f) s = .next (s.takeTrap tr) :=
        cpm_eq.trans (issue_trap hi _ h)
      have hptr (hn : n < 2 ^ 40) (hs : pointer src) (hd : pointer dst) : n < 2 ^ 40 ∧ cpmPtr src = true ∧ cpmPtr dst = true :=
        ⟨hn, (cpmPtr_iff src).mpr hs, (cpmPtr_iff dst).mpr hd⟩
      refine ⟨fun h => htrap (enterCpm_space fun ⟨hn, hs, hd⟩ => h ⟨hn, (cpmPtr_iff src).mp hs, (cpmPtr_iff dst).mp hd⟩),
        fun hn hs hd h => htrap (enterCpm_outside (hptr hn hs hd) fun ⟨hps, hpd⟩ => h ⟨holds_iff.mp hps, holds_iff.mp hpd⟩),
        fun hn hs hd hps hpd h => htrap (enterCpm_off (hptr hn hs hd) ⟨holds_iff.mpr hps, holds_iff.mpr hpd⟩ h),
        fun hn hs hd hps hpd h => ?_⟩
      have hbody := enterCpm_eq (f := f) (hptr hn hs hd) ⟨holds_iff.mpr hps, holds_iff.mpr hpd⟩ h
      refine ⟨fun h0 => henters hi cpm_eq (hbody.trans (if_neg h0)) ⟨rfl, rfl, rfl, rfl, rfl, rfl, rfl, rfl⟩ ⟨rfl, rfl, rfl, rfl, rfl⟩,
        fun h0 hw => cpm_eq.trans (issue_wait hi _ (hbody.trans ((if_pos h0).trans (copyNothing_wait hw)))),
        fun h0 hl he => ⟨_, cpm_eq.trans (issue_seq hi _ (hbody.trans ((if_pos h0).trans (copyNothing_eq hl he)))), issuedNothing_done hk⟩⟩
    · exact passMasked_work hc hm hu _
    · exact passMasked_stops (stopsCopies_iff.mpr h) _
    · have hlen : (s.chan k).length = c.total + 1 := by simp [Chan.length, hc]
      have hpass := passMasked_all (n := (s.chan k).length) hk (c.total - c.units) ⟨ht, hr, hf⟩ hc ⟨hkind, ha, hall⟩ (by omega) (by omega)
      exact hpass
  · intro k h open' b wptr stat ht
    refine ⟨fun hi => ⟨fun ho hb => ?_, fun hb => ?_⟩, fun hi => ?_, fun hi => ?_, fun hi => ?_⟩
    · refine seal_eq.trans (issue_wait hi _ (waitFor_bind_not ?_ _))
      simpa [unmarked_iff.mpr ho] using hb
    · have hu : s.thr.copies.any (·.batch.isNone) = true ↔ open' := unmarked_iff
      refine ⟨s.sealed, seal_eq.trans (issue_seq hi _ ((waitFor_bind ?_ _).trans ?_)), rfl, fun ho => if_pos (hu.mpr ho),
        fun ho => if_neg (mt hu.mp ho), sealed_chan⟩
      · rwa [← Bool.not_eq_true, hu]
      · have hstill : s.sealed.emitItem 0x21 b.toNat = s.sealed := emitItem_untraced (s := s.sealed) ht ..
        dsimp only
        rw [hstill, ite_self]
        rfl
    · split
      next hl => exact waitb_eq.trans (issue_seq hi _ (waitFor_bind hl _))
      next hl => exact waitb_eq.trans (issue_wait hi _ (waitFor_bind_not hl _))
    · rw [wptr_eq, pureOp_of_issues hi, record_untraced ht]
      rfl
    · have hstat : s.cpstat k = stat := by
        unfold State.cpstat
        dsimp only [stat, h]
        cases (s.chan k).queue.head? <;> rfl
      rw [cpstat_eq, pureOp_of_issues hi, record_untraced ht, hstat]

end Sys2Proof.Machine
end

section
/-!
PROOFS. What a copy moves (06 R156): O37 fails of a copy with more units than its grid has rows.
-/
namespace Sys2Proof.Machine

/-! ### The counterexample -/

/-- A plane of one cell with one FP32 element, at a plot row: its grid has one element row. -/
def onePlane (layer : Nat) : BitVec 256 :=
  BitVec.ofNat 256 (1 + 8 * 2 ^ 4 + 2 ^ 25 + 2 ^ 34 + layer * 2 ^ 43 + 2 ^ 51)

/-- A CPP from the plane at plot row 1 to the one at plot row 0 that has delivered its element row and claims one more. -/
def overlong : Copy := { copyOf .cpp 2 with td := onePlane 0, ta := onePlane 1, edge := 0xFFFF0000FFFF0000, units := 1 }

/-- A plot of two cells, one above the other, whose lower cell holds 7 at plot row 1: the source's column, below the source. -/
def belowSource : State := { thr := { plotH := 2, plotW := 1, plotD := 2 }, rows := [(256 * 256 + 1, { data := 7 })] }

/-- The store row that a served unit leaves at plot row 0 of the lower cell, below the destination. -/
def Served.belowDest : Served → Row
  | .on t _ _ => t.row 256 0
  | .held t _ => t.row 256 0
  | .fault t _ _ => t.row 256 0

theorem overlong_row : (belowSource.serveUnit overlong 32).belowDest = { data := 7 } := by decide +kernel

/-- The destination, as the statement places it. -/
def overlongDest : Place := ⟨Ten.of (onePlane 0), belowSource.thr.plot, 0⟩

theorem overlongDest_sound : overlongDest.sound := by
  unfold Place.sound
  decide
theorem overlongDest_beside : ¬ overlongDest.covers 256 0 := by
  rintro ⟨-, h, -⟩
  exact absurd h (by decide)

/-- Refutes O37: the statement takes any copy, and one whose units are more than the rows of its grid writes the next of them below the
rectangle of its destination, where the statement says that no row changes. No issue makes such a copy: what it captures as the total are
the rows of the grid (`copyForms`). -/
theorem not_copyWork : ¬ Obligations.CopyWork := by
  intro h
  obtain ⟨hunits, -⟩ := h
  obtain ⟨-, -, -, -, -, hcpp, -⟩ := hunits belowSource overlong 32
  obtain ⟨t, d, ⟨-, hbeside⟩, -, hafter⟩ := hcpp rfl (by decide +kernel) (by decide +kernel) overlongDest _ rfl rfl overlongDest_sound
    (by decide +kernel)
  have hrow : t.row 256 0 = { data := 7 } := by
    split at hafter <;> exact (congrArg Served.belowDest hafter).symm.trans overlong_row
  have hold := hbeside 256 0 (by decide) overlongDest_beside
  rw [hrow] at hold
  cases hold

end Sys2Proof.Machine
end

section
/-!
PROOFS. Elements of a tensor apart from one another, and what a write of elements leaves (07 R163, R172, R173; 11 R250).
-/
namespace Sys2Proof.Machine

/-! ### A field of 256 bits replaced -/

theorem testBit_fld {w : Nat} (v : BitVec w) (lo n i : Nat) : (fld v lo n).testBit i = (decide (i < n) && v.getLsbD (lo + i)) := by
  rw [fld_eq, ← BitVec.getLsbD, BitVec.getLsbD_extractLsb']

section
variable {t : BitVec 256} {lo n : Nat}

theorem getLsbD_setFld (h : lo + n ≤ 256) (v b : Nat) :
    (setFld t lo n v).getLsbD b = if lo ≤ b ∧ b < lo + n then v.testBit (b - lo) else t.getLsbD b := by
  have hfield (u : Nat) : (BitVec.ofNat 256 (u % 2 ^ n * 2 ^ lo)).getLsbD b = (decide (lo ≤ b ∧ b < lo + n) && u.testBit (b - lo)) := by
    rw [BitVec.getLsbD_ofNat, Nat.testBit_mul_two_pow, Nat.testBit_mod_two_pow]
    by_cases hb : lo ≤ b ∧ b < lo + n
    · simp [hb, show b < 256 by omega, show b - lo < n by omega]
    · by_cases hlo : lo ≤ b
      · simp [hlo, show ¬ b - lo < n by omega, show ¬ b < lo + n by omega]
      · simp [hlo]
  have hmask : (2 ^ n - 1) % 2 ^ n = 2 ^ n - 1 := Nat.mod_eq_of_lt (Nat.sub_lt (Nat.two_pow_pos n) Nat.one_pos)
  have hones := hfield (2 ^ n - 1)
  rw [hmask, Nat.testBit_two_pow_sub_one] at hones
  unfold setFld
  rw [BitVec.getLsbD_or, BitVec.getLsbD_and, BitVec.getLsbD_not, hones, hfield]
  by_cases hb : lo ≤ b ∧ b < lo + n
  · have hn : b - lo < n := by omega
    simp [hb, hn]
  · by_cases h256 : b < 256
    · simp [hb, h256]
    · simp [hb, BitVec.getLsbD_of_ge t b (by omega)]

theorem fld_setFld_same (h : lo + n ≤ 256) (v : Nat) : fld (setFld t lo n v) lo n = v % 2 ^ n := by
  apply Nat.eq_of_testBit_eq
  intro i
  rw [testBit_fld, getLsbD_setFld h, Nat.testBit_mod_two_pow]
  by_cases hi : i < n
  · rw [if_pos (by omega), Nat.add_sub_cancel_left]
  · simp [hi]
theorem fld_setFld_other (h : lo + n ≤ 256) (v : Nat) {lo' n' : Nat} (hd : lo' + n' ≤ lo ∨ lo + n ≤ lo') :
    fld (setFld t lo n v) lo' n' = fld t lo' n' := by
  apply Nat.eq_of_testBit_eq
  intro i
  rw [testBit_fld, testBit_fld, getLsbD_setFld h]
  by_cases hi : i < n'
  · rw [if_neg (by omega)]
  · simp [hi]
end

/-! ### Where an element lies (07 R172) -/

theorem fmtBits_cases (fmt : Nat) : fmtBits fmt = 1 ∨ fmtBits fmt = 4 ∨ fmtBits fmt = 8 ∨ fmtBits fmt = 16 ∨ fmtBits fmt = 32 ∨ fmtBits fmt = 64 := by
  unfold fmtBits
  split <;> simp
theorem fmtBits_pos (fmt : Nat) : 0 < fmtBits fmt := by
  rcases fmtBits_cases fmt with h | h | h | h | h | h <;> omega

/-- An element ends in the row in which it begins. -/
theorem bit_le (fmt e : Nat) : e * fmtBits fmt % 256 + fmtBits fmt ≤ 256 := by
  rcases fmtBits_cases fmt with h | h | h | h | h | h <;> rw [h] <;> omega
/-- Two elements of a row begin at the same bit or share none. -/
theorem bits_apart (fmt a b : Nat) (h : a * fmtBits fmt % 256 ≠ b * fmtBits fmt % 256) :
    a * fmtBits fmt % 256 + fmtBits fmt ≤ b * fmtBits fmt % 256 ∨ b * fmtBits fmt % 256 + fmtBits fmt ≤ a * fmtBits fmt % 256 := by
  rcases fmtBits_cases fmt with hw | hw | hw | hw | hw | hw <;> rw [hw] at h ⊢ <;> omega

/-- A number under a base has one quotient and one remainder. -/
theorem mul_add_inj {m a b c d : Nat} (hb : b < m) (hd : d < m) (h : a * m + b = c * m + d) : a = c ∧ b = d := by
  have hac : a = c := by
    have hdiv := congrArg (· / m) h
    simpa [Nat.add_comm, Nat.add_mul_div_right _ _ (Nat.zero_lt_of_lt hb), Nat.div_eq_of_lt hb, Nat.div_eq_of_lt hd] using hdiv
  subst hac
  exact ⟨rfl, Nat.add_left_cancel h⟩

section
variable {t : Ten} {d i j : Nat}

/-- The first bit of an element in its row. -/
def Ten.bit (t : Ten) (i j : Nat) : Nat := t.idx i j * fmtBits t.fmt % 256
/-- The row of an element among its tensor's. -/
def Ten.rowOf (t : Ten) (d i j : Nat) : Nat := d * t.sr + t.idx i j * fmtBits t.fmt / 256

theorem Ten.at_eq (h : t.fmt ≠ 16) (d i j : Nat) :
    t.at d i j = ((t.row0 + i / t.ebr, t.col0 + j / t.ebc), t.rowOf d i j, t.bit i j) := by
  simp only [Ten.at, Ten.rowOf, Ten.bit, Ten.idx, if_neg h]

theorem Ten.mem_grid : (d, i, j) ∈ t.grid ↔ d < t.slices ∧ i < t.rows ∧ j < t.cols := by
  simp [Ten.grid]

theorem Ten.ebr_pos (t : Ten) : 0 < t.ebr := Nat.two_pow_pos _
theorem Ten.ebc_pos (t : Ten) : 0 < t.ebc := Nat.two_pow_pos _
theorem Ten.idx_lt (t : Ten) (i j : Nat) : t.idx i j < t.n := by
  have hi := Nat.mod_lt i t.ebr_pos
  have hj := Nat.mod_lt j t.ebc_pos
  calc i % t.ebr * t.ebc + j % t.ebc < (i % t.ebr + 1) * t.ebc := by rw [Nat.add_mul, Nat.one_mul]; omega
    _ ≤ t.ebr * t.ebc := Nat.mul_le_mul_right _ hi

/-- The elements of a slice lie in its rows. -/
theorem Ten.inSlice (t : Ten) (i j : Nat) : t.idx i j * fmtBits t.fmt / 256 < t.sr := by
  have hlt : t.idx i j * fmtBits t.fmt < t.n * fmtBits t.fmt := Nat.mul_lt_mul_of_pos_right (t.idx_lt i j) (fmtBits_pos _)
  have hpow : ∃ a, t.n * fmtBits t.fmt = 2 ^ a := by
    have hw : ∃ b, fmtBits t.fmt = 2 ^ b := by
      rcases fmtBits_cases t.fmt with h | h | h | h | h | h
      · exact ⟨0, h⟩
      · exact ⟨2, h⟩
      · exact ⟨3, h⟩
      · exact ⟨4, h⟩
      · exact ⟨5, h⟩
      · exact ⟨6, h⟩
    obtain ⟨b, hb⟩ := hw
    exact ⟨t.lbr + t.lbc + b, by rw [hb, Ten.n, Ten.ebr, Ten.ebc, Nat.pow_add, Nat.pow_add]⟩
  obtain ⟨a, ha⟩ := hpow
  unfold Ten.sr
  by_cases h8 : 8 ≤ a
  · have hdvd : 256 ∣ t.n * fmtBits t.fmt := by rw [ha]; exact Nat.pow_dvd_pow 2 h8
    exact Nat.lt_of_lt_of_le (Nat.div_lt_div_of_lt_of_dvd hdvd hlt) (Nat.le_max_right _ _)
  · have hsmall : 2 ^ a ≤ 2 ^ 7 := Nat.pow_le_pow_right (by omega) (by omega)
    rw [Nat.div_eq_of_lt (by omega)]
    omega

theorem Ten.rowOf_lt (h : d < t.slices) (i j : Nat) : t.rowOf d i j < t.depth := by
  have hin := t.inSlice i j
  calc t.rowOf d i j < (d + 1) * t.sr := by unfold Ten.rowOf; rw [Nat.add_mul, Nat.one_mul]; omega
    _ ≤ t.slices * t.sr := Nat.mul_le_mul_right _ h
    _ ≤ t.depth := Nat.div_mul_le_self _ _

end

section
variable {p : Place} {d i j d' i' j' : Nat}

/-- The cell of an element, and where its store row is listed. -/
def Place.cellOf (p : Place) (i j : Nat) : Nat := p.plot.cell (p.t.row0 + i / p.t.ebr) (p.t.col0 + j / p.t.ebc)
def Place.key (p : Place) (d i j : Nat) : Nat := p.cellOf i j * 256 + p.storeRow (p.t.rowOf d i j)

/-- An element of a sound operand lies under it, on the plane and in a store row. -/
theorem Place.sound.bounds (hp : p.sound) (h : (d, i, j) ∈ p.t.grid) :
    i / p.t.ebr < p.t.h ∧ j / p.t.ebc < p.t.w ∧ p.plot.col + (p.t.col0 + j / p.t.ebc) < 256 ∧ p.storeRow (p.t.rowOf d i j) < 256
      ∧ p.t.rowOf d i j < p.t.depth := by
  obtain ⟨-, hcol, hd, -, hc, hl, -⟩ := hp
  obtain ⟨hds, hi, hj⟩ := Ten.mem_grid.mp h
  have hi' : i / p.t.ebr < p.t.h := Nat.div_lt_of_lt_mul (by rw [Nat.mul_comm]; exact hi)
  have hj' : j / p.t.ebc < p.t.w := Nat.div_lt_of_lt_mul (by rw [Nat.mul_comm]; exact hj)
  have hr := Ten.rowOf_lt hds i j
  unfold Place.storeRow
  omega

theorem Place.sound.covers (hp : p.sound) (h : (d, i, j) ∈ p.t.grid) : p.covers (p.cellOf i j) (p.storeRow (p.t.rowOf d i j)) := by
  obtain ⟨hi, hj, hc, -, hr⟩ := hp.bounds h
  unfold Place.covers Place.cellOf Plot.cell Machine.cellOf Place.storeRow
  generalize i / p.t.ebr = a, j / p.t.ebc = b at hi hj hc ⊢
  omega

/-- Two elements in one row at one bit are one element. -/
theorem Place.sound.key_inj (hp : p.sound) (h : (d, i, j) ∈ p.t.grid) (h' : (d', i', j') ∈ p.t.grid) (hk : p.key d i j = p.key d' i' j')
    (hb : p.t.bit i j = p.t.bit i' j') : d = d' ∧ i = i' ∧ j = j' := by
  obtain ⟨-, -, hc, hr, -⟩ := hp.bounds h
  obtain ⟨-, -, hc', hr', -⟩ := hp.bounds h'
  have hcells : i / p.t.ebr = i' / p.t.ebr ∧ j / p.t.ebc = j' / p.t.ebc ∧ p.t.rowOf d i j = p.t.rowOf d' i' j' := by
    unfold Place.key Place.cellOf Plot.cell Machine.cellOf at hk
    obtain ⟨hcell, hrow⟩ := mul_add_inj hr hr' hk
    obtain ⟨hi, hj⟩ := mul_add_inj (by omega) (by omega) hcell
    unfold Place.storeRow at hrow
    omega
  obtain ⟨hi, hj, hrow⟩ := hcells
  obtain ⟨hd, hq⟩ := mul_add_inj (p.t.inSlice i j) (p.t.inSlice i' j') hrow
  have hidx : p.t.idx i j = p.t.idx i' j' := by
    refine Nat.eq_of_mul_eq_mul_right (fmtBits_pos p.t.fmt) ?_
    rw [← Nat.div_add_mod (p.t.idx i j * fmtBits p.t.fmt) 256, ← Nat.div_add_mod (p.t.idx i' j' * fmtBits p.t.fmt) 256, hq]
    exact congrArg _ hb
  obtain ⟨hi2, hj2⟩ := mul_add_inj (Nat.mod_lt j p.t.ebc_pos) (Nat.mod_lt j' p.t.ebc_pos) hidx
  refine ⟨hd, ?_, ?_⟩
  · rw [← Nat.div_add_mod i p.t.ebr, ← Nat.div_add_mod i' p.t.ebr, hi, hi2]
  · rw [← Nat.div_add_mod j p.t.ebc, ← Nat.div_add_mod j' p.t.ebc, hj, hj2]
end

end Sys2Proof.Machine
end

section
/-!
PROOFS. What a write of elements leaves in every element and every row (07 R163, 11 R250).
-/
namespace Sys2Proof.Machine

/-! ### A write of elements, row by row -/

/-- An entry of the list that a write goes through: the row's key, the first bit, the element. -/
abbrev RowBits := Nat × Nat × EWrite

/-- One element's bits put into its row. -/
def putElem (wd : Nat) (m : NMap Row) (x : RowBits) : NMap Row :=
  let r := NMap.get {} m x.1
  NMap.put {} m x.1 { r with data := setFld r.data x.2.1 wd x.2.2.v, poison := r.poison || x.2.2.poison }

/-- A row made clean, if all its bits were written from clean rows. -/
def cleanWhole (wd : Nat) (xs : List RowBits) (m : NMap Row) (k : Nat) : NMap Row :=
  let mine := xs.filter fun x => x.1 == k
  let r := NMap.get {} m k
  if r.poison ∧ mine.all (fun x => !x.2.2.poison) ∧ (mine.map fun x => x.2.1).eraseDups.length * wd = 256
  then NMap.put {} m k { r with poison := false } else m

/-- The elements that are not void, each with its row and its bit. -/
def State.listed (s : State) (p : Place) (ws : List EWrite) : List RowBits :=
  ws.filterMap fun w => if s.isVoid (p.cellOf w.i w.j) then none else some (p.key w.d w.i w.j, p.t.bit w.i w.j, w)

/-- Steps that change the rows alone, taken together. -/
theorem foldl_rows {α : Type} {f : State → α → State} {g : NMap Row → α → NMap Row} (h : ∀ s x, f s x = { s with rows := g s.rows x })
    (xs : List α) (s : State) : xs.foldl f s = { s with rows := xs.foldl g s.rows } := by
  induction xs generalizing s with
  | nil => rfl
  | cons x xs ih => rw [List.foldl_cons, h, ih]; rfl

/-- The rows once elements are written: their bits put in, then the rows made clean that are. -/
def State.rowsWritten (s : State) (p : Place) (ws : List EWrite) : NMap Row :=
  let wd := fmtBits p.t.fmt
  let xs := s.listed p ws
  (xs.map (·.1)).eraseDups.foldl (cleanWhole wd xs) (xs.foldl (putElem wd) s.rows)

theorem writeElems_eq (s : State) (p : Place) (hf : p.t.fmt ≠ 16) (ws : List EWrite) :
    s.writeElems p ws = { s with rows := s.rowsWritten p ws } := by
  have hl : (ws.filterMap fun w =>
      let (cell, k, bit) := p.t.at w.d w.i w.j
      let c := p.plot.cell cell.1 cell.2
      if s.isVoid c then none else some (c * 256 + p.storeRow k, bit, w)) = s.listed p ws := by
    simp only [Ten.at_eq hf]
    rfl
  unfold State.writeElems
  dsimp only
  rw [hl]
  refine (congrArg (List.foldl _ · _) (foldl_rows (g := putElem (fmtBits p.t.fmt)) (fun _ _ => rfl) _ _)).trans ?_
  refine foldl_rows (g := cleanWhole (fmtBits p.t.fmt) (s.listed p ws)) (fun t k => ?_) _ _
  unfold cleanWhole
  dsimp only
  split <;> rfl

section
variable {wd : Nat} {m : NMap Row} {k b v : Nat}

theorem get_putElem_other (x : RowBits) (h : x.1 ≠ k) : NMap.get {} (putElem wd m x) k = NMap.get {} m k :=
  NMap.get_put_other _ _ _ (Ne.symm h)

theorem get_foldl_putElem_other (xs : List RowBits) (h : ∀ x ∈ xs, x.1 ≠ k) :
    NMap.get {} (xs.foldl (putElem wd) m) k = NMap.get {} m k := by
  induction xs generalizing m with
  | nil => rfl
  | cons x xs ih =>
    rw [List.foldl_cons, ih fun y hy => h y (List.mem_cons_of_mem _ hy), get_putElem_other x (h x List.mem_cons_self)]

/-- A row's field once bits are put into rows: the value of those that name the field, if any does; the others name fields apart
from it. -/
theorem fld_foldl_putElem (xs : List RowBits) (hin : ∀ x ∈ xs, x.2.1 + wd ≤ 256)
    (hd : ∀ x ∈ xs, x.1 = k → x.2.1 ≠ b → b + wd ≤ x.2.1 ∨ x.2.1 + wd ≤ b) (hv : ∀ x ∈ xs, x.1 = k → x.2.1 = b → x.2.2.v = v) :
    fld (NMap.get {} (xs.foldl (putElem wd) m) k).data b wd
      = if ∃ x ∈ xs, x.1 = k ∧ x.2.1 = b then v % 2 ^ wd else fld (NMap.get ({} : Row) m k).data b wd := by
  induction xs generalizing m with
  | nil => simp
  | cons x xs ih =>
    have hx := List.mem_cons_self (a := x) (l := xs)
    rw [List.foldl_cons, ih (fun y hy => hin y (List.mem_cons_of_mem _ hy)) (fun y hy => hd y (List.mem_cons_of_mem _ hy))
      (fun y hy => hv y (List.mem_cons_of_mem _ hy))]
    by_cases hxs : ∃ y ∈ xs, y.1 = k ∧ y.2.1 = b
    · obtain ⟨y, hy, hyk⟩ := hxs
      rw [if_pos ⟨y, hy, hyk⟩, if_pos ⟨y, List.mem_cons_of_mem _ hy, hyk⟩]
    · rw [if_neg hxs]
      by_cases hk : x.1 = k
      · have hput : (NMap.get {} (putElem wd m x) k).data = setFld (NMap.get ({} : Row) m k).data x.2.1 wd x.2.2.v := by
          subst hk
          unfold putElem
          rw [NMap.get_put_same]
        rw [hput]
        by_cases hb : x.2.1 = b
        · rw [if_pos ⟨x, hx, hk, hb⟩, ← hb, fld_setFld_same (hin x hx), hv x hx hk hb]
        · have hno : ¬ ∃ y ∈ x :: xs, y.1 = k ∧ y.2.1 = b := by
            rintro ⟨y, hy, hyk, hyb⟩
            rcases List.mem_cons.mp hy with rfl | hy
            · exact hb hyb
            · exact hxs ⟨y, hy, hyk, hyb⟩
          rw [if_neg hno, fld_setFld_other (hin x hx) _ (hd x hx hk hb)]
      · have hno : ¬ ∃ y ∈ x :: xs, y.1 = k ∧ y.2.1 = b := by
          rintro ⟨y, hy, hyk, hyb⟩
          rcases List.mem_cons.mp hy with rfl | hy
          · exact hk hyk
          · exact hxs ⟨y, hy, hyk, hyb⟩
        rw [if_neg hno, get_putElem_other x hk]

/-- A clean row holds what it held. -/
theorem data_foldl_cleanWhole (xs : List RowBits) (ks : List Nat) :
    (NMap.get {} (ks.foldl (cleanWhole wd xs) m) k).data = (NMap.get ({} : Row) m k).data := by
  induction ks generalizing m with
  | nil => rfl
  | cons j ks ih =>
    rw [List.foldl_cons, ih]
    unfold cleanWhole
    dsimp only
    split
    · rw [NMap.get_put]
      split
      next hk => rw [hk]
      · rfl
    · rfl

theorem get_foldl_cleanWhole_other (xs : List RowBits) (ks : List Nat) (h : k ∉ ks) :
    NMap.get {} (ks.foldl (cleanWhole wd xs) m) k = NMap.get ({} : Row) m k := by
  induction ks generalizing m with
  | nil => rfl
  | cons j ks ih =>
    rw [List.foldl_cons, ih fun hk => h (List.mem_cons_of_mem _ hk)]
    unfold cleanWhole
    dsimp only
    split
    · exact NMap.get_put_other _ _ _ fun hk => h (hk ▸ List.mem_cons_self)
    · rfl
end

/-! ### Every element and every row after the write -/

section
variable {s : State} {p : Place} {ws : List EWrite} {d i j : Nat}

theorem mem_listed {x : RowBits} (h : x ∈ s.listed p ws) :
    ∃ w ∈ ws, s.isVoid (p.cellOf w.i w.j) = false ∧ x = (p.key w.d w.i w.j, p.t.bit w.i w.j, w) := by
  obtain ⟨w, hw, hx⟩ := List.mem_filterMap.mp h
  split at hx
  · simp at hx
  next hv => exact ⟨w, hw, by simpa using hv, (Option.some.inj hx).symm⟩

theorem listed_of_mem {w : EWrite} (hw : w ∈ ws) (hv : s.isVoid (p.cellOf w.i w.j) = false) :
    (p.key w.d w.i w.j, p.t.bit w.i w.j, w) ∈ s.listed p ws := by
  refine List.mem_filterMap.mpr ⟨w, hw, ?_⟩
  rw [hv]
  rfl

theorem elemVoid_eq (hf : p.t.fmt ≠ 16) : s.elemVoid p d i j = s.isVoid (p.cellOf i j) := by
  unfold State.elemVoid
  rw [Ten.at_eq hf]
  rfl

/-- An element of a sound operand: its own bits of its row, and zero in a void cell (07 R168, R172). -/
theorem elem_eq (hp : p.sound) (h : (d, i, j) ∈ p.t.grid) :
    s.elem p 0 d i j = if s.isVoid (p.cellOf i j) then 0
      else fld (NMap.get ({} : Row) s.rows (p.key d i j)).data (p.t.bit i j) (fmtBits p.t.fmt) := by
  obtain ⟨hi, hj, -⟩ := hp.bounds h
  obtain ⟨-, -, -, hh, hw, -, -, hf, -⟩ := hp
  have hwin : p.plot.window 0 (p.t.row0 + i / p.t.ebr) (p.t.col0 + j / p.t.ebc) = some (p.cellOf i j) := by
    unfold Place.cellOf
    generalize i / p.t.ebr = a, j / p.t.ebc = b at hi hj ⊢
    have h0 : windowOff 0 = (0, 0) := rfl
    simp only [Plot.window, h0, Int.add_zero, Int.toNat_natCast]
    exact if_pos (by omega)
  unfold State.elem
  rw [Ten.at_eq hf]
  simp only [State.winRow, hwin]
  split
  · simp [fld_eq]
  · rfl

theorem writeElems_row (hp : p.sound) (hws : ∀ w ∈ ws, (w.d, w.i, w.j) ∈ p.t.grid) {c r : Nat} (hr : r < 256) (hc : ¬ p.covers c r) :
    (s.writeElems p ws).row c r = s.row c r := by
  have hf : p.t.fmt ≠ 16 := hp.2.2.2.2.2.2.2.1
  have hkey (x : RowBits) (hx : x ∈ s.listed p ws) : x.1 ≠ c * 256 + r := by
    obtain ⟨w, hw, -, rfl⟩ := mem_listed hx
    obtain ⟨-, -, -, hrow, -⟩ := hp.bounds (hws w hw)
    intro hk
    obtain ⟨rfl, rfl⟩ := mul_add_inj hrow hr hk
    exact hc (hp.covers (hws w hw))
  rw [writeElems_eq s p hf]
  unfold State.row State.rowsWritten
  rw [get_foldl_cleanWhole_other, get_foldl_putElem_other _ hkey]
  simp only [List.mem_eraseDups, List.mem_map, not_exists, not_and]
  exact hkey

/-- What an element holds after a write of distinct elements of a sound operand. -/
theorem elem_writeElems (hp : p.sound) (hws : ∀ w ∈ ws, (w.d, w.i, w.j) ∈ p.t.grid) (h : (d, i, j) ∈ p.t.grid) {v : Nat}
    (hv : ∀ w ∈ ws, (w.d, w.i, w.j) = (d, i, j) → w.v = v) :
    (s.writeElems p ws).elem p 0 d i j =
      if (∃ w ∈ ws, (w.d, w.i, w.j) = (d, i, j)) ∧ s.elemVoid p d i j = false then v % 2 ^ fmtBits p.t.fmt else s.elem p 0 d i j := by
  have hf : p.t.fmt ≠ 16 := hp.2.2.2.2.2.2.2.1
  have hvoid : (s.writeElems p ws).isVoid (p.cellOf i j) = s.isVoid (p.cellOf i j) := by
    rw [writeElems_eq s p hf]
    rfl
  have hsame (w : EWrite) (hw : w ∈ ws) (hk : p.key w.d w.i w.j = p.key d i j) (hb : p.t.bit w.i w.j = p.t.bit i j) :
      (w.d, w.i, w.j) = (d, i, j) := by
    obtain ⟨hd, hi, hj⟩ := hp.key_inj (hws w hw) h hk hb
    rw [hd, hi, hj]
  rw [elem_eq hp h, elem_eq hp h, elemVoid_eq hf, hvoid]
  by_cases hc : s.isVoid (p.cellOf i j) = true
  · simp [hc]
  · have hc' : s.isVoid (p.cellOf i j) = false := by simpa using hc
    rw [if_neg hc, if_neg hc, writeElems_eq s p hf]
    unfold State.rowsWritten
    rw [data_foldl_cleanWhole, fld_foldl_putElem (v := v)]
    · refine if_congr ⟨?_, ?_⟩ rfl rfl
      · rintro ⟨x, hx, hk, hb⟩
        obtain ⟨w, hw, -, rfl⟩ := mem_listed hx
        exact ⟨⟨w, hw, hsame w hw hk hb⟩, hc'⟩
      · rintro ⟨⟨w, hw, hdij⟩, -⟩
        obtain ⟨rfl, rfl, rfl⟩ := by simpa using hdij
        exact ⟨_, listed_of_mem hw hc', rfl, rfl⟩
    · intro x hx
      obtain ⟨w, -, -, rfl⟩ := mem_listed hx
      exact bit_le _ _
    · intro x hx hk hb
      obtain ⟨w, -, -, rfl⟩ := mem_listed hx
      exact (bits_apart _ _ _ hb).symm
    · intro x hx hk hb
      obtain ⟨w, hw, -, rfl⟩ := mem_listed hx
      exact hv w hw (hsame w hw hk hb)

end
end Sys2Proof.Machine
end

section
/-!
PROOFS. What a vector op leaves: its elements written, its footprint held (11 R250-R254).
-/
namespace Sys2Proof.Machine

/-! ### The state in which a plane op has begun (22 R411) -/

/-- Nothing that an op reads has changed: a debit changes the charge records and the cost that CHGRD reads. -/
structure State.Begun (s u : State) : Prop where
  thr : u.thr = { s.thr with lastCost := u.thr.lastCost }
  rows : u.rows = s.rows
  isVoid : ∀ c, u.isVoid c = s.isVoid c
  opNo : u.opNo = s.opNo

theorem State.Begun.refl (s : State) : s.Begun s := ⟨rfl, rfl, fun _ => rfl, rfl⟩

theorem isVoid_charged (s : State) (c cl : Nat) (n : Nat) (l : List Charge) :
    ({ s with thr := { s.thr with lastCost := n } }.setCluster cl { s.cluster cl with charges := l }).isVoid c = s.isVoid c := by
  have hon : (({ s with thr := { s.thr with lastCost := n } } : State).setCluster cl { s.cluster cl with charges := l }).isOff c = s.isOff c := by
    unfold State.isOff
    rw [cluster_setCluster]
    split
    next h => rw [h]
    · rfl
  unfold State.isVoid
  rw [hon]
  rfl

/-- Where nothing of the cluster is held and the balance reaches the cap, a charged instruction begins. -/
theorem charge_ok {s : State} {fps : List Fp} (h : s.MayBegin fps) (c T : Nat) : ∃ u, s.charge c T = .ok u ∧ s.Begun u := by
  unfold State.charge
  by_cases hc : c = 0
  · exact ⟨s, if_pos hc, State.Begun.refl s⟩
  · have hheld : (s.cluster s.cl).charges.filter (fun x => !x.begun) = [] := by
      rw [List.filter_eq_nil_iff]
      intro x hx
      simp [h.unheld x hx]
    have hcap : (min c (s.cluster s.cl).cap.toNat : Int) ≤ (s.cluster s.cl).balance.toInt := le_trans (min_le_right _ _) h.charged
    rw [if_neg hc]
    simp only [hheld, List.head?_nil, Bool.true_and, decide_eq_true hcap, if_true]
    exact ⟨_, rfl, rfl, rfl, fun x => isVoid_charged s x _ _ _, rfl⟩

theorem begin'_ok {s : State} {fps : List Fp} (h : s.MayBegin fps) (ops : List Ten) (weight busy : Nat) :
    ∃ u, s.begin' fps ops weight busy = .ok u ∧ s.Begun u := by
  obtain ⟨u, hu, hb⟩ := charge_ok h (weight * s.widest ops) busy
  refine ⟨u, ?_, hb⟩
  unfold State.begin'
  rw [h.apart]
  exact hu

section
variable {s u : State} (h : s.Begun u)
include h

theorem State.Begun.winRow (p : Place) (w : BitVec 4) (r c k : Nat) : u.winRow p w r c k = s.winRow p w r c k := by
  unfold State.winRow State.row
  rw [h.rows]
  split
  · rfl
  · rw [h.isVoid]
theorem State.Begun.elem (p : Place) (w : BitVec 4) (d i j : Nat) : u.elem p w d i j = s.elem p w d i j := by
  simp only [State.elem, h.winRow]
theorem State.Begun.src (x : Src) (d i j : Nat) : u.src x d i j = s.elem x.place x.win d i j := h.elem ..
theorem State.Begun.elemVoid (p : Place) (d i j : Nat) : u.elemVoid p d i j = s.elemVoid p d i j := by
  simp only [State.elemVoid, h.isVoid]
theorem State.Begun.predBit (tc : Option Place) (d i j : Nat) : u.predBit tc d i j = s.predBit tc d i j := by
  unfold State.predBit
  split
  · rfl
  · rw [h.elem]
theorem State.Begun.written (p : Place) (tc : Option Place) (e : Word) (x : Nat × Nat × Nat) : u.written p tc e x = s.written p tc e x := by
  unfold State.written
  rw [h.elemVoid, h.predBit]
theorem State.Begun.E (e : BitVec 3) : u.E e = s.E e := by
  unfold State.E
  rw [h.thr]
theorem State.Begun.plot : u.thr.plot = s.thr.plot := by rw [h.thr]; rfl
end

/-! ### Its effect -/

section
variable {s u : State} {p : Place} {tc : Option Place} {e : Word} {v : Nat → Nat → Nat → Nat × Bool}

/-- The elements that an op over a grid writes. -/
def State.gridWrites (s : State) (p : Place) (tc : Option Place) (e : Word) (v : Nat → Nat → Nat → Nat × Bool) : List EWrite :=
  ((p.t.grid.filter fun x => inBound e x.2.1 x.2.2 && !s.elemVoid p x.1 x.2.1 x.2.2).filter (s.written p tc e)).map fun x =>
    let r := v x.1 x.2.1 x.2.2
    ⟨x.1, x.2.1, x.2.2, r.1, r.2 || s.predPoison tc x.1 x.2.1 x.2.2⟩

theorem overGrid_fst : (s.overGrid p tc e v).1 = s.writeElems p (s.gridWrites p tc e v) := rfl

theorem mem_gridWrites {w : EWrite} (h : w ∈ s.gridWrites p tc e v) :
    (w.d, w.i, w.j) ∈ p.t.grid ∧ s.written p tc e (w.d, w.i, w.j) = true ∧ w.v = (v w.d w.i w.j).1 := by
  obtain ⟨x, hx, rfl⟩ := List.mem_map.mp h
  obtain ⟨hx, hw⟩ := List.mem_filter.mp hx
  exact ⟨(List.mem_filter.mp hx).1, hw, rfl⟩

theorem gridWrites_of_written {d i j : Nat} (h : (d, i, j) ∈ p.t.grid) (hw : s.written p tc e (d, i, j) = true) :
    ∃ w ∈ s.gridWrites p tc e v, (w.d, w.i, w.j) = (d, i, j) := by
  refine ⟨_, List.mem_map.mpr ⟨(d, i, j), List.mem_filter.mpr ⟨List.mem_filter.mpr ⟨h, ?_⟩, hw⟩, rfl⟩, rfl⟩
  unfold State.written at hw
  simp only [Bool.and_eq_true] at hw ⊢
  exact hw.1

/-- An op over the grid of a sound operand writes the elements that are inside the bound, active and not void. -/
theorem wroteElems_overGrid (hp : p.sound) :
    s.wroteElems (s.overGrid p tc e v).1 p (fun d i j => s.written p tc e (d, i, j)) fun d i j => (v d i j).1 := by
  have hgrid (w : EWrite) (hw : w ∈ s.gridWrites p tc e v) : (w.d, w.i, w.j) ∈ p.t.grid := (mem_gridWrites hw).1
  rw [overGrid_fst]
  refine ⟨fun d i j h => ?_, fun c r hr hc => writeElems_row hp hgrid hr hc⟩
  rw [elem_writeElems hp hgrid h (v := (v d i j).1)]
  · refine if_congr ?_ rfl rfl
    simp only [Bool.and_eq_true, Bool.not_eq_true']
    refine and_congr ⟨?_, gridWrites_of_written h⟩ Iff.rfl
    rintro ⟨w, hw, hx⟩
    exact hx ▸ (mem_gridWrites hw).2.1
  · intro w hw hx
    obtain ⟨rfl, rfl, rfl⟩ := by simpa using hx
    exact (mem_gridWrites hw).2.2

theorem overGrid_fields (hf : p.t.fmt ≠ 16) :
    (s.overGrid p tc e v).1.thr = s.thr ∧ (s.overGrid p tc e v).1.opNo = s.opNo := by
  rw [overGrid_fst, writeElems_eq s p hf]
  exact ⟨rfl, rfl⟩

/-- Elements written after a debit are elements written. -/
theorem State.Begun.wroteElems (h : s.Begun u) {t : State} {on : Nat → Nat → Nat → Bool} {new : Nat → Nat → Nat → Nat}
    (hw : u.wroteElems t p on new) : s.wroteElems t p on new := by
  obtain ⟨he, hr⟩ := hw
  refine ⟨fun d i j hg => ?_, fun c r h256 hc => ?_⟩
  · rw [he d i j hg, h.elemVoid, h.elem]
  · rw [hr c r h256 hc]
    unfold State.row
    rw [h.rows]
end

/-- The footprints that an op holds (07 R179, R180). -/
def Vop.fps (o : Vop) (p : Plot) : List Fp :=
  o.td.fp true ++ o.srcs.flatMap (fun x => x.1.fpWin p x.2) ++ (o.extra ++ o.tc.toList).flatMap (·.fp false)

/-- What an op makes of the elements under its destination, once it has begun. -/
def Vop.effect (o : Vop) (u : State) (edg : BitVec 3) (dst : Place) (ps : List Place) : State × Bool :=
  u.overGrid dst (o.tc.map fun t => ⟨t, u.thr.plot, 0⟩) (u.E edg) (o.val u dst ((ps.zip (o.srcs.map (·.2))).map fun x => ⟨x.1, x.2⟩))

/-- An op whose operands fit and have their places, and that has begun, makes its effect and holds its footprints. -/
theorem vrun_eq {s u : State} {edg : BitVec 3} {o : Vop} {dst : Place} {ps : List Place} (hok : o.ok = true)
    (hps : s.placesOf (o.td :: o.srcs.map (·.1)) = .ok (dst :: ps)) (hpow : s.powered (o.td :: o.srcs.map (·.1) ++ (o.extra ++ o.tc.toList)) = .ok ())
    (hu : s.begin' (o.fps s.thr.plot) (o.td :: o.srcs.map (·.1) ++ (o.extra ++ o.tc.toList)) o.weight o.busy = .ok u) :
    s.vrun edg o = .ok { st := (o.effect u edg dst ps).1.hold (o.fps s.thr.plot) (o.effect u edg dst ps).2 (whole := o.whole) } := by
  unfold State.vrun
  refine (need_bind hok ..).trans ?_
  dsimp only
  rw [hps, ok_bind, hpow, ok_bind]
  exact (congrArg (· >>= _) hu).trans rfl

/-- The op that `State.hold` adds. -/
def State.heldOp (s : State) (fps : List Fp) (poison : Bool) (work : Work) (dest : BitVec 6) (val : Word) (whole : Bool) : PlaneOp :=
  { no := s.opNo + 1, pc := s.thr.pc, fps := fps, work := work, poison := poison, dest := dest
    destVal := val, priv := s.thr.priv, root := s.thr.root, whole := whole }

theorem hold_thr (s : State) (fps : List Fp) (poison : Bool) (work : Work) (dest : BitVec 6) (val : Word) (whole : Bool) :
    (s.hold fps poison work dest val whole).thr = { s.thr with ops := s.thr.ops ++ [s.heldOp fps poison work dest val whole] } := rfl

/-- The op that holds footprints is one more op of the thread. -/
theorem hold_oneMoreOp {s e : State} (hthr : e.thr = { s.thr with lastCost := e.thr.lastCost }) (hno : e.opNo = s.opNo) (fps : List Fp)
    (bad : Bool) (work : Work) (dest : BitVec 6) (val : Word) (whole : Bool) :
    s.oneMoreOp (e.hold fps bad work dest val whole) (e.heldOp fps bad work dest val whole) := by
  refine ⟨?_, congrArg (· + 1) hno, (congrArg Thread.pc hthr :)⟩
  rw [hold_thr, hthr]

theorem wroteElems_hold {s e : State} {p : Place} {on : Nat → Nat → Nat → Bool} {new : Nat → Nat → Nat → Nat} (h : s.wroteElems e p on new)
    (fps : List Fp) (bad : Bool) (work : Work) (dest : BitVec 6) (val : Word) (whole : Bool) :
    s.wroteElems (e.hold fps bad work dest val whole) p on new := h

section
variable {s u : State} {o : Vop} {edg : BitVec 3} {dst : Place} {ps : List Place} (hbeg : s.Begun u) (hdst : dst.sound)
include hbeg hdst

theorem effect_fields : (o.effect u edg dst ps).1.thr = { s.thr with lastCost := (o.effect u edg dst ps).1.thr.lastCost }
    ∧ (o.effect u edg dst ps).1.opNo = s.opNo := by
  obtain ⟨hthr, hno⟩ : (o.effect u edg dst ps).1.thr = u.thr ∧ (o.effect u edg dst ps).1.opNo = u.opNo :=
    overGrid_fields hdst.2.2.2.2.2.2.2.1
  rw [hthr, hno]
  exact ⟨hbeg.thr, hbeg.opNo⟩

theorem wroteElems_effect {new : Place → List Src → Nat → Nat → Nat → Nat}
    (hval : ∀ dst xs d i j, (o.val u dst xs d i j).1 = new dst xs d i j) :
    s.wroteElems (o.effect u edg dst ps).1 dst (fun d i j => s.written dst (o.tc.map fun t => ⟨t, s.thr.plot, 0⟩) (s.E edg) (d, i, j))
      (new dst ((ps.zip (o.srcs.map (·.2))).map fun x => ⟨x.1, x.2⟩)) := by
  have heff := wroteElems_overGrid (s := u) (p := dst) (tc := o.tc.map fun t => ⟨t, u.thr.plot, 0⟩) (e := u.E edg)
    (v := o.val u dst ((ps.zip (o.srcs.map (·.2))).map fun x => ⟨x.1, x.2⟩)) hdst
  simp only [hbeg.written, hbeg.E, hbeg.plot, hval] at heff
  unfold Vop.effect
  rw [hbeg.E, hbeg.plot]
  exact hbeg.wroteElems heff
end

/-- A vector instruction is what its entry says: `legal` in words and as its check, `new` in words and as its value on the sources
as they stood. -/
theorem vectorOp_of_vrun {s : State} {f : FT} {opc fn : Nat} {i : Instr} {legal : Prop} {new : Place → List Src → Nat → Nat → Nat → Nat}
    (O : State → Vop) (hx : exec i s = issue (.t opc fn f) (fun s => s.vrun f.edg (O s)) s) (hok : (O s).ok = true ↔ legal)
    (hval : ∀ u dst xs d i j, s.Begun u → ((O s).val u dst xs d i j).1 = new dst xs d i j) :
    s.vectorOp f opc fn i legal (O s).td (O s).srcs (O s).tc (O s).extra new := by
  intro h
  refine ⟨fun hl => hx.trans (issue_trap h _ (need_bind_not (mt hok.mp hl) ..)), fun dst ps hl hps hpow hdst hb => ?_⟩
  obtain ⟨u, hu, hbeg⟩ := begin'_ok hb ((O s).td :: (O s).srcs.map (·.1) ++ ((O s).extra ++ (O s).tc.toList)) (O s).weight (O s).busy
  have hrun := vrun_eq (edg := f.edg) (hok.mpr hl) hps hpow hu
  obtain ⟨hthr, hno⟩ := effect_fields (o := O s) (edg := f.edg) (ps := ps) hbeg hdst
  have heff := wroteElems_effect (edg := f.edg) (ps := ps) hbeg hdst (hval u · · · · · hbeg)
  generalize (O s).effect u f.edg dst ps = r at hrun hthr hno heff
  exact ⟨_, _, hx.trans (issue_seq h _ hrun), hold_oneMoreOp hthr hno .., rfl, rfl, wroteElems_hold heff ..⟩
end Sys2Proof.Machine
end

section
/-!
PROOFS. Copies and fills of the plane, and the completion of a plane op (07 R163, R181; 08 R200, R201; 10 R246).
-/
namespace Sys2Proof.Machine

/-! ### The image of an accumulator block, written again (10 R245, R246) -/

/-- An exponent of 12 bits as 16 bits hold it. -/
def exp16 (v : Nat) : Nat := if v % 4096 < 2048 then v % 4096 else 0xF000 + v % 4096

/-- Three bits of each of so many bytes. -/
def lowThrees (v lo n : Nat) : Nat := ((List.range n).map fun k => v / 2 ^ (lo + 8 * k) % 8 * 2 ^ (lo + 8 * k)).sum

theorem wrapBits_toInt {w : Nat} (x : BitVec w) : wrapBits w x.toInt = x.toNat := by rw [wrapBits_eq, BitVec.ofInt_toInt]
theorem wrapBits_exp (n : Nat) : wrapBits 16 (BitVec.ofNat 12 n).toInt = exp16 n := by
  unfold exp16 wrapBits
  rw [BitVec.toInt_eq_toNat_cond, BitVec.toNat_ofNat]
  split <;> split <;> omega

theorem extract_toNat (n lo len : Nat) (h : n < 2 ^ 512) : ((BitVec.ofNat 512 n).extractLsb' lo len).toNat = n / 2 ^ lo % 2 ^ len := by
  rw [BitVec.extractLsb'_toNat, BitVec.toNat_ofNat, Nat.mod_eq_of_lt h, Nat.shiftRight_eq_div_pow]

theorem mantissas_sum (n : Nat) : ((List.range 8).map fun j => n / 2 ^ (48 * j) % 2 ^ 48 * 2 ^ (48 * j)).sum = n % 2 ^ 384 := by
  simp only [List.range_succ, List.range_zero, List.map_append, List.map_cons, List.map_nil, List.sum_append, List.sum_cons, List.sum_nil]
  omega

theorem lowThrees_lt (v lo n : Nat) : lowThrees v lo n < 2 ^ (lo + 8 * n) := by
  induction n with
  | zero => exact Nat.two_pow_pos _
  | succ n ih =>
    have hlast : v / 2 ^ (lo + 8 * n) % 8 * 2 ^ (lo + 8 * n) ≤ 7 * 2 ^ (lo + 8 * n) := Nat.mul_le_mul_right _ (by omega)
    have hsplit : lowThrees v lo (n + 1) = lowThrees v lo n + v / 2 ^ (lo + 8 * n) % 8 * 2 ^ (lo + 8 * n) := by
      simp [lowThrees, List.range_succ]
    have hpow : 2 ^ (lo + 8 * (n + 1)) = 2 ^ (lo + 8 * n) * 256 := Nat.pow_add 2 (lo + 8 * n) 8
    omega

theorem getD_map_range {α : Type} (f : Nat → α) (d : α) {n j : Nat} (hj : j < n) : ((List.range n).map f).getD j d = f j := by
  simp [hj]

theorem foldl_add_eq_sum (l : List Nat) (f : Nat → Nat) (a : Nat) : l.foldl (fun n j => n + f j) a = a + (l.map f).sum := by
  induction l generalizing a with
  | nil => rfl
  | cons x l ih => rw [List.foldl_cons, ih, List.map_cons, List.sum_cons, Nat.add_assoc]

/-- What reading an image and writing it keeps: the mantissas, the exponent sign-extended, the flags, three bits of each status byte. -/
theorem image_ofImage (n : Nat) (h : n < 2 ^ 512) : (Acc.ofImage (BitVec.ofNat 512 n)).image.toNat
    = n % 2 ^ 384 + exp16 (n / 2 ^ 384) * 2 ^ 384 + n / 2 ^ 400 % 4 * 2 ^ 400 + lowThrees n 416 8 := by
  have hbits : (List.range 8).foldl (fun k j => k + wrapBits 48 ((Acc.ofImage (BitVec.ofNat 512 n)).m.getD j 0) * 2 ^ (48 * j)
      + (Acc.ofImage (BitVec.ofNat 512 n)).stat.getD j 0 * 2 ^ (416 + 8 * j)) 0 = n % 2 ^ 384 + lowThrees n 416 8 := by
    simp only [Nat.add_assoc]
    rw [foldl_add_eq_sum, Nat.zero_add, ← mantissas_sum, lowThrees, ← List.sum_map_add]
    refine congrArg List.sum (List.map_congr_left fun j hj => ?_)
    have hj := List.mem_range.mp hj
    unfold Acc.ofImage
    dsimp only
    rw [getD_map_range _ _ hj, getD_map_range _ _ hj, wrapBits_toInt, extract_toNat n _ _ h, extract_toNat n _ _ h]
    rfl
  have he : wrapBits 16 (Acc.ofImage (BitVec.ofNat 512 n)).e = exp16 (n / 2 ^ 384) := by
    have hx : (BitVec.ofNat 512 n).extractLsb' 384 12 = BitVec.ofNat 12 (n / 2 ^ 384) := by
      apply BitVec.eq_of_toNat_eq
      rw [extract_toNat n _ _ h, BitVec.toNat_ofNat]
    rw [← wrapBits_exp, ← hx]
    rfl
  have hf : (Acc.ofImage (BitVec.ofNat 512 n)).flags = n / 2 ^ 400 % 4 := extract_toNat n 400 2 h
  have hlow := lowThrees_lt n 416 8
  have hexp : exp16 (n / 2 ^ 384) < 2 ^ 16 := by unfold exp16; split <;> omega
  unfold Acc.image
  dsimp only
  rw [hbits, he, hf, BitVec.toNat_ofNat]
  omega

section
variable {v lo n : Nat}

theorem lowThrees_add (v lo a b : Nat) : lowThrees v lo (a + b) = lowThrees v lo a + lowThrees v (lo + 8 * a) b := by
  unfold lowThrees
  rw [List.range_add, List.map_append, List.sum_append, List.map_map]
  refine congrArg₂ (· + ·) rfl (congrArg List.sum (List.map_congr_left fun k _ => ?_))
  rw [Function.comp_apply, Nat.mul_add, Nat.add_assoc]

theorem lowThrees_shift (v s lo n : Nat) : lowThrees (v * 2 ^ s) (s + lo) n = lowThrees v lo n * 2 ^ s := by
  unfold lowThrees
  rw [← List.sum_map_mul_right]
  refine congrArg List.sum (List.map_congr_left fun k _ => ?_)
  rw [Nat.add_assoc, Nat.pow_add, Nat.mul_comm v, Nat.mul_div_mul_left _ _ (Nat.two_pow_pos s), Nat.mul_assoc, Nat.mul_comm (2 ^ s)]

theorem lowThrees_dvd (v lo n : Nat) : 2 ^ lo ∣ lowThrees v lo n := by
  refine List.dvd_sum fun x hx => ?_
  obtain ⟨k, -, rfl⟩ := List.mem_map.mp hx
  rw [Nat.pow_add]
  exact Dvd.dvd.mul_left (Nat.dvd_mul_right ..) _

theorem lowThrees_of_lt (h : v < 2 ^ lo) (n : Nat) : lowThrees v lo n = 0 := by
  refine List.sum_eq_zero fun x hx => ?_
  obtain ⟨k, -, rfl⟩ := List.mem_map.mp hx
  rw [Nat.div_eq_of_lt (Nat.lt_of_lt_of_le h (Nat.pow_le_pow_right (by omega) (by omega)))]
  exact Nat.zero_mul _

theorem lowThrees_of_dvd (h : 2 ^ (lo + 8 * n) ∣ v) : lowThrees v lo n = 0 := by
  obtain ⟨u, rfl⟩ := h
  refine List.sum_eq_zero fun x hx => ?_
  obtain ⟨k, hk, rfl⟩ := List.mem_map.mp hx
  have hk := List.mem_range.mp hk
  have hsplit : 2 ^ (lo + 8 * n) = 2 ^ (lo + 8 * k) * (2 ^ 3 * 2 ^ (8 * (n - k) - 3)) := by
    rw [← Nat.pow_add, ← Nat.pow_add]
    exact congrArg _ (by omega)
  rw [hsplit, Nat.mul_assoc, Nat.mul_assoc, Nat.mul_div_cancel_left _ (Nat.two_pow_pos _), show 2 ^ 3 = 8 from rfl, Nat.mul_mod_right, Nat.zero_mul]
end

theorem exp16_lt (v : Nat) : exp16 v < 2 ^ 16 := by
  unfold exp16
  split <;> omega

/-- A number times a power of two is under a larger power by so much. -/
theorem mul_two_pow_lt {v s a b : Nat} (hv : v < 2 ^ a) (hb : a + s ≤ b) : v * 2 ^ s < 2 ^ b :=
  calc v * 2 ^ s < 2 ^ a * 2 ^ s := Nat.mul_lt_mul_of_pos_right hv (Nat.two_pow_pos _)
    _ = 2 ^ (a + s) := (Nat.pow_add ..).symm
    _ ≤ 2 ^ b := Nat.pow_le_pow_right (by omega) hb

/-- A part of a number in the place of another power of two. -/
theorem mul_two_pow_div (v s k : Nat) : v * 2 ^ s / 2 ^ (s + k) = v / 2 ^ k := by
  rw [Nat.pow_add, Nat.mul_comm v, Nat.mul_div_mul_left _ _ (Nat.two_pow_pos s)]

section
variable {v : Nat} (hv : v < 2 ^ 64)
include hv

/-- The image whose double word `q` alone is not 0, written again. -/
theorem image_of_mantissa {q : Nat} (hq : q < 6) : (Acc.ofImage (BitVec.ofNat 512 (v * 2 ^ (64 * q)))).image.toNat = v * 2 ^ (64 * q) := by
  have h (b : Nat) (hb : 384 ≤ b) : v * 2 ^ (64 * q) < 2 ^ b := mul_two_pow_lt hv (by omega)
  rw [image_ofImage _ (h 512 (by omega)), Nat.mod_eq_of_lt (h 384 (by omega)), Nat.div_eq_of_lt (h 384 (by omega)),
    Nat.div_eq_of_lt (h 400 (by omega)), lowThrees_of_lt (h 416 (by omega))]
  simp [exp16]

theorem image_of_exponent : (Acc.ofImage (BitVec.ofNat 512 (v * 2 ^ 384))).image.toNat
    = (exp16 v + v / 2 ^ 16 % 4 * 2 ^ 16 + lowThrees v 32 4) * 2 ^ 384 := by
  have hlow : lowThrees (v * 2 ^ 384) 416 8 = lowThrees v 32 4 * 2 ^ 384 := by
    rw [lowThrees_shift v 384 32 8, lowThrees_add v 32 4 4, lowThrees_of_lt hv, Nat.add_zero]
  rw [image_ofImage _ (mul_two_pow_lt hv (by omega)), Nat.mul_mod_left, Nat.mul_div_cancel _ (Nat.two_pow_pos _),
    mul_two_pow_div v 384 16, hlow, Nat.add_mul, Nat.add_mul, Nat.zero_add, Nat.mul_assoc _ (2 ^ 16), ← Nat.pow_add]

theorem image_of_status : (Acc.ofImage (BitVec.ofNat 512 (v * 2 ^ 448))).image.toNat = lowThrees v 0 4 * 2 ^ 448 := by
  have hlow : lowThrees (v * 2 ^ 448) 416 8 = lowThrees v 0 4 * 2 ^ 448 := by
    rw [lowThrees_add _ 416 4 4, lowThrees_of_dvd (lo := 416) (n := 4) (Nat.dvd_mul_left ..), Nat.zero_add]
    exact lowThrees_shift v 448 0 4
  have hsplit (k m : Nat) (h : m + k = 448) : v * 2 ^ 448 = v * 2 ^ m * 2 ^ k := by rw [Nat.mul_assoc, ← Nat.pow_add, h]
  have hexp : exp16 (v * 2 ^ 448 / 2 ^ 384) = 0 := by
    rw [hsplit 384 64 rfl, Nat.mul_div_cancel _ (Nat.two_pow_pos _)]
    unfold exp16
    split <;> omega
  have hflags : v * 2 ^ 448 / 2 ^ 400 % 4 = 0 := by
    rw [hsplit 400 48 rfl, Nat.mul_div_cancel _ (Nat.two_pow_pos _)]
    omega
  rw [image_ofImage _ (mul_two_pow_lt hv (by omega)), hexp, hflags, hlow, hsplit 384 64 rfl, Nat.mul_mod_left,
    Nat.zero_mul, Nat.zero_mul, Nat.zero_add]
end

/-- Double word `q` of a block as a copy writes it: a mantissa's as it is, the exponent's and the status bytes' cut to what R245
names (10 R246). -/
theorem canonWord_eq (q v : Nat) (hq : q < 8) (hv : v < 2 ^ 64) : canonWord q v =
    if q < 6 then v else if q = 6 then exp16 v + v / 2 ^ 16 % 4 * 2 ^ 16 + lowThrees v 32 4 else lowThrees v 0 4 := by
  have hword (x : Nat) (hx : x < 2 ^ 64) (himage : (Acc.ofImage (BitVec.ofNat 512 (v * 2 ^ (64 * q)))).image.toNat = x * 2 ^ (64 * q)) :
      canonWord q v = x := by
    unfold canonWord
    rw [Nat.mod_eq_of_lt hv, fld_eq, BitVec.extractLsb'_toNat, Nat.shiftRight_eq_div_pow, himage,
      Nat.mul_div_cancel _ (Nat.two_pow_pos _), Nat.mod_eq_of_lt hx]
  by_cases h6 : q < 6
  · rw [if_pos h6, hword v hv (image_of_mantissa hv h6)]
  · rw [if_neg h6]
    by_cases hq6 : q = 6
    · subst hq6
      have hlow := lowThrees_lt v 32 4
      have hexp := exp16_lt v
      have hmult := lowThrees_dvd v 32 4
      rw [if_pos rfl, hword _ (by omega) (image_of_exponent hv)]
    · obtain rfl : q = 7 := by omega
      exact hword _ (Nat.lt_of_lt_of_le (lowThrees_lt v 0 4) (by omega)) (image_of_status hv)

/-! ### PLCOPY and PLFILL (08 R200, R201) -/

theorem elem_lt (s : State) (p : Place) (w : BitVec 4) (d i j : Nat) : s.elem p w d i j < 2 ^ 64 := by
  simp only [State.elem, fld_eq]
  refine Nat.lt_of_lt_of_le (BitVec.isLt _) (Nat.pow_le_pow_right (by omega) ?_)
  rcases fmtBits_cases p.t.fmt with h | h | h | h | h | h <;> rw [h] <;> omega

/-- What a copy writes of a source's element: of an accumulator, what its double word keeps (10 R246). -/
def Ten.kept (t : Ten) (i j v : Nat) : Nat :=
  let q := (i % t.ebr * t.ebc + j % t.ebc) % 8
  if t.fmt = 16 then
    if q < 6 then v else if q = 6 then exp16 v + v / 2 ^ 16 % 4 * 2 ^ 16 + lowThrees v 32 4 else lowThrees v 0 4
  else v

theorem copied_eq (t : Ten) (i j v : Nat) (hv : v < 2 ^ 64) : t.copied i j v = t.kept i j v := by
  unfold Ten.copied Ten.kept
  split
  · exact canonWord_eq _ v (Nat.mod_lt _ (by omega)) hv
  · rfl

/-- The element of an op's first source. -/
def State.firstElem (s : State) (xs : List Src) (d i j : Nat) : Nat := (xs[0]?.map fun y => s.elem y.place y.win d i j).getD 0

theorem firstElem_lt (s : State) (xs : List Src) (d i j : Nat) : s.firstElem xs d i j < 2 ^ 64 := by
  unfold State.firstElem
  cases xs[0]? with
  | none => exact Nat.two_pow_pos _
  | some y => exact elem_lt ..

theorem b0_srcs {s u : State} (h : s.Begun u) (xs : List Src) (d i j : Nat) : b0 (u.srcsAt xs d i j).1 = s.firstElem xs d i j := by
  cases xs with
  | nil => rfl
  | cons x xs => exact h.src x d i j

/-- PLCOPY as a vector op. -/
def copyVop (f : FT) (s : State) : Vop :=
  let td := Ten.of (s.T f.td)
  let ta := Ten.of (s.T f.ta)
  { td := td.words, srcs := [(ta.words, f.wa)], weight := 6, busy := td.depth
    ok := td.own && ta.own && td.fmt = ta.fmt && td.lbr = ta.lbr && td.lbc = ta.lbc && td.h = ta.h && td.w = ta.w
      && td.depth = ta.depth && !(td.fmt = 16 && td.cutsBlock (s.E f.edg))
    val := fun s _ xs d i j => (td.copied i j (b0 (s.srcsAt xs d i j).1), (s.srcsAt xs d i j).2) }

theorem plcopy_eq (f : FT) (s : State) : exec (.plcopy f) s = issue (.t 0x70 2 f) (fun s => s.vrun f.edg (copyVop f s)) s := rfl

section
variable (s : State) (f : FT)

/-- A copy's checks (08 R200). -/
def CopyFits (s : State) (f : FT) : Prop :=
  let td := Ten.of (s.T f.td)
  let ta := Ten.of (s.T f.ta)
  td.own = true ∧ ta.own = true ∧ td.fmt = ta.fmt ∧ td.lbr = ta.lbr ∧ td.lbc = ta.lbc ∧ td.h = ta.h ∧ td.w = ta.w
    ∧ td.depth = ta.depth ∧ ¬ (td.fmt = 16 ∧ td.cutsBlock (s.E f.edg) = true)

theorem plcopy_vectorOp : s.vectorOp f 0x70 2 (.plcopy f) (CopyFits s f) (Ten.of (s.T f.td)).words [((Ten.of (s.T f.ta)).words, f.wa)] none []
    fun _ xs d i j => (Ten.of (s.T f.td)).kept i j (s.firstElem xs d i j) := by
  refine vectorOp_of_vrun (copyVop f) (plcopy_eq f s) ?_ fun u dst xs d i j h => ?_
  · simp only [copyVop, CopyFits, Bool.and_eq_true, decide_eq_true_eq, Bool.not_eq_true', Bool.and_eq_false_iff, decide_eq_false_iff_not,
      and_assoc, not_and_or, Bool.not_eq_true]
  · exact (congrArg ((Ten.of (s.T f.td)).copied i j) (b0_srcs h xs d i j)).trans (copied_eq _ i j _ (firstElem_lt ..))
end

/-- PLFILL as a vector op. -/
def fillVop (f : FT) (s : State) : Vop :=
  let td := Ten.of (s.T f.td)
  { td := td, weight := 6, busy := td.depth, ok := td.kind = 1 || td.kind = 3, val := fun _ _ _ _ _ _ => ((s.X f.xs).toNat, false) }

theorem plfill_eq (f : FT) (s : State) : exec (.plfill f) s = issue (.t 0x70 3 f) (fun s => s.vrun f.edg (fillVop f s)) s := rfl

theorem plfill_vectorOp (s : State) (f : FT) : s.vectorOp f 0x70 3 (.plfill f) ((Ten.of (s.T f.td)).kind = 1 ∨ (Ten.of (s.T f.td)).kind = 3)
    (Ten.of (s.T f.td)) [] none [] fun _ _ _ _ _ => (s.X f.xs).toNat :=
  vectorOp_of_vrun (fillVop f) (plfill_eq f s) (by simp [fillVop]) fun _ _ _ _ _ _ _ => rfl

/-! ### A plane op completes (07 R181, R163; 22 R410) -/

section
variable {s : State} {o : PlaneOp}

/-- The thread once an op has written its register and has gone. -/
def Thread.shed (t : Thread) (o : PlaneOp) : Thread :=
  let t := t.setXAs o.priv o.dest o.destVal
  { t with ops := (t.ops.map fun p => if p.no = o.no then { o with dest := 0 } else p).filter fun p => p.no ≠ o.no }

/-- The thread once an op has completed. -/
def Thread.completed (t : Thread) (o : PlaneOp) (now : Word) : Thread :=
  if o.poison then (t.shed o).fail { cause := cECC, pc := o.pc, time := now } else t.shed o

theorem opBusy_iff : s.opBusy o = true ↔ (s.cluster s.cl).on = true ∧ ∃ c ∈ (s.cluster s.cl).charges, c.op = o.no := by
  simp [State.opBusy]

theorem finished_iff : o.finished = true ↔ o.untilLoopEnds = false ∧ (o.work = .held ∨ ∃ sc, o.work = .scroll sc ∧ sc.dy = 0 ∧ sc.dx = 0) := by
  unfold PlaneOp.finished
  cases o.work <;> simp

theorem planeOpComplete_busy (ho : (s.atSlot s.input.slot).opNamed s.input.unit = some o) (hb : (s.atSlot s.input.slot).opBusy o = true) :
    exec .planeOpComplete s = .next s := by
  change execPlaneOpComplete s = .next s
  unfold execPlaneOpComplete
  refine slotEvent_of_none ?_
  rw [atSlot_input, ho]
  simp [hb]

theorem deliver_shed (x : State) (o : PlaneOp) : (x.deliver o o.destVal).withThr
    { (x.deliver o o.destVal).thr with ops := (x.deliver o o.destVal).thr.ops.filter fun p => p.no ≠ o.no } = x.withThr (x.thr.shed o) := rfl

theorem failNow_withThr (x : State) (t : Thread) (f : FaultRec) :
    (x.withThr t).failNow f = x.withThr (t.fail { f with time := x.time }) := rfl

theorem planeOpComplete_done (ho : (s.atSlot s.input.slot).opNamed s.input.unit = some o) (hf : o.finished = true)
    (hb : (s.atSlot s.input.slot).opBusy o = false) :
    exec .planeOpComplete s = .next ((s.atSlot s.input.slot).withThr ((s.atSlot s.input.slot).thr.completed o (s.atSlot s.input.slot).time)) := by
  change execPlaneOpComplete s = _
  unfold execPlaneOpComplete
  refine slotEvent_of_some ?_
  rw [atSlot_input, ho]
  simp only [Option.bind_eq_bind, Option.bind_some, hf, hb, Bool.not_false, Bool.and_self, if_true, deliver_shed, failNow_withThr]
  unfold Thread.completed
  split <;> rfl

@[simp] theorem atSlot_time (s : State) (k : SlotNo) : (s.atSlot k).time = s.time := by
  unfold State.atSlot
  split <;> rfl

theorem setXAs_eq (t : Thread) (priv : Bool) (n : BitVec 6) (v : Word) :
    t.setXAs priv n v = { t with x := (t.setXAs priv n v).x, xp := (t.setXAs priv n v).xp } := by
  unfold Thread.setXAs
  split
  · rfl
  · split <;> rfl

/-- A failure changes the record of it alone. -/
theorem fail_eq (t : Thread) (f : FaultRec) : t.fail f = { t with term := if t.term.isNone then some f else t.term } := by
  unfold Thread.fail
  by_cases h : t.term.isSome = true
  · rw [if_pos h, if_neg (by simpa [Option.isSome_iff_ne_none] using h)]
  · rw [if_neg h, if_pos (by simpa using h)]

theorem completed_eq (t : Thread) (o : PlaneOp) (now : Word) : t.completed o now =
    { t with x := (t.setXAs o.priv o.dest o.destVal).x, xp := (t.setXAs o.priv o.dest o.destVal).xp
             ops := (t.ops.map fun p => if p.no = o.no then { o with dest := 0 } else p).filter fun p => p.no ≠ o.no
             term := if o.poison && t.term.isNone then some { cause := cECC, pc := o.pc, time := now } else t.term } := by
  unfold Thread.completed Thread.shed
  rw [setXAs_eq]
  cases o.poison with
  | false => rfl
  | true => exact (if_pos rfl).trans (fail_eq ..)

theorem mem_completed_ops (t : Thread) (o : PlaneOp) (now : Word) (q : PlaneOp) : q ∈ (t.completed o now).ops ↔ q ∈ t.ops ∧ q.no ≠ o.no := by
  rw [completed_eq]
  simp only [List.mem_filter, List.mem_map, decide_eq_true_eq]
  constructor
  · rintro ⟨⟨p, hp, rfl⟩, hq⟩
    by_cases hpo : p.no = o.no
    · rw [if_pos hpo] at hq
      exact absurd rfl hq
    · rw [if_neg hpo]
      exact ⟨hp, hpo⟩
  · rintro ⟨hq, hno⟩
    exact ⟨⟨q, hq, if_neg hno⟩, hno⟩
end

/-- Settles O31: a completion by what it leaves of the thread, PLCOPY and PLFILL by the rule for vector ops, a copied block's double
words by what an image keeps. -/
theorem planeMoves : Obligations.PlaneMoves := by
  unfold Obligations.PlaneMoves
  refine ⟨fun s o => ?_, fun s f => ?_⟩
  · intro x ho hloop hwork busy
    have hfin := finished_iff.mpr ⟨hloop, hwork⟩
    refine ⟨fun hb => planeOpComplete_busy ho (opBusy_iff.mpr hb), fun hb => ?_⟩
    have hidle : x.opBusy o = false := by
      rw [Bool.eq_false_iff]
      exact mt opBusy_iff.mp hb
    refine ⟨_, planeOpComplete_done ho hfin hidle, mem_completed_ops x.thr o _, ?_, ?_, sameBytes_withThr _⟩
    · rw [withThr_thr, completed_eq]
    · rw [withThr_thr, completed_eq, atSlot_time]
  · intro td ta whole cuts low3 canon copied
    exact ⟨plcopy_vectorOp s f, plfill_vectorOp s f⟩

end Sys2Proof.Machine
end

section
/-!
PROOFS. The descriptor and edge register instructions (07 R173, R184-R186).
-/
namespace Sys2Proof.Machine

/-! ### A descriptor validated and written (07 R173, R185) -/

/-- An own-plot tensor lies within the plot of a thread (07 R173). -/
def Ten.FitsPlot (t : Ten) (th : Thread) : Prop :=
  t.kind ∈ [1, 2, 3] → t.row0 + t.h ≤ th.plotH ∧ t.col0 + t.w ≤ th.plotW ∧ t.layer + t.depth ≤ th.plotD

section
variable {s u : State} {f : FT} {fn : Nat} {d : BitVec 256}

theorem fitsPlot_iff : (Ten.of d).FitsPlot u.thr ↔ (Ten.of d).own = false ∨ (Ten.of d).inPlot u.thr.plot = true := by
  unfold Ten.FitsPlot Ten.own Ten.inPlot Thread.plot
  by_cases h1 : (Ten.of d).kind = 1
  · simp [h1, and_assoc]
  · by_cases h2 : (Ten.of d).kind = 2
    · simp [h2, and_assoc]
    · by_cases h3 : (Ten.of d).kind = 3
      · simp [h3, and_assoc]
      · simp [h1, h2, h3]

theorem writeT_bad (h : descOk d = false) (n : BitVec 6) : u.writeT n d = .error (.trap ⟨cILLEGAL_FIELD, 0, 0⟩) := by
  unfold State.writeT State.validate
  rw [need_bind_not (by simp [h])]
  rfl
theorem writeT_beyond (h : descOk d = true) (hf : ¬ (Ten.of d).FitsPlot u.thr) (n : BitVec 6) :
    u.writeT n d = .error (.trap ⟨cPLOT_BOUND, 0, 0⟩) := by
  unfold State.writeT State.validate
  rw [need_bind h, need, if_neg (mt fitsPlot_iff.mpr hf)]
  rfl
theorem writeT_ok (h : descOk d = true) (hf : (Ten.of d).FitsPlot u.thr) (n : BitVec 6) : u.writeT n d = .ok { st := u.setT n d } := by
  unfold State.writeT State.validate
  rw [need_bind h, need, if_pos (fitsPlot_iff.mp hf)]
  rfl

/-- What an instruction that ends in a write of descriptor `d` does, from a state `u` that its checks have left. -/
def State.WritesT (s u : State) (f : FT) (fn : Nat) (out : Host.Outcome State Fault Refusal) (d : BitVec 256) : Prop :=
  (descOk d = false → out = .next (s.takeTrap ⟨0x0003, 0, 0⟩))
  ∧ (descOk d = true → ¬ (Ten.of d).FitsPlot s.thr → out = .next (s.takeTrap ⟨0x0201, 0, 0⟩))
  ∧ (descOk d = true → (Ten.of d).FitsPlot s.thr → out = .next (s.after (.t 0x50 fn f) (u.setT f.td d)))

theorem writesT_of_body {body : State → Res Done} (h : s.Issues (.t 0x50 fn f)) (hb : body s = u.writeT f.td d) (hu : u.thr = s.thr) :
    s.WritesT u f fn (issue (.t 0x50 fn f) body s) d :=
  ⟨fun hd => issue_trap h _ (hb.trans (writeT_bad hd _)),
    fun hd hf => issue_trap h _ (hb.trans (writeT_beyond hd (hu ▸ hf) _)),
    fun hd hf => issue_seq h _ (hb.trans (writeT_ok hd (hu ▸ hf) _))⟩
end

/-! ### The access of 32 bytes (07 R185, R186) -/

section
variable {s : State} {w : Want} {a : Word}

theorem descAccess_trap {tr : Trap} (h : s.resolve { w with watch := false } a 32 = .error (.trap tr)) :
    s.descAccess w a = .error (.trap tr) := by
  unfold State.descAccess
  rw [h]
  rfl

variable (h : ∃ r, s.resolve { w with watch := false } a 32 = .ok r)
include h

theorem descAccess_space (hs : ¬ (spaceOf a = 0 ∨ spaceOf a = 1)) : s.descAccess w a = .error (.trap ⟨cSPACE, a, 0⟩) := by
  obtain ⟨r, hr⟩ := h
  unfold State.descAccess
  rw [hr, ok_bind, need_bind_not hs]
theorem descAccess_misaligned (hs : spaceOf a = 0 ∨ spaceOf a = 1) (ha : a.toNat % 32 ≠ 0) :
    s.descAccess w a = .error (.trap ⟨cMISALIGN, a, 0⟩) := by
  obtain ⟨r, hr⟩ := h
  unfold State.descAccess
  rw [hr, ok_bind, need_bind hs, need_bind_not ha]
theorem descAccess_eq (hs : spaceOf a = 0 ∨ spaceOf a = 1) (ha : a.toNat % 32 = 0) : s.descAccess w a = s.resolve w a 32 := by
  obtain ⟨r, hr⟩ := h
  unfold State.descAccess
  rw [hr, ok_bind, need_bind hs, need_bind ha]
end

/-- The bytes of a descriptor, as their queue entry holds them. -/
theorem SqEntry.Holds.desc {e : SqEntry} {locs : List (Loc × Nat)} {v : BitVec 256} (h : e.Holds locs (leBytes 32 v.toNat))
    (hl : locs.length = 32) : e.bytes.map (fun b => (b.loc, b.key)) = locs ∧ leNat (e.bytes.map (·.val)) = v.toNat := by
  have hb : (leBytes 32 v.toNat).length = 32 := leBytes_length ..
  rw [h, List.map_map, List.map_map]
  constructor
  · exact List.map_fst_zip (by omega)
  · rw [show ((·.val) ∘ fun x : (Loc × Nat) × Byte => (⟨x.1.1, x.2, x.1.2⟩ : SqByte)) = Prod.snd from rfl,
      List.map_snd_zip (by omega), leNat_leBytes]
    exact Nat.mod_eq_of_lt v.isLt

/-! ### TDLD and TDST -/

section
variable {s : State} {f : FT}

/-- The address of a descriptor in memory. -/
def State.descAddr (s : State) (f : FT) : Word := s.X f.xs + f.imm18.signExtend 64

section
variable (h : s.Issues (.t 0x50 2 f)) (hl : s.loadWaits = .ok ())
include h hl

theorem tdld_trap {tr : Trap} (ha : s.descAccess {} (s.descAddr f) = .error (.trap tr)) : exec (.tdld f) s = .next (s.takeTrap tr) := by
  change execTdld f s = _
  unfold execTdld
  refine issue_trap h _ ?_
  rw [hl, ok_bind]
  exact (congrArg (· >>= _) ha).trans rfl

theorem tdld_writesT {u : State} {nm : Named} (ha : s.descAccess {} (s.descAddr f) = .ok (u, nm)) (hu : u.thr = s.thr)
    (hc : u.claim nm.fps true = .ok ()) : s.WritesT u f 2 (exec (.tdld f) s) (BitVec.ofNat 256 (leNat (u.drained.getBytes nm.locs))) := by
  change s.WritesT u f 2 (execTdld f s) _
  unfold execTdld
  refine writesT_of_body h ?_ hu
  rw [hl, ok_bind]
  refine (congrArg (· >>= _) ha).trans ?_
  rw [ok_bind]
  dsimp only
  rw [hc, ok_bind]
end

section
variable (h : s.Issues (.t 0x50 3 f))
include h

theorem tdst_trap {tr : Trap} (ha : s.descAccess (storeWant 0) (s.descAddr f) = .error (.trap tr)) :
    exec (.tdst f) s = .next (s.takeTrap tr) := by
  change execTdst f s = _
  unfold execTdst
  exact issue_trap h _ ((congrArg (· >>= _) ha).trans rfl)

theorem tdst_eq {u : State} {nm : Named} (ha : s.descAccess (storeWant 0) (s.descAddr f) = .ok (u, nm))
    (hc : u.storeClaims nm 1 = .ok ()) (hu : u.thr = s.thr) : exec (.tdst f) s = .next (s.after (.t 0x50 3 f)
      (u.pushStore (s.descAddr f) nm (leBytes 32 (s.T f.ta).toNat))) := by
  change execTdst f s = _
  unfold execTdst
  refine issue_seq h _ ((congrArg (· >>= _) ha).trans ?_)
  rw [ok_bind]
  dsimp only
  rw [hc, ok_bind]
  unfold State.T
  rw [hu]
  rfl
end

/-! ### TDMOVE and TDSUB -/

theorem of_moveTo (d : BitVec 256) {r c l : Int} (hr : inField r = true) (hc : inField c = true) (hl : inField l = true) :
    Ten.of (moveTo d r c l) = { Ten.of d with row0 := r.toNat, col0 := c.toNat, layer := l.toNat } := by
  have hfield (v : Int) (hv : inField v = true) : v.toNat % 2 ^ 8 = v.toNat := by
    unfold inField at hv
    simp only [Bool.and_eq_true, decide_eq_true_eq] at hv
    omega
  unfold moveTo Ten.of
  simp (disch := omega) only [fld_setFld_other, fld_setFld_same, hfield r hr, hfield c hc, hfield l hl]

/-- The extents of a descriptor replaced. -/
def resized (d : BitVec 256) (h w l : Nat) : BitVec 256 := setFld (setFld (setFld d 25 9 h) 34 9 w) 51 9 l

theorem of_resized (d : BitVec 256) {h w l : Nat} (hh : h < 512) (hw : w < 512) (hl : l < 512) :
    Ten.of (resized d h w l) = { Ten.of d with h := h, w := w, depth := l } := by
  unfold resized Ten.of
  simp (disch := omega) only [fld_setFld_other, fld_setFld_same, Nat.mod_eq_of_lt]

theorem fld_lt {w : Nat} (v : BitVec w) (lo n : Nat) : fld v lo n < 2 ^ n := Nat.mod_lt _ (Nat.two_pow_pos n)


/-- The origin and the layer that TDMOVE asks for. -/
structure Move where
  r : Int
  c : Int
  l : Int

def State.moveAsked (s : State) (f : FT) : Move :=
  let t := Ten.of (s.T f.ta)
  let x := s.X f.xs
  ⟨t.row0 + sfld x 0 16, t.col0 + sfld x 16 16, t.layer + sfld x 32 16⟩

abbrev Move.Fits (m : Move) : Prop := inField m.r = true ∧ inField m.c = true ∧ inField m.l = true

theorem Move.fits_iff (m : Move) : m.Fits ↔ 0 ≤ m.r ∧ m.r ≤ 255 ∧ 0 ≤ m.c ∧ m.c ≤ 255 ∧ 0 ≤ m.l ∧ m.l ≤ 255 := by
  simp [Move.Fits, inField, and_assoc]

section
variable (h : s.Issues (.t 0x50 4 f))
include h

theorem tdmove_writesT (hm : (s.moveAsked f).Fits) :
    s.WritesT s f 4 (exec (.tdmove f) s) (moveTo (s.T f.ta) (s.moveAsked f).r (s.moveAsked f).c (s.moveAsked f).l) := by
  change s.WritesT s f 4 (execTdmove f s) _
  unfold execTdmove
  exact writesT_of_body h (need_bind hm ..) rfl

theorem tdmove_trap (hm : ¬ (s.moveAsked f).Fits) : exec (.tdmove f) s = .next (s.takeTrap ⟨cPLOT_BOUND, 0, 0⟩) := by
  change execTdmove f s = _
  unfold execTdmove
  exact issue_trap h _ (need_bind_not hm ..)
end

/-- The part of a tensor that TDSUB asks for: its offsets and its extents. -/
structure SubTen where
  r : Nat
  c : Nat
  l : Nat
  h : Int
  w : Int
  d : Int

def State.partAsked (s : State) (f : FT) : SubTen :=
  let t := Ten.of (s.T f.ta)
  let x := s.X f.xs
  let r := fld x 0 16
  let c := fld x 16 16
  let l := fld f.imm18 0 9
  ⟨r, c, l, subExtent (fld x 32 16) t.h r, subExtent (fld x 48 16) t.w c, subExtent (fld f.imm18 9 9) t.depth l⟩

/-- A part that is not empty lies in its tensor. -/
abbrev SubTen.Inside (p : SubTen) (t : Ten) : Prop := p.r + p.h ≤ t.h ∧ p.c + p.w ≤ t.w ∧ p.l + p.d ≤ t.depth ∧ 0 < p.h ∧ 0 < p.w ∧ 0 < p.d
/-- Its fields hold a part's origin. -/
abbrev SubTen.Held (p : SubTen) (t : Ten) : Prop := t.row0 + p.r ≤ 255 ∧ t.col0 + p.c ≤ 255 ∧ t.layer + p.l ≤ 255
/-- The descriptor of a part. -/
def SubTen.desc (p : SubTen) (v : BitVec 256) : BitVec 256 :=
  let t := Ten.of v
  resized (moveTo v (t.row0 + p.r : Nat) (t.col0 + p.c : Nat) (t.layer + p.l : Nat)) p.h.toNat p.w.toNat p.d.toNat

theorem SubTen.of_desc {p : SubTen} {v : BitVec 256} (hi : p.Inside (Ten.of v)) (hh : p.Held (Ten.of v)) : Ten.of (p.desc v) =
    { Ten.of v with row0 := (Ten.of v).row0 + p.r, col0 := (Ten.of v).col0 + p.c, layer := (Ten.of v).layer + p.l
                    h := p.h.toNat, w := p.w.toNat, depth := p.d.toNat } := by
  obtain ⟨h1, h2, h3, -⟩ := hi
  obtain ⟨g1, g2, g3⟩ := hh
  have hsize (n : Nat) (hn : n ≤ 255) : inField n = true := by simpa [inField] using hn
  have hh : (Ten.of v).h < 512 := fld_lt v 25 9
  have hw : (Ten.of v).w < 512 := fld_lt v 34 9
  have hd : (Ten.of v).depth < 512 := fld_lt v 51 9
  unfold SubTen.desc
  rw [of_resized _ (by omega) (by omega) (by omega), of_moveTo _ (hsize _ g1) (hsize _ g2) (hsize _ g3)]
  rfl

section
variable (h : s.Issues (.t 0x50 5 f))
include h

theorem tdsub_writesT (hi : (s.partAsked f).Inside (Ten.of (s.T f.ta))) (hh : (s.partAsked f).Held (Ten.of (s.T f.ta))) :
    s.WritesT s f 5 (exec (.tdsub f) s) ((s.partAsked f).desc (s.T f.ta)) := by
  change s.WritesT s f 5 (execTdsub f s) _
  unfold execTdsub
  exact writesT_of_body h ((need_bind hi ..).trans (need_bind hh ..)) rfl

theorem tdsub_trap (hp : ¬ ((s.partAsked f).Inside (Ten.of (s.T f.ta)) ∧ (s.partAsked f).Held (Ten.of (s.T f.ta)))) :
    exec (.tdsub f) s = .next (s.takeTrap ⟨cPLOT_BOUND, 0, 0⟩) := by
  change execTdsub f s = _
  unfold execTdsub
  refine issue_trap h _ ?_
  by_cases hi : (s.partAsked f).Inside (Ten.of (s.T f.ta))
  · exact (need_bind hi ..).trans (need_bind_not (fun hh => hp ⟨hi, hh⟩) ..)
  · exact need_bind_not hi ..
end
end

end Sys2Proof.Machine
end

section
/-!
PROOFS. PLOTGROW and PLOTINFO, and the rows that a plot's clearing leaves (07 R166; 15 R332, R333).
-/
namespace Sys2Proof.Machine

/-! ### Rows cleared (07 R166) -/

/-- A map with some entries left out. -/
theorem NMap.get_filter {α : Type} (d : α) (m : NMap α) (keep : Nat → Bool) (k : Nat) :
    NMap.get d (m.filter fun x => keep x.1) k = if keep k then NMap.get d m k else d := by
  induction m with
  | nil => simp
  | cons x m ih =>
    obtain ⟨j, v⟩ := x
    simp only [List.filter_cons]
    by_cases hj : j = k
    · subst hj
      by_cases hk : keep j = true
      · simp [hk, NMap.get]
      · rw [if_neg hk, ih, if_neg hk, if_neg hk]
    · have hskip : NMap.get d ((j, v) :: m) k = NMap.get d m k := if_neg hj
      rw [hskip, ← ih]
      split
      · exact if_neg hj
      · rfl

/-- A store row once a plot has been cleared, but for what lies in another. -/
theorem row_clearRows (s : State) (p : Plot) (kept : Option Plot) (c : Nat) {r : Nat} (hr : r < 256) :
    (s.clearRows p kept).row c r = if p.holdsRow c r && !kept.any (·.holdsRow c r) then {} else s.row c r := by
  have hc : (c * 256 + r) / 256 = c := by omega
  have hm : (c * 256 + r) % 256 = r := by omega
  refine (NMap.get_filter ({} : Row) s.rows (fun k => !(p.holdsRow (k / 256) (k % 256) && !kept.any (·.holdsRow (k / 256) (k % 256)))) _).trans ?_
  rw [hc, hm]
  unfold State.row
  by_cases h : (p.holdsRow c r && !kept.any (·.holdsRow c r)) = true
  · rw [if_neg (by rw [h]; simp), if_pos h]
  · rw [if_pos (by simp only [h, Bool.not_false]), if_neg h]

/-! ### PLOTGROW (15 R332) -/

section
variable {s : State} {f : FB}

/-- A request that its operand's fields allow (log 56). -/
abbrev growLegal (q : Word) : Prop := fld q 32 32 = 0 ∧ fld q 0 8 ≤ 64 ∧ fld q 8 8 ≤ 64 ∧ fld q 16 16 ≤ 256

/-- The state once the plot has been extended. -/
def State.grownTo (s : State) (p : Plot) : State :=
  let s := s.clearRows p (some s.thr.plot)
  s.withThr { s.thr.placed p with growing := none }

/-- The state that waits for an extension. -/
def State.growing (s : State) (p : Plot) : State :=
  s.withThr { s.thr with growing := some ((s.thr.growing.map (·.1)).getD s.stepNo, p.h, p.w, p.d) }

theorem plot_placed_self (t : Thread) (p : Plot) (hp : p.row = t.row.toNat ∧ p.col = t.col.toNat ∧ p.sbase = t.sbase.toNat) :
    t.placed p = { t with plotH := p.h, plotW := p.w, plotD := p.d } := by
  obtain ⟨hr, hc, hb⟩ := hp
  unfold Thread.placed
  rw [hr, hc, hb]
  simp

variable (h : s.Issues (.b 0x40 10 f))
include h

theorem plotgrow_illegal (hl : ¬ growLegal (s.X f.xa)) : exec (.plotgrow f) s = .next (s.takeTrap ⟨cILLEGAL_FIELD, 0, 0⟩) := by
  change execPlotgrow f s = _
  unfold execPlotgrow
  exact issue_trap h _ (need_bind_not hl ..)

variable (hl : growLegal (s.X f.xa))
include hl

theorem plotgrow_beyond (hp : ¬ (s.thr.grownPlot (s.X f.xa)).onPlane = true) :
    exec (.plotgrow f) s = .next (s.takeTrap ⟨cPLOT_BOUND, 0, 0⟩) := by
  change execPlotgrow f s = _
  unfold execPlotgrow
  exact issue_trap h _ ((need_bind hl ..).trans (need_bind_not hp ..))

variable {p : Plot} (hp : p = s.thr.grownPlot (s.X f.xa)) (hon : p.onPlane = true)
include hp hon

theorem plotgrow_grows (hg : s.mayGrow s.thr p.h p.w p.d = true) : exec (.plotgrow f) s = .next (s.after (.b 0x40 10 f)
    ((s.grownTo p).setX f.xd (s.grownTo p).thr.plotExt)) := by
  subst hp
  change execPlotgrow f s = _
  unfold execPlotgrow
  refine issue_seq h _ ((need_bind hl ..).trans ((need_bind hon ..).trans (if_pos hg)))

theorem plotgrow_waits (hg : s.mayGrow s.thr p.h p.w p.d = false) : exec (.plotgrow f) s =
    .next (if (s.growing p).growDeadlock then s.takeTrap ⟨cPLOT_DEADLOCK, 0, 0⟩ else (s.growing p).stall) := by
  subst hp
  change execPlotgrow f s = _
  unfold execPlotgrow
  have hno : (s.thr.growing.map (·.1)).getD s.stepNo = match s.thr.growing with
      | some x => x.1
      | none => s.stepNo := by cases s.thr.growing <;> rfl
  by_cases hd : (s.growing (s.thr.grownPlot (s.X f.xa))).growDeadlock = true
  · rw [if_pos hd]
    unfold State.growing at hd
    rw [hno] at hd
    exact issue_trap h _ ((need_bind hl ..).trans ((need_bind hon ..).trans ((if_neg (by simp [hg])).trans (if_pos hd))))
  · rw [if_neg hd]
    unfold State.growing at hd ⊢
    rw [hno] at hd ⊢
    exact issue_wait h _ ((need_bind hl ..).trans ((need_bind hon ..).trans ((if_neg (by simp [hg])).trans (if_neg hd))))
end

end Sys2Proof.Machine
end

section
/-!
PROOFS. Descriptors, edge registers and the plot of a thread: the statement settled (07 R173, R185; 15 R332, R333).
-/
namespace Sys2Proof.Machine

section
variable {s : State} {f : FB}

theorem growLegal_iff (q : Word) : growLegal q ↔ q.toNat / 2 ^ 32 % 2 ^ 32 = 0 ∧ q.toNat % 256 ≤ 64 ∧ q.toNat / 256 % 256 ≤ 64
    ∧ q.toNat / 65536 % 65536 ≤ 256 := by
  simp [growLegal, fld, bits]

theorem grownPlot_eq (t : Thread) (q : Word) : t.grownPlot q =
    { t.plot with h := max t.plotH (4 * (q.toNat % 256)), w := max t.plotW (4 * (q.toNat / 256 % 256))
                  d := max t.plotD (q.toNat / 65536 % 65536) } := by
  simp [Thread.grownPlot, fld, bits]

theorem onPlane_iff (p : Plot) : p.onPlane = true ↔ p.row + p.h ≤ 256 ∧ p.col + p.w ≤ 256 ∧ p.sbase + p.d ≤ 256 := by
  simp [Plot.onPlane, and_assoc]

/-- The plot of a thread with other extents. -/
def Thread.plotOf (t : Thread) (h w d : Nat) : Plot := { t.plot with h := h, w := w, d := d }

theorem grownTo_thr (h w d : Nat) : (s.grownTo (s.thr.plotOf h w d)).thr = { s.thr with plotH := h, plotW := w, plotD := d, growing := none } := by
  unfold State.grownTo
  rw [withThr_thr, plot_placed_self _ _ ⟨rfl, rfl, rfl⟩]
  rfl

theorem row_grownTo (p : Plot) (c : Nat) {r : Nat} (hr : r < 256) :
    (s.grownTo p).row c r = if p.holdsRow c r && !s.thr.plot.holdsRow c r then {} else s.row c r :=
  row_clearRows s p (some s.thr.plot) c hr

/-- What an extension leaves: the larger plot, its new rows clear, all else as it was. -/
theorem plotgrow_grown {h w d : Nat} {p : Plot} (hp : p = s.thr.plotOf h w d) :
    (s.grownTo p).thr.plotExt = BitVec.ofNat 64 (d * 2 ^ 18 + w * 2 ^ 9 + h)
    ∧ (s.grownTo p).thr = { s.thr with plotH := h, plotW := w, plotD := d, growing := none }
    ∧ s.grownTo p = { s with thr := (s.grownTo p).thr, rows := (s.grownTo p).rows }
    ∧ (∀ c r, r < 256 → s.thr.plot.holdsRow c r = true → (s.grownTo p).row c r = s.row c r)
    ∧ (∀ c r, r < 256 → s.thr.plot.holdsRow c r = false → p.holdsRow c r = true → (s.grownTo p).row c r = ({} : Row))
    ∧ (∀ c r, r < 256 → p.holdsRow c r = false → (s.grownTo p).row c r = s.row c r) := by
  subst hp
  refine ⟨?_, grownTo_thr h w d, rfl, fun c r hr hold => ?_, fun c r hr hold hnew => ?_, fun c r hr hnew => ?_⟩
  · rw [grownTo_thr]
    rfl
  · rw [row_grownTo _ _ hr, hold]
    simp
  · rw [row_grownTo _ _ hr, hold, hnew]
    rfl
  · rw [row_grownTo _ _ hr, hnew]
    rfl
end

section
variable {s : State} {f : FT}

theorem tdset_writesT (h : s.Issues (.t 0x50 0 f)) :
    s.WritesT s f 0 (exec (.tdset f) s) (s.X (f.xs + 3) ++ s.X (f.xs + 2) ++ s.X (f.xs + 1) ++ s.X f.xs) := by
  change s.WritesT s f 0 (execTdset f s) _
  unfold execTdset
  exact writesT_of_body h rfl rfl
theorem tdget_eq (h : s.Issues (.t 0x50 1 f)) : exec (.tdget f) s = .next (s.after (.t 0x50 1 f)
    ((((s.setX f.xs (tword (s.T f.ta) 0)).setX (f.xs + 1) (tword (s.T f.ta) 1)).setX (f.xs + 2) (tword (s.T f.ta) 2)).setX (f.xs + 3)
      (tword (s.T f.ta) 3))) := by
  change execTdget f s = _
  exact pureOp_of_issues h _
theorem edset_eq (h : s.Issues (.t 0x50 6 f)) : exec (.edset f) s = .next (s.after (.t 0x50 6 f) (s.setE f.edg (s.X f.xs))) := by
  change execEdset f s = _
  exact pureOp_of_issues h _
theorem edget_eq (h : s.Issues (.t 0x50 7 f)) : exec (.edget f) s = .next (s.after (.t 0x50 7 f) (s.setX f.xs (s.E f.edg))) := by
  change execEdget f s = _
  exact pureOp_of_issues h _
end

theorem plotinfo_eq {s : State} {f : FB} (h : s.Issues (.b 0x40 11 f)) : exec (.plotinfo f) s = .next (s.after (.b 0x40 11 f)
    (s.setX f.xd (s.plotInfo f.imm32.toNat (s.X f.xa)))) := by
  change execPlotinfo f s = _
  exact pureOp_of_issues h _

/-- Settles O26: each instruction by its checks in their order and its effect, a descriptor's fields by the fields it was given. -/
theorem descriptorsAndPlots : Obligations.DescriptorsAndPlots := by
  unfold Obligations.DescriptorsAndPlots
  refine ⟨fun s f => ?_, fun s f => ?_⟩
  · intro put writesOn writes src word a row0 col0 layer x
    refine ⟨fun h => tdset_writesT h, fun h => tdget_eq h, fun h ho hq hsc => ?_, fun h => ?_, fun h => ?_, fun h => ?_, fun h => edset_eq h,
      fun h => edget_eq h⟩
    · have hl := loadWaits_eq_ok ho hq hsc
      refine ⟨fun tr hr => tdld_trap h hl (descAccess_trap hr), fun hr => ?_⟩
      split
      next hs => exact tdld_trap h hl (descAccess_space hr hs)
      next hs =>
        have hs := not_not.mp hs
        split
        next ha => exact tdld_trap h hl (descAccess_misaligned hr hs ha)
        next ha =>
          intro s1 nm hres hc
          have hthr := resolve_thr hres
          exact tdld_writesT h hl ((descAccess_eq hr hs (not_not.mp ha)).trans hres) hthr hc
    · intro want
      refine ⟨fun tr hr => tdst_trap h (descAccess_trap hr), fun hr => ?_⟩
      split
      next hs => exact tdst_trap h (descAccess_space hr hs)
      next hs =>
        have hs := not_not.mp hs
        split
        next ha => exact tdst_trap h (descAccess_misaligned hr hs ha)
        next ha =>
          intro s1 nm hres hc
          obtain ⟨e, he, hholds⟩ := pushStore_eq s1 (s.descAddr f) nm (leBytes 32 (s.T f.ta).toNat)
          exact ⟨e, _, tdst_eq h ((descAccess_eq hr hs (not_not.mp ha)).trans hres) hc (resolve_thr hres), he, hholds.desc (resolve_length hres)⟩
    · intro r c l
      have hm : s.moveAsked f = ⟨r, c, l⟩ := by
        simp only [State.moveAsked, Ten.of, fld_eq]
        rfl
      have hfits := (s.moveAsked f).fits_iff
      split
      next hin =>
        have hin' : (s.moveAsked f).Fits := by rwa [hfits, hm]
        refine ⟨_, tdmove_writesT h hin', ?_⟩
        rw [of_moveTo _ hin'.1 hin'.2.1 hin'.2.2, hm]
      next hin => exact tdmove_trap h (by rwa [hfits, hm])
    · intro t r c l asked h' w d
      have hp : s.partAsked f = ⟨r, c, l, h', w, d⟩ := by
        simp only [State.partAsked, fld_eq]
        rfl
      split
      next hin =>
        obtain ⟨h1, h2, h3, h4, h5, h6, hat⟩ := hin
        have hi : (s.partAsked f).Inside t := by
          rw [hp]
          exact ⟨h1, h2, h3, h4, h5, h6⟩
        have hh : (s.partAsked f).Held t := by
          rw [hp]
          exact hat
        refine ⟨_, tdsub_writesT h hi hh, ?_⟩
        rw [SubTen.of_desc hi hh, hp]
      next hin =>
        refine tdsub_trap h fun ⟨hi, hh⟩ => hin ?_
        rw [hp] at hi hh
        obtain ⟨h1, h2, h3, h4, h5, h6⟩ := hi
        exact ⟨h1, h2, h3, h4, h5, h6, hh⟩
  · intro q th rodsH rodsW depth h w d legal onPlane voids
    refine ⟨fun hi => ?_, fun hi => ?_⟩
    · have hp : s.thr.plotOf h w d = s.thr.grownPlot q := (grownPlot_eq ..).symm
      have hplane : (s.thr.plotOf h w d).onPlane = true ↔ onPlane := onPlane_iff _
      refine ⟨fun hl => plotgrow_illegal hi (mt (growLegal_iff q).mp hl), fun hl hon => ?_, fun hl hon hg => ?_, fun hl hon hg => ?_⟩
      · exact plotgrow_beyond hi ((growLegal_iff q).mpr hl) (hp ▸ mt hplane.mp hon)
      · obtain ⟨hext, hgrown⟩ := plotgrow_grown (s := s) (h := h) (w := w) (d := d) rfl
        exact ⟨_, hext ▸ plotgrow_grows hi ((growLegal_iff q).mpr hl) hp (hplane.mpr hon) hg, hgrown⟩
      · have hx := plotgrow_waits hi ((growLegal_iff q).mpr hl) hp (hplane.mpr hon) hg
        split at hx
        · exact .inr hx
        · exact .inl ⟨_, hx, rfl, sameBytes_withThr _⟩
    · have hsel : f.imm32.toNat = 0 ↔ f.imm32 = 0 := BitVec.toNat_inj (y := 0#32)
      rw [plotinfo_eq hi]
      unfold State.plotInfo
      simp only [hsel] <;> rfl

end Sys2Proof.Machine
end

section
/-!
PROOFS. A dispatch decision and the thread that it starts (07 R164, R166; 09 R204; 15 R312-R314).
-/
namespace Sys2Proof.Machine

/-! ### The pick (15 R312) -/

section
variable {α : Type} {lt : α → α → Bool} {rank : α → Nat} {l : List α} {x : α}

theorem foldl_best_mem (lt : α → α → Bool) (r : List α) (m : α) : r.foldl (fun m y => if lt y m then y else m) m ∈ m :: r := by
  induction r generalizing m with
  | nil => exact .head _
  | cons y r ih =>
    rw [List.foldl_cons]
    rcases List.mem_cons.mp (ih (if lt y m then y else m)) with h | h
    · rw [h]
      split
      · exact .tail _ (.head _)
      · exact .head _
    · exact .tail _ (.tail _ h)

theorem bestBy_mem (h : bestBy lt l = some x) : x ∈ l := by
  cases l with
  | nil => cases h
  | cons m r => exact Option.some.inj h ▸ foldl_best_mem lt r m

/-- Where the order never puts a lower rank first, the best has the highest. -/
theorem foldl_best_max (hlt : ∀ a b, lt a b = true → rank b ≤ rank a) (hge : ∀ a b, lt a b = false → rank a ≤ rank b) (r : List α) (m : α) :
    ∀ y ∈ m :: r, rank y ≤ rank (r.foldl (fun m y => if lt y m then y else m) m) := by
  induction r generalizing m with
  | nil =>
    intro y hy
    rw [List.mem_singleton.mp hy]
    exact Nat.le_refl _
  | cons z r ih =>
    have hm : rank m ≤ rank (if lt z m then z else m) ∧ rank z ≤ rank (if lt z m then z else m) := by
      by_cases h : lt z m = true
      · rw [if_pos h]
        exact ⟨hlt _ _ h, Nat.le_refl _⟩
      · rw [if_neg h]
        exact ⟨Nat.le_refl _, hge _ _ (by simpa using h)⟩
    have hbest := ih (if lt z m then z else m)
    have hhead := hbest _ (.head _)
    intro y hy
    rw [List.foldl_cons]
    rcases List.mem_cons.mp hy with rfl | hy
    · exact Nat.le_trans hm.1 hhead
    · rcases List.mem_cons.mp hy with rfl | hy
      · exact Nat.le_trans hm.2 hhead
      · exact hbest y (.tail _ hy)

theorem bestBy_max (hlt : ∀ a b, lt a b = true → rank b ≤ rank a) (hge : ∀ a b, lt a b = false → rank a ≤ rank b) (h : bestBy lt l = some x) :
    ∀ y ∈ l, rank y ≤ rank x := by
  cases l with
  | nil => cases h
  | cons m r => exact Option.some.inj h ▸ foldl_best_max hlt hge r m
end

theorem before_prio (a b : Cand) : (a.before b = true → b.prio ≤ a.prio) ∧ (a.before b = false → a.prio ≤ b.prio) := by
  unfold Cand.before
  by_cases h : a.prio ≠ b.prio
  · simp only [if_pos h, decide_eq_true_eq, decide_eq_false_iff_not]
    omega
  · rw [not_not.mp h]
    exact ⟨fun _ => Nat.le_refl _, fun _ => Nat.le_refl _⟩

/-- A pick that no queue was owed is the first under R312's order: none outranks it. -/
theorem pickOf_unowed {l : List (Cand × Verdict)} {x : Cand × Verdict} (h : pickOf l = some (x, false)) :
    x ∈ l ∧ ∀ y ∈ l, y.1.prio ≤ x.1.prio := by
  unfold pickOf at h
  dsimp only at h
  split at h
  · cases h
  · obtain ⟨y, hy, hx⟩ := Option.map_eq_some_iff.mp h
    cases hx
    exact ⟨bestBy_mem hy, bestBy_max (rank := fun y : Cand × Verdict => y.1.prio) (fun a b => (before_prio a.1 b.1).1)
      (fun a b => (before_prio a.1 b.1).2) hy⟩

/-! ### The place (15 R313) -/

theorem firstPlace_ok {ok : Plot → Bool} {h w d n k : Nat} {p : Plot} (hp : firstPlace ok h w d n k = some p) : ok p = true := by
  induction n generalizing k with
  | zero => cases hp
  | succ n ih =>
    unfold firstPlace at hp
    split at hp
    next hok => exact Option.some.inj hp ▸ hok
    · exact ih hp

/-- A record is given a place that the partition may grant. -/
theorem judge_item {s : State} {part : Nat} {c : Cand} {r : ItemRec} {p : Plot} (hc : c.entry = .item r) (h : s.judge part c = .place p) :
    s.grants part none p = true := by
  unfold State.judge at h
  rw [hc] at h
  unfold State.wants at h
  dsimp only at h
  split at h
  next q hq =>
    cases h
    exact firstPlace_ok hq
  · split at h
    · cases h
    · cases h

/-! ### The thread that starts (09 R204; 15 R314) -/

section
variable (s : State) (r : ItemRec) (p : Plot) (k : SlotNo)

/-- The thread of an item at its first instruction, on a slot and in a plot. -/
def State.firstThread : Thread :=
  let t := (newThread { r with uid := s.uid + 1 } r.code r.frame).placed p
  let t := { t with started := if r.past.started = 0 then s.slotTime k else r.past.started }
  match (NMap.get {} s.parts r.part.toNat).cfg with
  | some c => t.configured c k
  | none => t

/-- A slot's thread stands apart from launches, events and debug blocks. -/
theorem setThread_beside (u : State) (t : Thread) (d : NMap Dbg) (l : List Launch) (ev : List Ev) :
    { u.setThread k t with dbg := d, launches := l, events := ev } = ({ u with dbg := d, launches := l, events := ev } : State).setThread k t := by
  by_cases hk : k = u.cur
  · subst hk
    rw [setThread_same]
    exact (setThread_same { u with dbg := d, launches := l, events := ev } t).symm
  · rw [setThread_of_ne hk]
    exact (setThread_of_ne (s := { u with dbg := d, launches := l, events := ev }) hk t).symm

/-- What a start changes beside the slot that it takes. -/
theorem startItem_frame : ∃ t d l ev, s.startItem r p k =
    ({ s.clearRows p none with uid := s.uid + 1, dbg := d, launches := l, events := ev } : State).setThread k
      { s.firstThread r p k with pcSampled := t } := by
  obtain ⟨t, d, hseat⟩ : ∃ t d, ({ s with uid := s.uid + 1 }.clearRows p none).seat k (s.firstThread r p k) =
      { ({ s.clearRows p none with uid := s.uid + 1 } : State).setThread k { s.firstThread r p k with pcSampled := t } with dbg := d } :=
    ⟨_, _, rfl⟩
  have hstart : s.startItem r p k = ((({ s with uid := s.uid + 1 }.clearRows p none).seat k (s.firstThread r p k)).startLaunch r.launch).emitStart k 1 :=
    rfl
  rw [hstart, hseat]
  unfold State.emitStart State.startLaunch State.mapLaunch
  obtain ⟨e1, h1⟩ := emitSlot_frame _ k 0x01 _
  obtain ⟨e2, h2⟩ := emitSlot_frame _ k 0x02 _
  rw [h2, h1]
  exact ⟨t, _, _, _, setThread_beside k _ _ _ _ _⟩

/-- A register file after a write within it. -/
theorem getD_setIfInBounds {α : Type} {m : Nat} (v : Vector α m) {i : Nat} (hi : i < m) (a d : α) (n : Nat) :
    (v.setIfInBounds i a).toArray.getD n d = if n = i then a else v.toArray.getD n d := by
  by_cases hn : n = i
  · subst hn
    simp [Array.getD, hi]
  · by_cases hm : n < m
    · simp [Array.getD, hm, hn, Ne.symm hn]
    · simp [Array.getD, hm, hn]

/-- x20 is the frame and x19 the join counter of a thread at its first instruction. -/
theorem newThread_x (r : ItemRec) (start frame : Word) {n : Nat} (hn : n < 64) :
    (newThread r start frame).x.toArray.getD n 0 = if n = 20 then frame else if n = 19 then r.join else 0 := by
  unfold newThread
  dsimp only
  rw [getD_setIfInBounds _ (by omega), getD_setIfInBounds _ (by omega)]
  by_cases h19 : n = 19
  · simp [h19]
  · by_cases h20 : n = 20
    · simp [h20]
    · simp [h19, h20, Array.getD, hn]

/-- The thread that a record starts: what 09 R204 gives it, in its plot, with what its partition gives the slot. -/
theorem firstThread_frame : ∃ b l v x xp n, s.firstThread r p k =
      { (newThread { r with uid := s.uid + 1 } r.code r.frame).placed p with started := n, stkbase := b, stklim := l, tvec := v, x := x, xp := xp }
    ∧ (∀ n, n < 63 → x.toArray.getD n 0 = (newThread { r with uid := s.uid + 1 } r.code r.frame).x.toArray.getD n 0)
    ∧ ∀ g, (NMap.get ({} : Part) s.parts r.part.toNat).cfg = some g → v = g.tvec &&& 0xFFFFFFFFFFFC := by
  unfold State.firstThread
  dsimp only
  cases hcfg : (NMap.get ({} : Part) s.parts r.part.toNat).cfg with
  | none => exact ⟨_, _, _, _, _, _, rfl, fun _ _ => rfl, fun g hg => by cases hg⟩
  | some c =>
    refine ⟨_, _, _, _, _, _, rfl, fun n hn => ?_, fun g hg => by cases hg; rfl⟩
    exact (getD_setIfInBounds _ (by omega) _ _ n).trans (if_neg (by omega))

/-- A start clears the plot and leaves every other row, byte and thread (07 R166). -/
theorem startItem_spec : ∃ n, (s.startItem r p k).thread k = { s.firstThread r p k with pcSampled := n }
    ∧ (∀ j, j ≠ k → (s.startItem r p k).thread j = s.thread j)
    ∧ (∀ c r', r' < 256 → (s.startItem r p k).row c r' = if p.holdsRow c r' then {} else s.row c r')
    ∧ ∀ l key, (s.startItem r p k).get l key = s.get l key ∨ ∃ c r b, l = .cell c r b := by
  obtain ⟨n, d, ls, ev, h⟩ := startItem_frame s r p k
  rw [h]
  refine ⟨n, by rw [thread_setThread, if_pos rfl], fun j hj => ?_, fun c r' hr => ?_, fun l key => ?_⟩
  · rw [thread_setThread, if_neg hj]
    rfl
  · have hrow : ∀ (u : State) (t : Thread), (u.setThread k t).row c r' = u.row c r' := fun u t => by
      unfold State.row
      rw [setThread_rows]
    rw [hrow]
    refine (row_clearRows s p none c hr).trans ?_
    simp
  · cases l with
    | cell c r b => exact .inr ⟨c, r, b, rfl⟩
    | _ =>
      refine .inl ?_
      unfold State.setThread
      split <;> rfl
end

/-! ### The decision (15 R312, R313) -/

section
variable {s : State}

theorem popHead_frame (s : State) (q : Nat) : ∃ l qs, s.popHead q = { s with launches := l, queues := qs } := by
  unfold State.popHead
  split
  · exact ⟨_, _, rfl⟩
  · dsimp only
    split
    · split
      · exact ⟨_, _, rfl⟩
      · exact ⟨_, _, rfl⟩
    · exact ⟨_, _, rfl⟩
  · exact ⟨_, _, rfl⟩

/-- What the allocator answers to the heads of a partition's queues. -/
def State.judged (s : State) (part : Nat) : List (Cand × Verdict) :=
  ((s.queues.filterMap fun x => if x.2.enabled && x.2.part.toNat = part then s.headOf x.1 x.2 else none).map fun c => (c, s.judge part c)).filter
    fun x => match x.2 with
      | .no => false
      | _ => true

theorem judged_judge {part : Nat} {x : Cand × Verdict} (h : x ∈ s.judged part) : s.judge part x.1 = x.2 := by
  obtain ⟨c, -, rfl⟩ := List.mem_map.mp (List.mem_filter.mp h).1
  rfl

variable {c : Cand} {p : Plot} {r : ItemRec} {k : SlotNo}

theorem startEntry_item (u : State) (hk : u.idleSlot p.home = some k) : u.startEntry (.item r) p = some (u.startItem r p k) := by
  unfold State.startEntry
  rw [hk]
  rfl

/-- The record that is picked starts in its place; queues and launches have counted it. -/
theorem dispatchItem_eq (hready : s.readyReserve s.input.unit = none)
    (hpick : pickOf (s.judged s.input.unit) = some ((c, .place p), false)) (hc : c.entry = .item r) (hk : s.idleSlot p.home = some k) :
    ∃ l qs, exec .dispatchItem s = .next (({ s with launches := l, queues := qs } : State).startItem r p k) := by
  obtain ⟨l, qs, hpicked⟩ : ∃ l qs, (s.popHead c.q).giveCredits (BitVec.ofNat 4 s.input.unit) c.q false = { s with launches := l, queues := qs } := by
    obtain ⟨l, qs, h⟩ := popHead_frame s c.q
    rw [h]
    exact ⟨l, _, rfl⟩
  have hentry : s.pickEntry s.input.unit = some (({ s with launches := l, queues := qs } : State).startItem r p k) := by
    refine (congrArg (· >>= _) hpick).trans ?_
    change ((s.popHead c.q).giveCredits (BitVec.ofNat 4 s.input.unit) c.q false).startEntry c.entry p = _
    rw [hpicked, hc]
    exact startEntry_item _ hk
  refine ⟨l, qs, ?_⟩
  change execDispatchItem s = _
  unfold execDispatchItem
  rw [event_next]
  dsimp only
  rw [hready]
  dsimp only
  rw [hentry]
  rfl
end

end Sys2Proof.Machine
end

section
/-!
PROOFS. What a pre-emption asks for, and the state at which a save or a flush takes an item (06 R151; 08 R194; 20 R397-R402).
-/
namespace Sys2Proof.Machine

/-! ### The request (20 R397) -/

section
variable {s : State} {k : SlotNo}

/-- An item asked to stop: nothing else changes but the trace. -/
theorem setPreempt_frame (s : State) (k : SlotNo) (p : Preempt) :
    ∃ ev, s.setPreempt k p = { s.setThread k { s.thread k with preempt := p } with events := ev } := by
  unfold State.setPreempt
  dsimp only
  split
  · exact emitSlot_frame ..
  · exact ⟨_, rfl⟩

theorem thread_setPreempt (s : State) (k j : SlotNo) (p : Preempt) :
    (s.setPreempt k p).thread j = if j = k then { s.thread k with preempt := p } else s.thread j := by
  obtain ⟨ev, h⟩ := setPreempt_frame s k p
  rw [h]
  exact thread_setThread s k j _

/-- What an item is asked for: DRAIN where the time left is within its budget, else FLUSH for an idempotent one, else SAVE. -/
theorem choose_eq (s : State) (k : SlotNo) (t : Thread) (area : Word) : s.choose k t area =
    if t.src.cycles ≠ 0 ∧ (t.src.cycles.toNat - t.cyc.toNat) * 1000 ≤ t.drainbud.toNat * (1750 - 250 * (s.cluster (k.toNat / 8)).point.toNat)
    then .drain area else t.flushOrSave area := by
  unfold State.choose Thread.leftCycles
  by_cases hc : t.src.cycles = 0
  · simp [hc]
  · simp only [ne_eq, hc, not_false_eq_true, true_and]
    rfl

variable (hk : s.slotOfUid s.input.unit = some k)
include hk

theorem preemptRequest_none (h : (s.thread k).phase ≠ .running ∨ (s.thread k).term.isSome = true ∨ (s.thread k).preempt ≠ .none) :
    exec .preemptRequest s = .next s := by
  change execPreemptRequest s = _
  unfold execPreemptRequest
  rw [event_next]
  dsimp only
  rw [hk]
  dsimp only
  rw [if_pos h]
  rfl

theorem preemptRequest_eq (hr : (s.thread k).phase = .running) (ht : (s.thread k).term = none) (hp : (s.thread k).preempt = .none) :
    exec .preemptRequest s = .next (s.setPreempt k (if (NMap.get ({} : Dbg) s.dbg k.toNat).stopped then .save (s.input.value.setWidth 64)
      else s.choose k (s.thread k) (s.input.value.setWidth 64))) := by
  change execPreemptRequest s = _
  unfold execPreemptRequest
  rw [event_next]
  dsimp only
  rw [hk]
  dsimp only
  rw [if_neg (by simp [hr, ht, hp])]
  split <;> rfl
end

/-- A drain that expires asks again. -/
theorem drainExpiry_eq {s : State} {area : Word} (hp : (s.atSlot s.input.slot).thr.preempt = .drain area)
    (hr : (s.atSlot s.input.slot).thr.phase = .running) (ht : (s.atSlot s.input.slot).thr.term = none) :
    exec .drainExpiry s = .next ((s.atSlot s.input.slot).setPreempt (s.atSlot s.input.slot).cur
      (if (s.atSlot s.input.slot).curDbg.stopped then .save area else (s.atSlot s.input.slot).thr.flushOrSave area)) := by
  change execDrainExpiry s = _
  unfold execDrainExpiry
  refine slotEvent_of_some ?_
  rw [hp]
  dsimp only
  rw [if_neg (by simp [hr, ht])]

/-! ### The thread that is taken (20 R398, R401, R402) -/

/-- What `rewound` and `stand` leave of a thread: its registers, its item and what it holds. -/
structure Thread.Keeps (a b : Thread) : Prop where
  phase : b.phase = a.phase
  src : b.src = a.src
  term : b.term = a.term
  priv : b.priv = a.priv
  trapDue : b.trapDue = a.trapDue
  reissuing : b.reissuing = a.reissuing
  x : b.x = a.x
  xp : b.xp = a.xp
  p : b.p = a.p
  e : b.e = a.e
  t : b.t = a.t
  loops : b.loops = a.loops
  ow : b.ow = a.ow
  saves : b.saves = a.saves
  traps : b.traps = a.traps
  groups : b.groups = a.groups

theorem rewound_thr (s : State) : s.thr.Keeps s.rewound.thr ∧ s.rewound.thr.granted = s.thr.granted := by
  unfold State.rewound
  split
  · split
    · exact ⟨⟨rfl, rfl, rfl, rfl, rfl, rfl, rfl, rfl, rfl, rfl, rfl, rfl, rfl, rfl, rfl, rfl⟩, rfl⟩
    · exact ⟨⟨rfl, rfl, rfl, rfl, rfl, rfl, rfl, rfl, rfl, rfl, rfl, rfl, rfl, rfl, rfl, rfl⟩, rfl⟩
  · exact ⟨⟨rfl, rfl, rfl, rfl, rfl, rfl, rfl, rfl, rfl, rfl, rfl, rfl, rfl, rfl, rfl, rfl⟩, rfl⟩

theorem rewound_frame (s : State) : ∃ q t, s.rewound = { s with feq := q, thr := t } := by
  unfold State.rewound
  split
  · split
    · exact ⟨_, _, rfl⟩
    · exact ⟨s.feq, s.thr, rfl⟩
  · exact ⟨s.feq, s.thr, rfl⟩

/-- A thread that waits for nothing, at its boundary. -/
def Thread.standing (t : Thread) : Thread := { t with waiting := false, granted := none, growing := none, pc := t.here, ord := none }

theorem stand_frame (s : State) : ∃ cl q, s.stand = { s with clusters := cl, feq := q, thr := s.thr.standing } := by
  obtain ⟨cl, q, h⟩ := leaveQueues_frame s
  unfold State.stand State.leaveEvery
  rw [h]
  exact ⟨cl, _, rfl⟩

/-- Where a pre-emption can take the thread of the slot that acts, once what it waits for is taken back. -/
def State.Ready (x : State) : Prop :=
  x.thr.phase = .running ∧ x.thr.term = none ∧ x.thr.priv = false ∧ x.rewound.thr.edgeDue = false ∧ x.thr.granted = none ∧ x.thr.trapDue = none
    ∧ x.rewound.thr.unlogged = none ∧ (x.thr.reissuing = false ∨ x.rewound.reissueHeld = true) ∧ x.rewound.traceWaits = false

theorem State.Ready.takable {x : State} (h : x.Ready) : x.rewound.takable = true := by
  obtain ⟨hphase, hterm, hpriv, hedge, hgranted, htrap, hun, hre, -⟩ := h
  obtain ⟨hk, hg⟩ := rewound_thr x
  unfold State.takable
  dsimp only
  rw [hk.phase, hk.term, hk.priv, hk.trapDue, hk.reissuing, hg, hphase, hterm, hpriv, hedge, hgranted, htrap, hun]
  rcases hre with hre | hre
  · simp [hre]
  · simp [hre]

theorem State.Ready.not_traceWaits {x : State} (h : x.Ready) : x.rewound.traceWaits = false := h.2.2.2.2.2.2.2.2

theorem stand_thr (s : State) : s.stand.thr = s.thr.standing := by
  obtain ⟨cl, q, h⟩ := stand_frame s
  rw [h]

/-- The slot, the queues and the reports are as they were where a thread is taken. -/
theorem taken_frame (x : State) : x.rewound.stand.cur = x.cur ∧ x.rewound.stand.queues = x.queues ∧ x.rewound.stand.reports = x.reports := by
  obtain ⟨q, t, hr⟩ := rewound_frame x
  obtain ⟨cl, q', hs⟩ := stand_frame x.rewound
  rw [hs, hr]
  exact ⟨rfl, rfl, rfl⟩

/-- The thread that is taken is the one that ran, at its boundary. -/
theorem taken_keeps (x : State) : x.thr.Keeps x.rewound.stand.thr := by
  obtain ⟨h, -⟩ := rewound_thr x
  rw [stand_thr]
  exact ⟨h.phase, h.src, h.term, h.priv, h.trapDue, h.reissuing, h.x, h.xp, h.p, h.e, h.t, h.loops, h.ow, h.saves, h.traps, h.groups⟩

/-! ### What an item gives up -/

theorem dropWaiters_frame (s : State) (p : Plot) : ∃ t sl q, s.dropWaiters p = { s with thr := t, slots := sl, feq := q } := by
  refine foldl_keeps (fun u => ∃ t sl q, u = { s with thr := t, slots := sl, feq := q }) _ ?_ _ _ ⟨s.thr, s.slots, _, rfl⟩
  rintro u x ⟨t, sl, q, rfl⟩
  unfold State.turnAway State.setThread
  dsimp only
  split
  · exact ⟨_, _, _, rfl⟩
  · exact ⟨_, _, _, rfl⟩

/-- No cluster is switched off by what its records of charge lose. -/
theorem dropCharges_on (s : State) (k : SlotNo) (t : Thread) (c : Nat) : ((s.dropCharges k t).cluster c).on = (s.cluster c).on := by
  unfold State.dropCharges
  rw [cluster_setCluster]
  split
  next h => rw [h]
  · rfl

/-- The units, the waiters and the charges of an item given up. -/
def State.givenUp (s : State) (k : SlotNo) (t : Thread) : State := ((s.freeUnits t.src.uid).dropWaiters t.plot).dropCharges k t

theorem givenUp_frame (s : State) (k : SlotNo) (t : Thread) : ∃ th sl q cl un,
    s.givenUp k t = { s with thr := th, slots := sl, feq := q, clusters := cl, units := un } ∧ ∀ c, ((s.givenUp k t).cluster c).on = (s.cluster c).on := by
  obtain ⟨th, sl, q, h⟩ := dropWaiters_frame (s.freeUnits t.src.uid) t.plot
  refine ⟨th, sl, q, (s.givenUp k t).clusters, (s.freeUnits t.src.uid).units, ?_, fun c => ?_⟩
  · unfold State.givenUp
    rw [h]
    rfl
  · unfold State.givenUp
    rw [dropCharges_on, h]
    rfl

theorem sameBytes_givenUp (s : State) (k : SlotNo) (t : Thread) : s.sameBytes (s.givenUp k t) := by
  obtain ⟨th, sl, q, cl, un, h, hon⟩ := givenUp_frame s k t
  rw [h] at hon ⊢
  intro l key
  refine Eq.trans ?_ (get_onCaches s (l2tlb := s.l2tlb) (walkCache := s.walkCache) hon l key)
  cases l <;> rfl

/-- No queue, no report and no slot's block holds a byte. -/
theorem sameBytes_reported (s : State) (v : List Saved) (r : List Report) : s.sameBytes { s with saved := v, reports := r } :=
  fun l key => by cases l <;> rfl
theorem sameBytes_mapQueue (s : State) (q : Nat) (f : Queue → Queue) : s.sameBytes (s.mapQueue q f) := fun l key => by cases l <;> rfl
theorem sameBytes_vacate (s : State) : s.sameBytes s.vacate := fun l key => by cases l <;> rfl

/-! ### The save (20 R398-R400) -/

section
variable {s x y u v : State} {area : Word}

/-- What is kept of an item that stands at `y`. -/
def State.savedItem (y : State) (area : Word) (halted : Bool) : Saved :=
  ⟨y.thr.atSave, area, y.claimed y.thr.src.uid y.thr.plot, y.listedVoids y.thr.plot, none, halted⟩

/-- The state `v`, in which the area of the item that stands at `y` is written, once the item waits at the head of its queue. -/
def State.queuedSave (v y : State) (z : Saved) : State :=
  let s := v.givenUp y.cur y.thr
  ({ s with saved := s.saved ++ [z], reports := s.reports ++ [.saved y.thr.src.uid] } : State).mapQueue y.thr.src.queue.toNat fun q =>
    q.hold (QEntry.saved y.thr.src.uid :: q.entries)

/-- Both parts of the area written, the item is saved. -/
theorem saveThread_eq (hg : y.thr.groups = []) (ht : y.thr.tracedItem = false)
    (hu : y.agentWrite y.thr.root y.thr.vf area.toNat (y.headBytes y.thr.atSave (y.listedVoids y.thr.plot)) = some u)
    (hv : u.agentWrite y.thr.root y.thr.vf (area.toNat + 0x1000) (u.imageBytes y.thr) = some v) (halted : Bool) :
    y.saveThread y.cur y.thr area none halted = some (v.queuedSave y (y.savedItem area halted)) := by
  have hw : y.writeGroups y.thr = y := by
    unfold State.writeGroups
    rw [hg]
    rfl
  unfold State.saveThread
  dsimp only
  rw [hw, hu, Option.bind_eq_bind, Option.bind_some, hv, Option.bind_some, if_neg (by simp [ht])]
  rfl

theorem saveItem_eq (hx : x = s.atSlot s.input.slot) (hp : x.thr.preempt = .save area) (hr : x.Ready) (hs : x.rewound.saveReady = true)
    (hy : y = x.rewound.stand) (hg : y.thr.groups = []) (ht : y.thr.tracedItem = false)
    (hu : y.agentWrite y.thr.root y.thr.vf area.toNat (y.headBytes y.thr.atSave (y.listedVoids y.thr.plot)) = some u)
    (hv : u.agentWrite y.thr.root y.thr.vf (area.toNat + 0x1000) (u.imageBytes y.thr) = some v) :
    ∃ halted, exec .saveItem s = .next (v.queuedSave y (y.savedItem area halted)).vacate := by
  refine ⟨x.rewound.curDbg.stopped, ?_⟩
  change execSaveItem s = _
  unfold execSaveItem
  refine slotEvent_of_some ?_
  rw [← hx, hp]
  dsimp only
  rw [if_pos (by simp [hr.takable, hr.not_traceWaits, hs]), ← hy, saveThread_eq hg ht hu hv]
  rfl

/-- What a save leaves: the slot idle, the item kept and reported, its entry before the others, no byte changed. -/
theorem queuedSave_spec (v y : State) (z : Saved) :
    (v.queuedSave y z).vacate.thr.phase = .idle
    ∧ (NMap.get {} (v.queuedSave y z).vacate.queues y.thr.src.queue.toNat).entries
      = .saved y.thr.src.uid :: (NMap.get {} v.queues y.thr.src.queue.toNat).entries
    ∧ (v.queuedSave y z).vacate.saved = v.saved ++ [z] ∧ (v.queuedSave y z).vacate.reports = v.reports ++ [.saved y.thr.src.uid]
    ∧ v.sameBytes (v.queuedSave y z).vacate := by
  have hbytes : v.sameBytes (v.queuedSave y z).vacate :=
    (sameBytes_givenUp v y.cur y.thr).trans ((sameBytes_reported _ _ _).trans ((sameBytes_mapQueue _ _ _).trans (sameBytes_vacate _)))
  refine ⟨rfl, ?_, ?_, ?_, hbytes⟩
  all_goals
    obtain ⟨th, sl, q, cl, un, h, -⟩ := givenUp_frame v y.cur y.thr
    unfold State.queuedSave
    rw [h]
  · exact congrArg Queue.entries (NMap.get_put_same ..)
  · rfl
  · rfl
end

/-! ### The flush (20 R398) -/

section
variable {s x y z : State}

theorem rewound_curDbg (x : State) : x.rewound.curDbg = x.curDbg := by
  obtain ⟨q, t, h⟩ := rewound_frame x
  rw [h]
  rfl

/-- The state once what has not started is discarded. -/
def State.cut (y : State) (uid : Nat) : State :=
  let s := y.dropBank uid
  (s.withThr s.thr.dropCopies).dropScrolls

theorem cut_eq (y : State) (uid : Nat) : y.cut uid = ((y.dropBank uid).dropCharges y.cur y.thr).withThr
    { y.thr with chans := y.thr.chans.map fun h => { h with queue := h.queue.filter fun c => !(c.part = 0 && !c.sectorsAsked) }
                 ops := y.thr.ops.filter fun o => match o.work with
                   | .scroll _ => false
                   | _ => true } := by
  have hops : (fun o : PlaneOp => !o.isScroll) = fun o => match o.work with
      | .scroll _ => false
      | _ => true := by
    funext o
    unfold PlaneOp.isScroll
    cases o.work <;> rfl
  rw [← hops]
  rfl

theorem flushItem_stopped (hx : x = s.atSlot s.input.slot) (hp : x.thr.preempt = .flush) (hd : x.curDbg.stopped = true) :
    exec .flushItem s = .next s := by
  change execFlushItem s = _
  unfold execFlushItem
  refine slotEvent_of_none ?_
  rw [← hx, hp]
  dsimp only
  rw [if_neg (by simp [rewound_curDbg, hd])]

theorem flushItem_eq (hx : x = s.atSlot s.input.slot) (hp : x.thr.preempt = .flush) (hr : x.Ready) (hf : x.rewound.thr.loggedFault = none)
    (hd : x.curDbg.stopped = false) (hz : z = x.rewound.stand.cut x.rewound.thr.src.uid) :
    exec .flushItem s = .next (if z.flushReady then z.flushThread else z) := by
  change execFlushItem s = _
  unfold execFlushItem
  refine slotEvent_of_some ?_
  rw [← hx, hp]
  dsimp only
  rw [if_pos (by simp [State.flushable, hr.takable, hf, hr.not_traceWaits, rewound_curDbg, hd]), hz]
  rfl

/-- An item flushed: its slot idle, its report made, its original record before the other entries. -/
theorem flushThread_spec (z : State) (hg : z.thr.groups = []) :
    z.flushThread.thr.phase = .idle ∧ z.flushThread.reports = z.reports ++ [.flushed z.thr.src.uid]
    ∧ (NMap.get {} z.flushThread.queues z.thr.src.queue.toNat).entries
      = .item { z.thr.src with past := z.thr.pastOf, place := none } :: (NMap.get {} z.queues z.thr.src.queue.toNat).entries := by
  obtain ⟨th, sl, q, hw⟩ := dropWaiters_frame ((z.forgetCalls z.thr.src.uid).freeUnits z.thr.src.uid) z.thr.plot
  obtain ⟨ev, he⟩ := emitItem_frame (((z.forgetCalls z.thr.src.uid).freeUnits z.thr.src.uid).dropWaiters z.thr.plot) 0x06 z.thr.item.toNat
  unfold State.flushThread
  dsimp only
  rw [hg, List.foldl_nil, he, hw]
  exact ⟨rfl, rfl, congrArg Queue.entries (NMap.get_put_same ..)⟩
end

end Sys2Proof.Machine
end

section
/-!
PROOFS. Dispatch and pre-emption: the statement settled (15 R312-R314; 20 R397-R401).
-/
namespace Sys2Proof.Machine

/-- A thread in a plot that lies on the plane and has extents. -/
theorem plot_placed (t : Thread) {p : Plot} (hon : p.onPlane = true) (hh : 1 ≤ p.h) (hw : 1 ≤ p.w) (hd : 1 ≤ p.d) : (t.placed p).plot = p := by
  obtain ⟨h1, h2, h3⟩ := (onPlane_iff p).mp hon
  have hfit (n : Nat) (hn : n < 256) : (BitVec.ofNat 8 n).toNat = n := by
    rw [BitVec.toNat_ofNat]
    exact Nat.mod_eq_of_lt hn
  unfold Thread.placed Thread.plot
  dsimp only
  rw [hfit _ (by omega), hfit _ (by omega), hfit _ (by omega)]

/-- A fresh thread's descriptors are 0. -/
theorem newThread_t (r : ItemRec) (start frame : Word) (n : Nat) : (newThread r start frame).t.toArray.getD n 0 = 0 := by
  change (Vector.replicate 64 (0 : BitVec 256)).toArray.getD n 0 = 0
  rw [Vector.toArray_replicate, Array.getD_eq_getD_getElem?, Array.getElem?_replicate]
  split <;> rfl

/-- The slot that acts, asked to stop. -/
theorem setPreempt_thr (s : State) (p : Preempt) : (s.setPreempt s.cur p).thr = { s.thr with preempt := p } := by
  obtain ⟨ev, h⟩ := setPreempt_frame s s.cur p
  rw [h, setThread_same, thread_same]
  rfl

/-- An expired drain is followed by a flush only of an idempotent item whose slot runs. -/
theorem expired_eq (stopped : Bool) (t : Thread) (area : Word) :
    (if stopped then .save area else t.flushOrSave area) = if stopped = false ∧ t.src.pf.getLsbD 8 = true then Preempt.flush else .save area := by
  unfold Thread.flushOrSave
  cases stopped <;> simp

/-- What has not started is discarded: the slot, the queues, the reports and the thread's item stay. -/
theorem cut_frame (y : State) (uid : Nat) : (y.cut uid).queues = y.queues ∧ (y.cut uid).reports = y.reports ∧ y.thr.Keeps (y.cut uid).thr :=
  ⟨rfl, rfl, ⟨rfl, rfl, rfl, rfl, rfl, rfl, rfl, rfl, rfl, rfl, rfl, rfl, rfl, rfl, rfl, rfl⟩⟩

theorem Thread.Keeps.trans {a b c : Thread} (h : a.Keeps b) (g : b.Keeps c) : a.Keeps c :=
  ⟨g.phase.trans h.phase, g.src.trans h.src, g.term.trans h.term, g.priv.trans h.priv, g.trapDue.trans h.trapDue, g.reissuing.trans h.reissuing,
    g.x.trans h.x, g.xp.trans h.xp, g.p.trans h.p, g.e.trans h.e, g.t.trans h.t, g.loops.trans h.loops, g.ow.trans h.ow, g.saves.trans h.saves,
    g.traps.trans h.traps, g.groups.trans h.groups⟩

/-- Settles O47: the pick by its order, a start by what it clears and seats, a pre-emption by the thread that is taken and what its item
gives up. -/
theorem dispatchAndPreemption : Obligations.DispatchAndPreemption := by
  unfold Obligations.DispatchAndPreemption
  refine ⟨fun s c p r k => ?_, fun s => ?_, fun s => ?_⟩
  · intro part judged cfg hready hpick hc hk hon hh hw hd
    obtain ⟨hmem, hprio⟩ := pickOf_unowed hpick
    obtain ⟨l, qs, hx⟩ := dispatchItem_eq hready hpick hc hk
    obtain ⟨n, hthread, hothers, hrows, hbytes⟩ := startItem_spec { s with launches := l, queues := qs } r p k
    refine ⟨hprio, judge_item hc (judged_judge hmem), _, hx, fun th hth => ?_, hothers, fun c r' hr _ => hrows c r' hr, hbytes⟩
    obtain ⟨b, lim, v, x, xp, n', hfirst, hregs, hvec⟩ := firstThread_frame { s with launches := l, queues := qs } r p k
    rw [hthread, hfirst] at hth
    subst hth
    refine ⟨rfl, rfl, rfl, rfl, rfl, rfl, rfl, rfl, rfl, rfl, rfl, rfl, ?_, fun n hn => ?_, rfl,
      newThread_t { r with uid := s.uid + 1 } r.code r.frame, rfl, rfl, rfl, hvec⟩
    · exact plot_placed (newThread { r with uid := s.uid + 1 } r.code r.frame) hon hh hw hd
    · exact (hregs n hn).trans (newThread_x _ _ _ (by omega))
  · intro uid area k hk th mhz left other
    refine ⟨preemptRequest_none hk, fun hr ht hp => ⟨_, preemptRequest_eq hk hr ht hp, ?_, fun j hj => ?_⟩⟩
    · rw [thread_setPreempt, if_pos rfl, choose_eq]
      rfl
    · rw [thread_setPreempt, if_neg hj]
  · intro x th w ready head y
    have hkeep : th.Keeps y.thr := taken_keeps x
    obtain ⟨hcur, hqs, hrs⟩ := taken_frame x
    refine ⟨fun area hp hr ht => ?_, fun area hp hr hs hg htr u v hu hv hsaved hreports hqueues => ?_, fun hp hd => flushItem_stopped rfl hp hd,
      fun hp hr hf hd => ?_⟩
    · exact ⟨_, drainExpiry_eq hp hr ht, by rw [setPreempt_thr, expired_eq]⟩
    · have htraced : y.thr.tracedItem = false := by
        unfold Thread.tracedItem
        rw [hkeep.src]
        exact htr
      obtain ⟨halted, hx⟩ := saveItem_eq (x := x) (y := y) rfl hp hr hs rfl (hkeep.groups.trans hg) htraced hu hv
      obtain ⟨hidle, hhead, hkept, hreported, hbytes⟩ := queuedSave_spec v y (y.savedItem area halted)
      rw [hkeep.src, hqueues] at hhead
      rw [hkeep.src, hreports] at hreported
      rw [hsaved] at hkept
      have hpc : y.thr.pc = w.thr.here := congrArg Thread.pc (stand_thr w)
      have houts : y.thr.outs = w.thr.standing.outs := congrArg Thread.outs (stand_thr w)
      refine ⟨_, _, hx, hidle, hhead, hkept, hreported, rfl, rfl, hkeep.x, hkeep.xp, hkeep.p, hkeep.e, hkeep.t, hpc, hkeep.loops, hkeep.ow,
        congrArg (· + 1) hkeep.saves, hkeep.src, fun o ho => ?_, ?_, hbytes⟩
      · obtain ⟨o', -, rfl⟩ := List.mem_map.mp ho
        rfl
      · exact (List.length_map _).trans (congrArg List.length houts)
    · refine ⟨_, flushItem_eq rfl hp hr hf hd rfl, fun z hz => ?_⟩
      have hcut : z = y.cut w.thr.src.uid := by
        rw [cut_eq, (rewound_thr x).1.src, hcur]
        exact hz
      obtain ⟨hq, hrep, hk⟩ := cut_frame y w.thr.src.uid
      rw [← hcut] at hq hrep hk
      have hsrc : z.thr.src = th.src := (hkeep.trans hk).src
      rw [← hcut]
      refine ⟨fun hno => if_neg (by simp [hno]), fun hyes hg => ?_⟩
      obtain ⟨hidle, hreported, hhead⟩ := flushThread_spec z ((hkeep.trans hk).groups.trans hg)
      rw [hsrc, hrep, hrs] at hreported
      rw [hsrc, hq, hqs] at hhead
      rw [if_pos hyes]
      refine ⟨hidle, hreported, _, hhead, ?_, ?_⟩
      · exact congrArg (fun r : ItemRec => r.past.flushes + 1) hsrc
      · exact congrArg₂ (fun (r : ItemRec) n => r.past.traps + n) hsrc (hkeep.trans hk).traps

end Sys2Proof.Machine
end
